-- ==== Sys2Proof/Word.lean ====
section
/-! DEFINITION. The byte and word types of the PX9 model. -/

namespace Sys2Proof

/-- One octet (R4). -/
abbrev Byte := BitVec 8

/-- An octet string, lowest-addressed byte first (R4, R88). -/
abbrev Bytes := List Byte

/-- A 64-bit Kaibas word (R200). -/
abbrev Word := BitVec 64

end Sys2Proof
end

