-- ==== Sys2Proof/Syntax.lean ====
section
/-! DEFINITION. The commands of the PX9 as a block: one constructor for each row of the spec's table of
operations and events, with the row's operands.

Operands used throughout:
* `t` is the Meridian stamp at which the command happens (assumption 1);
* `w` is the twin that carries out a twin-local command;
* `q` is a request, named by its acceptance stamp, which R29 makes unique;
* `c` is a hardware context, named by its core's island number (R18) and its context number;
* `rsvd` is the value found in the reserved field of a Kaibas word (R7, R226). -/

namespace Sys2Proof

/-- The two compute dies (R9). -/
inductive Twin where
  | a
  | b
  deriving DecidableEq, Repr

/-- The two Almanac regions (R376). -/
inductive Region where
  | general
  | evidence
  deriving DecidableEq, Repr

/-- Load classes of an island (R426). -/
inductive LoadClass where
  | light
  | medium
  | heavy
  deriving DecidableEq, Repr

/-- The two unit kinds whose spare role rotates (R437). -/
inductive UnitKind where
  | core
  | engine
  deriving DecidableEq, Repr

/-- What a debug act reads or writes in an island (Table 17-5): the place in the register file, a special register, or eight bytes
of local memory, of one of the two contexts of a processor; eight bytes of the SRAM of one of the four clusters of a quadrant; or a
register or memory word of another unit, which the spec does not lay out. -/
inductive DbgLoc where
  | word (ctx i : Nat)
  | special (ctx n : Nat)
  | mem (ctx a : Nat)
  | sram (cluster a : Nat)
  | other (a : Nat)
  deriving DecidableEq, Repr

/-- The acts that debug rights permit (Table 17-5, `DC_ACCESS`): halt, step and resume with `RUN`; a read with `READ`; a write of a
value with its tag with `WRITE`. -/
inductive DbgKind where
  | halt
  | step
  | resume
  | read (loc : DbgLoc)
  | write (loc : DbgLoc) (val : BitVec 64) (tag : Bool)
  deriving DecidableEq, Repr

/-- A hardware context: the island number of its core (or of Zenith) and its context number (R18, R200). -/
structure Cid where
  island : Nat
  ctx    : Nat
  deriving DecidableEq, Repr

/-- The eight samples that a backup window takes of one monitor (R364), with its reading. -/
structure MonSample where
  cls     : Nat
  mon     : Nat
  hits    : List Bool
  reading : Nat
  deriving DecidableEq, Repr

/-- A window of samples on backup power or in reset (R364), and whether the main rails are within tolerance in it (R482). -/
structure Window where
  rails   : Bool
  samples : List MonSample
  deriving DecidableEq, Repr

/-- An operation as it comes to its engine: its number, and how many deliveries of its key failed their check code
(R280). -/
structure KeyedOp where
  op       : Nat
  keyFails : Nat
  deriving DecidableEq, Repr

/-- The false samples of an asserted alarm: how many in a row, and the reading of the last one (R355). -/
structure FalseRun where
  n       : Nat
  reading : Nat
  deriving DecidableEq, Repr

/-- The end of a boot: its stamp, and which of the sets A and B fail their integrity check in NVM (R450, R469). -/
structure BootEnd where
  t    : Nat
  badA : Bool
  badB : Bool
  deriving DecidableEq, Repr

/-- An Orrery call that completes, and whether its memories had an uncorrectable error (R293). -/
structure CallEnd where
  call : Nat
  ecc  : Bool
  deriving DecidableEq, Repr

/-- What a failing NVM sector holds: whether it is of the evidence region, and the request whose commit needs it, if any
(R446). -/
structure SectorUse where
  evidence : Bool
  dep      : Option Nat
  deriving DecidableEq, Repr

/-- A row of an array of an island (R444). -/
structure RowAt where
  bank : Nat
  row  : Nat
  deriving DecidableEq, Repr

/-- The commands, in the order of the spec's table of operations and events. -/
inductive Instr where
  /-- `ADD` (R212): Kaibas add. -/
  | add (c : Cid) (rd rs1 rs2 : BitVec 5) (rsvd : Nat)
  /-- `SUB` (R212): Kaibas subtract. -/
  | sub (c : Cid) (rd rs1 rs2 : BitVec 5) (rsvd : Nat)
  /-- `AND` (R212): Kaibas bitwise and. -/
  | kAnd (c : Cid) (rd rs1 rs2 : BitVec 5) (rsvd : Nat)
  /-- `OR` (R212): Kaibas bitwise or. -/
  | kOr (c : Cid) (rd rs1 rs2 : BitVec 5) (rsvd : Nat)
  /-- `XOR` (R212): Kaibas bitwise xor. -/
  | kXor (c : Cid) (rd rs1 rs2 : BitVec 5) (rsvd : Nat)
  /-- `ANDN` (R212): Kaibas and-not. -/
  | andn (c : Cid) (rd rs1 rs2 : BitVec 5) (rsvd : Nat)
  /-- `SLL` (R212): Kaibas shift left logical by register. -/
  | sll (c : Cid) (rd rs1 rs2 : BitVec 5) (rsvd : Nat)
  /-- `SRL` (R212): Kaibas shift right logical by register. -/
  | srl (c : Cid) (rd rs1 rs2 : BitVec 5) (rsvd : Nat)
  /-- `SRA` (R212): Kaibas shift right arithmetic by register. -/
  | sra (c : Cid) (rd rs1 rs2 : BitVec 5) (rsvd : Nat)
  /-- `ROL` (R212): Kaibas rotate left by register. -/
  | rol (c : Cid) (rd rs1 rs2 : BitVec 5) (rsvd : Nat)
  /-- `ROR` (R212): Kaibas rotate right by register. -/
  | ror (c : Cid) (rd rs1 rs2 : BitVec 5) (rsvd : Nat)
  /-- `SLT` (R212): Kaibas signed set-less-than. -/
  | slt (c : Cid) (rd rs1 rs2 : BitVec 5) (rsvd : Nat)
  /-- `SLTU` (R212): Kaibas unsigned set-less-than. -/
  | sltu (c : Cid) (rd rs1 rs2 : BitVec 5) (rsvd : Nat)
  /-- `SEQ` (R212): Kaibas set-if-equal. -/
  | seq (c : Cid) (rd rs1 rs2 : BitVec 5) (rsvd : Nat)
  /-- `MIN` (R212): Kaibas signed minimum. -/
  | kMin (c : Cid) (rd rs1 rs2 : BitVec 5) (rsvd : Nat)
  /-- `MAX` (R212): Kaibas signed maximum. -/
  | kMax (c : Cid) (rd rs1 rs2 : BitVec 5) (rsvd : Nat)
  /-- `MINU` (R212): Kaibas unsigned minimum. -/
  | minu (c : Cid) (rd rs1 rs2 : BitVec 5) (rsvd : Nat)
  /-- `MAXU` (R212): Kaibas unsigned maximum. -/
  | maxu (c : Cid) (rd rs1 rs2 : BitVec 5) (rsvd : Nat)
  /-- `CSEL` (R212): Kaibas constant-time conditional select. -/
  | csel (c : Cid) (rd rs1 rs2 : BitVec 5) (rsvd : Nat)
  /-- `MUL` (R212): Kaibas low 64 bits of a product. -/
  | mul (c : Cid) (rd rs1 rs2 : BitVec 5) (rsvd : Nat)
  /-- `MULHU` (R212): Kaibas high 64 bits of an unsigned product. -/
  | mulhu (c : Cid) (rd rs1 rs2 : BitVec 5) (rsvd : Nat)
  /-- `MULH` (R212): Kaibas high 64 bits of a signed product. -/
  | mulh (c : Cid) (rd rs1 rs2 : BitVec 5) (rsvd : Nat)
  /-- `DIV` (R221): Kaibas signed division, with value-dependent timing on untagged operands. -/
  | div (c : Cid) (rd rs1 rs2 : BitVec 5) (rsvd : Nat)
  /-- `DIVU` (R221): Kaibas unsigned division. -/
  | divu (c : Cid) (rd rs1 rs2 : BitVec 5) (rsvd : Nat)
  /-- `REM` (R221): Kaibas signed remainder. -/
  | kRem (c : Cid) (rd rs1 rs2 : BitVec 5) (rsvd : Nat)
  /-- `REMU` (R221): Kaibas unsigned remainder. -/
  | remu (c : Cid) (rd rs1 rs2 : BitVec 5) (rsvd : Nat)
  /-- `CLZ` (R212): Kaibas count leading zeros. -/
  | clz (c : Cid) (rd rs1 : BitVec 5) (rsvd : Nat)
  /-- `CTZ` (R212): Kaibas count trailing zeros. -/
  | ctz (c : Cid) (rd rs1 : BitVec 5) (rsvd : Nat)
  /-- `POPC` (R212): Kaibas population count. -/
  | popc (c : Cid) (rd rs1 : BitVec 5) (rsvd : Nat)
  /-- `BSWAP` (R212): Kaibas byte reversal. -/
  | bswap (c : Cid) (rd rs1 : BitVec 5) (rsvd : Nat)
  /-- `ADC` (R213): Kaibas add with carry, updating C and CTAG. -/
  | adc (c : Cid) (rd rs1 rs2 : BitVec 5) (rsvd : Nat)
  /-- `SBB` (R213): Kaibas subtract with borrow, updating C and CTAG. -/
  | sbb (c : Cid) (rd rs1 rs2 : BitVec 5) (rsvd : Nat)
  /-- `MACC` (R212): Kaibas multiply-accumulate into the 192-bit accumulator. -/
  | macc (c : Cid) (rs1 rs2 : BitVec 5) (rsvd : Nat)
  /-- `MACC2` (R212): Kaibas doubled multiply-accumulate. -/
  | macc2 (c : Cid) (rs1 rs2 : BitVec 5) (rsvd : Nat)
  /-- `ACCSH` (R212): Kaibas move the low accumulator word out and shift the accumulator right by 64 bits. -/
  | accsh (c : Cid) (rd : BitVec 5) (rsvd : Nat)
  /-- `ACCCLR` (R208): Kaibas clear the accumulator and its tag. -/
  | accclr (c : Cid) (rsvd : Nat)
  /-- `ACCADD` (R212): Kaibas add a register to the accumulator. -/
  | accadd (c : Cid) (rs1 : BitVec 5) (rsvd : Nat)
  /-- `MACCM` (R212): Kaibas multiply-accumulate of two memory words. -/
  | maccm (c : Cid) (rs1 rs2 : BitVec 5) (rsvd : Nat)
  /-- `MMOV` (R216): Kaibas memory-to-memory word move that carries its tag. -/
  | mmov (c : Cid) (rs1 rs2 : BitVec 5) (rsvd : Nat)
  /-- `MFS` (R207): Kaibas read of a special register. -/
  | mfs (c : Cid) (rd : BitVec 5) (n : BitVec 12) (rsvd : Nat)
  /-- `MTS` (R208): Kaibas write of a special register. -/
  | mts (c : Cid) (n : BitVec 12) (rs1 : BitVec 5) (rsvd : Nat)
  /-- `ADDI` (R212): Kaibas add immediate. -/
  | addi (c : Cid) (rd rs1 : BitVec 5) (imm : BitVec 16)
  /-- `ANDI` (R212): Kaibas and immediate. -/
  | andi (c : Cid) (rd rs1 : BitVec 5) (imm : BitVec 16)
  /-- `ORI` (R212): Kaibas or immediate. -/
  | ori (c : Cid) (rd rs1 : BitVec 5) (imm : BitVec 16)
  /-- `XORI` (R212): Kaibas xor immediate. -/
  | xori (c : Cid) (rd rs1 : BitVec 5) (imm : BitVec 16)
  /-- `SLTI` (R212): Kaibas signed set-less-than immediate. -/
  | slti (c : Cid) (rd rs1 : BitVec 5) (imm : BitVec 16)
  /-- `SLTIU` (R212): Kaibas unsigned set-less-than immediate. -/
  | sltiu (c : Cid) (rd rs1 : BitVec 5) (imm : BitVec 16)
  /-- `LUI` (R212): Kaibas load upper immediate. -/
  | lui (c : Cid) (rd : BitVec 5) (imm : BitVec 16) (rsvd : Nat)
  /-- `SLLI` (R212): Kaibas shift left logical by immediate. -/
  | slli (c : Cid) (rd rs1 : BitVec 5) (sh : BitVec 6) (rsvd : Nat)
  /-- `SRLI` (R212): Kaibas shift right logical by immediate. -/
  | srli (c : Cid) (rd rs1 : BitVec 5) (sh : BitVec 6) (rsvd : Nat)
  /-- `SRAI` (R212): Kaibas shift right arithmetic by immediate. -/
  | srai (c : Cid) (rd rs1 : BitVec 5) (sh : BitVec 6) (rsvd : Nat)
  /-- `RORI` (R212): Kaibas rotate right by immediate. -/
  | rori (c : Cid) (rd rs1 : BitVec 5) (sh : BitVec 6) (rsvd : Nat)
  /-- `LD` (R214): Kaibas 64-bit load, which takes the tag of local memory. -/
  | ld (c : Cid) (rd rs1 : BitVec 5) (imm : BitVec 16)
  /-- `LDW` (R214): Kaibas 32-bit zero-extending load. -/
  | ldw (c : Cid) (rd rs1 : BitVec 5) (imm : BitVec 16)
  /-- `LDWS` (R214): Kaibas 32-bit sign-extending load. -/
  | ldws (c : Cid) (rd rs1 : BitVec 5) (imm : BitVec 16)
  /-- `LDH` (R214): Kaibas 16-bit zero-extending load. -/
  | ldh (c : Cid) (rd rs1 : BitVec 5) (imm : BitVec 16)
  /-- `LDHS` (R214): Kaibas 16-bit sign-extending load. -/
  | ldhs (c : Cid) (rd rs1 : BitVec 5) (imm : BitVec 16)
  /-- `LDB` (R214): Kaibas 8-bit zero-extending load. -/
  | ldb (c : Cid) (rd rs1 : BitVec 5) (imm : BitVec 16)
  /-- `LDBS` (R214): Kaibas 8-bit sign-extending load. -/
  | ldbs (c : Cid) (rd rs1 : BitVec 5) (imm : BitVec 16)
  /-- `ST` (R215): Kaibas 64-bit store, which sets the word's tag. -/
  | st (c : Cid) (rd rs1 : BitVec 5) (imm : BitVec 16)
  /-- `STW` (R215): Kaibas 32-bit store. -/
  | stw (c : Cid) (rd rs1 : BitVec 5) (imm : BitVec 16)
  /-- `STH` (R215): Kaibas 16-bit store. -/
  | sth (c : Cid) (rd rs1 : BitVec 5) (imm : BitVec 16)
  /-- `STB` (R215): Kaibas 8-bit store. -/
  | stb (c : Cid) (rd rs1 : BitVec 5) (imm : BitVec 16)
  /-- `BEQ` (R212): Kaibas branch if equal. -/
  | beq (c : Cid) (rs1 rs2 : BitVec 5) (off : BitVec 16)
  /-- `BNE` (R212): Kaibas branch if not equal. -/
  | bne (c : Cid) (rs1 rs2 : BitVec 5) (off : BitVec 16)
  /-- `BLT` (R212): Kaibas branch if signed less than. -/
  | blt (c : Cid) (rs1 rs2 : BitVec 5) (off : BitVec 16)
  /-- `BGE` (R212): Kaibas branch if signed greater or equal. -/
  | bge (c : Cid) (rs1 rs2 : BitVec 5) (off : BitVec 16)
  /-- `BLTU` (R212): Kaibas branch if unsigned less than. -/
  | bltu (c : Cid) (rs1 rs2 : BitVec 5) (off : BitVec 16)
  /-- `BGEU` (R212): Kaibas branch if unsigned greater or equal. -/
  | bgeu (c : Cid) (rs1 rs2 : BitVec 5) (off : BitVec 16)
  /-- `J` (R212): Kaibas relative jump. -/
  | j (c : Cid) (off : BitVec 26)
  /-- `CALL` (R203): Kaibas relative call that opens a new window, spilling the oldest window when needed. -/
  | call (c : Cid) (off : BitVec 26)
  /-- `JR` (R212): Kaibas jump to a register address. -/
  | jr (c : Cid) (rs1 : BitVec 5) (rsvd : Nat)
  /-- `CALLR` (R203): Kaibas call to a register address. -/
  | callr (c : Cid) (rs1 : BitVec 5) (rsvd : Nat)
  /-- `RET` (R204): Kaibas return that closes the window, filling it from the stack when needed. -/
  | ret (c : Cid) (rsvd : Nat)
  /-- `REP` (R223): Kaibas repeat prefix, which runs the following instruction rc times with base strides. -/
  | rep (c : Cid) (rsvd : Nat)
  /-- `LI` (R212): Kaibas load sign-extended 32-bit immediate. -/
  | li (c : Cid) (rd : BitVec 5) (imm : BitVec 32) (rsvd : Nat)
  /-- `LIH` (R212): Kaibas load the high 32 bits from an immediate. -/
  | lih (c : Cid) (rd : BitVec 5) (imm : BitVec 32) (rsvd : Nat)
  /-- `ADDL` (R212): Kaibas add 32-bit immediate. -/
  | addl (c : Cid) (rd rs1 : BitVec 5) (imm : BitVec 32) (rsvd : Nat)
  /-- `ANDL` (R212): Kaibas and with a 32-bit immediate. -/
  | andl (c : Cid) (rd rs1 : BitVec 5) (imm : BitVec 32) (rsvd : Nat)
  /-- `ORL` (R212): Kaibas or with a 32-bit immediate. -/
  | orl (c : Cid) (rd rs1 : BitVec 5) (imm : BitVec 32) (rsvd : Nat)
  /-- `XORL` (R212): Kaibas xor with a 32-bit immediate. -/
  | xorl (c : Cid) (rd rs1 : BitVec 5) (imm : BitVec 32) (rsvd : Nat)
  /-- `LDL` (R214): Kaibas load with a 32-bit offset. -/
  | ldl (c : Cid) (rd rs1 : BitVec 5) (imm : BitVec 32) (rsvd : Nat)
  /-- `STL` (R215): Kaibas store with a 32-bit offset. -/
  | stl (c : Cid) (rd rs1 : BitVec 5) (imm : BitVec 32) (rsvd : Nat)
  /-- `WAIT` (R177): Kaibas wait until the task's dependence counter is 0. -/
  | wait (c : Cid) (rsvd : Nat)
  /-- `ENG` (R257): Kaibas issue of an engine command block to the cluster fabric. -/
  | eng (c : Cid) (rs1 : BitVec 5) (rsvd : Nat)
  /-- `ORR` (R291): Kaibas issue of an Orrery call, which copies its block and operands to the call store. -/
  | orr (c : Cid) (rs1 : BitVec 5) (rsvd : Nat)
  /-- `DCL` (R218): Kaibas declassify, which copies a value untagged and counts the execution. -/
  | dcl (c : Cid) (rd rs1 : BitVec 5) (rsvd : Nat)
  /-- `FENCE` (R211): Kaibas fence, which waits for earlier stores to become visible. -/
  | fence (c : Cid) (rsvd : Nat)
  /-- `ERET` (R227): Kaibas return from an exception handler. -/
  | eret (c : Cid) (rsvd : Nat)
  /-- `HALT` (R415): Zenith halt, which enters the armed power state unless a wake event is pending. -/
  | halt (c : Cid) (rsvd : Nat)
  /-- `BRK` (R212, R226): Kaibas break, which raises the break exception; the word is `brk`'s own or one that no row has. -/
  | brk (c : Cid) (word : BitVec 32)
  /-- `EXIT` (R241): Service that ends a task; the root's exit fixes the status, the result and the commit record. -/
  | exit (t : Nat) (c : Cid) (rsvd : Nat)
  /-- `CHILD` (R242): Service that creates a child task. -/
  | child (t : Nat) (c : Cid) (rsvd : Nat)
  /-- `PAYLOAD_READ` (R243): Asynchronous service that reads payload bytes into task memory. -/
  | payloadRead (t : Nat) (c : Cid) (rsvd : Nat)
  /-- `RESULT_WRITE` (R242): Service that writes untagged bytes into the request's result. -/
  | resultWrite (t : Nat) (c : Cid) (rsvd : Nat)
  /-- `RNG` (R321): Asynchronous service that draws replicated randomness from the task generator. -/
  | rng (t : Nat) (c : Cid) (rsvd : Nat)
  /-- `KEY_ATTR` (R242): Service that returns a key's attributes. -/
  | keyAttr (t : Nat) (c : Cid) (rsvd : Nat)
  /-- `KEY_NEW` (R242): Service that creates a symmetric key from replicated randomness. -/
  | keyNew (t : Nat) (c : Cid) (rsvd : Nat)
  /-- `KEY_PUT` (R242): Service that creates an asymmetric key from material in local memory. -/
  | keyPut (t : Nat) (c : Cid) (rsvd : Nat)
  /-- `KEY_GET` (R242): Asynchronous service that copies asymmetric key material into local memory. -/
  | keyGet (t : Nat) (c : Cid) (rsvd : Nat)
  /-- `SRAM_ALLOC` (R238): Service that allocates cluster SRAM to the task. -/
  | sramAlloc (t : Nat) (c : Cid) (rsvd : Nat)
  /-- `SRAM_FREE` (R242): Service that frees a cluster SRAM allocation. -/
  | sramFree (t : Nat) (c : Cid) (rsvd : Nat)
  /-- `REGISTER_WRITE` (R41): A host write to a BAR0 register that has no row of its own takes effect field by field under its access codes, with reserved bits discarded. -/
  | registerWrite (t fn off width val : Nat)
  /-- `HIGH_WORD_LATCH_READ` (R41): A 32-bit read of the low word of a 64-bit BAR0 register latches the high word, which the next read of the high word returns. -/
  | highWordLatchRead (t fn off width : Nat)
  /-- `MBX_ENABLE` (R44): A write of EN = 1 to a disabled mailbox is checked and then either refused with ERR_CFG or accepted, which resets the ring indices and the reply phase. -/
  | mbxEnable (t fn val : Nat)
  /-- `MBX_DISABLE` (R47): A write of EN = 0 to an enabled or error mailbox stops fetching and moves STATE to draining. -/
  | mbxDisable (t fn val : Nat)
  /-- `SQ_TAIL_DOORBELL` (R49): A write to SQ_TAIL updates the tail, is ignored, or sets ERR_TAIL or DB_DROPPED, as Table 3-6 gives for the mailbox state and the value written. -/
  | sqTailDoorbell (t fn i val : Nat)
  /-- `RQ_HEAD` (R53): A write to RQ_HEAD frees reply slots, or is ignored and sets ERR_HEAD when the value is out of range. -/
  | rqHead (t fn i val : Nat)
  /-- `ALM_CURSOR` (R58): A write to ALM_CURSOR starts, or restarts, the loading of 64 Almanac records of the selected region into the window. -/
  | almCursor (t val : Nat)
  /-- `ALM_WINDOW_LOADED` (R59): The window load completes, LOADING clears, and VALID and CLAMPED report a snapshot of the records. -/
  | almWindowLoaded (t : Nat)
  /-- `PTM_DIALOGUE` (R42): At each PTM interval the Relay runs a PTM dialogue, shifts the NEW correlation pair to OLD, writes the new pair and advances SEQ. -/
  | ptmDialogue (t h : Nat)
  /-- `PERST` (R57): PERST# resets the endpoint registers of all functions and disables every mailbox without draining; later replies are dropped. -/
  | perst (t : Nat)
  /-- `LINK_DOWN` (R57): A link-down resets all functions as PERST# does. -/
  | linkDown (t : Nat)
  /-- `FUNCTION_LEVEL_RESET` (R57): A Function Level Reset returns one function's registers to reset values, disables its mailboxes without draining and drops their later replies. -/
  | functionLevelReset (t fn : Nat)
  /-- `D3HOT_ENTRY` (R57): A function that enters D3hot stops being fetched, and replies for its mailboxes are dropped. -/
  | d3hotEntry (t fn : Nat)
  /-- `D3HOT_EXIT` (R57): A transition from D3hot to D0 resets the function's registers and writes the REPLIES_DROPPED record. -/
  | d3hotExit (t fn : Nat)
  /-- `LANE_RETRAIN_X8` (R37): A failing lane makes the endpoint retrain at x8 on a healthy half, set LINK_X8 and write an Almanac record. -/
  | laneRetrainX8 (t : Nat) (failed : List Nat)
  /-- `SUBMISSION_FETCH` (R50): The Relay fetches up to eight submission entries from a mailbox once reply slots are reserved for them, serving doorbells round-robin by lane. -/
  | submissionFetch (t fn i : Nat) (entries : List Bytes)
  /-- `ENTRY_ACCEPTANCE` (R63): A fetched entry is checked; it is then either answered by the Relay or stamped and broadcast to the twins in acceptance order. -/
  | entryAcceptance (t : Nat) (pre : Bytes)
  /-- `FETCH_ERROR` (R51): A submission-entry read that completes with an error sets ERR_FETCH, puts the mailbox in error and stops fetching. -/
  | fetchError (t fn i : Nat)
  /-- `PAYLOAD_READ_FAILED` (R51): A failed payload read of an accepted request ends that request with PAYLOAD_READ_ERROR. -/
  | payloadReadFailed (t q : Nat)
  /-- `PAYLOAD_STORE_READ` (R328): A twin's payload read is served from host memory, or from the Relay payload store, once store space is available. -/
  | payloadStoreRead (t : Nat) (w : Twin) (q off : Nat) (data : Bytes)
  /-- `COALESCE_TIMEOUT` (R54): When TIME_US has passed since the first unsignalled reply of a mailbox, the Relay sends its MSI-X vector. -/
  | coalesceTimeout (t fn i : Nat)
  /-- `RESULT_RELEASE` (R333): Once the release rule holds, the active twin passes a reply to the output selector, and the Relay writes the payload, the record and the phase word in that order. -/
  | resultRelease (t q : Nat)
  /-- `BROADCAST_ENTRY_ARRIVAL` (R327): An accepted entry arrives at a twin link port, and Coachyard forms the request's root task with its dependence counter and key declarations. -/
  | broadcastEntryArrival (t : Nat) (w : Twin) (q : Nat)
  /-- `USE_ASSIGNMENT` (R236): A deferred use or nonce assignment is made once every earlier claim on the same handle has been assigned or has failed. -/
  | useAssignment (t : Nat) (w : Twin) (q k : Nat)
  /-- `TASK_DISPATCH` (R186): Coachyard places a ready task on an idle core or on a free context, choosing the compartment and lane under R184 and R185. -/
  | taskDispatch (t : Nat) (w : Twin)
  /-- `PREEMPTION` (R187): A ready task pre-empts a running victim, which is suspended at its next instruction boundary. -/
  | preemption (t : Nat) (w : Twin)
  /-- `DEPENDENCE_COMPLETION` (R177): A completion lowers a task's dependence counter and may make the task ready, or end the request PREDECESSOR_FAILED. -/
  | dependenceCompletion (t : Nat) (w : Twin)
  /-- `DEADLINE_REACHED` (R191): When the active twin's counter reaches a request's deadline, its waiting tasks are made ready with the time-out indication and its running tasks are redirected to TMO_ENTRY. -/
  | deadlineReached (t q : Nat)
  /-- `TIMEOUT_EXIT_LIMIT` (R191): A task that has not exited 20 us after its time-out is aborted without a result. -/
  | timeoutExitLimit (t : Nat) (w : Twin) (q : Nat)
  /-- `RUN_BUDGET_REACHED` (R247): When a request's core execution reaches RUN_MAX, the request is treated as having reached its deadline. -/
  | runBudgetReached (t q : Nat)
  /-- `STREAM_TIMEOUT` (R73): A stream whose latest segment was accepted 30 s ago is closed as failed at the next epoch batch. -/
  | streamTimeout (t : Nat) (w : Twin) (space key : Nat)
  /-- `DISCARDED_ID_EXPIRY` (R71): A discarded request id that has been kept for the retention period stops failing its dependants. -/
  | discardedIdExpiry (t : Nat) (w : Twin) (space key : Nat)
  /-- `DISCIPLINE_PULSE` (R24): At each epoch the Meridian master's pulse disciplines every island counter. -/
  | disciplinePulse (t : Nat) (offs : List (Nat × Int))
  /-- `EPOCH_BATCH` (R331): At each epoch each twin closes and sends a batch of end digests, agreement items, verdicts, seed items and report sections. -/
  | epochBatch (t : Nat) (w : Twin)
  /-- `BATCH_RECEIVED` (R331): A twin receives the other twin's batch, compares digests, applies verdicts and agreed holdings, and acts on mismatch results. -/
  | batchReceived (t : Nat) (w : Twin)
  /-- `REEXECUTION_COMPLETE` (R345): A twin's re-execution of a mismatched request ends, and its digest is compared with the twin's first digest. -/
  | reexecutionComplete (t : Nat) (w : Twin) (q : Nat) (gave : Option Bytes)
  /-- `STANDBY_DIGEST_LATE` (R336): A standby digest that has not arrived by its bound degrades the standby with cause 0x07. -/
  | standbyDigestLate (t q : Nat)
  /-- `BATCHES_MISSING` (R338): Three epochs without a batch from a twin count as relinquish or degradation with cause 0x0A. -/
  | batchesMissing (t : Nat) (w : Twin)
  /-- `RELINQUISH` (R337): A cause detected in a twin makes the active stop releasing and assert relinquish, or makes the standby DEGRADED. -/
  | relinquish (t : Nat) (w : Twin) (cause island : Nat)
  /-- `EGRESS_ISOLATION` (R339): The output selector disconnects both twins, sets SWITCHING and clears ACTIVE_TWIN. -/
  | egressIsolation (t : Nat)
  /-- `PROMOTION` (R341): The standby is promoted, discards every accepted and unreleased request and fences the flows concerned. -/
  | promotion (t : Nat)
  /-- `DISCARDED_REPLY_POST` (R342): The Relay posts one DISCARDED reply per discarded request, in acceptance order, at one reply per nanosecond. -/
  | discardedReplyPost (t : Nat)
  /-- `NEW_WORK_ACCEPT` (R342): At the last DISCARDED reply, or at D + 6 us, the Relay resumes acceptance of new work. -/
  | newWorkAccept (t : Nat)
  /-- `RELAY_COPY_DISAGREE` (R11): A disagreeing TMR copy in the Relay is retired and recorded, or, in duplex, release stops and HEALTH_N is asserted. -/
  | relayCopyDisagree (t func copy : Nat)
  /-- `TWIN_SELFTEST_COMPLETE` (R347): A twin held out of service completes its self-test, and either starts resynchronisation or becomes OFFLINE. -/
  | twinSelftestComplete (t : Nat) (w : Twin) (failed : Option Nat)
  /-- `RESYNC_SNAPSHOT` (R349): The active takes a snapshot at Es and starts the bulk copy to the returning twin. -/
  | resyncSnapshot (t : Nat)
  /-- `RESYNC_JOIN` (R349): At the first epoch after the copy completes, the twin joins and receives the entries accepted from then on. -/
  | resyncJoin (t : Nat)
  /-- `RESYNC_HEALTHY` (R349): When every request accepted before Ej has ended, the twin becomes HEALTHY and STANDBY_DEGRADED clears. -/
  | resyncHealthy (t : Nat)
  /-- `HEALTH_REPORT_SNAPSHOT` (R352): At a scheduled, role-change or named snapshot epoch, each twin takes its report section and both assemble the health report. -/
  | healthReportSnapshot (t : Nat)
  /-- `END_RECORD_AT_RELAY` (R332): The first end record of a request to reach the Relay has its NVM commit effects, evidence records and draw group written. -/
  | endRecordAtRelay (t : Nat) (w : Twin) (q : Nat)
  /-- `NOISE_SOURCE_FAIL` (R315): A failed health test quarantines the source, discards tainted blocks and marks the affected masking generators for reseed. -/
  | noiseSourceFail (t : Nat) (w : Twin) (src test count : Nat)
  /-- `SPARE_SOURCE_JOIN` (R315): A passing spare source joins the failed source's group at the group's next block boundary. -/
  | spareSourceJoin (t : Nat) (w : Twin) (group : Nat)
  /-- `CONDITIONED_BLOCK` (R308): A conditioner group completes a block as the SHA-256 of 2,048 raw bits. -/
  | conditionedBlock (t : Nat) (w : Twin) (group : Nat) (raw : Bytes)
  /-- `MASKING_RESEED` (R312): A masking generator reseeds from a conditioned block on schedule or after taint, and any hold on it ends. -/
  | maskingReseed (t : Nat) (w : Twin) (island dp : Nat)
  /-- `ENTROPY_STARTUP_TEST_END` (R314): At the end of the start-up test, failing sources are quarantined and active, group and spare roles are assigned. -/
  | entropyStartupTestEnd (t : Nat) (w : Twin) (fails : List (Nat × Nat × Nat))
  /-- `SEED_PROPOSAL` (R318): The active generates an epoch seed and proposes it for an effective epoch in its batch. -/
  | seedProposal (t : Nat)
  /-- `SEED_ACK` (R318): The standby's entropy block acknowledges a seed proposal in its next batch. -/
  | seedAck (t : Nat)
  /-- `SEED_RENEWAL_EFFECT` (R318): At epoch E an acknowledged seed takes effect in both twins, or the renewal is postponed to E + 100. -/
  | seedRenewalEffect (t : Nat)
  /-- `RNG_SERVICE_STOP` (R317): With fewer than 12 active sources in the active twin, random service stops and event 0x8020 is recorded. -/
  | rngServiceStop (t : Nat)
  /-- `ALMANAC_APPEND` (R378): The Relay appends a received record to its region, or merges it into the newest record, and updates the chain value. -/
  | almanacAppend (t : Nat) (region : Region)
  /-- `MERGE_WRITE` (R375): A pending merge is written to NVM, at most once per millisecond while occurrences continue. -/
  | mergeWrite (t : Nat) (region : Region)
  /-- `OP_SECONDS_RECORD` (R373): Every 64 s the Relay records the operating-seconds count in NVM. -/
  | opSecondsRecord (t : Nat)
  /-- `ALARM_QUALIFY` (R355): A monitor's count of consecutive true samples reaches its filter length, the alarm qualifies and its response is signalled. -/
  | alarmQualify (t cls mon n reading : Nat)
  /-- `ALARM_DEASSERT` (R355): An asserted alarm de-asserts after its condition has been false for the filter length. -/
  | alarmDeassert (t cls mon : Nat) (falses : FalseRun)
  /-- `TAMPER_RESPONSE_EFFECT` (R361): At the effect point, LOCK is entered and the approval pool emptied, and zeroization of the targets or of the module begins. -/
  | tamperResponseEffect (t : Nat)
  /-- `BACKUP_WINDOW` (R364): Every 125 ms on backup power, Nightwatch takes 8 samples of each backup monitor and applies the backup responses. -/
  | backupWindow (t : Nat) (window : Window)
  /-- `CMK_ERASED` (R151): The wrapped CMK of a zeroizing compartment is erased from NVM and recorded. -/
  | cmkErased (t c : Nat)
  /-- `COMP_ZEROIZED` (R151): Erasure of a compartment's remaining state completes, and the compartment becomes ZEROIZED. -/
  | compZeroized (t c : Nat)
  /-- `MAIN_POWER_LOSS` (R483): Main power is declared lost; the Relay is reset, backup sampling starts and the retained register takes over. -/
  | mainPowerLoss (t : Nat)
  /-- `RESET_N_ASSERT` (R488): RESET_N falling, after its filter, resets the Relay and the module. -/
  | resetNAssert (t : Nat)
  /-- `RESET_N_RELEASE` (R450): The Relay leaves reset, Meridian restarts, the power-cycle count increments and boot proceeds under Table 20-1. -/
  | resetNRelease (t : Nat) (recovery : Bool)
  /-- `TWIN_BOOT_TIMEOUT` (R453): A twin that has not completed boot within 400 ms of release is degraded with cause 0x0C. -/
  | twinBootTimeout (t : Nat) (w : Twin)
  /-- `BOOT_COMPLETE` (R450): Roles are assigned, READY becomes 1 and fetching begins. -/
  | bootComplete (boot : BootEnd)
  /-- `TRIAL_BOOT_TIMEOUT` (R459): A trial boot that has not reached READY within 2 s fails, and the next boot returns to the previous slot. -/
  | trialBootTimeout (t : Nat)
  /-- `LC_SELF_RESET` (R397): 10 ms after a life-cycle transition's reply, the module resets itself as RESET_N does. -/
  | lcSelfReset (t : Nat)
  /-- `CARD_INSERTED` (R167): PRES rising on an officer port records CARD_INSERTED. -/
  | cardInserted (t port : Nat)
  /-- `CARD_REMOVED` (R167): PRES falling deactivates the port, withdraws its card approvals, ends any command in progress and records the removal. -/
  | cardRemoved (t port : Nat)
  /-- `CARD_APDU_RESPONSE` (R168): A card's response APDU arrives, is checked, and the dialogue continues or ends. -/
  | cardApduResponse (t port : Nat) (resp : Bytes)
  /-- `CARD_TIMEOUT` (R166): A card dialogue timer expires, the card is deactivated and the command ends CARD_TIMEOUT. -/
  | cardTimeout (t port : Nat)
  /-- `APPROVAL_EXPIRY` (R163): A card approval 300 s old, or a remote approval past NOT_AFTER, expires. -/
  | approvalExpiry (t id : Nat)
  /-- `COMPONENT_SET_EXPIRY` (R173): A component set with no further component within 600 s is discarded. -/
  | componentSetExpiry (t c : Nat)
  /-- `ADM_NOP` (R84): The admin no-operation command completes with no effect. -/
  | admNop (t : Nat) (w : Twin) (q : Nat)
  /-- `ADM_STATUS` (R86): Returns the 24-byte module status block. -/
  | admStatus (t : Nat) (w : Twin) (q : Nat)
  /-- `ATTN_ACK` (R82): Clears the masked sticky attention bits and returns the attention word. -/
  | attnAck (t : Nat) (w : Twin) (q : Nat)
  /-- `HEALTH_GET` (R352): Returns the latest health report and clears HEALTH_REPORT_READY. -/
  | healthGet (t : Nat) (w : Twin) (q : Nat)
  /-- `HEALTH_NOW` (R352): Names a snapshot epoch and returns a new health report. -/
  | healthNow (t : Nat) (w : Twin) (q : Nat)
  /-- `CFG_SHADOW_WRITE` (R465): Writes data into a section of the shadow set, or copies the active set into it, and clears its validation. -/
  | cfgShadowWrite (t : Nat) (w : Twin) (q : Nat)
  /-- `CFG_SHADOW_VALIDATE` (R466): Validates the shadow set and returns the result and its digest. -/
  | cfgShadowValidate (t : Nat) (w : Twin) (q : Nat)
  /-- `CFG_SWAP` (R468): Commits a swap of the validated shadow to active at a named epoch, under quorum. -/
  | cfgSwap (t : Nat) (w : Twin) (q : Nat)
  /-- `CFG_SWAP_EFFECT` (R469): At the named epoch the shadow becomes active, CFG_SET changes and CONFIG_SWAPPED is set. -/
  | cfgSwapEffect (t : Nat)
  /-- `CFG_READ` (R465): Returns bytes of a section of either configuration set. -/
  | cfgRead (t : Nat) (w : Twin) (q : Nat)
  /-- `FW_SLOT_WRITE` (R455): Writes package data into a firmware or image slot and verifies the slot when the package is complete. -/
  | fwSlotWrite (t : Nat) (w : Twin) (q : Nat)
  /-- `FW_SLOT_ACTIVATE` (R457): Activates or retires a slot under quorum and returns its measurement. -/
  | fwSlotActivate (t : Nat) (w : Twin) (q : Nat)
  /-- `COMP_CREATE` (R130): Creates a compartment with a new CMK generation and writes its entry into both configuration sets. -/
  | compCreate (t : Nat) (w : Twin) (q : Nat)
  /-- `COMP_SUSPEND` (R150): Suspends an ACTIVE compartment as an ordinary disable. -/
  | compSuspend (t : Nat) (w : Twin) (q : Nat)
  /-- `COMP_RESUME` (R130): Returns a SUSPENDED compartment to ACTIVE. -/
  | compResume (t : Nat) (w : Twin) (q : Nat)
  /-- `COMP_ZEROIZE` (R151): Moves a compartment to ZEROIZING as a security disable and journals the erasure. -/
  | compZeroize (t : Nat) (w : Twin) (q : Nat)
  /-- `OFFICER_ENROL` (R159): Enrols an officer, or changes an officer's role, and returns the officer index. -/
  | officerEnrol (t : Nat) (w : Twin) (q : Nat)
  /-- `OFFICER_REMOVE` (R159): Removes an officer and withdraws its approvals. -/
  | officerRemove (t : Nat) (w : Twin) (q : Nat)
  /-- `APPROVAL_SUBMIT` (R165): Checks a signed remote approval and stores it in the approval pool. -/
  | approvalSubmit (t : Nat) (w : Twin) (q : Nat)
  /-- `CARD_EXCHANGE` (R170): Runs an IDENTIFY or APPROVE dialogue with an officer card and stores any approval made. -/
  | cardExchange (t : Nat) (w : Twin) (q : Nat)
  /-- `COMPONENT_ENTER` (R172): Takes one key component from a custodian's card into the accumulator, and on the last component installs the transport key. -/
  | componentEnter (t : Nat) (w : Twin) (q : Nat)
  /-- `UNLOCK` (R174): Lifts LOCK when no alarm is asserted and MSO card approvals are present at both ports. -/
  | unlock (t : Nat) (w : Twin) (q : Nat)
  /-- `LC_TRANSITION` (R393): Checks and runs a life-cycle transition, or opens a recovery boot. -/
  | lcTransition (t : Nat) (w : Twin) (q : Nat)
  /-- `DEBUG_CERT_LOAD` (R401): Verifies a debug certificate and grants its rights, less those withheld in the current state. -/
  | debugCertLoad (t : Nat) (w : Twin) (q : Nat)
  /-- `SELFTEST_REQUEST` (R442): Self-tests a named core or engine island and returns its outcome. -/
  | selftestRequest (t : Nat) (w : Twin) (q : Nat)
  /-- `ATTEST_REPORT` (R461): Returns a signed attestation report over the given nonce. -/
  | attestReport (t : Nat) (w : Twin) (q : Nat)
  /-- `ALM_READ` (R384): Returns up to 64 Almanac records of a region. -/
  | almRead (t : Nat) (w : Twin) (q : Nat)
  /-- `ALM_EXPORT` (R386): Returns a signed export of a range of Almanac records, under quorum. -/
  | almExport (t : Nat) (w : Twin) (q : Nat)
  /-- `KEY_GENERATE` (R99): Generates a symmetric key from replicated randomness and returns its handle and KCV. -/
  | keyGenerate (t : Nat) (w : Twin) (q : Nat)
  /-- `KEY_IMPORT` (R106): Unwraps an X9.143 key block under a KBPK and creates a key record. -/
  | keyImport (t : Nat) (w : Twin) (q : Nat)
  /-- `KEY_EXPORT` (R105): Wraps an exportable key in an X9.143 key block. -/
  | keyExport (t : Nat) (w : Twin) (q : Nat)
  /-- `KEY_PAIR_GENERATE` (R102): Generates an asymmetric key pair and returns both handles and the public key. -/
  | keyPairGenerate (t : Nat) (w : Twin) (q : Nat)
  /-- `PUBKEY_IMPORT` (R101): Validates a public key and creates a VERIFY key record. -/
  | pubkeyImport (t : Nat) (w : Twin) (q : Nat)
  /-- `KEY_LOAD` (R147): Checks a PX key block and restores its key into the key store. -/
  | keyLoad (t : Nat) (w : Twin) (q : Nat)
  /-- `KEY_UNLOAD` (R148): Removes a key from the key store as an ordinary disable. -/
  | keyUnload (t : Nat) (w : Twin) (q : Nat)
  /-- `KEY_REVOKE` (R149): Revokes a key as a security disable and marks its ledger entry revoked. -/
  | keyRevoke (t : Nat) (w : Twin) (q : Nat)
  /-- `KEY_INFO` (R99): Returns the attributes and counters of a key. -/
  | keyInfo (t : Nat) (w : Twin) (q : Nat)
  /-- `KEY_SAVE` (R146): Returns a PX key block of a key, with counters as of its acceptance. -/
  | keySave (t : Nat) (w : Twin) (q : Nat)
  /-- `PIN_TRANSLATE` (R109): Translates a PIN block from one key and format to another. -/
  | pinTranslate (t : Nat) (w : Twin) (q : Nat)
  /-- `PIN_VERIFY_OFFSET` (R111): Verifies a PIN against its offset by the offset method. -/
  | pinVerifyOffset (t : Nat) (w : Twin) (q : Nat)
  /-- `PIN_OFFSET_GENERATE` (R111): Computes the PIN offset by the offset method. -/
  | pinOffsetGenerate (t : Nat) (w : Twin) (q : Nat)
  /-- `PIN_VERIFY_REFERENCE` (R111): Compares a candidate PIN block with a reference PIN block. -/
  | pinVerifyReference (t : Nat) (w : Twin) (q : Nat)
  /-- `MAC_GENERATE` (R113): Computes a truncated MAC over a message. -/
  | macGenerate (t : Nat) (w : Twin) (q : Nat)
  /-- `MAC_VERIFY` (R113): Verifies a MAC in constant time. -/
  | macVerify (t : Nat) (w : Twin) (q : Nat)
  /-- `DATA_ENCRYPT` (R114): Encrypts data in ECB, CBC or CTR mode, optionally taking the counter from the key's nonce counter. -/
  | dataEncrypt (t : Nat) (w : Twin) (q : Nat)
  /-- `DATA_DECRYPT` (R114): Decrypts data in ECB, CBC or CTR mode. -/
  | dataDecrypt (t : Nat) (w : Twin) (q : Nat)
  /-- `SIV_SEAL` (R115): Seals text, or one stream segment, with AES-SIV. -/
  | sivSeal (t : Nat) (w : Twin) (q : Nat)
  /-- `SIV_OPEN` (R115): Opens AES-SIV text through the hold buffer, releasing plaintext only when the tag verifies. -/
  | sivOpen (t : Nat) (w : Twin) (q : Nat)
  /-- `KDF_DERIVE` (R116): Derives a new key with the SP 800-108 counter KDF. -/
  | kdfDerive (t : Nat) (w : Twin) (q : Nat)
  /-- `DUKPT_PIN_TRANSLATE` (R117): Translates a PIN block encrypted under a DUKPT-derived key. -/
  | dukptPinTranslate (t : Nat) (w : Twin) (q : Nat)
  /-- `DUKPT_MAC_VERIFY` (R117): Verifies a MAC under a DUKPT-derived key. -/
  | dukptMacVerify (t : Nat) (w : Twin) (q : Nat)
  /-- `DUKPT_DATA_DECRYPT` (R117): Decrypts data under a DUKPT-derived key. -/
  | dukptDataDecrypt (t : Nat) (w : Twin) (q : Nat)
  /-- `DUKPT_IK_EXPORT` (R117): Exports a DUKPT initial key as a B1 X9.143 key block. -/
  | dukptIkExport (t : Nat) (w : Twin) (q : Nat)
  /-- `SIG_VERIFY` (R119): Verifies a signature on the Orrery. -/
  | sigVerify (t : Nat) (w : Twin) (q : Nat)
  /-- `SIGN` (R119): Signs a message or digest in blinded constant-time core code. -/
  | sign (t : Nat) (w : Twin) (q : Nat)
  /-- `ECDH_DERIVE` (R120): Derives a new key from an ECDH shared secret. -/
  | ecdhDerive (t : Nat) (w : Twin) (q : Nat)
  /-- `RNG_GET` (R121): Returns bytes of replicated randomness. -/
  | rngGet (t : Nat) (w : Twin) (q : Nat)
  /-- `DRAW_CERTIFIED` (R123): Draws numbers, reserves the evidence records and returns a signed draw receipt. -/
  | drawCertified (t : Nat) (w : Twin) (q : Nat)
  /-- `DRAW_LAST` (R122): Returns the draw register of a game. -/
  | drawLast (t : Nat) (w : Twin) (q : Nat)
  /-- `TICKET_ISSUE` (R125): Issues a ticket serial and validation code. -/
  | ticketIssue (t : Nat) (w : Twin) (q : Nat)
  /-- `TICKET_VALIDATE` (R125): Validates a ticket serial and code. -/
  | ticketValidate (t : Nat) (w : Twin) (q : Nat)
  /-- `OWNER_IMAGE_COMMAND` (R3): Runs an owner-defined command in the range 0x0F00 to 0x0FFF under the owner image. -/
  | ownerImageCommand (t : Nat) (w : Twin) (q : Nat)
  /-- `ENGINE_QUEUE_ADMIT` (R257): An eng held on a full queue is admitted when room frees, and the operation is placed on an engine. -/
  | engineQueueAdmit (t : Nat) (w : Twin) (cluster : Nat)
  /-- `BLOCK_E` (R255): Engine operation: block encryption with optional input and output XOR. -/
  | blockE (t : Nat) (w : Twin) (op : KeyedOp) (cmpFail : Option Nat)
  /-- `BLOCK_D` (R255): Engine operation: block decryption. -/
  | blockD (t : Nat) (w : Twin) (op : KeyedOp) (cmpFail : Option Nat)
  /-- `XCTR` (R270): Engine operation: counter-mode keystream XOR. -/
  | xctr (t : Nat) (w : Twin) (op : KeyedOp) (cmpFail : Option Nat)
  /-- `CHAIN` (R271): Engine operation: CBC chaining. -/
  | chain (t : Nat) (w : Twin) (op : KeyedOp) (cmpFail : Option Nat)
  /-- `CV` (R272): Engine operation: check value, optionally verified against an expected value. -/
  | cv (t : Nat) (w : Twin) (op : KeyedOp) (cmpFail : Option Nat)
  /-- `KDF` (R273): Engine operation: counter-mode or KMAC KDF into staging or a new key. -/
  | kdf (t : Nat) (w : Twin) (op : KeyedOp) (cmpFail : Option Nat)
  /-- `HASH` (R274): Engine operation: SHA-2 or SHA-3 digest. -/
  | hash (t : Nat) (w : Twin) (op : Nat) (cmpFail : Option Nat)
  /-- `KCV` (R269): Engine operation: key check value. -/
  | kcv (t : Nat) (w : Twin) (op : KeyedOp) (cmpFail : Option Nat)
  /-- `INSTALL` (R267): Engine operation: installs staging material as a new key. -/
  | install (t : Nat) (w : Twin) (op : Nat)
  /-- `STG_BUILD` (R255): Engine operation: builds a staging entry from local memory and key material. -/
  | stgBuild (t : Nat) (w : Twin) (op : KeyedOp)
  /-- `HOLD_ALLOC` (R275): Engine operation: reserves a hold buffer region. -/
  | holdAlloc (t : Nat) (w : Twin) (op : Nat)
  /-- `HOLD_REGION_GRANTED` (R275): A waiting HOLD_ALLOC completes once cluster hold space frees. -/
  | holdRegionGranted (t : Nat) (w : Twin) (op : Nat)
  /-- `HOLD_RELEASE` (R276): Engine operation: verifies a tag over the hold region and releases or discards the plaintext. -/
  | holdRelease (t : Nat) (w : Twin) (op : KeyedOp) (cmpFail : Option Nat)
  /-- `HOLD_FREE` (R255): Engine operation: clears and frees the task's hold region. -/
  | holdFree (t : Nat) (w : Twin) (op : Nat)
  /-- `ENGINE_OP_COMPLETE` (R258): An engine operation completes, writes its output and status, and lowers the task's counter. -/
  | engineOpComplete (t : Nat) (w : Twin) (op : Nat)
  /-- `ORRERY_CALL_STORE_ADMIT` (R292): A waiting orr is admitted to the call store when room frees. -/
  | orreryCallStoreAdmit (t : Nat) (w : Twin)
  /-- `RSA_PUB` (R295): Orrery operation: RSA public exponentiation. -/
  | rsaPub (t : Nat) (w : Twin) (call : Nat)
  /-- `ECDSA_VERIFY` (R296): Orrery operation: ECDSA verification. -/
  | ecdsaVerify (t : Nat) (w : Twin) (call : Nat)
  /-- `ED25519_VERIFY` (R297): Orrery operation: Ed25519 verification. -/
  | ed25519Verify (t : Nat) (w : Twin) (call : Nat)
  /-- `MLDSA_VERIFY` (R298): Orrery operation: ML-DSA verification. -/
  | mldsaVerify (t : Nat) (w : Twin) (call : Nat)
  /-- `SHAKE256` (R290): Orrery operation: SHAKE256 absorb or squeeze step. -/
  | shake256 (t : Nat) (w : Twin) (call : Nat)
  /-- `ORRERY_CALL_COMPLETE` (R293): An Orrery call completes, writes its output and status, and lowers the task's counter. -/
  | orreryCallComplete (t : Nat) (w : Twin) (call : CallEnd)
  /-- `ORRERY_SLOT_BOUNDARY` (R301): At a slot boundary the Orrery chooses the next owner, erasing operand memory when the owner changes. -/
  | orrerySlotBoundary (t : Nat) (w : Twin)
  /-- `ORRERY_QUANTUM_EXPIRY` (R302): The quantum of a slice passes, and the slice ends once no call of it is running. -/
  | orreryQuantumExpiry (t : Nat) (w : Twin)
  /-- `DOMAIN_IDLE_ENTRY` (R412): A VOTE domain whose vote count has been 0 for IDLE begins entry to its low-power state. -/
  | domainIdleEntry (t dom : Nat) (busy : List Nat)
  /-- `CORE_IDLE_ENTRY` (R413): A core island whose contexts have been empty for IDLE enters its low-power state. -/
  | coreIdleEntry (t island : Nat)
  /-- `WAKE_EVENT` (R416): A wake event wakes its domains, or is latched and replayed when an entry is in progress. -/
  | wakeEvent (t : Nat) (doms : List Nat) (urgent : Bool)
  /-- `ENTRY_REFUSE_TIMEOUT` (R418): An entry with a block still busy at REFUSE_WAIT aborts, and the stopped blocks return to Run. -/
  | entryRefuseTimeout (t dom : Nat)
  /-- `GATEKEEPER_ACCESS` (R419): An access to a stopped domain is answered ISLAND_DOWN, or held as a wake under WOA. -/
  | gatekeeperAccess (t dom : Nat) (write : Bool)
  /-- `PAD_HOLD_RELEASE` (R420): Zenith releases the card pad latches of island 422 after its wake. -/
  | padHoldRelease (t : Nat)
  /-- `CLUSTER_TRIM` (R423): A cluster idle for TRIM_IDLE has its core and engine islands put into Sleep. -/
  | clusterTrim (t : Nat) (w : Twin) (busy : List Nat)
  /-- `CLUSTER_TRIM_WAKE` (R423): Coachyard wakes the lowest-indexed trimmed cluster for a ready task that has no target. -/
  | clusterTrimWake (t : Nat) (w : Twin)
  /-- `STANDBY_HOT_ENTRY` (R422): After STANDBY_IDLE with no request in flight, the twin domains enter STANDBY-HOT. -/
  | standbyHotEntry (t : Nat) (busy : List Nat)
  /-- `STANDBY_HOT_EXIT` (R424): An accepted entry brings the twins out of STANDBY-HOT and raises VDD_CORE. -/
  | standbyHotExit (t : Nat)
  /-- `LOAD_CLASS_CHANGE` (R426): An island's busy fraction moves it to another load class and DVFS table. -/
  | loadClassChange (t island percent : Nat)
  /-- `DVFS_TABLE_STALE` (R427): A trained table becomes stale, the island uses the guard-banded table and retraining is scheduled. -/
  | dvfsTableStale (t island : Nat) (cls : LoadClass)
  /-- `DVFS_TRAINING` (R428): The twin power manager trains a load class's operating points down to the first canary alarm. -/
  | dvfsTraining (t island : Nat) (cls : LoadClass) (mv : List Nat)
  /-- `CANARY_ALARM` (R429): A canary alarm raises the local voltage, moves the island to the guard-banded table, or reports the unit as failing. -/
  | canaryAlarm (t island : Nat)
  /-- `SPARE_ROTATION` (R437): At a scheduled epoch the spare core or engine role starts moving to the next unit. -/
  | spareRotation (t : Nat) (w : Twin) (cluster : Nat) (kind : UnitKind)
  /-- `ROTATION_POINT` (R438): The outgoing unit has drained and leaves the active set for self-test. -/
  | rotationPoint (t : Nat) (w : Twin) (cluster : Nat) (kind : UnitKind)
  /-- `UNIT_SELFTEST_COMPLETE` (R436): A unit's self-test ends, and the unit is returned, marked worn or retired. -/
  | unitSelftestComplete (t island : Nat) (pass : Bool) (ageing dur : Nat)
  /-- `SPARE_WAIT_TIMEOUT` (R440): After 100 ms with no free spare, a unit leaves the active set without replacement. -/
  | spareWaitTimeout (t island : Nat)
  /-- `SRAM_ROW_REMAP` (R445): An SRAM row with too many errors is remapped to a spare row or bank. -/
  | sramRowRemap (t : Nat) (w : Twin) (cluster bank row reason : Nat)
  /-- `NVM_SECTOR_REPLACE` (R446): A failing NVM sector is copied to a spare sector. -/
  | nvmSectorReplace (t sector : Nat) (use_ : SectorUse)
  /-- `SKYGLOW_STIMULUS_TEST` (R447): Every 24 h Nightwatch stimulates each Skyglow sensor and retires one that fails twice. -/
  | skyglowStimulusTest (t die sensor : Nat) (trip : Bool)
  /-- `SCRUB_READ` (R444): The test and scrub controller reads ECC-protected arrays and counts corrected errors. -/
  | scrubRead (t island : Nat) (row : RowAt) (corrected : Nat) (uncorrectable : Bool)
  /-- `LC_REQ` (R404): TAP instruction that requests a life-cycle transition at Update-DR. -/
  | lcReq (t target : Nat) (zeros : Nat) (token : Bytes)
  /-- `LC_STATUS` (R403): TAP instruction that returns the life-cycle state and the last result. -/
  | lcStatus (t : Nat)
  /-- `DBG_CERT` (R404): TAP instruction that loads a debug certificate at Update-DR. -/
  | dbgCert (t : Nat) (cert : Bytes)
  /-- `DBG_STATUS` (R403): TAP instruction that returns the debug rights granted. -/
  | dbgStatus (t : Nat)
  /-- `DBG_ACCESS` (R403): TAP instruction that gives access to the debug access port. -/
  | dbgAccess (t island : Nat) (kind : DbgKind)
  /-- `BYPASS` (R406): IEEE 1149.1 BYPASS instruction. -/
  | bypass (t : Nat)
  /-- `SAMPLE_PRELOAD` (R406): IEEE 1149.1 SAMPLE/PRELOAD instruction. -/
  | samplePreload (t : Nat)
  /-- `EXTEST` (R406): IEEE 1149.1 EXTEST instruction, which isolates the core from the pads. -/
  | extest (t : Nat)
  /-- `CLAMP` (R406): IEEE 1149.1 CLAMP instruction. -/
  | clamp (t : Nat)
  /-- `HIGHZ` (R406): IEEE 1149.1 HIGHZ instruction. -/
  | highz (t : Nat)
  /-- `IDCODE` (R406): IEEE 1149.1 IDCODE instruction. -/
  | idcode (t : Nat)
  /-- `TAP_RESET` (R488): TRST_N low, or a TAP reset, returns the TAP to Test-Logic-Reset and ends boundary-scan isolation. -/
  | tapReset (t : Nat)
  /-- `SMBUS_HEALTH_SUMMARY` (R491): SMBus command 0x10 returns the 32-byte health summary. -/
  | smbusHealthSummary (t : Nat)
  /-- `SMBUS_TEMPERATURE` (R491): SMBus command 0x11 returns the hottest die temperature. -/
  | smbusTemperature (t : Nat)
  /-- `SMBUS_ALERT_RESPONSE` (R492): A read of the Alert Response Address releases SMB_ALERT_N and returns the module's address. -/
  | smbusAlertResponse (t : Nat)
  /-- `PTM_ENABLE` (R42): The host sets or clears PTM Enable in the endpoint's PTM capability, which starts or stops the PTM dialogues and, when cleared, clears VALID. -/
  | ptmEnable (t : Nat) (en : Bool)
  /-- `VF_ENABLE` (R46): The host sets VF Enable, which creates the virtual functions and applies the VF_VECTORS table size of the active configuration set. -/
  | vfEnable (t numVfs : Nat) (en : Bool)
  /-- `MSIX_VECTOR_UNMASK` (R54): A host write to an MSI-X vector control or function mask in BAR2 unmasks a vector, and a message whose pending bit is set is then sent. -/
  | msixVectorUnmask (t fn vec : Nat)
  /-- `THERMAL_WARNING` (R493): The hottest die sensor crosses 110 degrees C upward or 105 degrees C downward, THERMAL sets or clears, ATTN_SEQ advances and core boost points are given up or regained. -/
  | thermalWarning (t : Nat) (temp : Int)
  /-- `LC_WIPE_COMPLETE` (R397): The erasure of a life-cycle transition completes, J_WIPED and J_STATE are blown, LIFECYCLE is set and the reply is released. -/
  | lcWipeComplete (t : Nat)
  /-- `IMAGE_CACHE_FILL` (R238): A page missed in a quadrant's image cache has been filled from NVM through the Relay, and the waiting task resumes. -/
  | imageCacheFill (t : Nat) (w : Twin) (quadrant image page : Nat)
  /-- `VNW_SOURCE_SWITCH` (R485): VAUX crosses 3.00 V with 50 mV hysteresis, and Nightwatch's VNW rail switches between VAUX and VBAT without a gap. -/
  | vnwSourceSwitch (t vauxMv : Nat)
  deriving DecidableEq, Repr

end Sys2Proof
end

