-- ==== Sys2Proof/Decode.lean ====
section
/-! DEFINITION. Commands spelt by words. The spec's table gives no row any bits: its rows are operations and events of
a block, not encoded words, so no word spells a command (assumption 4). -/

namespace Sys2Proof

/-- The command that a word of `nbits` bits spells by the bits of the table: none, since the table gives no row a bit
(assumption 4). -/
def decodeTableWord (_nbits _w : Nat) : Option Instr := none

end Sys2Proof
end

