-- ==== Sys2Proof/Config.lean ====
section
/-! DEFINITION. What one module fixes and the spec does not state (opaque: nothing in a proof can see its value), and
the free values that stand where the spec leaves a value open. -/

namespace Sys2Proof.Config

/-- The module serial, 8 bytes (R2, R41). -/
opaque serial : BitVec 64

/-- The ordering-code grade of `ID_PART` (Table 3-3). -/
opaque grade : BitVec 1

/-- Build numbers of the four versions of Table 3-2: Relay, Zenith, Stagecoach, Polestar. -/
opaque build : Nat → BitVec 16

/-- The MRK mixing secret fused in OTP (R128). -/
opaque mixSecret : BitVec 256

/-- The device identity secret held in OTP (R460). -/
opaque deviceSecret : BitVec 384

/-- The uncompressed P-384 public point of a root whose hash is fused (R233, R400, R452): 97 bytes, by use (0 image,
1 firmware, 2 debug) and by root: 0 manufacturing, 1 to 4 test, 5 production. -/
opaque rootKey : Nat → Nat → BitVec 776

/-- Number of test roots in OTP less one, by use: up to 4 (Table 17-1). -/
opaque testRoots : Nat → BitVec 2

/-- Whether the package that a part ships with verifies under a root of a life-cycle state (R1, R452): package, state. -/
opaque shippedVerifies : Nat → Nat → BitVec 1

/-- The measurement of a shipped package (R451). -/
opaque shippedDigest : Nat → BitVec 384

/-- The security version number of a shipped package. -/
opaque shippedSvn : Nat → BitVec 32

/-- The owner public key of a shipped image package (R234). -/
opaque shippedKey : Nat → BitVec 776

/-- The device certificate of a life-cycle state, and its length (R460). -/
opaque deviceCert : Nat → BitVec 16384

/-- The length of the device certificate of a life-cycle state, in bytes (R460, Table 20-4). -/
opaque deviceCertLen : Nat → BitVec 12

/-- The fused life-cycle token digests, slots 0 to 3 (R391). -/
opaque tokenDigest : Nat → BitVec 384

/-- The IEEE 1149.1 instruction codes that the spec does not give: 0 EXTEST, 1 CLAMP, 2 HIGHZ (R406). -/
opaque tapCode : Nat → BitVec 8

/-- The device identification register of the TAP (R406). -/
opaque idcode : BitVec 32

/-- The packages of the shipped images and firmware (R1): byte `i` of package `p` (1 Relay firmware, 2 Zenith
firmware, 3 Stagecoach, 4 Polestar). -/
opaque shippedByte : Nat → Nat → BitVec 8

/-- A free value: what the spec leaves open at one point, by a counter (assumption 8). -/
opaque freeValue : Nat → BitVec 4096

/-- The set of a flow in the flow table: the keyed hash of R180. -/
opaque flowSet : Nat → Nat → Nat → BitVec 17

/-- The synthetic IV of a segment that an owner image served, by the acceptance stamp (R278; assumption 176). -/
opaque segmentIv : Nat → BitVec 128

/-- The ECDSA per-signature value of R119: from the private scalar, the digest and the replicated bytes. -/
opaque ecdsaK : BitVec 384 → List (BitVec 8) → List (BitVec 8) → BitVec 384

/-- RSA prime generation of R102 from a request's replicated stream: prime 0 or 1 of a modulus of that many bits,
by the stream's seed material. -/
opaque rsaPrime : Nat → Nat → List (BitVec 8) → BitVec 2048

/-- The x coordinate that the Orrery's formulas give for a point that is not on the curve (R296). -/
opaque offCurveX : Nat → List (BitVec 8) → BitVec 384

/-- The conditioned bytes that a re-keyed derivation leaves open; a raw noise bit source (R305). -/
opaque localNoise : Nat → BitVec 512

/-- Page flags of a shipped package (R1): package, page. -/
opaque vendorPageFlags : Nat → Nat → BitVec 4

/-- Number of pages of a vendor image. -/
opaque vendorPages : Nat → BitVec 11

/-- Entry points of the vendor images: image, opcode, and 0 for `ENTRY` or 1 for `TMO_ENTRY` (R235). -/
opaque vendorEntry : Nat → Nat → Nat → BitVec 22

/-- `DCL_MAX` and `RUN_MAX` of a vendor image's dispatch entry (R235): image, opcode. -/
opaque vendorDclMax : Nat → Nat → BitVec 16

/-- `RUN_MAX` of a vendor image's dispatch entry (R235). -/
opaque vendorRunMax : Nat → Nat → BitVec 16

/-- `LMEM_KIB` of a vendor image: 16 to 64, a multiple of 4 (Table 10-1). -/
opaque vendorLmem : Nat → BitVec 4

/-- `SRAM_KIB` of a vendor image (Table 10-1). -/
opaque vendorSram : Nat → BitVec 9

/-- `CLUSTER` and `SLOT` of `feat2` on Zenith, which Table 9-20 does not give. -/
opaque zenithFeat2 : BitVec 8

/-- Source numbers in class 0xA of the records of an image abort (0) and of a declassification excess (1): the spec
asks for the records (R227, R245) and gives them no event id. -/
opaque imageEvent : Nat → BitVec 6

/-- Severities of those records, which the spec does not give. -/
opaque imageEventSev : Nat → BitVec 2

/-- The local supply of an island's guard-banded table at a load class, and its highest point, in mV (R427, R429). -/
opaque guardMv : Nat → Nat → BitVec 10

/-- The highest point of an island's guard-banded table, in mV (R429). -/
opaque guardMax : Nat → BitVec 10

/-- The step above 1.6 GHz, in 100 MHz, of a core's trained point at a busy fraction in percent (R425, R430). -/
opaque corePoint : Nat → BitVec 3

/-- The source number in class 0xB, the severity and the detail of the record of an uncorrectable error in the Orrery's memories:
the spec asks for the record (R293) and gives it none of them. -/
opaque orreryEvent : BitVec 7
/-- The severity of that record. -/
opaque orreryEventSev : BitVec 2
/-- Its detail, of a call of a request. -/
opaque orreryDetail : Nat → Nat → BitVec 128

/-- How many bytes a masking generator gives for the masks of one block, which the spec does not give (R283). -/
opaque maskBytes : Nat

/-- The SHA-256 digest of a payload that lies in host memory and that the module's commands have not shown whole, by the
request's acceptance stamp (R75). -/
opaque unreadDigest : Nat → BitVec 256

/-- The severity of an event id for which no chapter states one (R371). -/
opaque eventSev : Nat → BitVec 2

/-- UNVERIFIED (assumption 148): the retirement kind in the record of a rotation skipped while a
requested test waits. -/
opaque skipKind : BitVec 8

end Sys2Proof.Config
end

