-- ==== Sys2Proof/Machine/StateTypes.lean ====
section
/-! DEFINITION. The data types of the state that the protocol, the keys and the scheduling need:
headers, replies, key records, compartments, stores, requests, tasks, contexts. -/

namespace Sys2Proof.Machine

/-- A sparse table: entries in strictly rising key order (R9, R135, R176 name their keys as numbers). -/
abbrev Tbl (α : Type) := List (Nat × α)

/-- The fields of a request header (R60, Table 4-1), each as its unsigned value. -/
structure Hdr where
  version  : Nat := 1
  flags    : Nat := 0
  opcode   : Nat := 0
  target   : Nat := 0
  pred     : Nat := 0
  rsv7     : Nat := 0
  id       : Nat := 0
  flow     : Nat := 0
  plen     : Nat := 0
  deadline : Nat := 0
  pptr     : Nat := 0
  rptr     : Nat := 0
  rlen     : Nat := 0
  segIndex : Nat := 0
  segCtrl  : Nat := 0
  rsv55    : Nat := 0
  param    : Nat := 0
  deriving DecidableEq, Repr

/-- What the module puts on its links, in order (R52, R54, R491, R403): the model's own record of its outputs. -/
inductive Output where
  /-- A posted write to host memory (R52). -/
  | dma (addr : Nat) (data : Bytes)
  /-- An MSI-X message of a function's vector: the address and data of its table entry (R54, Table 3-1). -/
  | msix (fn vec : Nat) (addr : BitVec 64) (data : BitVec 32)
  /-- The data that a read of a function's registers returns (R36, R41). -/
  | barRead (fn off : Nat) (val : Nat)
  /-- Data returned on SMBus (R491, R492). -/
  | smbus (data : Bytes)
  /-- Data shifted out of the TAP (R403, R406). -/
  | tap (data : Bytes)
  /-- Bytes sent to an officer card (R166, R168). -/
  | card (port : Nat) (data : Bytes)
  /-- The answer to a register access of Zenith or a debug act at an island: the word read with its tag, if it is a read, and whether
  it carries `ISLAND_DOWN` (R403, R419). -/
  | access (dom : Nat) (val : Option (BitVec 64 × Bool)) (down : Bool)
  deriving DecidableEq, Repr

/-- `STATE` of a mailbox (Table 3-5). -/
inductive MbxState where
  | disabled
  | enabled
  | draining
  | error
  deriving DecidableEq, Repr

/-- One mailbox's registers and ring state (R43 to R54). -/
structure Mbx where
  cfg        : BitVec 32 := 0
  coal       : BitVec 32 := 1
  sqBase     : BitVec 64 := 0
  rqBase     : BitVec 64 := 0
  state      : MbxState := .disabled
  errs       : BitVec 6 := 0
  /-- The bits of `errs` that hardware set last, and when (R8). -/
  fresh      : BitVec 6 := 0
  freshAt    : Nat := 0
  infl       : Nat := 0
  sqTail     : Nat := 0
  sqHead     : Nat := 0
  rqHead     : Nat := 0
  /-- Next reply slot, and replies written and not yet freed (R50, R53). -/
  slot       : Nat := 0
  written    : Int := 0
  phase      : Bool := true
  /-- Replies not yet signalled, and the stamp of the first of them (R54). -/
  unsig      : Nat := 0
  firstUnsig : Nat := 0
  lastSeq    : Option Nat := none
  deriving DecidableEq, Repr

/-- What the host sets in a function's configuration space and MSI-X table (R36, Table 3-1): the payload and read request
sizes in bytes, ECRC generation and checking, ASPM L1, MSI-X Enable and Function Mask, the base addresses, the Advanced Error
Reporting status words, and the address and data of each vector (assumption 165). -/
structure PciFn where
  mps     : Nat := 128
  mrrs    : Nat := 512
  ecrcGen : Bool := false
  ecrcChk : Bool := false
  aspmL1  : Bool := false
  msixEn  : Bool := false
  fnMask  : Bool := false
  bar0    : BitVec 64 := 0
  bar2    : BitVec 64 := 0
  aerUnc  : BitVec 32 := 0
  aerCor  : BitVec 32 := 0
  vecs    : Tbl (BitVec 64 × BitVec 32) := []
  deriving DecidableEq, Repr

/-- One PCIe function (R38, R43, R46, R57). -/
structure Fn where
  enabled   : Bool := false
  mbxSel    : BitVec 12 := 0
  vecSize   : Nat := 0
  d3hot     : Bool := false
  /-- The high-word latches of R41: the latched word of a 64-bit register, by the register's offset. -/
  latch     : Tbl (BitVec 32) := []
  pci       : PciFn := {}
  /-- Resets whose dropped replies are still being counted (R57): stamp, cause and count, oldest first. -/
  drops     : List (Nat × Nat × Nat) := []
  /-- Replies dropped in the D3hot interval in progress (R57). -/
  d3count   : Nat := 0
  /-- Vectors whose mask bit is clear, and vectors pending (R54); a mask bit is set at reset (assumption 31). -/
  unmasked  : List Nat := []
  pends     : List Nat := []
  deriving DecidableEq, Repr

/-- PTM registers of physical function 0 (R42). -/
structure Ptm where
  en    : Bool := false
  ctrl  : BitVec 32 := 10
  count : Nat := 0
  valid : Bool := false
  seq   : Nat := 0
  mOld  : Nat := 0
  hOld  : Nat := 0
  mNew  : Nat := 0
  hNew  : Nat := 0
  /-- When the last dialogue ran (R34). -/
  last  : Option Nat := none
  deriving DecidableEq, Repr

/-- An Almanac record (R370, Table 16-1). -/
structure AlmRec where
  id     : Nat := 0
  sev    : Nat := 0
  origin : Nat := 0
  pcycle : Nat := 0
  ops    : Nat := 0
  rpt    : Nat := 1
  first  : Nat := 0
  last   : Nat := 0
  detail : Bytes := []
  chain  : Bytes := []
  deriving DecidableEq, Repr

/-- The Almanac cursor window of physical function 0 (R58, R59). -/
structure AlmWin where
  region  : Bool := false
  cursor  : BitVec 32 := 0
  /-- The region of the load in progress. -/
  loadReg : Bool := false
  loading : Bool := false
  clamped : Bool := false
  valid   : Nat := 0
  recs    : List Bytes := []
  deriving DecidableEq, Repr

/-- A key record (R138, Table 5-6). -/
structure KeyRec where
  alg        : Nat := 0
  usage      : Nat := 0
  exportable : Bool := false
  nonceEn    : Bool := false
  exhausted  : Bool := false
  macRes     : Nat := 0
  useCount   : Nat := 0
  useLimit   : Nat := 0
  nonce      : Nat := 0
  form       : Bytes := [0, 0, 0]
  kcv        : Bytes := []
  material   : Bytes := []
  gen        : Nat := 0
  /-- The stamp from which a request finds the key unloaded (R148); 0 while the unload is committed and not yet in
  effect (R195). -/
  unloadAt   : Option Nat := none
  /-- The acceptance stamp of the request that put a loaded or transport key there: engine caches tell it from the key of the
  same handle that was erased before (R261). -/
  born       : Nat := 0
  deriving DecidableEq, Repr

/-- A key ledger entry (R143). -/
structure Ledger where
  revoked   : Bool := false
  exhausted : Bool := false
  useMark   : Nat := 0
  nonceMark : Nat := 0
  /-- The entry was taken from the revocation reserve (R143). -/
  reserve   : Bool := false
  deriving DecidableEq, Repr

/-- A draw register (R122). -/
structure Draw where
  last   : Nat := 0
  evSeq  : Nat := 0
  pcycle : Nat := 0
  deriving DecidableEq, Repr

/-- An officer record (R154). -/
structure Officer where
  role   : Nat := 0
  serial : Bytes := []
  alg    : Nat := 0
  pub    : Bytes := []
  deriving DecidableEq, Repr

/-- An approval in the pool (R161, R163). -/
structure Approval where
  scope   : Nat := 0
  comp    : Nat := 0
  cls     : Nat := 0
  officer : Nat := 0
  digest  : Bytes := []
  expiry  : Nat := 0
  /-- The card port that a card approval came from. -/
  port    : Option Nat := none
  deriving DecidableEq, Repr

/-- A component set in progress (R173). -/
structure CompSet where
  alg        : Nat := 0
  count      : Nat := 0
  nextNum    : Nat := 0
  acc        : Bytes := []
  /-- The custodians of the components entered, by the serial of their cards or records (R172). -/
  custodians : List Bytes := []
  last       : Nat := 0
  deriving DecidableEq, Repr

/-- A replay table entry (R75). -/
structure Replay where
  id      : Nat := 0
  status  : Nat := 0
  /-- The stored result, or none when it was longer than 4,096 bytes. -/
  result  : Option Bytes := none
  commit  : Nat := 0
  opcode  : Nat := 0
  flow    : Nat := 0
  param   : Nat := 0
  plen    : Nat := 0
  digest  : Bytes := []
  accept  : Nat := 0
  /-- Both twins have agreed, at this batch's stamp, that the entry is 30 s old (R76). -/
  agedAt  : Option Nat := none
  deriving DecidableEq, Repr

/-- The stream of a flow (R73, R74, R278). -/
structure Stream where
  isOpen  : Bool := false
  failed  : Bool := false
  next    : Nat := 0
  last    : Nat := 0
  chain   : Bytes := []
  deriving DecidableEq, Repr

/-- What a flow holds besides its requests in service: its fence and its stream (R69, R70, R73). -/
structure Flow where
  fence  : Bool := false
  stream : Stream := {}
  deriving DecidableEq, Repr

/-- Compartment states (Table 6-2). -/
inductive CompState where
  | undefined
  | active
  | suspended
  | zeroizing
  | zeroized
  deriving DecidableEq, Repr

/-- One compartment: its register (R126 to R152) and its records in the key store. -/
structure Comp where
  st         : CompState := .undefined
  gen        : Nat := 0
  wrapped    : Bytes := []
  cmk        : Bytes := []
  pxk        : Bytes := []
  /-- The handle counter, and the value recorded in NVM in steps of 4,096 (R136, R137). -/
  handleCtr  : Nat := 0
  handleRec  : Nat := 0
  transport  : Option KeyRec := none
  /-- Transport keys replaced while earlier requests still name them, with the stamp of replacement (R173, R148). -/
  oldTrans   : List (Nat × KeyRec) := []
  keys       : Tbl KeyRec := []
  ledger     : Tbl Ledger := []
  draws      : Tbl Draw := []
  officers   : Tbl Officer := []
  dclTotals  : Tbl Nat := []
  replay     : List Replay := []
  cset       : Option CompSet := none
  /-- Made by a `COMP_CREATE` of this power cycle: it serves from the commit epoch on (R130). -/
  fresh      : Bool := false
  /-- Handles revoked in this power cycle, each with the acceptance stamp of its revocation (R149). -/
  revs       : Tbl Nat := []
  /-- The zeroization journal: the commit epoch's stamp (R151). -/
  journal    : Option Nat := none
  /-- A suspension committed and not yet in effect (R195): 0 while its commit is unconfirmed, then the epoch whose batch
  is its effect point. -/
  suspendAt  : Option Nat := none
  deriving DecidableEq, Repr

/-- One configuration set (R463): its non-zero bytes, key 65,536 times the section plus the offset. -/
structure CfgSet where
  cells : Tbl Byte := []
  deriving DecidableEq, Repr

/-- State of a firmware or image slot (R455 to R459). -/
inductive SlotState where
  | empty
  | written
  | unverified
  | pendingAct
  | ready
  deriving DecidableEq, Repr

/-- One firmware or image slot: its package bytes and state. -/
structure Slot where
  data : Bytes := []
  st   : SlotState := .empty
  /-- Non-zero for a package that the part ships with (R1): 1 Relay firmware, 2 Zenith firmware, 3 Stagecoach,
  4 Polestar; its bytes are then the module's own. -/
  shipped : Nat := 0
  deriving DecidableEq, Repr

/-- One component (Relay firmware, Zenith firmware, or an image by `IMAGE_ID`): its two slots, which is in force,
a trial mark, the SVN floor and the pinned owner key (R234, R455 to R459). -/
structure Component where
  slot0   : Slot := {}
  slot1   : Slot := {}
  inForce : Option Nat := none
  /-- Earlier activations: the stamp of the activation and the slot in force before it (R250). -/
  history : List (Nat × Option Nat) := []
  /-- An activation that the Relay has placed at an epoch and that this store has not applied yet: the slot and E (R250). -/
  switchAt : Option (Nat × Nat) := none
  trial   : Option Nat := none
  svnFloor : Nat := 0
  pinned  : Option Bytes := none
  deriving DecidableEq, Repr

/-- Everything that commit effects touch. NVM holds one, and each twin holds one (R16, R332, R348). -/
structure Store where
  comps       : Tbl Comp := []
  msos        : Tbl Officer := []
  approvals   : Tbl Approval := []
  nextApp     : Nat := 1
  remoteSeen  : List Bytes := []
  /-- Ids of approvals withdrawn before this store has seen them added (R163). -/
  withdrawn   : List Nat := []
  /-- The generation and the commit epoch's stamp of each compartment made in this power cycle (R130). -/
  starts      : Tbl (Nat × Nat) := []
  cfgA        : CfgSet := {}
  cfgB        : CfgSet := {}
  /-- Which set is active: false A, true B (`CFG_SET`). -/
  activeB     : Bool := false
  /-- The shadow's validation and digest (R466). -/
  validated   : Option Bytes := none
  /-- A committed swap: its epoch and digest (R468). -/
  swap        : Option (Nat × Bytes) := none
  /-- Earlier active sets, each with the stamp of the swap that replaced it (Table 8-4). -/
  oldSets     : List (Nat × CfgSet) := []
  comp1       : Component := {}
  comp2       : Component := {}
  images      : Tbl Component := []
  /-- Flow table: key 2^32 times the space plus the flow; space 1,024 is the admin mailbox (R69, R180). -/
  flows       : Tbl Flow := []
  /-- Discarded request ids, key 2^64 times the space plus the id, with the stamp of the discard (R71). -/
  discarded   : Tbl Nat := []
  /-- The admin space's replay entries (R78, R84). -/
  admReplay   : List Replay := []
  /-- Ledger entries taken from the module's revocation reserve (R143). -/
  reserveUsed : Nat := 0
  deriving DecidableEq, Repr

/-- A request for an Almanac record. -/
structure EvReq where
  id     : Nat
  sev    : Nat
  origin : Nat
  stamp  : Nat
  detail : Bytes
  deriving DecidableEq, Repr

/-- The two configuration sets, with the digest of the validated shadow set and the swap that awaits its epoch (R465 to R469). -/
structure CfgState where
  a : CfgSet := {}
  b : CfgSet := {}
  validated : Option Bytes := none
  swap : Option (Nat × Bytes) := none
  deriving DecidableEq, Repr

/-- A change that a commit makes to shared state (R330). -/
inductive Effect where
  | keyPut (c h : Nat) (k : KeyRec)
  | keyErase (c h : Nat)
  | keyUnload (c h q : Nat)
  | ledgerDel (c h : Nat)
  | transportDel (c : Nat)
  | replayDel (sp id : Nat)
  | drawDel (c g : Nat)
  | transportPut (c : Nat) (k : KeyRec)
  | ledgerPut (c h : Nat) (l : Ledger)
  | replayPut (sp : Nat) (r : Replay)
  | streamPut (c f : Nat) (st : Stream)
  | drawPut (c g : Nat) (d : Draw)
  | compCreate (c gen : Nat) (cmk wrapped : Bytes) (entry : Bytes)
  | compState (c : Nat) (st : CompState)
  | officerPut (scope c i : Nat) (o : Officer)
  | officerDel (scope c i : Nat)
  | approvalPut (id : Nat) (a : Approval)
  | approvalAdd (id : Nat) (a : Approval) (seen : Option Bytes)
  | approvalDel (id : Nat)
  | csetPut (c : Nat) (cs : Option CompSet)
  | cfgWrite (sec off : Nat) (data : Bytes)
  | cfgCopy
  | cfgValidated (digest : Option Bytes)
  | cfgSwap (e : Nat) (digest : Bytes)
  | slotWrite (comp image slot off : Nat) (data : Bytes) (verdict : Option Bool)
  | slotActivate (comp image slot svn : Nat) (pin : Option Bytes)
  | slotRetire (image low : Nat) (pin : Option Bytes)
  /-- What takes a change of the compartment registers, the configuration sets or the slots back in NVM (R332, R341). -/
  | compPut (c : Nat) (k : Comp)
  | compBack (c : Nat) (did st : CompState) (journal suspendAt : Option Nat)
  | cfgBack (did was : CfgState)
  | componentBack (comp image : Nat) (did was : Component)
  | dclAdd (c image n : Nat)
  /-- Module-wide effects carried out once, by the Relay (R332). -/
  | attnClear (mask : Nat)
  | healthClear
  | unlock (rnd : Bytes)
  | lcStart (target : Nat) (officers : Bytes)
  | recoveryOpen
  | dbgGrant (cert : Bytes) (path : Nat)
  deriving DecidableEq, Repr

/-- What the reply of a committed request still waits for (R151, R352, R397, R442, R469). -/
inductive Hold where
  | none
  | swap (e : Nat)
  | zeroized (c : Nat)
  | snapshot (e : Nat)
  | wiped
  | selftest (island : Nat)
  deriving DecidableEq, Repr

/-- An end record (R330): a commit record when `commits`. -/
structure EndRec where
  status  : Nat := 0
  result  : Bytes := []
  rlen    : Nat := 0
  effects : List Effect := []
  evs     : List EvReq := []
  commits : Bool := false
  /-- The commit stamp of Coachyard, and the root task's completion stamp, of its core (R33); 0 when no core ran it. -/
  stamp   : Nat := 0
  doneAt  : Nat := 0
  digest  : Bytes := []
  hold    : Hold := .none
  /-- For `REPLAYED`: the stored status and commit stamp (R77). -/
  orig    : Nat := 0
  replay  : Option Nat := .none
  deriving DecidableEq, Repr

/-- Task states (Table 8-1). -/
inductive TaskState where
  | waiting
  | ready
  | running
  | suspended
  | exiting
  deriving DecidableEq, Repr

/-- A task descriptor (Table 8-1). -/
structure Task where
  st       : TaskState := .waiting
  dep      : Nat := 0
  dispatch : Nat := 0
  entry    : Nat := 0
  arg      : Nat := 0
  /-- Core time charged, in Meridian units (R183); and the start of the interval being charged. -/
  used     : Nat := 0
  chargeOn : Option Nat := none
  /-- The context that holds the task: its island and context number. -/
  ctx      : Option Cid := none
  timedOut : Bool := false
  /-- The root joined this child (R241). -/
  joined   : Bool := false
  prereqs  : Nat := 0
  /-- Pre-empting task (R187), and whether a suspension was for a reserved share. -/
  preempting : Bool := false
  /-- Issued engine operations and Orrery calls outstanding, and asynchronous services (R243, R244). -/
  engOut   : Nat := 0
  orrOut   : Nat := 0
  /-- Core time charged when its time-out came (R191). -/
  usedAt   : Nat := 0
  deriving DecidableEq, Repr

/-- A deferred claim of one declaration (R236). -/
structure Claim where
  decl  : Nat
  handle : Nat
  use   : Bool
  nonce : Bool
  done  : Bool := false
  deriving DecidableEq, Repr

/-- A kind of asynchronous completion on its way to Coachyard (R177, R243). -/
inductive DoneKind where
  | pred (ok : Bool)
  | engine
  | orrery
  | service
  | child
  deriving DecidableEq, Repr

/-- A completion: the request and task it lowers, and its kind. -/
structure Done where
  q    : Nat
  task : Nat
  kind : DoneKind
  deriving DecidableEq, Repr

/-- An asynchronous service in progress (R243). -/
inductive Async where
  | payload (q task off len dst : Nat) (c : Cid)
  | rng (q task dst len tag : Nat) (c : Cid)
  | keyGet (q task h dst : Nat) (c : Cid)
  deriving DecidableEq, Repr

/-- The state of a CTR_DRBG instance with AES (SP 800-90A): key and V. -/
structure Drbg where
  key : Bytes := []
  v   : Bytes := []
  deriving DecidableEq, Repr

/-- A request in one twin (R176, R236, R240, R242). -/
structure Req where
  hdr       : Hdr := {}
  /-- The space it belongs to: its compartment, or 1,024 for the admin mailbox (R69). -/
  space     : Nat := 0
  inline    : Bytes := []
  preds     : List Nat := []
  /-- The predecessors whose completion has been told (R177). -/
  told      : List Nat := []
  /-- Payload bytes that this twin has read: offset and data (R327, R328). -/
  chunks    : List (Nat × Bytes) := []
  dep       : Nat := 0
  failMark  : Bool := false
  precMark  : Bool := false
  tasks     : Tbl Task := []
  keyStatus : List Nat := []
  claims    : List Claim := []
  nonce     : Nat := 0
  /-- The keys declared, with their counters as the requests accepted earlier leave them (R125, R146). -/
  snaps     : Tbl KeyRec := []
  newH      : List Nat := []
  newUsed   : Nat := 0
  /-- The handles this request may name (R237): passed declarations and created keys. -/
  allowed   : List Nat := []
  image     : Nat := 0
  /-- Replay reservation in result units (R76), and slots and ledger entries taken (R139, R143). -/
  resUnits  : Nat := 0
  slotsTaken : Nat := 0
  extTaken  : Nat := 0
  ledTaken  : Nat := 0
  childVals : Tbl Nat := []
  result    : Bytes := []
  staged    : List Effect := []
  stagedEv  : List EvReq := []
  dcl       : Nat := 0
  /-- The task generators, by task index, each with its consumer calls so far (R320, R321). -/
  gens      : Tbl (Drbg × Nat) := []
  begun     : Bool := false
  timedOut  : Option Nat := none
  /-- Standby: the active's deadline verdict has arrived (R190). -/
  verdict   : Option Nat := none
  fin       : Option EndRec := none
  /-- The end record's effects stand in the twin's state (R190, R330), and what takes them back at an abort (R197). -/
  applied   : Bool := false
  undo      : List Effect := []
  /-- The end record has been compared, or resolved under Table 14-5 (R334). -/
  compared  : Bool := false
  mismatch  : Bool := false
  /-- The read log, kept until the digests have been compared: the shared state that the request may read, as it stood when the
  request began (R344). -/
  log       : Option Store := none
  /-- Payload bytes that the re-execution has read again (R344). -/
  rechunks  : List (Nat × Bytes) := []
  /-- Re-execution: the core that it runs on, and whether this twin reproduced its first digest (R345). -/
  reexecOn  : Option Nat := none
  reexec    : Option Bool := none
  /-- The other twin's end digest and the epoch of the batch that brought it; a batch of an epoch up to `digFrom` carries a
  digest formed before this twin's end record was replaced (R190, R197, R331). -/
  peerDig   : Option (Nat × Bytes) := none
  digFrom   : Nat := 0
  /-- A security disable before any isolation ended the request (R197, R343). -/
  secure    : Bool := false
  /-- What the end record of an admin command still waits for before it can be formed (R352, R442). -/
  awaits    : Hold := .none
  /-- What the Relay held of a request that a switch-over discarded while its re-execution runs: whose end record came first, and
  what takes back what that changed in NVM (R332, R345). -/
  relayFirst : Option Twin := none
  relayUndo : List Effect := []
  /-- The epoch of the batch that carried the end digest (R331). -/
  sent      : Option Nat := none
  draw      : Option (Nat × Nat) := none
  /-- The first 64 payload bytes delivered with the entry (R236, R327). -/
  head      : Bytes := []
  /-- The replay entry that answers the request, as it stood when it was matched (R77). -/
  matched   : Option Replay := none
  /-- The status with which acceptance refuses the request, unless the request of the same id that is still in service leaves a
  replay entry that answers it (R71, R72, R77); 0 for none. -/
  denied    : Nat := 0
  /-- The handles that the request declares (R148, R236). -/
  named     : List Nat := []
  /-- The tasks whose next new key has passed the quota step while it waits for its material, once for each key (R139). -/
  paid      : List Nat := []
  /-- Effects and records that stand however the request ends: the entry of a key that its assignment exhausted (R143). -/
  sure      : List Effect := []
  sureEv    : List EvReq := []
  /-- The tasks that wait for randomness (R193, R320), and those of them whose wait for a generator slot has been counted
  (R322). -/
  rngWait   : List Nat := []
  slotWait  : List Nat := []
  /-- Core time of tasks that have left (R247). -/
  ran       : Nat := 0
  /-- Slots, extension slots, ledger entries and reserve entries agreed at the last batch before acceptance, and its
  epoch (R139, R143). -/
  base      : List Nat := []
  deriving DecidableEq, Repr

/-- What a context's rank-6 wait is for (R238, R320): a page of its image that the quadrant's image cache lacks, room in the
cluster's SRAM, or randomness. -/
inductive MemWait where
  | nothing
  | page (n : Nat)
  | sram
  | rng
  deriving DecidableEq, Repr

/-- A Kaibas context (R200 to R208, R239). Words carry their tag beside them. -/
structure Ctx where
  occ     : Bool := false
  /-- The request and task it runs; none in Zenith's contexts. -/
  task    : Option (Nat × Nat) := none
  comp    : Nat := 0
  pc      : BitVec 64 := 0
  regs    : Tbl (Word × Bool) := []
  ea      : Tbl (BitVec 64) := []
  lk      : BitVec 64 := 0
  rc      : BitVec 32 := 0
  ev      : BitVec 64 := 0
  epc     : BitVec 64 := 0
  ecause  : BitVec 32 := 0
  einfo   : BitVec 64 := 0
  esr     : BitVec 64 := 0
  acc     : BitVec 192 := 0
  accTag  : Bool := false
  dclc    : BitVec 64 := 0
  sr      : BitVec 64 := 0
  rep     : Option (BitVec 64) := none
  waiting : Bool := false
  /-- What a context in a rank-6 wait waits for (R238). -/
  wants   : MemWait := .nothing
  /-- Local memory: bytes by address, and tagged 8-byte words by word number (R209). -/
  lmem    : Tbl (BitVec 8) := []
  ltags   : List Nat := []
  deriving DecidableEq, Repr

end Sys2Proof.Machine
end

