-- ==== Sys2Proof/Machine/Bytes.lean ====
section
/-! DEFINITION. Octet strings, bit fields and sparse tables: the plain helpers that every operation uses. -/

namespace Sys2Proof.Machine

/-- Bits `hi` to `lo` of a number, both included (R5). -/
def bits (v hi lo : Nat) : Nat := v / 2 ^ lo % 2 ^ (hi - lo + 1)

/-- Bit `i` of a number (R5). -/
def bit (v i : Nat) : Bool := v / 2 ^ i % 2 == 1

/-- A Bool as the bit it stands for. -/
def b2n (b : Bool) : Nat := if b then 1 else 0

/-- `n` zero bytes. -/
def zeros (n : Nat) : Bytes := List.replicate n 0

/-- A byte of a number's low eight bits. -/
def byte (n : Nat) : Byte := BitVec.ofNat 8 n

/-- The little-endian value of an octet string (R4). -/
def leNat : Bytes → Nat
  | [] => 0
  | b :: bs => b.toNat + 256 * leNat bs

/-- The little-endian octets of a number, `n` of them (R4). -/
def toLe : Nat → Nat → Bytes
  | 0, _ => []
  | n + 1, v => byte v :: toLe n (v / 256)

/-- The big-endian value of an octet string. -/
def beNat (b : Bytes) : Nat := leNat b.reverse

/-- The big-endian octets of a number, `n` of them. -/
def toBe (n v : Nat) : Bytes := (toLe n v).reverse

/-- The first `n` bytes of an octet string, with zeros where it is shorter. -/
def fixLen (n : Nat) (b : Bytes) : Bytes := (b ++ zeros n).take n

/-- `len` bytes from offset `off`, with zeros beyond the end. -/
def slice (b : Bytes) (off len : Nat) : Bytes := fixLen len (b.drop off)

/-- The little-endian field of `len` bytes at offset `off`. -/
def fld (b : Bytes) (off len : Nat) : Nat := leNat (slice b off len)

/-- The octet string with `d` written over it at offset `off`. -/
def patch (b : Bytes) (off : Nat) (d : Bytes) : Bytes :=
  fixLen off b ++ d ++ b.drop (off + d.length)

/-- The exclusive or of two octet strings, to the shorter length. -/
def xorB (a b : Bytes) : Bytes := List.zipWith (· ^^^ ·) a b

/-- Whether every byte of a range is zero. -/
def allZero (b : Bytes) : Bool := b.all (· == 0)

/-- The octets of a text in ASCII. -/
def ascii (s : String) : Bytes := s.toList.map (fun c => byte c.toNat)

/-- An octet string in pieces of `n` bytes, the last one possibly shorter. -/
def piecesAux : Nat → Nat → Bytes → List Bytes
  | 0, _, _ => []
  | _ + 1, _, [] => []
  | k + 1, n, b => b.take n :: piecesAux k n (b.drop n)

/-- An octet string in pieces of `n` bytes, the last one possibly shorter. -/
def pieces (n : Nat) (b : Bytes) : List Bytes := piecesAux b.length n b

/-- The decimal digits packed two per byte, first digit in the high nibble (R88). -/
def nibbles : Bytes → List Nat
  | [] => []
  | b :: bs => b.toNat / 16 :: b.toNat % 16 :: nibbles bs

/-- Nibbles packed two per byte, first in the high nibble (R88). -/
def packNibbles : List Nat → Bytes
  | [] => []
  | [a] => [byte (16 * a)]
  | a :: b :: ns => byte (16 * a + b) :: packNibbles ns

/-- The quotient rounded up. -/
def ceilDiv (a b : Nat) : Nat := (a + b - 1) / b

/-- Saturating count in `n` bits (R353). -/
def satAdd (n v d : Nat) : Nat := min (v + d) (2 ^ n - 1)

/-- The number of one bits of a number below 2^n. -/
def popCount : Nat → Nat → Nat
  | 0, _ => 0
  | n + 1, v => v % 2 + popCount n (v / 2)

namespace Tbl

variable {α : Type}

/-- The entry of a key. -/
def find? : Tbl α → Nat → Option α
  | [], _ => none
  | (j, x) :: t, i => if i = j then some x else find? t i

/-- The entry of a key, or a default. -/
def getD (t : Tbl α) (i : Nat) (d : α) : α := (find? t i).getD d

/-- The table with a key's entry set. -/
def put : Tbl α → Nat → α → Tbl α
  | [], i, x => [(i, x)]
  | (j, y) :: t, i, x =>
    if i < j then (i, x) :: (j, y) :: t
    else if i = j then (i, x) :: t
    else (j, y) :: put t i x

/-- The table without a key's entry. -/
def del (t : Tbl α) (i : Nat) : Tbl α := t.filter (fun e => e.1 != i)

/-- The table with an existing entry changed. -/
def upd (t : Tbl α) (i : Nat) (f : α → α) : Tbl α :=
  match find? t i with
  | some x => put t i (f x)
  | none => t

/-- The keys, in rising order. -/
def keys (t : Tbl α) : List Nat := t.map Prod.fst

/-- The canonical form: keys strictly rising. -/
def wf : Tbl α → Bool
  | [] => true
  | [_] => true
  | (i, _) :: (j, y) :: t => decide (i < j) && wf ((j, y) :: t)

/-- The canonical form of a sparse memory: keys strictly rising, and no entry equal to what an absent one reads as. -/
def canonical [DecidableEq α] (t : Tbl α) (d : α) : Bool := wf t && t.all (fun e => decide (e.2 ≠ d))

/-- Writes a value, or removes the entry when the value is what an absent entry reads as. -/
def store [DecidableEq α] (t : Tbl α) (i : Nat) (x d : α) : Tbl α :=
  if x = d then del t i else put t i x

end Tbl

end Sys2Proof.Machine
end

