-- ==== Sys2Proof/Machine/Crypto.lean ====
section
/-! DEFINITION. The ciphers and hash functions that the spec names by their standards: AES, TDEA, SHA-2, SHAKE,
HMAC, CMAC, KMAC and the SP 800-108 counter KDF, with the modes the spec builds on them.
PRESUMED: the algorithms are taken from the standards that R87 to R125 and R252 to R279 name (assumption 16). -/

namespace Sys2Proof.Machine

/-- The `n` fields of `w` bits of a constant, the first one in the highest place. -/
def fields (n w v : Nat) : List Nat := (List.range n).map (fun i => v >>> (w * (n - 1 - i)) % 2 ^ w)

/-- One field of a constant of `n` fields of `w` bits. -/
def field (n w v i : Nat) : Nat := v >>> (w * (n - 1 - i)) % 2 ^ w

/-- The round constants of SHA-384 and SHA-512: the first 64 fractional bits of the cube roots of the first 80
primes (FIPS 180-4). -/
def sha512K : List Nat :=
  fields 20 64 0x428a2f98d728ae227137449123ef65cdb5c0fbcfec4d3b2fe9b5dba58189dbbc3956c25bf348b53859f111f1b605d019923f82a4af194f9bab1c5ed5da6d8118d807aa98a303024212835b0145706fbe243185be4ee4b28c550c7dc3d5ffb4e272be5d74f27b896f80deb1fe3b1696b19bdc06a725c71235c19bf174cf692694e49b69c19ef14ad2efbe4786384f25e30fc19dc68b8cd5b5240ca1cc77ac9c65 ++
  fields 20 64 0x2de92c6f592b02754a7484aa6ea6e4835cb0a9dcbd41fbd476f988da831153b5983e5152ee66dfaba831c66d2db43210b00327c898fb213fbf597fc7beef0ee4c6e00bf33da88fc2d5a79147930aa72506ca6351e003826f142929670a0e6e7027b70a8546d22ffc2e1b21385c26c9264d2c6dfc5ac42aed53380d139d95b3df650a73548baf63de766a0abb3c77b2a881c2c92e47edaee692722c851482353b ++
  fields 20 64 0xa2bfe8a14cf10364a81a664bbc423001c24b8b70d0f89791c76c51a30654be30d192e819d6ef5218d69906245565a910f40e35855771202a106aa07032bbd1b819a4c116b8d2d0c81e376c085141ab532748774cdf8eeb9934b0bcb5e19b48a8391c0cb3c5c95a634ed8aa4ae3418acb5b9cca4f7763e373682e6ff3d6b2b8a3748f82ee5defb2fc78a5636f43172f6084c87814a1f0ab728cc702081a6439ec ++
  fields 20 64 0x90befffa23631e28a4506cebde82bde9bef9a3f7b2c67915c67178f2e372532bca273eceea26619cd186b8c721c0c207eada7dd6cde0eb1ef57d4f7fee6ed17806f067aa72176fba0a637dc5a2c898a6113f9804bef90dae1b710b35131c471b28db77f523047d8432caab7b40c724933c9ebe0a15c9bebc431d67c49c100d4c4cc5d4becb3e42b6597f299cfc657e2a5fcb6fab3ad6faec6c44198c4a475817

/-- The round constants of SHA-256: the first 32 fractional bits of the cube roots of the first 64 primes. -/
def sha256K : List Nat := (sha512K.take 64).map (fun k => k >>> 32)

/-- The initial value of SHA-512: the first 64 fractional bits of the square roots of the first 8 primes. -/
def sha512H : List Nat :=
  fields 8 64 0x6a09e667f3bcc908bb67ae8584caa73b3c6ef372fe94f82ba54ff53a5f1d36f1510e527fade682d19b05688c2b3e6c1f1f83d9abfb41bd6b5be0cd19137e2179

/-- The initial value of SHA-384: those of the next 8 primes. -/
def sha384H : List Nat :=
  fields 8 64 0xcbbb9d5dc1059ed8629a292a367cd5079159015a3070dd17152fecd8f70e593967332667ffc00b318eb44a8768581511db0c2e0d64f98fa747b5481dbefa4fa4

/-- The initial value of SHA-256: the first 32 fractional bits of the square roots of the first 8 primes. -/
def sha256H : List Nat := sha512H.map (fun h => h >>> 32)

/-- The round constants of Keccak-f[1600] (FIPS 202). -/
def keccakRC : List Nat :=
  fields 24 64 0x00000000000000010000000000008082800000000000808a8000000080008000000000000000808b000000008000000180000000800080818000000000008009000000000000008a00000000000000880000000080008009000000008000000a000000008000808b800000000000008b8000000000008089800000000000800380000000000080028000000000000080000000000000800a800000008000000a8000000080008081800000000000808000000000800000018000000080008008

/-- The rotation offsets of Keccak-f[1600], lane x + 5y: the t-th lane of the walk (x, y) to (y, 2x + 3y) from (1, 0)
turns by the triangular number of t + 1. -/
def keccakRot : List Nat :=
  let walk := fun (st : List Nat × Nat × Nat) (t : Nat) =>
    (st.1.set (st.2.1 + 5 * st.2.2) ((t + 1) * (t + 2) / 2 % 64), st.2.2, (2 * st.2.1 + 3 * st.2.2) % 5)
  ((List.range 24).foldl walk (List.replicate 25 0, 1, 0)).1

/-- The initial permutation of DES: eight columns of bit numbers, each falling by 8. -/
def desIP : List Nat := [58, 60, 62, 64, 57, 59, 61, 63].flatMap (fun a => (List.range 8).map (fun k => a - 8 * k))

/-- The final permutation of DES, the inverse of the initial one. -/
def desFP : List Nat := (List.range 8).flatMap (fun i => [40, 8, 48, 16, 56, 24, 64, 32].map (fun a => a - i))

/-- The expansion of DES: four bits with their neighbours. -/
def desE : List Nat := (List.range 8).flatMap (fun i => (List.range 6).map (fun j => (4 * i + j + 31) % 32 + 1))

/-- The round permutation of DES. -/
def desP : List Nat :=
  fields 32 8 0x100714151d0c1c11010f171a05121f0a0208180e201b0309130d1e06160b0419

/-- Permuted choice 1 of DES: the key bits but each byte's last, by columns. -/
def desPC1 : List Nat :=
  let col := fun (l : List Nat) => l.flatMap (fun a => (List.range 8).map (fun k => a - 8 * k))
  col [57, 58, 59] ++ [60, 52, 44, 36] ++ col [63, 62, 61] ++ [28, 20, 12, 4]

/-- Permuted choice 2 of DES. -/
def desPC2 : List Nat :=
  fields 48 8 0x0e110b180105031c0f06150a17130c041a0810071b140d0229341f252f371e28332d21302c31273822352e2a32241d20

/-- The key rotations of DES: by one in rounds 1, 2, 9 and 16. -/
def desShift : List Nat := (List.range 16).map (fun i => if i = 0 ∨ i = 1 ∨ i = 8 ∨ i = 15 then 1 else 2)

/-- The eight substitution boxes of DES, 64 digits each in row order. -/
def desS : List Nat :=
  [0xe4d12fb83a6c59070f74e2d1a6cb953841e8d62bfc973a50fc8249175b3ea06d,
   0xf18e6b34972dc05a3d47f28ec01a69b50e7ba4d158c6932fd8a13f42b67c05e9,
   0xa09e63f51dc7b428d709346a285ecbf1d6498f30b12c5ae71ad069874fe3b52c,
   0x7de3069a1285bc4fd8b56f03472c1ae9a690cb7df13e52843f06a1d8945bc72e,
   0x2c417ab6853fd0e9eb2c47d150fa3986421bad78f9c5630eb8c71e2d6f09a453,
   0xc1af92680d34e75baf427c9561de0b389ef528c3704a1db6432c95fabe17608d,
   0x4b2ef08d3c975a61d0b7491ae35c2f8614bdc37eaf6805926bd814a7950fe23c,
   0xd2846fb1a93e50c71fd8a374c56b0e927b419ce206adf35821e74a8dfc90356b]

/-- One FIPS 180-4 compression constant set: word width, rotations and message length field. -/
structure Sha2 where
  w   : Nat
  s0  : Nat × Nat × Nat
  s1  : Nat × Nat × Nat
  g0  : Nat × Nat × Nat
  g1  : Nat × Nat × Nat
  ks  : List Nat
  iv  : List Nat
  out : Nat

/-- SHA-256. -/
def shaP256 : Sha2 :=
  { w := 32, s0 := (2, 13, 22), s1 := (6, 11, 25), g0 := (7, 18, 3), g1 := (17, 19, 10),
    ks := sha256K, iv := sha256H, out := 32 }

/-- SHA-384. -/
def shaP384 : Sha2 :=
  { w := 64, s0 := (28, 34, 39), s1 := (14, 18, 41), g0 := (1, 8, 7), g1 := (19, 61, 6),
    ks := sha512K, iv := sha384H, out := 48 }

/-- SHA-512. -/
def shaP512 : Sha2 := { shaP384 with iv := sha512H, out := 64 }

/-- Exclusive or of three rotations, or of two and a shift. -/
def sigma {w : Nat} (r : Nat × Nat × Nat) (shift : Bool) (x : BitVec w) : BitVec w :=
  x.rotateRight r.1 ^^^ x.rotateRight r.2.1 ^^^
    (if shift then x >>> r.2.2 else x.rotateRight r.2.2)

/-- The message schedule, newest word first. -/
def shaSched (p : Sha2) : Nat → List (BitVec p.w) → List (BitVec p.w)
  | 0, ws => ws
  | n + 1, ws =>
    shaSched p n ((sigma p.g1 true (ws.getD 1 0) + ws.getD 6 0 + sigma p.g0 true (ws.getD 14 0) +
      ws.getD 15 0) :: ws)

/-- One round on the working variables a to h. -/
def shaRound (p : Sha2) (v : List (BitVec p.w)) (k : Nat) (wd : BitVec p.w) : List (BitVec p.w) :=
  match v with
  | [a, b, c, d, e, f, g, h] =>
    let t1 := h + sigma p.s1 false e + ((e &&& f) ^^^ (~~~e &&& g)) + BitVec.ofNat p.w k + wd
    let t2 := sigma p.s0 false a + ((a &&& b) ^^^ (a &&& c) ^^^ (b &&& c))
    [t1 + t2, a, b, c, d + t1, e, f, g]
  | v => v

/-- The compression of one block. -/
def shaBlock (p : Sha2) (h : List (BitVec p.w)) (blk : Bytes) : List (BitVec p.w) :=
  let w16 := (pieces (p.w / 8) blk).map (fun b => BitVec.ofNat p.w (beNat b))
  let ws := (shaSched p (p.ks.length - 16) w16.reverse).reverse
  let v := (p.ks.zip ws).foldl (fun v kw => shaRound p v kw.1 kw.2) h
  List.zipWith (· + ·) h v

/-- A SHA-2 hash. -/
def sha2 (p : Sha2) (m : Bytes) : Bytes :=
  let blk := p.w * 2
  let n := m.length + 1 + p.w / 4
  let pad := m ++ [0x80] ++ zeros ((blk - n % blk) % blk) ++ toBe (p.w / 4) (8 * m.length)
  let h := (pieces blk pad).foldl (shaBlock p) (p.iv.map (BitVec.ofNat p.w))
  ((h.map (fun x => toBe (p.w / 8) x.toNat)).flatten).take p.out

/-- SHA-256. -/
def sha256 (m : Bytes) : Bytes := sha2 shaP256 m

/-- SHA-384. -/
def sha384 (m : Bytes) : Bytes := sha2 shaP384 m

/-- SHA-512. -/
def sha512 (m : Bytes) : Bytes := sha2 shaP512 m

/-- HMAC (FIPS 198-1). -/
def hmac (p : Sha2) (key m : Bytes) : Bytes :=
  let blk := p.w * 2
  let k := fixLen blk (if blk < key.length then sha2 p key else key)
  sha2 p (k.map (· ^^^ 0x5C) ++ sha2 p (k.map (· ^^^ 0x36) ++ m))

/-- One round of Keccak-f[1600] on 25 lanes. -/
def keccakRound (a : List (BitVec 64)) (rc : Nat) : List (BitVec 64) :=
  let at' := fun (l : List (BitVec 64)) (i : Nat) => l.getD i 0
  let c := (List.range 5).map (fun x => at' a x ^^^ at' a (x + 5) ^^^ at' a (x + 10) ^^^ at' a (x + 15) ^^^ at' a (x + 20))
  let d := (List.range 5).map (fun x => at' c ((x + 4) % 5) ^^^ (at' c ((x + 1) % 5)).rotateLeft 1)
  let r := (List.range 25).map (fun i => (at' a i ^^^ at' d (i % 5)).rotateLeft (keccakRot.getD i 0))
  -- lane (y, 2x + 3y) of the next state takes lane (x, y): the source of lane (X, Y) is x = X + 3Y, y = X
  let b := (List.range 25).map (fun i => let xx := i % 5; let yy := i / 5; at' r ((xx + 3 * yy) % 5 + 5 * xx))
  let e := (List.range 25).map (fun i =>
    let x := i % 5; let y := i / 5
    at' b i ^^^ (~~~(at' b ((x + 1) % 5 + 5 * y)) &&& at' b ((x + 2) % 5 + 5 * y)))
  match e with
  | x :: xs => (x ^^^ BitVec.ofNat 64 rc) :: xs
  | [] => []

/-- The state of 25 lanes as 200 bytes, and back. -/
def keccakF (s : Bytes) : Bytes :=
  let lanes := (pieces 8 (fixLen 200 s)).map (fun b => BitVec.ofNat 64 (leNat b))
  ((keccakRC.foldl keccakRound lanes).map (fun l => toLe 8 l.toNat)).flatten

/-- The squeezed output of a sponge. -/
def squeeze (rate : Nat) : Nat → Bytes → Bytes
  | 0, _ => []
  | k + 1, s => s.take rate ++ squeeze rate k (keccakF s)

/-- A Keccak sponge with a domain byte (FIPS 202). -/
def sponge (rate : Nat) (dom : Byte) (m : Bytes) (len : Nat) : Bytes :=
  let n := m.length % rate
  let pad := if n + 1 = rate then [dom ^^^ 0x80] else [dom] ++ zeros (rate - n - 2) ++ [0x80]
  let s := (pieces rate (m ++ pad)).foldl (fun s b => keccakF (xorB s (fixLen 200 b))) (zeros 200)
  (squeeze rate (len / rate + 1) s).take len

/-- SHAKE128. -/
def shake128 (m : Bytes) (len : Nat) : Bytes := sponge 168 0x1F m len

/-- SHAKE256. -/
def shake256 (m : Bytes) (len : Nat) : Bytes := sponge 136 0x1F m len

/-- The least number of bytes, at least one, that hold a value below 2^64. -/
def encLen (v : Nat) : Nat :=
  match (List.range 8).find? (fun i => decide (v < 256 ^ (i + 1))) with
  | some i => i + 1
  | none => 8

/-- `left_encode` of SP 800-185. -/
def leftEnc (v : Nat) : Bytes := byte (encLen v) :: toBe (encLen v) v

/-- `right_encode` of SP 800-185. -/
def rightEnc (v : Nat) : Bytes := toBe (encLen v) v ++ [byte (encLen v)]

/-- `encode_string` of SP 800-185. -/
def encStr (s : Bytes) : Bytes := leftEnc (8 * s.length) ++ s

/-- `bytepad` of SP 800-185. -/
def bytepad (w : Nat) (x : Bytes) : Bytes :=
  let z := leftEnc w ++ x
  z ++ zeros ((w - z.length % w) % w)

/-- KMAC128 or KMAC256 by its rate, with a customisation string (SP 800-185). -/
def kmac (rate : Nat) (key m cust : Bytes) (len : Nat) : Bytes :=
  sponge rate 0x04 (bytepad rate (encStr (ascii "KMAC") ++ encStr cust) ++ bytepad rate (encStr key) ++ m ++
    rightEnc (8 * len)) len

/-- Multiplication by x in the AES field. -/
def xtime (b : Byte) : Byte := (b <<< 1) ^^^ (if b.msb then 0x1B else 0)

/-- Multiplication in the AES field, over the bits of the second factor. -/
def gmulAux : Nat → Byte → Byte → Byte
  | 0, _, _ => 0
  | n + 1, a, b => (if b.getLsbD 0 then a else 0) ^^^ gmulAux n (xtime a) (b >>> 1)

/-- A byte times a constant below 16 in the AES field. -/
def gmul (k b : Byte) : Byte := gmulAux 4 b k

/-- The AES substitution box, 256 bytes in rising order of the byte replaced (FIPS 197). -/
def sbox : Nat :=
  0x637c777bf26b6fc53001672bfed7ab76ca82c97dfa5947f0add4a2af9ca472c0b7fd9326363ff7cc34a5e5f171d8311504c723c31896059a071280e2eb27b27509832c1a1b6e5aa0523bd6b329e32f8453d100ed20fcb15b6acbbe394a4c58cfd0efaafb434d338545f9027f503c9fa851a3408f929d38f5bcb6da2110fff3d2cd0c13ec5f974417c4a77e3d645d197360814fdc222a908846eeb814de5e0bdbe0323a0a4906245cc2d3ac629195e479e7c8376d8dd54ea96c56f4ea657aae08ba78252e1ca6b4c6e8dd741f4bbd8b8a703eb5664803f60e613557b986c11d9ee1f8981169d98e949b1e87e9ce5528df8ca1890dbfe6426841992d0fb054bb16

/-- The inverse AES substitution box (FIPS 197). -/
def invSbox : Nat :=
  0x52096ad53036a538bf40a39e81f3d7fb7ce339829b2fff87348e4344c4dee9cb547b9432a6c2233dee4c950b42fac34e082ea16628d924b2765ba2496d8bd12572f8f66486689816d4a45ccc5d65b6926c704850fdedb9da5e154657a78d9d8490d8ab008cbcd30af7e45805b8b34506d02c1e8fca3f0f02c1afbd0301138a6b3a9111414f67dcea97f2cfcef0b4e67396ac7422e7ad3585e2f937e81c75df6e47f11a711d29c5896fb7620eaa18be1bfc563e4bc6d279209adbc0fe78cd5af41fdda8338807c731b11210592780ec5f60517fa919b54a0d2de57a9f93c99cefa0e03b4dae2af5b0c8ebbb3c83539961172b047eba77d626e169146355210c7d

/-- Substitution by a box. -/
def subst (box : Nat) (b : Byte) : Byte := byte (field 256 8 box b.toNat)

/-- The words of the AES key schedule, newest first. -/
def aesSched (nk : Nat) : Nat → Nat → Byte → List Bytes → List Bytes
  | 0, _, _, ws => ws
  | n + 1, i, rcon, ws =>
    let t := ws.headD []
    let rot := t.drop 1 ++ t.take 1
    let first := i % nk == 0
    let t' := if first then xorB (rot.map (subst sbox)) [rcon, 0, 0, 0]
      else if nk == 8 && i % nk == 4 then t.map (subst sbox) else t
    aesSched nk n (i + 1) (if first then xtime rcon else rcon) (xorB (ws.getD (nk - 1) []) t' :: ws)

/-- The AES round keys of a key of 16, 24 or 32 bytes. -/
def aesKeys (key : Bytes) : List Bytes :=
  let nk := key.length / 4
  let ws := (aesSched nk (4 * (nk + 7) - nk) nk 1 (pieces 4 key).reverse).reverse
  pieces 16 ws.flatten

/-- One column times the circulant matrix of a row (FIPS 197). -/
def mixCol (row : List Byte) (c : Bytes) : Bytes :=
  (List.range 4).map (fun i =>
    ((List.range 4).map (fun j => gmul (row.getD ((j + 4 - i) % 4) 0) (c.getD j 0))).foldl (· ^^^ ·) 0)

/-- MixColumns with a row. -/
def mixCols (row : List Byte) (s : Bytes) : Bytes := ((pieces 4 s).map (mixCol row)).flatten

/-- ShiftRows: byte i of the result is byte `i + k * 4 * (i mod 4)` of the state, k = 1 or 3. -/
def shiftRows (k : Nat) (s : Bytes) : Bytes :=
  (List.range 16).map (fun i => s.getD ((i + k * 4 * (i % 4)) % 16) 0)

/-- AES encryption of one block. -/
def aesE (key blk : Bytes) : Bytes :=
  match aesKeys key with
  | [] => fixLen 16 blk
  | k0 :: ks =>
    let s := xorB (fixLen 16 blk) k0
    let s := ks.dropLast.foldl (fun s k => xorB (mixCols [2, 3, 1, 1] (shiftRows 1 (s.map (subst sbox)))) k) s
    xorB (shiftRows 1 (s.map (subst sbox))) (ks.getLastD [])

/-- AES decryption of one block. -/
def aesD (key blk : Bytes) : Bytes :=
  match (aesKeys key).reverse with
  | [] => fixLen 16 blk
  | kn :: ks =>
    let s := (shiftRows 3 (xorB (fixLen 16 blk) kn)).map (subst invSbox)
    let s := ks.dropLast.foldl (fun s k => (shiftRows 3 (mixCols [14, 11, 13, 9] (xorB s k))).map (subst invSbox)) s
    xorB s (ks.getLastD [])

/-- The bits of an octet string, most significant first. -/
def toBits (b : Bytes) : List Bool := b.flatMap (fun x => (List.range 8).map (fun i => x.getMsbD i))

/-- The number of a list of bits, most significant first. -/
def ofBits (l : List Bool) : Nat := l.foldl (fun a x => 2 * a + b2n x) 0

/-- A DES permutation: bit positions count from 1. -/
def permute (tab : List Nat) (l : List Bool) : List Bool := tab.map (fun i => l.getD (i - 1) false)

/-- The DES round function. -/
def desF (r k : List Bool) : List Bool :=
  let x := List.zipWith xor (permute desE r) k
  let ss := (List.range 8).flatMap (fun i =>
    let c := (x.drop (6 * i)).take 6
    let row := ofBits [c.getD 0 false, c.getD 5 false]
    let v := field 64 4 (desS.getD i 0) (16 * row + ofBits ((c.drop 1).take 4))
    (List.range 4).map (fun j => v / 2 ^ (3 - j) % 2 == 1))
  permute desP ss

/-- The DES round keys. -/
def desKeysAux : List Nat → List Bool → List Bool → List (List Bool)
  | [], _, _ => []
  | n :: ns, c, d =>
    let c := c.drop n ++ c.take n
    let d := d.drop n ++ d.take n
    permute desPC2 (c ++ d) :: desKeysAux ns c d

/-- DES on one 8-byte block, with the round keys in use order. -/
def desRun (ks : List (List Bool)) (blk : Bytes) : Bytes :=
  let b := permute desIP (toBits (fixLen 8 blk))
  let lr := ks.foldl (fun (lr : List Bool × List Bool) k => (lr.2, List.zipWith xor lr.1 (desF lr.2 k))) (b.take 32, b.drop 32)
  toBe 8 (ofBits (permute desFP (lr.2 ++ lr.1)))

/-- The DES round keys of an 8-byte key. -/
def desKeys (key : Bytes) : List (List Bool) :=
  let k := permute desPC1 (toBits (fixLen 8 key))
  desKeysAux desShift (k.take 28) (k.drop 28)

/-- DES encryption. -/
def desE1 (key blk : Bytes) : Bytes := desRun (desKeys key) blk

/-- DES decryption. -/
def desD1 (key blk : Bytes) : Bytes := desRun (desKeys key).reverse blk

/-- TDEA encryption under a two-key or three-key bundle. -/
def tdeaE (key blk : Bytes) : Bytes :=
  let k3 := if key.length = 24 then slice key 16 8 else slice key 0 8
  desE1 k3 (desD1 (slice key 8 8) (desE1 (slice key 0 8) blk))

/-- TDEA decryption under a two-key or three-key bundle. -/
def tdeaD (key blk : Bytes) : Bytes :=
  let k3 := if key.length = 24 then slice key 16 8 else slice key 0 8
  desD1 (slice key 0 8) (desE1 (slice key 8 8) (desD1 k3 blk))

/-- Whether an algorithm code is TDEA (Table 5-3). -/
def isTdea (alg : Nat) : Bool := alg == 1 || alg == 2

/-- Whether an algorithm code is AES (Table 5-3). -/
def isAes (alg : Nat) : Bool := decide (3 ≤ alg) && decide (alg ≤ 5)

/-- The block size of a block cipher's algorithm code. -/
def blkLen (alg : Nat) : Nat := if isTdea alg then 8 else 16

/-- Block encryption under a key of an algorithm code (R252). -/
def blkE (alg : Nat) (key blk : Bytes) : Bytes := if isTdea alg then tdeaE key blk else aesE key blk

/-- Block decryption under a key of an algorithm code (R252). -/
def blkD (alg : Nat) (key blk : Bytes) : Bytes := if isTdea alg then tdeaD key blk else aesD key blk

/-- ECB over whole blocks. -/
def ecb (f : Bytes → Bytes) (n : Nat) (m : Bytes) : Bytes := ((pieces n m).map f).flatten

/-- CBC encryption over whole blocks. -/
def cbcE (alg : Nat) (key iv m : Bytes) : Bytes :=
  ((pieces (blkLen alg) m).foldl (fun (s : Bytes × List Bytes) b =>
    let c := blkE alg key (xorB s.1 b)
    (c, s.2 ++ [c])) (fixLen (blkLen alg) iv, [])).2.flatten

/-- CBC decryption over whole blocks. -/
def cbcD (alg : Nat) (key iv m : Bytes) : Bytes :=
  ((pieces (blkLen alg) m).foldl (fun (s : Bytes × List Bytes) b =>
    (b, s.2 ++ [xorB (blkD alg key b) s.1])) (fixLen (blkLen alg) iv, [])).2.flatten

/-- Counter mode with a counter block that counts up as one big-endian number of its width. -/
def ctrMode (alg : Nat) (key ctr m : Bytes) : Bytes :=
  let n := blkLen alg
  let c0 := beNat (fixLen n ctr)
  let ks := (List.range (ceilDiv m.length n)).flatMap (fun i => blkE alg key (toBe n ((c0 + i) % 256 ^ n)))
  xorB m ks

/-- Doubling in GF(2^(8n)) with the constant of SP 800-38B. -/
def dblB (b : Bytes) : Bytes :=
  let n := b.length
  let v := beNat b * 2
  let r := v % 256 ^ n
  let c := if n = 8 then 0x1B else 0x87
  toBe n (if v < 256 ^ n then r else r ^^^ c)

/-- CMAC (SP 800-38B). -/
def cmac (alg : Nat) (key m : Bytes) : Bytes :=
  let n := blkLen alg
  let k1 := dblB (blkE alg key (zeros n))
  let k2 := dblB k1
  let full := decide (0 < m.length) && m.length % n == 0
  let body := if full then m.take (m.length - n) else m.take (m.length - m.length % n)
  let lastB := m.drop body.length
  let lastB := if full then xorB lastB k1 else xorB (fixLen n (lastB ++ [0x80])) k2
  (pieces n (body ++ lastB)).foldl (fun c b => blkE alg key (xorB c b)) (zeros n)

/-- S2V of RFC 5297 over the component list and the text. -/
def s2v (alg : Nat) (k1 : Bytes) (ads : List Bytes) (t : Bytes) : Bytes :=
  let d := ads.foldl (fun d a => xorB (dblB d) (cmac alg k1 a)) (cmac alg k1 (zeros 16))
  if 16 ≤ t.length then
    cmac alg k1 (t.take (t.length - 16) ++ xorB (t.drop (t.length - 16)) d)
  else cmac alg k1 (xorB (dblB d) (fixLen 16 (t ++ [0x80])))

/-- The AES code of one half of an AES-SIV key (R99). -/
def sivAlg (key : Bytes) : Nat := if key.length = 64 then 5 else 3

/-- The CTR start block of RFC 5297: the synthetic IV with bits 63 and 31 cleared. -/
def sivCtr (v : Bytes) : Bytes :=
  patch (patch v 8 [(v.getD 8 0) &&& 0x7F]) 12 [(v.getD 12 0) &&& 0x7F]

/-- AES-SIV encryption (RFC 5297): the synthetic IV followed by the ciphertext. -/
def sivSealB (key : Bytes) (ads : List Bytes) (m : Bytes) : Bytes :=
  let h := key.length / 2
  let v := s2v (sivAlg key) (key.take h) ads m
  v ++ ctrMode (sivAlg key) (key.drop h) (sivCtr v) m

/-- AES-SIV decryption (RFC 5297): the text, when the synthetic IV verifies. -/
def sivOpenB (key : Bytes) (ads : List Bytes) (c : Bytes) : Option Bytes :=
  let h := key.length / 2
  let v := c.take 16
  let m := ctrMode (sivAlg key) (key.drop h) (sivCtr v) (c.drop 16)
  if s2v (sivAlg key) (key.take h) ads m = v then some m else none

/-- Padding method 1 of ISO/IEC 9797-1, with the empty message as one zero block (R113). -/
def pad1 (n : Nat) (m : Bytes) : Bytes :=
  if m.isEmpty then zeros n else m ++ zeros ((n - m.length % n) % n)

/-- Padding method 2 of ISO/IEC 9797-1. -/
def pad2 (n : Nat) (m : Bytes) : Bytes :=
  m ++ [0x80] ++ zeros ((n - (m.length + 1) % n) % n)

/-- Removes padding method 2, when it conforms (R114). -/
def unpad2 (n : Nat) (m : Bytes) : Option Bytes :=
  if m.length % n ≠ 0 then none else
  match m.reverse.dropWhile (· == 0) with
  | 0x80 :: r => if m.length - r.length ≤ n then some r.reverse else none
  | _ => none

/-- ISO/IEC 9797-1 MAC algorithm 1 over padded data. -/
def mac9797a1 (alg : Nat) (key m : Bytes) : Bytes :=
  (pieces (blkLen alg) m).foldl (fun c b => blkE alg key (xorB c b)) (zeros (blkLen alg))

/-- ISO/IEC 9797-1 MAC algorithm 3 with a two-key TDEA key over padded data. -/
def mac9797a3 (key m : Bytes) : Bytes :=
  let h := (pieces 8 m).foldl (fun c b => desE1 (slice key 0 8) (xorB c b)) (zeros 8)
  desE1 (slice key 0 8) (desD1 (slice key 8 8) h)

/-- The MAC algorithms of Table 5-10 at full length; KMAC takes its output length. -/
def macAlg (code alg : Nat) (key m : Bytes) (len : Nat) : Bytes :=
  match code with
  | 0x01 => cmac alg key m
  | 0x02 => mac9797a1 alg key (pad1 8 m)
  | 0x03 => mac9797a1 alg key (pad2 8 m)
  | 0x04 => mac9797a3 key (pad1 8 m)
  | 0x05 => mac9797a3 key (pad2 8 m)
  | 0x06 => hmac shaP256 key m
  | 0x07 => hmac shaP384 key m
  | 0x08 => hmac shaP512 key m
  | 0x09 => kmac 168 key m [] len
  | _ => kmac 136 key m [] len

/-- The output length of a PRF of R116, in bytes. -/
def prfLen (code : Nat) : Nat :=
  match code with
  | 0x01 => 16
  | 0x06 => 32
  | 0x07 => 48
  | 0x08 => 64
  | _ => 0

/-- The SP 800-108 KDF of R116 by its PRF code: counter mode, and the KMAC construction for the KMAC PRFs, where
the context is the message and the label the customisation string. -/
def kdf108 (code alg : Nat) (key label ctx : Bytes) (len : Nat) : Bytes :=
  if code = 9 || code = 10 then kmac (if code = 9 then 168 else 136) key ctx label len
  else
    let n := prfLen code
    ((List.range (ceilDiv len n)).flatMap (fun i =>
      macAlg code alg key (toBe 4 (i + 1) ++ label ++ [0] ++ ctx ++ toBe 4 (8 * len)) n)).take len

end Sys2Proof.Machine
end

