-- ==== Sys2Proof/Machine/PubKey.lean ====
section
/-! DEFINITION. Public-key arithmetic (R100 to R102, R118 to R120, R295 to R299) and CTR_DRBG (R310).
PRESUMED: curve constants, FIPS 204 and SP 800-90A are taken from the standards the spec names (assumption 16). -/

namespace Sys2Proof.Machine

/-- Modular exponentiation over the bits of the exponent. -/
def modPowAux : Nat → Nat → Nat → Nat → Nat → Nat
  | 0, _, _, _, acc => acc
  | k + 1, b, e, m, acc => modPowAux k (b * b % m) (e / 2) m (if e % 2 = 1 then acc * b % m else acc)

/-- b^e mod m for an exponent below 2^n. -/
def modPow (n b e m : Nat) : Nat := modPowAux n (b % m) e m (1 % m)

/-- The inverse modulo a prime, and 0 for 0 (R296). -/
def modInv (a p : Nat) : Nat := modPow 521 a (p - 2) p

/-- A short Weierstrass curve with a = -3. -/
structure Curve where
  p  : Nat
  n  : Nat
  b  : Nat
  gx : Nat
  gy : Nat
  len : Nat

/-- NIST P-256. -/
def p256 : Curve :=
  { p := 0xffffffff00000001000000000000000000000000ffffffffffffffffffffffff,
    n := 0xffffffff00000000ffffffffffffffffbce6faada7179e84f3b9cac2fc632551,
    b := 0x5ac635d8aa3a93e7b3ebbd55769886bc651d06b0cc53b0f63bce3c3e27d2604b,
    gx := 0x6b17d1f2e12c4247f8bce6e563a440f277037d812deb33a0f4a13945d898c296,
    gy := 0x4fe342e2fe1a7f9b8ee7eb4a7c0f9e162bce33576b315ececbb6406837bf51f5,
    len := 32 }

/-- NIST P-384. -/
def p384 : Curve :=
  { p := 0xfffffffffffffffffffffffffffffffffffffffffffffffffffffffffffffffeffffffff0000000000000000ffffffff,
    n := 0xffffffffffffffffffffffffffffffffffffffffffffffffc7634d81f4372ddf581a0db248b0a77aecec196accc52973,
    b := 0xb3312fa7e23ee7e4988e056be3f82d19181d9c6efe8141120314088f5013875ac656398d8a2ed19d2a85c8edd3ec2aef,
    gx := 0xaa87ca22be8b05378eb1c71ef320ad746e1d3b628ba79b9859f741e082542a385502f25dbf55296c3a545e3872760ab7,
    gy := 0x3617de4a96262c6f5d9e98bf9292dc29f8f41dbd289a147ce9da3113b5f0b8c00a60b1ce1d7e819d7a431d7c90ea0e5f,
    len := 48 }

/-- The curve of an algorithm code (Table 5-3). -/
def curveOf (alg : Nat) : Curve := if alg = 0x20 then p256 else p384

/-- Whether a point lies on the curve. -/
def onCurve (c : Curve) (x y : Nat) : Bool :=
  decide (x < c.p) && decide (y < c.p) && y * y % c.p == (x * x * x + 3 * (c.p - x) + c.b) % c.p

/-- Point addition; none is the point at infinity. -/
def ecAdd (c : Curve) (a b : Option (Nat × Nat)) : Option (Nat × Nat) :=
  match a, b with
  | none, q => q
  | q, none => q
  | some (x1, y1), some (x2, y2) =>
    if x1 = x2 && (y1 + y2) % c.p == 0 then none
    else
      let l := if x1 = x2 then (3 * x1 * x1 + 3 * (c.p - 1)) * modInv (2 * y1) c.p % c.p
        else (y2 + c.p - y1) * modInv (x2 + c.p - x1) c.p % c.p
      let x3 := (l * l + 2 * c.p - x1 - x2) % c.p
      some (x3, (l * (x1 + c.p - x3) + c.p - y1) % c.p)

/-- Scalar multiplication over the bits of the scalar. -/
def ecMulAux (c : Curve) : Nat → Nat → Option (Nat × Nat) → Option (Nat × Nat) → Option (Nat × Nat)
  | 0, _, _, acc => acc
  | k + 1, n, q, acc => ecMulAux c k (n / 2) (ecAdd c q q) (if n % 2 = 1 then ecAdd c acc q else acc)

/-- Scalar multiplication. -/
def ecMul (c : Curve) (n : Nat) (q : Option (Nat × Nat)) : Option (Nat × Nat) := ecMulAux c 384 n q none

/-- The generator. -/
def ecG (c : Curve) : Option (Nat × Nat) := some (c.gx, c.gy)

/-- The uncompressed encoding of a point (R100). -/
def ecEnc (c : Curve) (q : Option (Nat × Nat)) : Bytes :=
  match q with
  | some (x, y) => [0x04] ++ toBe c.len x ++ toBe c.len y
  | none => zeros (2 * c.len + 1)

/-- Full public-key validation of an encoded point (R101). -/
def ecDec (c : Curve) (b : Bytes) : Option (Nat × Nat) :=
  let x := beNat (slice b 1 c.len)
  let y := beNat (slice b (1 + c.len) c.len)
  if b.length = 2 * c.len + 1 ∧ b.headD 0 = 0x04 ∧ onCurve c x y then some (x, y) else none

/-- The digest as an integer, cut to the bit length of n (FIPS 186-5). -/
def ecDigest (c : Curve) (d : Bytes) : Nat := beNat (d.take c.len)

/-- `ECDSA_VERIFY` of R296: whether it matches, and xR. The formulas work modulo p, so a coordinate of p or more counts by its
residue; where Q is off the curve and takes part, the spec names no formulas, and xR is free (assumption 187). -/
def ecdsaVerify (alg : Nat) (qx qy r s e : Nat) : Bool × Nat :=
  let c := curveOf alg
  let w := modPow 384 s (c.n - 2) c.n
  let u1 := e % c.n * w % c.n
  let u2 := r % c.n * w % c.n
  let q := (qx % c.p, qy % c.p)
  let sum := ecAdd c (ecMul c u1 (ecG c)) (if u2 = 0 then none else ecMul c u2 (some q))
  let xr :=
    if onCurve c q.1 q.2 ∨ u2 = 0 then (match sum with | some (x, _) => x | none => 0)
    else (Config.offCurveX alg (toBe 48 qx ++ toBe 48 qy ++ toBe 48 u1 ++ toBe 48 u2)).toNat % c.p
  (decide (0 < r) && decide (r < c.n) && decide (0 < s) && decide (s < c.n) && onCurve c qx qy && sum.isSome && xr % c.n == r, xr)

/-- ECDSA signature with the per-signature value of R119. -/
def ecdsaSign (alg : Nat) (d : Nat) (digest rnd : Bytes) : Bytes :=
  let c := curveOf alg
  let k := (Config.ecdsaK (BitVec.ofNat 384 d) digest rnd).toNat % (c.n - 1) + 1
  let r := (match ecMul c k (ecG c) with | some (x, _) => x | none => 0) % c.n
  let s := modInv k c.n * (ecDigest c digest + r * d) % c.n
  toBe c.len r ++ toBe c.len s

/-- Verification of an ECDSA signature over a digest with an encoded public key. -/
def ecdsaCheck (alg : Nat) (pub digest sig : Bytes) : Bool :=
  let c := curveOf alg
  (ecdsaVerify alg (beNat (slice pub 1 c.len)) (beNat (slice pub (1 + c.len) c.len)) (beNat (slice sig 0 c.len))
    (beNat (slice sig c.len c.len)) (ecDigest c digest)).1

/-- The ECDH shared secret: the x coordinate, as an octet string. -/
def ecdhZ (alg : Nat) (d : Nat) (q : Nat × Nat) : Bytes :=
  let c := curveOf alg
  match ecMul c d (some q) with
  | some (x, _) => toBe c.len x
  | none => zeros c.len

/-- An ECC private scalar from extra random bits (R102). -/
def ecScalar (alg : Nat) (rnd : Bytes) : Nat :=
  let c := curveOf alg
  beNat rnd % (c.n - 1) + 1

/-- The field prime of Ed25519. -/
def edP : Nat := 2 ^ 255 - 19

/-- The order of the base point of Ed25519. -/
def edL : Nat := 2 ^ 252 + 27742317777372353535851937790883648493

/-- The curve constant d of Ed25519. -/
def edD : Nat := 0x52036cee2b6ffe738cc740797779e89800700a4d4141d8ab75eb4dca135978a3

/-- Edwards addition in affine coordinates. -/
def edAdd (a b : Nat × Nat) : Nat × Nat :=
  let t := edD * (a.1 * b.1 % edP) % edP * (a.2 * b.2 % edP) % edP
  ((a.1 * b.2 + a.2 * b.1) % edP * modInv (1 + t) edP % edP,
   (a.2 * b.2 + a.1 * b.1) % edP * modInv (1 + edP - t) edP % edP)

/-- Edwards scalar multiplication over the bits of the scalar. -/
def edMulAux : Nat → Nat → Nat × Nat → Nat × Nat → Nat × Nat
  | 0, _, _, acc => acc
  | k + 1, n, q, acc => edMulAux k (n / 2) (edAdd q q) (if n % 2 = 1 then edAdd acc q else acc)

/-- Edwards scalar multiplication. -/
def edMul (n : Nat) (q : Nat × Nat) : Nat × Nat := edMulAux 512 n q (0, 1)

/-- The decoding of R297: the point, and whether the decoding is valid. -/
def edDec (b : Bytes) : (Nat × Nat) × Bool :=
  let v := leNat (fixLen 32 b)
  let y0 := v % 2 ^ 255
  let sign := v / 2 ^ 255
  let y := y0 % edP
  let u := (y * y + edP - 1) % edP
  let w := (edD * (y * y % edP) + 1) % edP
  let t := u * (w ^ 3 % edP) % edP * modPow 256 (u * (w ^ 7 % edP)) ((edP - 5) / 8) edP % edP
  let root := if w * (t * t % edP) % edP = u then t
    else t * modPow 256 2 ((edP - 1) / 4) edP % edP
  let ok := w * (root * root % edP) % edP == u
  let x := if root % 2 = sign then root else (edP - root) % edP
  ((x, y), decide (y0 < edP) && ok && !(root == 0 && sign == 1))

/-- The base point of Ed25519. -/
def edB : Nat × Nat := (edDec ([0x58] ++ List.replicate 31 0x66)).1

/-- The encoding of a point (RFC 8032). -/
def edEnc (q : Nat × Nat) : Bytes := toLe 32 (q.2 + q.1 % 2 * 2 ^ 255)

/-- `ED25519_VERIFY` of R297, with h given. -/
def edVerify (a r : Bytes) (s : Nat) (h : Nat) : Bool :=
  let (pa, oka) := edDec a
  let (pr, okr) := edDec r
  let neg := fun (q : Nat × Nat) => ((edP - q.1) % edP, q.2)
  let t := edMul 8 (edAdd (edMul (s % edL) edB) (edAdd (edMul (h % edL) (neg pa)) (neg pr)))
  decide (0 < s) && decide (s < edL) && oka && okr && t == (0, 1)

/-- Whether an Ed25519 public key is canonical, decodes and is not of small order (R101). -/
def edValid (b : Bytes) : Bool :=
  let (q, ok) := edDec b
  b.length == 32 && ok && !(edMul 8 q == (0, 1))

/-- The clamped scalar and the prefix of an Ed25519 seed (RFC 8032). -/
def edExpand (seed : Bytes) : Nat × Bytes :=
  let h := sha512 seed
  let a := leNat (h.take 32)
  (a % 2 ^ 254 / 8 * 8 + 2 ^ 254, h.drop 32)

/-- The public key of an Ed25519 seed. -/
def edPub (seed : Bytes) : Bytes := edEnc (edMul (edExpand seed).1 edB)

/-- An Ed25519 signature (RFC 8032). -/
def edSign (seed m : Bytes) : Bytes :=
  let (a, pre) := edExpand seed
  let r := leNat (sha512 (pre ++ m)) % edL
  let rb := edEnc (edMul r edB)
  let k := leNat (sha512 (rb ++ edPub seed ++ m)) % edL
  rb ++ toLe 32 ((r + k * a) % edL)

/-- `RSA_PUB` of R295. -/
def rsaPub (n s e : Nat) : Nat :=
  let n' := if n % 2 = 1 then n else n + 1
  modPow 32 (s % n') e n'

/-- Whether a number has no prime factor below 1,000 (R101). -/
def noSmallFactor (n : Nat) : Bool := (List.range 998).all (fun i => n % (i + 2) != 0)

/-- The DigestInfo of SHA-256 (RFC 8017). -/
def digestInfo256 : Bytes :=
  [0x30, 0x31, 0x30, 0x0d, 0x06, 0x09, 0x60, 0x86, 0x48, 0x01, 0x65, 0x03, 0x04, 0x02, 0x01, 0x05, 0x00, 0x04, 0x20]

/-- EMSA-PKCS1-v1_5 with SHA-256 (RFC 8017). -/
def emsaPkcs1 (len : Nat) (digest : Bytes) : Bytes :=
  [0x00, 0x01] ++ List.replicate (len - 3 - digestInfo256.length - 32) 0xFF ++ [0x00] ++ digestInfo256 ++ digest

/-- MGF1 (RFC 8017). -/
def mgf1 (p : Sha2) (seed : Bytes) (len : Nat) : Bytes :=
  ((List.range (ceilDiv len p.out)).flatMap (fun i => sha2 p (seed ++ toBe 4 i))).take len

/-- EMSA-PSS encoding for a modulus whose bit length is a multiple of 8. -/
def emsaPss (p : Sha2) (len : Nat) (digest salt : Bytes) : Bytes :=
  let h := sha2 p (zeros 8 ++ digest ++ salt)
  let dbLen := len - p.out - 1
  let db := zeros (dbLen - salt.length - 1) ++ [0x01] ++ salt
  let m := xorB db (mgf1 p h dbLen)
  patch m 0 [(m.headD 0) &&& 0x7F] ++ h ++ [0xBC]

/-- EMSA-PSS verification. -/
def pssVerify (p : Sha2) (len : Nat) (digest em : Bytes) : Bool :=
  let dbLen := len - p.out - 1
  let masked := em.take dbLen
  let h := slice em dbLen p.out
  let db0 := xorB masked (mgf1 p h dbLen)
  let db := patch db0 0 [(db0.headD 0) &&& 0x7F]
  let salt := db.drop (dbLen - p.out)
  em.length == len && em.getLastD 0 == 0xBC && (masked.headD 0).toNat < 128 &&
    allZero (db.take (dbLen - p.out - 1)) && db.getD (dbLen - p.out - 1) 0 == 0x01 &&
    sha2 p (zeros 8 ++ digest ++ salt) == h

/-- The modulus of ML-DSA. -/
def dsaQ : Nat := 8380417

/-- The parameter sets of ML-DSA (FIPS 204): k, l, tau, beta, omega, length of the commitment hash. -/
structure MlDsa where
  k : Nat
  l : Nat
  tau : Nat
  beta : Nat
  omega : Nat
  clen : Nat

/-- The parameter set of an algorithm code (Table 5-3). -/
def mldsaOf (alg : Nat) : MlDsa :=
  if alg = 0x30 then { k := 6, l := 5, tau := 49, beta := 196, omega := 55, clen := 48 }
  else { k := 8, l := 7, tau := 60, beta := 120, omega := 75, clen := 64 }

/-- Public key length of an ML-DSA code. -/
def mldsaPk (alg : Nat) : Nat := if alg = 0x30 then 1952 else 2592

/-- Signature length of an ML-DSA code. -/
def mldsaSig (alg : Nat) : Nat := if alg = 0x30 then 3309 else 4627

/-- The reversal of the eight low bits of a number. -/
def brev8 (n : Nat) : Nat := (List.range 8).foldl (fun a i => 2 * a + n / 2 ^ i % 2) 0

/-- The evaluation points of the number theoretic transform of FIPS 204. -/
def nttRoot (i : Nat) : Nat :=
  modPow 10 1753 (brev8 (128 + i / 2) + 256 * (i % 2)) dsaQ

/-- The number theoretic transform: evaluation at the 256 roots. -/
def ntt (w : List Nat) : List Nat :=
  (List.range 256).map (fun i => w.reverse.foldl (fun a c => (a * nttRoot i + c) % dsaQ) 0)

/-- The inverse transform. -/
def intt (w : List Nat) : List Nat :=
  (List.range 256).map (fun j =>
    ((List.range 256).foldl (fun a i =>
      (a + w.getD i 0 * modPow 24 (nttRoot i) ((512 - j) % 512) dsaQ) % dsaQ) 0) * modInv 256 dsaQ % dsaQ)

/-- `SimpleBitUnpack`: little-endian fields of `n` bits. -/
def bitFields (n cnt : Nat) (b : Bytes) : List Nat :=
  let v := leNat b
  (List.range cnt).map (fun i => v / 2 ^ (n * i) % 2 ^ n)

/-- Rejection sampling of one transformed polynomial from SHAKE128 output. -/
def rejNtt : Nat → Bytes → List Nat → List Nat
  | 0, _, acc => acc.reverse
  | n + 1, b, acc =>
    let v := fld b 0 3 % 2 ^ 23
    rejNtt n (b.drop 3) (if acc.length < 256 ∧ v < dsaQ then v :: acc else acc)

/-- `SampleInBall`: positions from the byte stream after the sign bits. -/
def inBall (tau : Nat) (signs : Nat) : Nat → Bytes → Nat → List Nat → List Nat
  | 0, _, _, c => c
  | n + 1, b, i, c =>
    if 256 ≤ i then c else
    match b with
    | [] => c
    | x :: b =>
      let j := x.toNat
      if i < j then inBall tau signs n b i c
      else
        let c := (c.set i (c.getD j 0)).set j (if signs / 2 ^ (i + tau - 256) % 2 = 1 then dsaQ - 1 else 1)
        inBall tau signs n b (i + 1) c

/-- One polynomial's hint positions, when they are strictly rising (FIPS 204 `HintBitUnpack`). -/
def hintUnpack (p : MlDsa) (y : Bytes) : Nat → Nat → Nat → Option (List (List Nat))
  | 0, _, idx => if allZero ((y.take p.omega).drop idx) then some [] else none
  | n + 1, i, idx =>
    let e := (y.getD (p.omega + i) 0).toNat
    if e < idx ∨ p.omega < e then none
    else
      let hs := ((y.take e).drop idx).map BitVec.toNat
      if (List.zip hs (hs.drop 1)).all (fun ab => decide (ab.1 < ab.2)) then
        (hintUnpack p y n (i + 1) e).map (fun t => hs :: t)
      else none

/-- `UseHint` of FIPS 204 for gamma2 = (q - 1) / 32. -/
def useHint (h : Bool) (r : Nat) : Nat :=
  let g2 := (dsaQ - 1) / 16
  let r0 := r % g2
  let low := decide (0 < r0) && decide (r0 ≤ g2 / 2)
  let hi := if r0 ≤ g2 / 2 then r / g2 else r / g2 + 1
  let r1 := if hi = 16 then 0 else hi
  -- r = q - 1 side: the high part wraps to 0 and the low part is negative
  if h then (if low then (r1 + 1) % 16 else (r1 + 15) % 16) else r1

/-- `MLDSA_VERIFY` of R298 over the message representative mu. -/
def mldsaVerify (alg : Nat) (pk sig mu : Bytes) : Bool :=
  let p := mldsaOf alg
  let rho := pk.take 32
  let t1 := (pieces 320 (pk.drop 32)).map (bitFields 10 256)
  let ct := sig.take p.clen
  let zs := ((List.range p.l).map (fun i =>
    (bitFields 20 256 (slice sig (p.clen + 640 * i) 640)).map (fun v => (dsaQ + 2 ^ 19 - v) % dsaQ)))
  let hint := hintUnpack p (sig.drop (p.clen + 640 * p.l)) p.k 0 0
  let hs := hint.getD []
  let small := zs.all (fun z => z.all (fun v =>
    decide (v < 2 ^ 19 - p.beta) || decide (dsaQ - v < 2 ^ 19 - p.beta)))
  let cb := shake256 ct 2048
  let c := ntt (inBall p.tau (leNat (cb.take 8)) 2048 (cb.drop 8) (256 - p.tau) (List.replicate 256 0))
  let zh := zs.map ntt
  let w1 := (List.range p.k).map (fun r =>
    let row := (List.range p.l).map (fun s => rejNtt 1344 (shake128 (rho ++ [byte s, byte r]) 4032) [])
    let az := (List.zip row zh).foldl (fun a ab =>
      List.zipWith (fun x y => (x + y) % dsaQ) a (List.zipWith (fun x y => x * y % dsaQ) ab.1 ab.2)) (List.replicate 256 0)
    let ct1 := List.zipWith (fun x y => x * y % dsaQ) c (ntt ((t1.getD r []).map (· * 2 ^ 13)))
    let w := intt (List.zipWith (fun x y => (x + dsaQ - y) % dsaQ) az ct1)
    let h := hs.getD r []
    (List.range 256).map (fun i => useHint (h.contains i) (w.getD i 0)))
  let enc := w1.flatMap (fun w => toLe 128 ((w.reverse).foldl (fun a v => a * 16 + v) 0))
  hint.isSome && small && shake256 (mu ++ enc) p.clen == ct

/-- The message representative of FIPS 204 with an empty context (R290). -/
def mldsaMu (pk m : Bytes) : Bytes := shake256 (shake256 pk 64 ++ [0, 0] ++ m) 64

/-- Output blocks of CTR_DRBG, with V counted up before each. -/
def drbgBlocks (key : Bytes) : Nat → Bytes → Bytes × Bytes
  | 0, v => ([], v)
  | n + 1, v =>
    let v := toBe 16 ((beNat v + 1) % 2 ^ 128)
    let (o, v') := drbgBlocks key n v
    (aesE key v ++ o, v')

/-- CTR_DRBG_Update. -/
def drbgUpdate (d : Drbg) (data : Bytes) : Drbg :=
  let seedLen := d.key.length + 16
  let t := xorB ((drbgBlocks d.key (ceilDiv seedLen 16) d.v).1.take seedLen) (fixLen seedLen data)
  { key := t.take d.key.length, v := t.drop d.key.length }

/-- BCC of the derivation function. -/
def drbgBcc (key m : Bytes) : Bytes := (pieces 16 m).foldl (fun c b => aesE key (xorB c b)) (zeros 16)

/-- Chained blocks of the derivation function. -/
def dfOut (k : Bytes) : Nat → Bytes → Bytes
  | 0, _ => []
  | n + 1, x => let y := aesE k x; y ++ dfOut k n y

/-- Block_Cipher_df to key length plus 16 bytes. -/
def drbgDf (kl : Nat) (input : Bytes) : Bytes :=
  let n := kl + 16
  let s := toBe 4 input.length ++ toBe 4 n ++ input ++ [0x80]
  let s := s ++ zeros ((16 - s.length % 16) % 16)
  let k0 := (List.range kl).map byte
  let t := (List.range (ceilDiv n 16)).flatMap (fun i => drbgBcc k0 (toBe 4 i ++ zeros 12 ++ s))
  (dfOut (t.take kl) (ceilDiv n 16) (slice t kl 16)).take n

/-- Instantiation with the derivation function, for a key of `kl` bytes. -/
def drbgInst (kl : Nat) (entropy nonce pers : Bytes) : Drbg :=
  drbgUpdate { key := zeros kl, v := zeros 16 } (drbgDf kl (entropy ++ nonce ++ pers))

/-- Reseed with the derivation function. -/
def drbgReseed (d : Drbg) (entropy : Bytes) : Drbg := drbgUpdate d (drbgDf d.key.length entropy)

/-- One generate request with no additional input. -/
def drbgGen (d : Drbg) (len : Nat) : Bytes × Drbg :=
  let (o, v) := drbgBlocks d.key (ceilDiv len 16) d.v
  (o.take len, drbgUpdate { d with v := v } [])

end Sys2Proof.Machine
end

