-- ==== Sys2Proof/Machine/StateUnits.lean ====
section
/-! DEFINITION. The data types of the units' state: engines, Orrery, entropy, twins, tamper response, cards,
life cycle, power, wear, boot and pins. -/

namespace Sys2Proof.Machine

/-- Role of a core or engine (Table 14-10, R434, R436). -/
inductive URole where
  | active
  | spare
  | selftest
  | retired
  deriving DecidableEq, Repr

/-- One core or engine as a unit of wear (R434 to R442). -/
structure UnitRec where
  role     : URole := .active
  worn     : Bool := false
  /-- Operating seconds of the corrected errors in its arrays (R436, R444). -/
  ecc      : List Nat := []
  /-- A requested test, or one after a canary alarm (R436, R442): waited for or running; the unit left without
  replacement for it (R440); and the reason code of its records. -/
  asked    : Bool := false
  deferred : Bool := false
  why      : Nat := 0
  /-- Outgoing unit of a rotation that still drains (R439). -/
  draining : Bool := false
  /-- A worn or failed unit waits for a spare since this stamp (R440). -/
  spareWait : Option Nat := none
  /-- Compare failures (R281, R282): the stamps of those of the last second, and the operating seconds of those of the last 24 h. -/
  fails    : List Nat := []
  failOps  : List Nat := []
  deriving DecidableEq, Repr

/-- A key in an engine's cache: compartment, handle, when it was put in the key store, and whether its CMAC subkey or HMAC pad
states are held with it (R261, Table 11-12). -/
structure CachedKey where
  comp   : Nat
  handle : Nat
  born   : Nat
  pads   : Bool := false
  deriving DecidableEq, Repr

/-- Engine counters (R286). -/
structure EngCtr where
  ops     : Nat := 0
  blocks  : Nat := 0
  cmpFail : Nat := 0
  rerun   : Nat := 0
  keyMiss : Nat := 0
  reseed  : Nat := 0
  /-- The cache of 16 keys, newest first (R261). -/
  cache   : List CachedKey := []
  deriving DecidableEq, Repr

/-- A masking generator: one datapath of an engine (R283, R315). -/
structure MaskGen where
  inst    : Bool := false
  tainted : Bool := false
  held    : Bool := false
  drbg    : Drbg := {}
  /-- The sources and the stamp of the block of its last reseed (R315). -/
  srcs    : List Nat := []
  last    : Nat := 0
  /-- The stamp at which it was instantiated or last reseeded (Table 13-2). -/
  seeded  : Nat := 0
  /-- Blocks that have drawn masks since then (R283). -/
  blocks  : Nat := 0
  /-- Blocks drawn since a reseed fell due that could not be obtained, random service having stopped (R284). -/
  late    : Nat := 0
  deriving DecidableEq, Repr

/-- A staging entry of a context (R264). -/
structure Staging where
  alg   : Nat := 0
  usage : Nat := 0
  expt  : Bool := false
  /-- Written under a key that carries `DUKPT_BDK` (R263, R264). -/
  bdk   : Bool := false
  data  : Bytes := []
  deriving DecidableEq, Repr

/-- What an engine operation leaves (R258): status, flags, `OUT`, the bytes for its destination, their tag, and the
attributes of a staging entry it writes. -/
structure EngOut where
  status : Nat := 0
  flags  : Nat := 1
  out    : Nat := 0
  data   : Bytes := []
  tag    : Bool := false
  stg    : Option Staging := none
  deriving DecidableEq, Repr

/-- An engine operation (R254 to R259): its command block, owner, queue state and outcome. -/
structure EngOp where
  blk     : Bytes := []
  q       : Nat := 0
  task    : Nat := 0
  ctx     : Cid := ⟨0, 0⟩
  blkAddr : Nat := 0
  cluster : Nat := 0
  /-- Admitted to the fabric queue (R257), and the engine that runs it. -/
  admitted : Bool := false
  engine  : Option Nat := none
  arrived : Nat := 0
  /-- Waiting for a hold buffer region (R275). -/
  waits   : Bool := false
  /-- The outcome once computed. -/
  done    : Option EngOut := none
  /-- Re-run after a compare failure (R281). -/
  rerun   : Bool := false
  deriving DecidableEq, Repr

/-- A hold buffer region (R275 to R277). -/
structure HoldReg where
  q     : Nat := 0
  task  : Nat := 0
  size  : Nat := 0
  data  : Bytes := []
  deriving DecidableEq, Repr

/-- One cluster: fabric queue, hold buffer, SRAM allocations (R238, R257, R275). -/
structure Cluster where
  queue    : List Nat := []
  hold     : Tbl HoldReg := []
  holdWait : List Nat := []
  holdRefused : Nat := 0
  sram     : Tbl (Nat × Nat × Nat) := []
  sramData : Tbl (BitVec 8) := []
  trimmed  : Bool := false
  /-- The rows mapped to the spare rows of each bank, in the order of the spare rows; the banks mapped to the spare banks, in their
  order; the banks retired without one, which have left the pool; and those that an allocation which cannot move still holds
  (R434, R445). -/
  repairs  : Tbl (List Nat) := []
  banks    : List Nat := []
  lost     : List Nat := []
  held     : List Nat := []
  deriving DecidableEq, Repr

/-- An Orrery call (R289 to R293). -/
structure OrrCall where
  blk      : Bytes := []
  input    : Bytes := []
  /-- Owner: its compartment, or 1,024 for Zenith. -/
  owner    : Nat := 0
  q        : Nat := 0
  task     : Nat := 0
  ctx      : Cid := ⟨0, 0⟩
  blkAddr  : Nat := 0
  arrived  : Nat := 0
  admitted : Bool := false
  /-- The stamp at which a running call ends. -/
  ends     : Option Nat := none
  /-- The outcome once computed: status, flags, output, cycles. -/
  done     : Option (Nat × Nat × Bytes × Nat) := none
  deriving DecidableEq, Repr

/-- The Orrery of a twin (R300 to R303). -/
structure Orrery where
  calls    : Tbl OrrCall := []
  nextCall : Nat := 0
  /-- The slice in progress: owner, start, quantum end, extension end, whether anything ran. -/
  slice    : Option (Nat × Nat × Nat × Nat × Bool) := none
  slot     : Nat := 0
  counts   : Tbl Nat := []
  served   : Tbl Nat := []
  inserted : Nat := 0
  lastOwner : Option Nat := none
  /-- Operand memory holds values of the last owner until the erasure of R303. -/
  dirty    : Bool := false
  deriving DecidableEq, Repr

/-- Role of a noise source (R306). -/
inductive NRole where
  | active (group : Nat)
  | spare
  | quarantined
  | retired
  deriving DecidableEq, Repr

/-- One noise source (R305 to R307, R447). -/
structure NSource where
  role     : NRole := .quarantined
  /-- The stamp at which its start-up test ended: its windows of 64 µs run on from there (R307). -/
  base     : Nat := 0
  /-- Samples taken when sampling of the source ended. -/
  samples  : Nat := 0
  rctFail  : Nat := 0
  aptFail  : Nat := 0
  deriving DecidableEq, Repr

/-- A conditioned block (R308, R309). -/
structure CBlock where
  group : Nat
  /-- The active sources of the group that its bits come from. -/
  srcs  : List Nat := []
  data  : Bytes
  stamp : Nat
  deriving DecidableEq, Repr

/-- The entropy block of a twin (R305 to R322). -/
structure Entropy where
  sources   : Tbl NSource := []
  /-- Groups that wait for a spare to join at their next block boundary. -/
  joinWait  : List Nat := []
  blocks    : List CBlock := []
  seedGen   : Drbg := {}
  seedInst  : Bool := false
  /-- When the seed generator was instantiated or last reseeded, and its generate requests since (Table 13-2). -/
  seedAt    : Nat := 0
  seedReqs  : Nat := 0
  masks     : Tbl MaskGen := []
  /-- Epoch seeds in force: the epoch from which, its generation, and the seed (R318, R319). -/
  seeds     : List (Nat × Nat × Bytes) := []
  /-- The pending proposal: generation, effective epoch, seed, acknowledged. -/
  proposal  : Option (Nat × Nat × Bytes × Bool) := none
  nextEpoch : Nat := 0
  /-- Random service stopped, and waits for a new seed after a switch-over (R317). -/
  stopped   : Bool := false
  /-- A switch-over to a twin with 12 or more active sources has come since the stop (R317). -/
  resuming  : Bool := false
  blocksN   : Nat := 0
  taintedN  : Nat := 0
  holdsN    : Nat := 0
  postponed : Nat := 0
  slotWaits : Nat := 0
  deriving DecidableEq, Repr

/-- Twin states (Table 14-1); `booting` before roles are assigned (R450). -/
inductive TwinRole where
  | booting
  | active
  | healthy
  | degraded
  | resync
  | offline
  deriving DecidableEq, Repr

/-- A digest batch (R331). -/
structure Batch where
  epoch    : Nat := 0
  digests  : List (Nat × Bytes) := []
  /-- Agreement items: holdings by compartment (slots, extension slots, ledger), entries of the flow table, the
  revocation reserve, and replay entries 30 s old (R139, R143, R180, R76). -/
  hold     : Tbl (Nat × Nat × Nat) := []
  flows    : List Nat := []
  reserve  : Nat := 0
  aged     : List Nat := []
  /-- Replay entries and result units held, by compartment (R76). -/
  rep      : Tbl (Nat × Nat) := []
  /-- Deadline verdicts: request, and 0 or the status with which its deadline ended it (R190, R192). -/
  verdicts : List (Nat × Nat) := []
  dispatched : List Nat := []
  seed     : Option (Nat × Nat × Bytes) := none
  /-- The effective epoch of the proposal acknowledged (R318). -/
  seedAck  : Option Nat := none
  reexec   : List (Nat × Bool) := []
  /-- Effects for a returning twin: request, status and effects (R349). -/
  fx       : List (Nat × Nat × List Effect) := []
  /-- Health report sections: the report's number and the section (R352). -/
  health   : List (Nat × Bytes) := []
  /-- Outcomes of self-tests: island and result (R442). -/
  tests    : List (Nat × Bytes) := []
  deriving DecidableEq, Repr

/-- An assignment to a key, by the acceptance stamp of the request it was made to (R92, R93, R146). -/
structure Assigned where
  sp     : Nat
  handle : Nat
  q      : Nat
  use    : Bool := false
  nonce  : Bool := false
  exh    : Bool := false
  deriving DecidableEq, Repr

/-- Counters of a twin's section of the health report (Table 14-9). -/
structure TwinCtr where
  commits : Nat := 0
  digestLate : Nat := 0
  reexecs : Nat := 0
  eccCorr : Nat := 0
  eccUnc  : Nat := 0
  scrubs  : Nat := 0
  watchdog : Nat := 0
  preempts : Nat := 0
  capHeld : Nat := 0
  dlExp   : Nat := 0
  dlPrec  : Nat := 0
  engRetired : Nat := 0
  deriving DecidableEq, Repr

/-- A charge of core time: compartment, start, end (R183). -/
structure Charge where
  comp : Nat
  beg  : Nat
  fin  : Nat
  deriving DecidableEq, Repr

/-- One compute die (R9, R13, R16). -/
structure TwinSt where
  role      : TwinRole := .booting
  cause     : Nat := 0
  causeIsl  : Nat := 0
  /-- When the cause was recognised: one of a lower island less than 8 units later comes before it (R28). -/
  causeAt   : Nat := 0
  /-- Rotations that wait for a re-execution on the spare to end: cluster and kind (R439). -/
  rotations : List (Nat × UnitKind) := []
  /-- Operating seconds of departures from ACTIVE or HEALTHY (R347). -/
  departs   : List Nat := []
  /-- A relinquish asserted and not yet isolated (R339). -/
  giveUp    : Bool := false
  missed    : Nat := 0
  /-- The last stamp issued by each island of the die, and what the last pulse found of its counter: the offset, the pulse, and
  what the counter read then (R24, R26). The key is the island's number in the die. -/
  stamps    : Tbl Nat := []
  offs      : Tbl (Int × Nat × Nat) := []
  inTest    : Bool := false
  booted    : Bool := false
  store     : Store := {}
  reqs      : Tbl Req := []
  ctxs      : Tbl Ctx := []
  staging   : Tbl Staging := []
  /-- Requests that ended with a failing status, each with its acceptance stamp, space and id, and the stamp of its end, as far
  back as an entry on its way may name one as its predecessor (R71). -/
  failed    : List (Nat × Nat × Nat × Nat) := []
  /-- No entry with an acceptance stamp below this is still on its way to the twin (R148). -/
  lowCome   : Nat := 0
  /-- Completions on their way to Coachyard, oldest first (R177), and asynchronous services in progress. -/
  dones     : List Done := []
  asyncs    : List Async := []
  charges   : List Charge := []
  served    : Tbl Nat := []
  passed    : Tbl Nat := []
  /-- What the batches agreed, the newest first, as far back as an acceptance can ask; and what acceptances took since (R139,
  R180, R143). -/
  agreed    : List Batch := []
  taken     : Tbl (Nat × Nat × Nat) := []
  /-- Flow entries that acceptances took, each with its acceptance stamp (R180). -/
  flowTaken : List (Nat × Nat) := []
  /-- Replay entries and units that acceptances of the epoch took, less what they removed, by 2,048 times the acceptance
  stamp plus the space (R76). -/
  repTaken  : Tbl (Int × Int) := []
  /-- Acceptance stamps of the requests that took an entry of the revocation reserve (R143). -/
  resTaken  : List Nat := []
  /-- Uses and nonce values assigned, and exhaustions, while an earlier request of the compartment is in service (R146). -/
  assigned  : List Assigned := []
  /-- Batches on their way to the other twin, oldest first, and batches sent whose counterpart has not arrived (R331). -/
  outBatch  : List Batch := []
  sentBatch : List Batch := []
  lastBatch : Nat := 0
  ops       : Tbl EngOp := []
  nextOp    : Nat := 0
  clusters  : Tbl Cluster := []
  units     : Tbl UnitRec := []
  engCtr    : Tbl EngCtr := []
  orrery    : Orrery := {}
  ent       : Entropy := {}
  ctr       : TwinCtr := {}
  /-- Resynchronisation: snapshot epoch, join epoch, and effects sent since the snapshot (R349). -/
  resyncEs  : Option Nat := none
  resyncEj  : Option Nat := none
  /-- Effects of requests released before they were sent to a returning twin (R349). -/
  fxOut     : List (Nat × Nat × List Effect) := []
  /-- Outcomes of self-tests for the next batch (R442). -/
  testsOut  : List (Nat × Bytes) := []
  /-- The epoch from which a swap ends requests not begun whose opcode it unbound (R195, Table 8-4). -/
  unbindAt  : Option Nat := none
  pwm       : BitVec 32 := 0
  /-- Image pages resident in the image cache: quadrant, image, page (R238). -/
  cache     : List (Nat × Nat × Nat) := []
  deriving DecidableEq, Repr

end Sys2Proof.Machine
end

