-- ==== Sys2Proof/Machine/StateModule.lean ====
section
/-! DEFINITION. The data types of the module-wide state on the Relay die: requests at the Relay, the Almanac, tamper
response, cards, life cycle, power domains, DVFS, wear, boot and pins. -/

namespace Sys2Proof.Machine

/-- A request as the Relay holds it from acceptance to reply (R29, R50, R57, R333). -/
structure RReq where
  hdr    : Hdr := {}
  entry  : Bytes := []
  pre    : Bytes := []
  fn     : Nat := 0
  idx    : Nat := 0
  /-- The reply is dropped at the Relay (R57). -/
  drop   : Bool := false
  /-- Which twins received the broadcast (R327). -/
  toA    : Bool := false
  toB    : Bool := false
  /-- The first end record has reached the Relay, from which twin (R332). -/
  first  : Option Twin := none
  /-- What takes back what that end record changed in NVM (R332, R341). -/
  undo   : List Effect := []
  /-- The Almanac records of an end record of the request have been handed on: a later one in its place brings no second
  copy (R197, R332). -/
  noted  : Bool := false
  /-- An earlier holder of the shadow set, or an earlier write to the same slot, was in service when it was accepted (R455,
  R467). -/
  behind : Bool := false
  /-- The status with which its card dialogue has ended, for a twin that has not begun it (R167). -/
  dlgEnd : Option Nat := none
  /-- A payload read failed (R51). -/
  readFail : Bool := false
  /-- What the Relay supplied for the request: the same bytes to both twins (R329). -/
  given  : Option Bytes := none
  deriving DecidableEq, Repr

/-- A fetched entry that waits in the ingress (R50, R56). -/
structure Ingress where
  fn    : Nat
  idx   : Nat
  /-- Compartment and lane of the mailbox it was fetched from (R39). -/
  comp  : Nat
  lane  : Nat
  entry : Bytes
  deriving DecidableEq, Repr

/-- Bytes in the Relay's payload store: request, offset, data, and the twin they wait for (R328). -/
structure PayKeep where
  q    : Nat
  off  : Nat
  data : Bytes
  for_ : Twin
  deriving DecidableEq, Repr

/-- One Almanac region (R376). -/
structure AlmReg where
  recs    : Tbl AlmRec := []
  next    : Nat := 0
  oldest  : Nat := 0
  /-- The newest record has a merge not yet written to NVM, and when the Relay last wrote one since it left reset (R375). -/
  pend    : Bool := false
  lastWr  : Option Nat := none
  /-- The queue of records received (R378). -/
  queue   : List EvReq := []
  deriving DecidableEq, Repr

/-- The Almanac (R370 to R387). -/
structure Almanac where
  gen      : AlmReg := {}
  ev       : AlmReg := {}
  dropped  : Nat := 0
  highDone : Bool := false
  full     : Bool := false
  /-- Evidence records that arose with the queue full: their producers wait for room (R380). -/
  waiting  : List EvReq := []
  /-- Evidence records not written because the reserve is full (R382). -/
  unwritten : Nat := 0
  /-- Open draw reservations by acceptance stamp: first number, N, and the group's records once they are known
  (R323 to R325). While one is open, the evidence queue waits. -/
  draws    : Tbl (Nat × Nat × Option (List EvReq)) := []
  /-- Operating seconds: the stamp-derived count's base at this power-up, and the value in NVM (R373). -/
  opsBase  : Nat := 0
  opsNvm   : Nat := 0
  deriving DecidableEq, Repr

/-- One monitor's filter (R355). -/
structure Monitor where
  trues    : Nat := 0
  falses   : Nat := 0
  asserted : Bool := false
  /-- The alarm has qualified and the response applied when it did (R358). -/
  resp     : Nat := 0
  deriving DecidableEq, Repr

/-- Tamper response: monitors, LOCK, the response in progress, Nightwatch's retained memory (R354 to R369). -/
structure Tamper where
  /-- Key 256 times the class plus the monitor number. -/
  monitors : Tbl Monitor := []
  /-- LOCK in the retained register and in the module register (R363), and its cause: 1 alarm, 2 evidence full. -/
  lock     : Bool := false
  lockCause : Nat := 0
  /-- Requests accepted before this stamp are still answered as in LOCK (R175). -/
  resumeAt : Nat := 0
  /-- A response signalled and not yet carried out: strength and targets (R361, R368). -/
  pendResp : Option (Nat × List Nat) := none
  /-- A response in progress: strength and targets (R360). -/
  progress : Option (Nat × List Nat) := none
  /-- The retained copy of the active alarm section (R358). -/
  retained : Bytes := []
  buffer   : List AlmRec := []
  overflow : Nat := 0
  /-- Backup windows since main power was lost (R369). -/
  windows  : Nat := 0
  /-- The Module Root Key in Nightwatch battery-backed RAM (R126). -/
  mrk      : Option Bytes := none
  /-- The MRK was erased by ZEROIZE-MODULE and the registers await R128 at the next UNLOCK (R362). -/
  mrkLost  : Bool := false
  deriving DecidableEq, Repr

/-- Stage of a card dialogue (R168 to R172). -/
inductive CardStage where
  | select
  | identity
  | sign
  | component
  deriving DecidableEq, Repr

/-- How far the card line of a port has come (Table 7-4): the answer to reset awaited, a PPS answer awaited, the answer to
S(IFS request) awaited, and T=1 blocks. -/
inductive LineStage where
  | atr
  | pps
  | ifs
  | blocks
  deriving DecidableEq, Repr

/-- The T=1 line of an officer card port (R166, Table 7-4, assumption 184). -/
structure CardLine where
  stage : LineStage := .atr
  /-- Fi and Di in force; the default is 372/1. -/
  fi    : Nat := 372
  di    : Nat := 1
  bwi   : Nat := 4
  cwi   : Nat := 13
  /-- The multiple of BWT that the card asked for its next block. -/
  wtx   : Nat := 1
  /-- The longest INF field that the card takes, in its answer to reset and now. -/
  ifsc0 : Nat := 32
  ifsc  : Nat := 32
  /-- N(S) of the module's next or outstanding I-block, and of the I-block awaited from the card. -/
  ns    : Bool := false
  nr    : Bool := false
  /-- An I-block of the module awaits its acknowledgement. -/
  owed  : Bool := false
  /-- The bytes sent last, when, and the I-block sent last. -/
  sent  : Bytes := []
  sentAt : Nat := 0
  lastI : Bytes := []
  /-- Retransmissions of the present block, and whether its S(RESYNCH request) has gone. -/
  tries : Nat := 0
  resynch : Bool := false
  /-- What of the command APDU is still to be sent, and what of the response has come. -/
  rest  : Bytes := []
  rx    : Bytes := []
  deriving DecidableEq, Repr

/-- A dialogue in progress at an officer card port: the request served, its stage and what it has gathered. -/
structure CardDlg where
  q      : Nat := 0
  stage  : CardStage := .select
  line   : CardLine := {}
  /-- The command APDU that is being served. -/
  apdu   : Bytes := []
  /-- A response APDU that waits until both twins have begun the command. -/
  held   : Option Bytes := none
  serial : Bytes := []
  alg    : Nat := 0
  pub    : Bytes := []
  challenge : Bytes := []
  /-- The module's ephemeral private scalar for a component (R172). -/
  eph    : Nat := 0
  start  : Nat := 0
  deriving DecidableEq, Repr

/-- An officer card port (R166, R167). -/
structure Port where
  pres   : Bool := false
  active : Bool := false
  dlg    : Option CardDlg := none
  /-- The card serial given by an `IDENTIFY` since the card was inserted (R158). -/
  ident  : Option Bytes := none
  deriving DecidableEq, Repr

/-- Life-cycle states (Table 17-1). -/
inductive LcState where
  | blank
  | test
  | production
  | analysis
  | scrapped
  deriving DecidableEq, Repr

/-- The TAP instructions (R403, R406). -/
inductive TapInst where
  | bypass
  | sample
  | extest
  | clamp
  | highz
  | idcode
  | lcReq
  | lcStatus
  | dbgCert
  | dbgStatus
  | dbgAccess
  deriving DecidableEq, Repr

/-- Life cycle and debug (R388 to R406). -/
structure Life where
  /-- Completed transitions' `J_STATE` fuses, newest first: the state is the newest target (R396). -/
  fused    : List LcState := []
  /-- A transition with `J_INTENT` blown: from, target, path, and whether `J_WIPED` is blown. -/
  journal  : Option (LcState × LcState × Nat × Bool) := none
  /-- The stamp at which the self-reset of a completed transition is due (R397). -/
  selfReset : Option Nat := none
  tokFails : Nat := 0
  /-- The unused bits of the OTP trim field, and the fuse group of the storage key's share, are blown (R395). -/
  trimBlown : Bool := false
  keyBlown  : Bool := false
  recovery : Bool := false
  opened   : Bool := false
  ports    : Nat := 0
  access   : Nat := 0
  islands  : List Nat := []
  /-- The islands that a debug act has halted, with the steps that each may still make (Table 17-5). -/
  halted   : Tbl Nat := []
  /-- The TAP instruction selected, and the last result of Table 17-7. -/
  tapInst  : TapInst := .idcode
  tapResult : Nat := 0
  /-- `BOUNDARY_SCAN` has been recorded in this power cycle (R406). -/
  scanRec  : Bool := false
  deriving DecidableEq, Repr

/-- States of a power domain (Table 18-1). -/
inductive PState where
  | run
  | doze
  | nap
  | sleep
  deriving DecidableEq, Repr

/-- An access at a domain's gatekeeper (R419): of Zenith to a register, which is a write or a read; or a debug act. -/
inductive GateAcc where
  | zenith (write : Bool)
  | debug (act : DbgKind)
  deriving DecidableEq, Repr

/-- A power domain: island n, or 428 plus the cluster for a cluster memory sub-domain of Twin A, 444 plus the
cluster for Twin B (R408). -/
structure Domain where
  st      : PState := .run
  /-- An entry in progress: its target state and the stamp of its stop request (R418). -/
  entry   : Option (PState × Nat) := none
  /-- The domains whose wake events the gatekeeper has latched during the entry, in order of arrival (R417). -/
  latched : List Nat := []
  /-- When an entry was last aborted, and the stamp before which there is no new attempt (R418). -/
  aborted : Option Nat := none
  retry   : Nat := 0
  /-- Discipline pulses still needed before the island issues a stamp, and the first of the two consecutive ones of R25
  once it has come (R25, R410). -/
  pulses  : Nat := 0
  pulse1  : Option Nat := none
  /-- The first block still busy of an entry in progress (R418). -/
  busy    : Nat := 0
  /-- Stopped as a part of an entry, and waiting in Doze (R418). -/
  stopped : Bool := false
  /-- When it last left Run: an island in Run holds a vote of others (Table 18-3, R412). -/
  left    : Nat := 0
  /-- `WOA` as its last entry took it over (R419, R431), and the accesses that the gatekeeper holds, the oldest first. -/
  woa     : Bool := false
  held    : List GateAcc := []
  deriving DecidableEq, Repr

/-- One trained table of a load class (R427, R428). -/
structure Dvfs where
  trained : Bool := false
  /-- The local voltage of each operating point, in mV, the lowest clock first (R425). -/
  mv      : List Nat := []
  /-- Meridian units spent in the class since its last training, up to the last change of class (R428). -/
  spent   : Nat := 0
  /-- Operating seconds at its training. -/
  stamp   : Nat := 0
  deriving DecidableEq, Repr

/-- DVFS state of an island (R425 to R430). -/
structure IslandDvfs where
  cls     : LoadClass := .light
  /-- The busy fraction last reported, in percent; since when it lies below the lower bound of the class; and since when the class is
  the current one (R426, R428). -/
  busy    : Nat := 0
  below   : Option Nat := none
  since   : Nat := 0
  light   : Dvfs := {}
  medium  : Dvfs := {}
  heavy   : Dvfs := {}
  /-- What canary alarms have added to the point's voltage, in mV, and the last alarm (R429). -/
  bump    : Nat := 0
  lastAlarm : Option Nat := none
  deriving DecidableEq, Repr

/-- Module power states (Table 18-6). -/
inductive ModPower where
  | active
  | trimmed
  | standbyHot
  | off
  deriving DecidableEq, Repr

/-- Power (R408 to R432). -/
structure Power where
  mod      : ModPower := .off
  domains  : Tbl Domain := []
  dvfs     : Tbl IslandDvfs := []
  /-- Captured levels and enables of the six card pads while their latches hold (R420). -/
  padHold  : Option Nat := none
  /-- The last entry of island 422 into Sleep found `PAD_MODE` 1 (R421). -/
  padClamp : Bool := false
  thermal  : Bool := false
  vidA     : Nat := 24
  vidB     : Nat := 24
  vnwVaux  : Bool := false
  deriving DecidableEq, Repr

/-- Wear of module-wide units (R434, R446, R447). -/
structure Wear where
  sectors  : Nat := 983
  /-- The NVM sector map: each failed sector with the spare sector in its place (R434, R446). -/
  sectorMap : Tbl Nat := []
  /-- Skyglow sensors: key 1,024 times the die plus the sensor; consecutive failures, retired. -/
  sensors  : Tbl (Nat × Bool) := []
  /-- Noise sources' quarantine power cycles: key 64 times the twin plus the source (R436). -/
  quarant  : Tbl (List Nat) := []
  /-- Noise sources retired, by the same key (R436). -/
  noiseOut : List Nat := []
  /-- Corrected errors of the islands other than cores and engines, by island: their operating seconds (R444). -/
  unitErrs : Tbl (List Nat) := []
  /-- SRAM rows' corrected errors: their operating seconds, by 65,536 times the island plus the row (R444). -/
  rowErrs  : Tbl (List Nat) := []
  /-- Rows with an uncorrectable error that have not been remapped (R445). -/
  rowUnc   : List Nat := []
  linkX8   : Bool := false
  /-- The lanes of the PCIe link that have failed since the Relay left reset (R37). -/
  lanes    : List Nat := []
  deriving DecidableEq, Repr

/-- Boot (R450 to R459). -/
structure Boot where
  /-- The Relay is out of reset; the main power is on. -/
  up       : Bool := false
  mainOn   : Bool := true
  /-- Main power is back after a loss, with the Relay still held in reset (R364, R482). -/
  railsBack : Bool := false
  ready    : Bool := false
  inRom    : Bool := false
  /-- Slots that this boot runs: Relay, Zenith. -/
  relaySlot : Nat := 0
  zenSlot  : Nat := 0
  trialBoot : Bool := false
  trialFail : Bool := false
  /-- The module holds itself in reset after a life-cycle transition (R397). -/
  selfHeld : Bool := false
  /-- The end of the erasure that boot ROM made, from which boot's times are counted (R450), and the release of the twins. -/
  from_    : Nat := 0
  released : Nat := 0
  /-- Images that failed at boot (R454). -/
  badImages : List Nat := []
  deriving DecidableEq, Repr

/-- A health report that has been taken and not yet assembled by both twins (R352): its number, the epoch taken, the reason and
the epoch that was named; the header, and each twin's own section. -/
structure Snap where
  seq    : Nat
  epoch  : Nat
  reason : Nat
  named  : Nat
  head   : Bytes
  secA   : Bytes
  secB   : Bytes
  /-- The twins whose batch has carried their section, and those that have assembled the report. -/
  sent   : List Twin := []
  done   : List Twin := []
  /-- The active has assembled it, and its number stands. -/
  out    : Bool := false
  deriving DecidableEq, Repr

/-- Module health counters (Table 14-8) and the health report's schedule (R352). -/
structure Health where
  /-- Reports whose sections are on their way between the twins. -/
  snaps    : List Snap := []
  latest   : Option Bytes := none
  seq      : Nat := 0
  switchovers : Nat := 0
  mismatches : Nat := 0
  degradations : Nat := 0
  resyncs  : Nat := 0
  lastSwitch : Nat := 0
  lastCause : Nat := 0
  lastIsl  : Nat := 0
  /-- Snapshot epochs named and not yet taken: epoch and reason (R352). -/
  due      : List (Nat × Nat) := []
  /-- The epoch of the last scheduled report that was taken or moved (R352, R495). -/
  schedAt  : Nat := 0
  deriving DecidableEq, Repr

/-- Triple-redundant functions of the Relay (R11): copies retired, of the five functions of event 0x600C. -/
structure Tmr where
  retired : Tbl (List Nat) := []
  failed  : List Nat := []
  deriving DecidableEq, Repr

/-- Switch-over in progress (R339 to R342). -/
structure Switch where
  /-- `SWITCHING`: egress isolated and the last `DISCARDED` reply not yet posted. -/
  switching : Bool := false
  detected  : Nat := 0
  old       : Option Twin := none
  accepting : Bool := true
  discards  : List Nat := []
  deriving DecidableEq, Repr

end Sys2Proof.Machine
end

