-- ==== Sys2Proof/Machine/CfgSets.lean ====
section
/-! DEFINITION. Configuration sets: their bytes, the fields read from them, and the default set (R463, R464). -/

namespace Sys2Proof.Machine

/-- The size of a section (Table 20-7); 0 for a number that is no section. -/
def secSize (sec : Nat) : Nat :=
  match sec with
  | 1 => 40960 | 2 => 32768 | 3 => 16 | 4 => 32768 | 5 => 16 | 6 => 16 | 7 => 512 | 8 => 64 | _ => 0

/-- Bytes of a section. -/
def CfgSet.rd (c : CfgSet) (sec off len : Nat) : Bytes :=
  (List.range len).map (fun i => Tbl.getD c.cells (65536 * sec + off + i) 0)

/-- A field of a section (R4). -/
def CfgSet.fld (c : CfgSet) (sec off len : Nat) : Nat := leNat (c.rd sec off len)

/-- The set with bytes written into a section. -/
def CfgSet.wr (c : CfgSet) (sec off : Nat) : Bytes → CfgSet
  | [] => c
  | b :: bs => CfgSet.wr { cells := Tbl.store c.cells (65536 * sec + off) b 0 } sec (off + 1) bs

/-- The set digest of R466. -/
def CfgSet.digest (c : CfgSet) : Bytes :=
  sha384 ([1, 2, 3, 4, 5, 6, 7, 8].flatMap (fun s => c.rd s 0 (secSize s)))

/-- One class entry of the default alarm section: response, filter, backup filter, enable, thresholds
(Table 15-3, Table 15-4, R464). -/
def alarmEntry (resp filt bk en lo hi : Nat) : Bytes :=
  [byte resp, byte bk] ++ toLe 2 filt ++ [byte en, 0, 0, 0] ++ toLe 2 lo ++ toLe 2 hi ++ zeros 4 ++
    List.replicate 16 0xFF

/-- The default alarm section (R464). -/
def defaultAlarm : Bytes :=
  zeros 32 ++ alarmEntry 3 4 2 0 0 0 ++ alarmEntry 3 4 0 0 0 0 ++ alarmEntry 3 2 1 0 0 0 ++
  alarmEntry 1 8 2 0x0F 0 0 ++ alarmEntry 1 1000 2 0x0F 0 0 ++ alarmEntry 1 1 0 0 0 0 ++ alarmEntry 1 1 0 0 0 0 ++
  alarmEntry 0 3 0 0 0 0 ++ alarmEntry 1 10 2 0 (65536 - 320) 1000 ++ alarmEntry 0 100 8 0 2450 0 ++
  alarmEntry 1 3 2 0 2200 0 ++ zeros 128

/-- One kind entry of the power section (Table 18-7). -/
def kindEntry (pol st idle : Nat) : Bytes := [byte pol, byte st, 0, 0] ++ toLe 4 idle

/-- The default power section (R464, Tables 18-3 and 18-7). -/
def defaultPower : Bytes :=
  [0, 1] ++ toLe 2 100 ++ toLe 4 0 ++ [16, 0, 0, 0] ++ toLe 4 1000 ++
  kindEntry 2 1 2 ++ kindEntry 1 1 1 ++ kindEntry 1 2 100 ++ kindEntry 1 1 10 ++ kindEntry 1 1 5 ++ kindEntry 1 3 1000

/-- The default set (R464). -/
def CfgSet.default : CfgSet :=
  let c : CfgSet := {}
  let c := c.wr 2 0 [1]
  let c := c.wr 3 0 (toLe 2 1024 ++ toLe 2 4)
  let c := c.wr 5 0 [2, 2, 2, 2, 2, 2, 3, 1]
  let c := c.wr 6 0 (toLe 2 8)
  let c := c.wr 7 0 defaultAlarm
  c.wr 8 0 defaultPower

/-- A mailbox assignment entry (Table 20-8). -/
structure MboxEnt where
  num  : Nat
  fn   : Nat
  idx  : Nat
  comp : Nat
  lane : Nat
  deriving DecidableEq, Repr

/-- The assigned mailbox entries of a set, in entry order. -/
def CfgSet.mboxes (c : CfgSet) : List MboxEnt :=
  c.cells.filterMap (fun (k, v) =>
    if k / 65536 = 2 ∧ k % 8 = 0 ∧ v.getLsbD 0 then
      let o := k % 65536
      some { num := o / 8, fn := c.fld 2 (o + 1) 1, idx := c.fld 2 (o + 2) 2, comp := c.fld 2 (o + 4) 2,
             lane := c.fld 2 (o + 6) 1 }
    else none)

/-- The entry that assigns a mailbox of a function (R38). -/
def CfgSet.mbox? (c : CfgSet) (fn idx : Nat) : Option MboxEnt :=
  c.mboxes.find? (fun m => m.fn == fn && m.idx == idx)

/-- `MBX_COUNT` of a function (Table 3-3). -/
def CfgSet.mbxCount (c : CfgSet) (fn : Nat) : Nat := (c.mboxes.filter (fun m => m.fn == fn)).length

/-- A field of a compartment's entry (Table 6-3). -/
def CfgSet.comp (c : CfgSet) (n off len : Nat) : Nat := c.fld 1 (40 * n + off) len

/-- `IMAGES` of a compartment's entry. -/
def CfgSet.images (c : CfgSet) (n : Nat) : Nat := c.comp n 2 1

/-- Whether the dispatch section unbinds an opcode of a compartment (Table 20-7). -/
def CfgSet.unbound (c : CfgSet) (n opcode : Nat) : Bool :=
  c.cells.any (fun (k, v) => k / 65536 == 4 && k % 8 == 4 && v == 1 &&
    c.fld 4 (k % 65536 - 4) 2 == n && c.fld 4 (k % 65536 - 2) 2 == opcode)

/-- M of an action class (Table 20-7, section 5). -/
def CfgSet.quorum (c : CfgSet) (cls : Nat) : Nat := c.fld 5 (cls - 1) 1

/-- The active set of a store. -/
def Store.activeSet (s : Store) : CfgSet := if s.activeB then s.cfgB else s.cfgA

/-- The shadow set of a store. -/
def Store.shadowSet (s : Store) : CfgSet := if s.activeB then s.cfgA else s.cfgB

/-- The store with its shadow set replaced. -/
def Store.setShadow (s : Store) (c : CfgSet) : Store := if s.activeB then { s with cfgA := c } else { s with cfgB := c }

/-- The store with its active set replaced. -/
def Store.setActive (s : Store) (c : CfgSet) : Store := if s.activeB then { s with cfgB := c } else { s with cfgA := c }

/-- The set in force for a request, by its acceptance stamp (R250, R469, Table 8-4). -/
def Store.setAt (s : Store) (q : Nat) : CfgSet :=
  match s.oldSets.find? (fun e => decide (q < e.1)) with
  | some (_, c) => c
  | none => s.activeSet

end Sys2Proof.Machine
end

