-- ==== Sys2Proof/Machine/State.lean ====
section
/-! DEFINITION. The state of the module: everything the spec gives it, the queue of waiting commands, and the state
right after reset. -/

namespace Sys2Proof.Machine

/-- Why a command stops the model. -/
inductive Fault where
  /-- Raised by `REGISTER_WRITE` and `HIGH_WORD_LATCH_READ` at an offset past the 64 KiB of BAR0, the 64 KiB of BAR2 and the
  configuration space, which is no address of the function (R36, Table 3-1; assumption 197). Safe: the model stops where the
  spec gives no access. -/
  | outsideBar0
  deriving DecidableEq, Repr

/-- Why a command is not carried out. -/
inductive Refusal where
  /-- Raised by the dispatch arm of a command that has no meaning in the model. Safe: nothing is claimed of it. -/
  | notModelled (mnemonic : String)
  deriving DecidableEq, Repr

/-- The state of the PX9. -/
structure State where
  /-- The Meridian master's count (R22), and the power-cycle count (R23). -/
  now      : Nat := 0
  pcycle   : Nat := 0
  /-- The last stamp issued by each island of the Relay die, and what the last pulse found of its counter: the offset, the
  pulse, and what the counter read then (R24, R26); the twins' islands stand in their twins. -/
  stamps   : Tbl Nat := []
  offs     : Tbl (Int × Nat × Nat) := []
  fns      : Tbl Fn := []
  /-- Mailboxes, key 4,096 times the function plus the index. -/
  mbxs     : Tbl Mbx := []
  ptm      : Ptm := {}
  win      : AlmWin := {}
  ingress  : List Ingress := []
  /-- The lane last served (R50), and whether the link can train (R37). -/
  lastLane : Nat := 7
  linkUp   : Bool := true
  rreqs    : Tbl RReq := []
  payStore : List PayKeep := []
  twinA    : TwinSt := {}
  twinB    : TwinSt := {}
  /-- The twin that the twin-role state names active, and the twin that the output selector connects (R9, R19). -/
  active   : Option Twin := none
  egress   : Option Twin := none
  sw       : Switch := {}
  tmr      : Tmr := {}
  failStop : Bool := false
  nvm      : Store := {}
  alm      : Almanac := {}
  tamper   : Tamper := {}
  port0    : Port := {}
  port1    : Port := {}
  life     : Life := {}
  power    : Power := {}
  /-- When each power domain was last seen with a vote of a client, or with work of its own, and the whole module with a request, under
  the number of the module (R412, R413, R422, R423). -/
  used     : Tbl Nat := []
  wear     : Wear := {}
  boot     : Boot := {}
  health   : Health := {}
  /-- The sticky bits of the attention word, bit i for bit 16 + i, and `ATTN_SEQ` (R82, R83). -/
  sticky   : BitVec 12 := 0
  /-- When each sticky bit was last set (R8, R82). -/
  stickyAt : Tbl Nat := []
  attnSeq  : BitVec 4 := 0
  smbAlert : Bool := false
  /-- The level of RESET_N: true is high. -/
  resetN   : Bool := false
  /-- The model's own fields: outputs, the counter of free values, and the queue of waiting commands. -/
  out      : List Output := []
  free     : Nat := 0
  pending  : List Instr := []
  deriving DecidableEq, Repr

/-- A component as shipped: slot 0 holds the shipped package and is in force (R1). -/
def shippedComponent (p : Nat) : Component :=
  { slot0 := { st := .ready, shipped := p }, inForce := some 0 }

/-- NVM as the part is shipped (R1, R464): the default sets, firmware and the two vendor images. -/
def factoryStore : Store :=
  { cfgA := CfgSet.default, cfgB := CfgSet.default,
    comp1 := shippedComponent 1, comp2 := shippedComponent 2,
    images := [(1, shippedComponent 3), (2, shippedComponent 4)] }

/-- The module right after reset: RESET_N low, main power on, every register at its reset value, the NVM as
shipped, in PRODUCTION (R22, R464; assumption 7). -/
def State.reset : State :=
  { nvm := factoryStore, tamper := { retained := CfgSet.default.rd 7 0 512 },
    life := { fused := [.production, .test] } }

end Sys2Proof.Machine
end

