-- ==== Sys2Proof/Machine/Status.lean ====
section
/-! DEFINITION. The status codes of Table 4-7 and the Almanac severities. -/

namespace Sys2Proof.Machine

/-- `OK`. -/
abbrev stOk : Nat := 0x0000
/-- `REPLAYED` (R77). -/
abbrev stReplayed : Nat := 0x1001
/-- `OK_UNCONFIRMED` (R334). -/
abbrev stUnconfirmed : Nat := 0x1002
/-- `BAD_VERSION`. -/
abbrev stBadVersion : Nat := 0x2001
/-- `RESERVED_NONZERO`. -/
abbrev stReserved : Nat := 0x2002
/-- `BAD_TARGET` (R39). -/
abbrev stBadTarget : Nat := 0x2003
/-- `WRONG_MAILBOX`. -/
abbrev stWrongMailbox : Nat := 0x2004
/-- `BAD_ENTRY` (R61, R62). -/
abbrev stBadEntry : Nat := 0x2005
/-- `BAD_BUFFER` (R62). -/
abbrev stBadBuffer : Nat := 0x2006
/-- `PAYLOAD_READ_ERROR` (R51). -/
abbrev stPayload : Nat := 0x2007
/-- `BAD_OPCODE` (R67). -/
abbrev stBadOpcode : Nat := 0x2008
/-- `BAD_PARAMETER`. -/
abbrev stBadParam : Nat := 0x2009
/-- `BAD_FORMAT`. -/
abbrev stBadFormat : Nat := 0x200A
/-- `BAD_PREDECESSOR`. -/
abbrev stBadPred : Nat := 0x200B
/-- `BAD_SEGMENT` (R73). -/
abbrev stBadSegment : Nat := 0x200C
/-- `REPLY_TOO_SMALL` (R65). -/
abbrev stTooSmall : Nat := 0x200D
/-- `ID_CONFLICT` (R77). -/
abbrev stIdConflict : Nat := 0x200E
/-- `QUORUM_REQUIRED`. -/
abbrev stQuorum : Nat := 0x3001
/-- `APPROVAL_INVALID`. -/
abbrev stApproval : Nat := 0x3002
/-- `KEY_NOT_FOUND`. -/
abbrev stKeyNotFound : Nat := 0x3003
/-- `KEY_USAGE`. -/
abbrev stKeyUsage : Nat := 0x3004
/-- `KEY_EXHAUSTED`. -/
abbrev stExhausted : Nat := 0x3005
/-- `ROLE_DENIED`. -/
abbrev stRole : Nat := 0x3006
/-- `QUOTA_KEY_SLOTS`. -/
abbrev stQuota : Nat := 0x4001
/-- `REPLAY_FULL` (R76). -/
abbrev stReplayFull : Nat := 0x4002
/-- `FLOW_TABLE_FULL` (R69). -/
abbrev stFlowFull : Nat := 0x4003
/-- `DISABLED`. -/
abbrev stDisabled : Nat := 0x4004
/-- `BUSY`. -/
abbrev stBusy : Nat := 0x4005
/-- `TAG_MISMATCH`. -/
abbrev stTag : Nat := 0x5001
/-- `VERIFY_FAILED`. -/
abbrev stVerify : Nat := 0x5002
/-- `STREAM_ABORTED` (R74). -/
abbrev stStream : Nat := 0x5003
/-- `BLOCK_AUTH_FAILED`. -/
abbrev stBlockAuth : Nat := 0x5004
/-- `DISCARDED`. -/
abbrev stDiscarded : Nat := 0x6001
/-- `PREDECESSOR_FAILED` (R71). -/
abbrev stPredFailed : Nat := 0x6002
/-- `FLOW_FENCED` (R70). -/
abbrev stFenced : Nat := 0x6003
/-- `MODULE_LOCKED`. -/
abbrev stLocked : Nat := 0x7001
/-- `KEY_REVOKED`. -/
abbrev stRevoked : Nat := 0x7002
/-- `ZEROIZED`. -/
abbrev stZeroized : Nat := 0x7003
/-- `TAMPER_ABORT`. -/
abbrev stTamper : Nat := 0x7004
/-- `LIFECYCLE_DENIED`. -/
abbrev stLifecycle : Nat := 0x7005
/-- `DEADLINE_EXPIRED` (R72). -/
abbrev stExpired : Nat := 0x8001
/-- `DEADLINE_MISSED_PRECEDENCE` (R72). -/
abbrev stPrecedence : Nat := 0x8002
/-- `RNG_UNAVAILABLE` (R193). -/
abbrev stRng : Nat := 0x8003
/-- `CARD_TIMEOUT`. -/
abbrev stCardTimeout : Nat := 0x8004
/-- `IMAGE_EXCEPTION`. -/
abbrev stImage : Nat := 0xF002
/-- `INTERNAL_ERROR`. -/
abbrev stInternal : Nat := 0xF003

/-- STATUS[15:12], the class of a code (R80). -/
def stClass (st : Nat) : Nat := st / 4096

/-- The class of a status at which a request commits (R241). -/
def commitsAt (st : Nat) : Bool := stClass st == 0 || stClass st == 3 || stClass st == 5

/-- Severities of a record (Table 16-1). -/
abbrev sevInfo : Nat := 0
/-- Warning. -/
abbrev sevWarn : Nat := 1
/-- Fault. -/
abbrev sevFault : Nat := 2
/-- Evidence. -/
abbrev sevEvid : Nat := 3

end Sys2Proof.Machine
end

