-- ==== Sys2Proof/Machine/Ops.lean ====
section
/-! DEFINITION. The operations that every family shares: the twins, stamps and topology, the attention word, the
event wrapper, Almanac queueing, LOCK and fail-stop. -/

namespace Sys2Proof.Machine

/-- The other compute die (R9). -/
def otherTwin : Twin → Twin
  | .a => .b
  | .b => .a

/-- The twin base b of R18. -/
def twinBase : Twin → Nat
  | .a => 0
  | .b => 206

/-- `ORIGIN` of a twin's records (Table 16-1), and `TWIN` of its replies (Table 4-5). -/
def twinCode : Twin → Nat
  | .a => 1
  | .b => 2

/-- The twin that an island belongs to (Table 1-6). -/
def islandTwin (n : Nat) : Option Twin := if n < 206 then some .a else if n < 412 then some .b else none

/-- `ORIGIN` of a record about an island. -/
def islandOrigin (isl : Nat) : Nat :=
  match islandTwin isl with
  | some w => twinCode w
  | none => if isl = 426 ∨ isl = 427 then 4 else 3

/-- The cluster of a core or engine island (R18). -/
def islandCluster (n : Nat) : Nat := n % 206 / 12

/-- Whether an island is a transaction core (R18). -/
def isCore (n : Nat) : Bool := decide (n < 412) && decide (n % 206 < 192) && decide (n % 206 % 12 < 9)

/-- Whether an island is a cipher engine (R18). -/
def isEngine (n : Nat) : Bool := decide (n < 412) && decide (n % 206 < 192) && decide (9 ≤ n % 206 % 12)

/-- A twin of the state. -/
def State.twin (s : State) : Twin → TwinSt
  | .a => s.twinA
  | .b => s.twinB

/-- The state with a twin replaced. -/
def State.setTwin (s : State) (w : Twin) (x : TwinSt) : State :=
  match w with
  | .a => { s with twinA := x }
  | .b => { s with twinB := x }

/-- The state with a twin changed. -/
def State.updTwin (s : State) (w : Twin) (f : TwinSt → TwinSt) : State := s.setTwin w (f (s.twin w))

/-- Both twins changed. -/
def State.updBoth (s : State) (f : TwinSt → TwinSt) : State := { s with twinA := f s.twinA, twinB := f s.twinB }

/-- All three stores changed: what both twins and NVM hold alike. -/
def State.updStores (s : State) (f : Store → Store) : State :=
  { s with nvm := f s.nvm, twinA := { s.twinA with store := f s.twinA.store },
           twinB := { s.twinB with store := f s.twinB.store } }

/-- The Meridian count brought up to a command's stamp; it never goes back, and stands at 0 while the Relay is in reset
(R22, R24). -/
def State.at (s : State) (t : Nat) : State := { s with now := if s.boot.up then max s.now t else 0 }

/-- An island's counter: the master's count, off by what the last pulse found, which a correction of one unit in every 64
takes back; never below what it read at that pulse (R24, R26; assumption 166). -/
def clockAt (offs : Tbl (Int × Nat × Nat)) (now isl : Nat) : Nat :=
  match Tbl.find? offs isl with
  | some (d, p, low) =>
    let c : Int := ((now - p) / 64 : Nat)
    max low ((now : Int) + (if d < 0 then min (d + c) 0 else max (d - c) 0)).toNat
  | none => now

/-- The next stamp of an island: its counter, and strictly above its last stamp (R24). -/
def nextStamp (last : Tbl Nat) (offs : Tbl (Int × Nat × Nat)) (now isl : Nat) : Nat :=
  match Tbl.find? last isl with
  | some v => max (clockAt offs now isl) (v + 1)
  | none => clockAt offs now isl

/-- The stamp that an island of a die issues now, by its number in the die (R18, R24). -/
def TwinSt.stampOf (x : TwinSt) (now l : Nat) : Nat := nextStamp x.stamps x.offs now l

/-- The die after one of its islands has issued its stamp. -/
def TwinSt.stamped (x : TwinSt) (now l : Nat) : TwinSt := { x with stamps := Tbl.put x.stamps l (x.stampOf now l) }

/-- Coachyard's number in its die (Table 1-6). -/
abbrev coachyard : Nat := 196

/-- The stamp that an island issues now: strictly above its last one (R24). -/
def State.stampOf (s : State) (isl : Nat) : Nat :=
  match islandTwin isl with
  | some w => (s.twin w).stampOf s.now (isl % 206)
  | none => nextStamp s.stamps s.offs s.now isl

/-- The state after an island has issued its stamp. -/
def State.stamped (s : State) (isl : Nat) : State :=
  match islandTwin isl with
  | some w => s.updTwin w (fun x => x.stamped s.now (isl % 206))
  | none => { s with stamps := Tbl.put s.stamps isl (s.stampOf isl) }

/-- The island that keeps the Almanac, and stamps the records that the Relay writes of it (Table 1-6). -/
abbrev almanacIsl : Nat := 419

/-- A power domain; one that never left Run has no entry. -/
def State.domain (s : State) (n : Nat) : Domain := Tbl.getD s.power.domains n {}

/-- Whether debug has halted an island, and lets it make no step (Table 17-5). -/
def State.debugHalted (s : State) (isl : Nat) : Bool := Tbl.find? s.life.halted isl == some 0

/-- Whether an island executes and issues stamps: its domain is in Run, its counter is disciplined, and debug has not halted it
(R25, R402, R410). -/
def State.awake (s : State) (isl : Nat) : Bool :=
  (s.domain isl).st == .run && (s.domain isl).pulses == 0 && !s.debugHalted isl

/-- Whether a twin's Coachyard executes and issues stamps (R25, R410). -/
def State.coachyardAwake (s : State) (w : Twin) : Bool := s.awake (twinBase w + coachyard)

/-- The power manager of an island's die: of a twin, or the reset and clock island of the Relay (Table 1-6). -/
def powerManager (isl : Nat) : Nat := if isl < 206 then 205 else if isl < 412 then 411 else 425

/-- The island that stamps the record of an event (R27, R33): the island that the event names, where its id or detail names
one, and otherwise the unit of the origin that the event's class belongs to; a record about an island that may issue no stamp
is stamped by its die's power manager (assumption 167). -/
def State.issuer (s : State) (id origin : Nat) (detail : Bytes) : Nat :=
  let base := if origin = 2 then 206 else 0
  let cls := id / 4096
  let isl :=
    if (origin = 1 ∨ origin = 2) ∧ cls = 7 then base + 205
    else if origin = 4 ∨ cls = 7 then 418
    else if cls = 0xC then (if id % 4096 < 428 then id % 4096 else id % 4096 - 428)
    else if origin = 1 ∨ origin = 2 then
      (if cls = 8 then base + 199
       else if [0x6001, 0x6006, 0x600B].contains id ∧ (fld detail 2 2) / 206 = base / 206 then fld detail 2 2
       else if cls = 6 ∨ cls = 0xA then base + 196 else base + 198)
    else if cls = 6 then 415 else if cls = 9 then 413 else if cls = 5 then 421
    else if id / 16 = 0x401 then 422 else 419
  if 425 < isl then 418 else if s.awake isl then isl else powerManager isl

/-- A free value, and the counter that makes the next one another (assumption 8). -/
def State.fresh (s : State) : BitVec 4096 × State := (Config.freeValue s.free, { s with free := s.free + 1 })

/-- The wear record of a unit: the spare roles start at core slot 8 and engine slot 2 (assumption 18). -/
def TwinSt.unit (x : TwinSt) (isl : Nat) : UnitRec :=
  Tbl.getD x.units isl { role := if isl % 206 % 12 = 8 ∨ isl % 206 % 12 = 11 then .spare else .active }

/-- The core islands of a cluster of a twin, in slot order. -/
def coresOf (w : Twin) (k : Nat) : List Nat := (List.range 9).map (fun i => twinBase w + 12 * k + i)

/-- The engine islands of a cluster of a twin, in slot order. -/
def enginesOf (w : Twin) (k : Nat) : List Nat := (List.range 3).map (fun i => twinBase w + 12 * k + 9 + i)

/-- Number of cores or engines of a twin in a role; an outgoing unit that still drains has left the active set (R438). -/
def TwinSt.countRole (x : TwinSt) (w : Twin) (kind : UnitKind) (r : URole) : Nat :=
  ((List.range 16).flatMap (fun k => match kind with | .core => coresOf w k | .engine => enginesOf w k)).countP
    (fun i => (x.unit i).role == r && !(x.unit i).draining)

/-- Clusters of a twin with a retired core or engine: each has no spare left (Table 19-1). -/
def TwinSt.spentClusters (x : TwinSt) (kind : UnitKind) : Nat :=
  ((List.range 16).filter (fun k => x.units.any (fun e => islandCluster e.1 == k && e.2.role == .retired &&
    (match kind with | .core => isCore e.1 | .engine => isEngine e.1)))).length

/-- The life-cycle state: the target of the newest completed transition (R388, R396). -/
def State.lc (s : State) : LcState := s.life.fused.headD .blank

/-- The code of a life-cycle state (Table 3-4). -/
def lcCode : LcState → Nat
  | .blank => 0
  | .test => 1
  | .production => 2
  | .analysis => 3
  | .scrapped => 4

/-- The state of the standby as `STANDBY_STATE` gives it (Table 14-1); healthy while no role is assigned
(assumption 19). -/
def State.standbyState (s : State) : Nat :=
  match (match s.active with | some w => some (otherTwin w) | none => s.sw.old.map otherTwin) with
  | some w =>
    match (s.twin w).role with
    | .degraded | .offline => 1
    | .resync => 2
    | _ => 0
  | none => 0

/-- Active noise sources of a twin (R306). -/
def Entropy.actives (e : Entropy) : Nat :=
  e.sources.countP (fun x => match x.2.role with | .active _ => true | _ => false)

/-- Spare noise sources of a twin (R306). -/
def Entropy.spares (e : Entropy) : Nat := e.sources.countP (fun x => x.2.role == .spare)

/-- A twin's share of `RNG_DEGRADED`: fewer than 24 active sources, or random service stopped (R316, R317). -/
def TwinSt.rngDegraded (x : TwinSt) : Bool :=
  x.ent.stopped || (!x.ent.sources.isEmpty && decide (x.ent.actives < 24))

/-- A twin's share of `SPARES_LOW` (Table 19-4). -/
def TwinSt.sparesLow (x : TwinSt) : Bool :=
  decide (4 < x.spentClusters .core) || decide (4 < x.spentClusters .engine) ||
  (!x.ent.sources.isEmpty && decide (x.ent.spares < 4)) || x.clusters.any (fun c => decide (2 ≤ c.2.banks.length))

/-- Spare Skyglow sensors not retired, module-wide (R433, R447, Table 19-4): of 4 on the Relay die and 6 on each twin. -/
def Wear.skyglowSpares (x : Wear) : Nat :=
  ([(0, 4), (1, 6), (2, 6)].map (fun (d : Nat × Nat) =>
    d.2 - x.sensors.countP (fun e => e.2.2 && e.1 / 1024 == d.1))).sum

/-- `SPARES_LOW` (R448). -/
def State.sparesLow (s : State) : Bool :=
  s.twinA.sparesLow || s.twinB.sparesLow || decide (s.wear.skyglowSpares < 8) ||
  decide (s.wear.sectors < 128) || s.wear.linkX8

/-- Ordinary evidence positions free (R381). -/
def State.evidenceFree (s : State) : Nat := 130816 - s.alm.ev.next

/-- Whether any slot holds a verified version awaiting activation (Table 4-8, R456). -/
def Store.firmwarePending (st : Store) : Bool :=
  (st.comp1 :: st.comp2 :: st.images.map Prod.snd).any
    (fun c => c.slot0.st == .pendingAct || c.slot1.st == .pendingAct)

/-- Bits [27:16] of the attention word (Table 4-8): the sticky bits as held, the level bits as their conditions are. -/
def State.attnBits (s : State) : BitVec 12 :=
  (s.sticky &&& 0b011000010101#12) |||
  BitVec.ofNat 12 (b2n s.tamper.lock * 2048 + b2n (s.standbyState != 0) * 256 + b2n s.sparesLow * 128 +
    b2n (decide (s.evidenceFree ≤ 16384)) * 64 + b2n (s.twinA.rngDegraded || s.twinB.rngDegraded) * 32 +
    b2n s.power.thermal * 8 + b2n s.nvm.firmwarePending * 2)

/-- The attention word as `ATTENTION` [15:0] holds it (R82). -/
def State.attention (s : State) : Nat := s.attnSeq.toNat * 4096 + s.attnBits.toNat

/-- A day of operating time, in seconds. -/
abbrev opDay : Nat := 86400

/-- Whether boundary scan isolates the core logic from the pads (R406). -/
def State.isolated (s : State) : Bool :=
  match s.life.tapInst with
  | .extest | .clamp | .highz => true
  | _ => false

/-- `MOD_STATE` (Table 3-4). -/
def State.modState (s : State) : Nat :=
  lcCode s.lc * 2 ^ 28 + b2n s.tamper.lock * 2 ^ 27 + b2n s.life.recovery * 2 ^ 26 + b2n s.boot.ready * 2 ^ 25 +
  b2n s.sw.switching * 2 ^ 24 + (match s.active with | some w => twinCode w | none => 0) * 2 ^ 22 +
  s.standbyState * 2 ^ 20 + b2n s.failStop * 2 ^ 19 + b2n s.wear.linkX8 * 2 ^ 18 + b2n s.nvm.activeB * 2 ^ 16

/-- The number that stands for an entry of the module state (Table 18-8). -/
abbrev moduleDomain : Nat := 0xFFFF

/-- The cluster memory sub-domain of a cluster (R408). -/
def clusterMem (w : Twin) (k : Nat) : Nat := (match w with | .a => 428 | .b => 444) + k

/-- The quadrant island of a cluster (R18). -/
def quadrantOf (w : Twin) (k : Nat) : Nat := twinBase w + 192 + k / 4

/-- The domains of a twin that a client holds a vote of, or that have work of their own: an operation in its engine and its quadrant,
SRAM, hold regions and cached pages in the memory sub-domain, calls in the Orrery, a task in its core (Table 18-3, R413). -/
def TwinSt.usedDoms (x : TwinSt) (w : Twin) : List Nat :=
  (x.ctxs.filter (fun (c : Nat × Ctx) => c.2.occ)).map (fun (c : Nat × Ctx) => c.1 / 2) ++
  (x.ops.filter (fun (o : Nat × EngOp) => o.2.done.isNone)).flatMap (fun (o : Nat × EngOp) =>
    quadrantOf w o.2.cluster :: o.2.engine.elim (enginesOf w o.2.cluster) (fun i => [i])) ++
  (x.units.filter (fun (u : Nat × UnitRec) => u.2.role == .selftest)).map Prod.fst ++
  (x.clusters.filter (fun (c : Nat × Cluster) => !c.2.sram.isEmpty || !c.2.hold.isEmpty)).map
    (fun (c : Nat × Cluster) => clusterMem w c.1) ++
  x.cache.flatMap (fun p => (List.range 4).map (fun i => clusterMem w (4 * p.1 + i))) ++
  (if x.orrery.calls.isEmpty then [] else [twinBase w + 197])

/-- The domains of the module in use, with its own number while a request is in flight or in the ingress (R422). -/
def State.usedDoms (s : State) : List Nat :=
  s.twinA.usedDoms .a ++ s.twinB.usedDoms .b ++
  (if s.port0.dlg.isSome || s.port1.dlg.isSome then [422] else []) ++
  (if s.rreqs.isEmpty && s.ingress.isEmpty then [] else [moduleDomain])

/-- What every event does last: what the state before it had in use was in use up to now (R412); `ATTN_SEQ` advances by one when
bits [27:16] of the attention word changed, however many of them (R83), and stands at 0 while the Relay is in reset (Table 4-8);
and `SMB_ALERT_N` is pulled when the bits, `PWR_STATE` or `FAULT` changed (R492), and is high impedance in reset (R476). -/
def settle (before after : State) : State :=
  { after with
    used := if after.boot.up then before.usedDoms.foldl (fun t n => Tbl.put t n after.now) before.used else []
    attnSeq := if after.boot.up then
      (if before.attnBits = after.attnBits then before.attnSeq else before.attnSeq + 1) else 0
    smbAlert := after.boot.up && (after.smbAlert || decide (before.attnBits ≠ after.attnBits) ||
      decide (before.power.mod ≠ after.power.mod) || decide (before.failStop ≠ after.failStop)) }

/-- One event at a stamp: the shared shape of every command's effect. -/
def ev (t : Nat) (f : State → State) (s : State) : Host.Outcome State Fault Refusal :=
  .next (settle s (f (s.at t)))

/-- A change made only where its condition holds; elsewhere the command is no event here and nothing changes
(assumption 3). -/
def onlyIf (p : Bool) (f : State → State) (s : State) : State := if p then f s else s

/-- Sets sticky bits of the attention word (R82): bit i stands for bit 16 + i. -/
def State.setSticky (s : State) (m : BitVec 12) : State :=
  { s with
    sticky := s.sticky ||| m
    stickyAt := (List.range 12).foldl (fun t i => if m.getLsbD i then Tbl.put t i s.now else t) s.stickyAt }

/-- Sticky bits cleared (R82): one that an event set in this very unit of time stays set (R8; assumption 168). -/
def State.clearSticky (s : State) (m : BitVec 12) : State :=
  let just := (s.stickyAt.filter (fun e => e.2 == s.now)).foldl (fun (b : BitVec 12) e => b ||| (1#12 <<< e.1)) 0
  { s with sticky := s.sticky &&& ~~~(m &&& ~~~just) }

/-- `TAMPER_EVENT`. -/
abbrev attnTamper : BitVec 12 := 0x400
/-- `FAILOVER_OCCURRED`. -/
abbrev attnFailover : BitVec 12 := 0x200
/-- `CONFIG_SWAPPED`. -/
abbrev attnSwapped : BitVec 12 := 0x010
/-- `LIFECYCLE`. -/
abbrev attnLifecycle : BitVec 12 := 0x004
/-- `HEALTH_REPORT_READY`. -/
abbrev attnHealth : BitVec 12 := 0x001

/-- Operating seconds (R373). -/
def State.opSeconds (s : State) : Nat := s.alm.opsBase + s.now / 4000000000

/-- The record of an event with main power on, without its chain value (Table 16-1). -/
def State.recOf (s : State) (e : EvReq) : AlmRec :=
  { id := e.id, sev := e.sev, origin := e.origin, pcycle := s.pcycle, ops := s.alm.opsBase + e.stamp / 4000000000,
    first := e.stamp, last := e.stamp, detail := e.detail }

/-- A record that the Almanac's own island raises, with its stamp (R24, R33). -/
def State.ownRec (s : State) (id sev : Nat) (detail : Bytes) : AlmRec × State :=
  (s.recOf { id := id, sev := sev, origin := 3, stamp := s.stampOf almanacIsl, detail := fixLen 16 detail },
   s.stamped almanacIsl)

/-- Whether an occurrence may be merged into a record (R374): draw records and pads never are (R324, R382). -/
def AlmRec.merges (r o : AlmRec) : Bool :=
  r.id == o.id && r.sev == o.sev && r.origin == o.origin && r.pcycle == o.pcycle && r.detail == o.detail &&
  decide (r.rpt < 0xFFFFFF) && o.id != 0x0005 && o.id / 256 != 0x81

/-- The newest of some retained entries, when it may take an occurrence. -/
def mergeTop (l : List AlmRec) (r : AlmRec) : Option AlmRec :=
  match l.getLast? with
  | some e => if e.merges r then some e else none
  | none => none

/-- An entry written to the retained evidence buffer (R366): merged into the newest entry where R374 lets it; over entry
63, with the overflow counted, when all 64 are taken. -/
def Tamper.keep (x : Tamper) (r : AlmRec) : Tamper :=
  match mergeTop x.buffer r with
  | some e => { x with buffer := x.buffer.dropLast ++ [{ e with rpt := e.rpt + 1, last := r.last }] }
  | none =>
    if x.buffer.length < 64 then { x with buffer := x.buffer ++ [r] }
    else { x with buffer := x.buffer.take 63 ++ [r], overflow := satAdd 32 x.overflow 1 }

/-- Hands the Relay a record (R378, R379): a general record that finds its queue full is counted and lost; an evidence record of a
tamper event that finds the queue of 1,024 full goes to the retained buffer, and any other waits with its producer for room (R380;
assumption 20). -/
def State.note (s : State) (e : EvReq) : State :=
  if e.sev = sevEvid then
    if s.alm.ev.queue.length < 1024 then { s with alm := { s.alm with ev := { s.alm.ev with queue := s.alm.ev.queue ++ [e] } } }
    else if e.id / 4096 = 7 then { s with tamper := s.tamper.keep (s.recOf e) }
    else { s with alm := { s.alm with waiting := s.alm.waiting ++ [e] } }
  else if 4096 ≤ s.alm.gen.queue.length then { s with alm := { s.alm with dropped := s.alm.dropped + 1 } }
  else { s with alm := { s.alm with gen := { s.alm.gen with queue := s.alm.gen.queue ++ [e] } } }

/-- Hands the Relay a record of an event raised now, with the stamp of the island it comes from (R33, R371). -/
def State.event (s : State) (id sev origin : Nat) (detail : Bytes) : State :=
  let isl := s.issuer id origin detail
  (s.stamped isl).note { id := id, sev := sev, origin := origin, stamp := s.stampOf isl, detail := fixLen 16 detail }

/-- Hands the Relay a record of an event whose severity the spec does not state (assumption 28). -/
def State.eventU (s : State) (id origin : Nat) (detail : Bytes) : State :=
  s.event id (Config.eventSev id).toNat origin detail

/-- The cores of a twin that run a re-execution (R345). -/
def TwinSt.reexecCores (x : TwinSt) : List Nat :=
  x.reqs.filterMap (fun (r : Nat × Req) => if r.2.mismatch && r.2.reexec.isNone then r.2.reexecOn else none)

/-- A spare unit is free: neither retired, under test nor running a re-execution (R439). -/
def TwinSt.freeSpare (x : TwinSt) (isl : Nat) : Bool :=
  (x.unit isl).role == .spare && !(x.unit isl).draining && !x.reexecCores.contains isl

/-- The free spare units of a kind in a twin (R439). -/
def TwinSt.freeSpares (x : TwinSt) (w : Twin) (kind : UnitKind) : Nat :=
  ((List.range 16).flatMap (fun k => match kind with | .core => coresOf w k | .engine => enginesOf w k)).countP x.freeSpare

/-- The group of a draw that did not commit (R325): N records of `DRAW_VOID`. -/
def voidGroup (n origin stamp id comp status : Nat) : List EvReq :=
  (List.range n).map (fun i =>
    { id := 0x810F, sev := sevEvid, origin := origin, stamp := stamp,
      detail := toLe 8 id ++ toLe 2 comp ++ toLe 2 status ++ [byte i, byte n, 0, 0] })

/-- The reservations of some requests filled with `DRAW_VOID` (R325): the open ones, and with `also` those whose group awaits
its turn behind an earlier reservation and is taken back with its commit. A group that is void already keeps its status. -/
def State.voidDraws (s : State) (also : Bool) (p : Nat → Bool) (status : Nat) : State :=
  (s.alm.draws.filter (fun (d : Nat × (Nat × Nat × Option (List EvReq))) =>
    d.2.2.2.all (fun g => also && g.any (fun r => r.id == 0x8100)) && p d.1)).foldl (fun s d =>
    let h := (Tbl.getD s.rreqs d.1 {}).hdr
    let g := voidGroup d.2.2.1 3 (s.stampOf almanacIsl) h.id (bits h.target 9 0) status
    { s.stamped almanacIsl with alm := { s.alm with draws := Tbl.put s.alm.draws d.1 (d.2.1, d.2.2.1, some g) } }) s

/-- The fail-stop of R351: release and fetching stop, the record carries `MODULE_FAULT` and the cause, and the draws left
open are void (R325). -/
def State.doFailStop (s : State) (cause : Nat) : State :=
  if s.failStop then s else
    (({ s with failStop := true }).eventU 0x600A 3 (toLe 2 0xF001 ++ toLe 2 cause)).voidDraws false (fun _ => true) 0xF001

/-- The ids of the approvals in a store or in a commit held back (R190) of which something holds. -/
def TwinSt.approvalIds (x : TwinSt) (p : Approval → Bool) : List Nat :=
  (x.store.approvals.filter (fun a => p a.2)).map Prod.fst ++
  x.reqs.flatMap (fun (r : Nat × Req) => match r.2.fin with
    | some e => if r.2.applied then [] else e.effects.filterMap (fun f => match f with
        | .approvalAdd id a _ => if p a then some id else none
        | _ => none)
    | none => [])

/-- Approvals withdrawn from every store (R163); one that a twin has yet to add is not added there any more. -/
def State.withdrawApprovals (s : State) (p : Approval → Bool) : State :=
  let ids := s.twinA.approvalIds p ++ s.twinB.approvalIds p
  s.updStores (fun st => { st with
    approvals := st.approvals.filter (fun a => !p a.2)
    withdrawn := st.withdrawn ++ ids.filter (fun i => decide (st.nextApp ≤ i) && !st.withdrawn.contains i) })

/-- LOCK entry (R363): the module enters LOCK, and every approval is withdrawn (R163). The cause is 1 for an alarm
and 2 for a full evidence region. -/
def State.enterLock (s : State) (cause : Nat) : State :=
  ({ s with tamper := { s.tamper with lock := true, lockCause := if s.tamper.lock then s.tamper.lockCause else cause } }
    ).withdrawApprovals (fun _ => true)

end Sys2Proof.Machine
end

