-- ==== Sys2Proof/Machine/Context.lean ====
section
/-! DEFINITION. What a Kaibas context holds, read and written without regard to rights: the register file, local memory and its
tags (R200, R201, R209, R215). -/

namespace Sys2Proof.Machine

/-- A status register with `len` bits from `lo` replaced. -/
def setBits (v : BitVec 64) (lo len x : Nat) : BitVec 64 :=
  BitVec.ofNat 64 (v.toNat - bits v.toNat (lo + len - 1) lo * 2 ^ lo + x % 2 ^ len * 2 ^ lo)

/-- A word of the register file with its tag. -/
def Ctx.word (c : Ctx) (i : Nat) : Word × Bool := Tbl.getD c.regs i (0, false)

/-- The context with a word of the register file written. -/
def Ctx.setWord (c : Ctx) (i : Nat) (v : Word) (tag : Bool) : Ctx :=
  { c with regs := Tbl.store c.regs i (v, tag) (0, false) }

/-- Bytes of local memory. -/
def Ctx.lread (c : Ctx) (a n : Nat) : Bytes := (List.range n).map (fun i => Tbl.getD c.lmem (a + i) 0)

/-- Whether any of the words that hold some bytes of local memory is tagged. -/
def Ctx.ltag (c : Ctx) (a n : Nat) : Bool := c.ltags.any (fun t => decide (a / 8 ≤ t) && decide (t < (a + n + 7) / 8))

/-- A byte list written at an address of a sparse byte table. -/
def storeBytes (t : Tbl (BitVec 8)) (a : Nat) : Bytes → Tbl (BitVec 8)
  | [] => t
  | b :: bs => storeBytes (Tbl.store t a b 0) (a + 1) bs

/-- A number put in its place in a rising list, once. -/
def insertNat (n : Nat) : List Nat → List Nat
  | [] => [n]
  | m :: l => if n < m then n :: m :: l else if n = m then m :: l else m :: insertNat n l

/-- The tag of one word of local memory set. -/
def setTag (l : List Nat) (t : Nat) (tag : Bool) : List Nat := if tag then insertNat t l else l.filter (fun m => m != t)

/-- Bytes written to local memory, not touching tags. -/
def Ctx.lwrite (c : Ctx) (a : Nat) (b : Bytes) : Ctx := { c with lmem := storeBytes c.lmem a b }

/-- Bytes written to local memory by a unit: every word they touch takes the tag, a word written in part keeps an old
tag (R215). -/
def Ctx.lput (c : Ctx) (a : Nat) (b : Bytes) (tag : Bool) : Ctx :=
  let words := (List.range ((a + b.length + 7) / 8 - a / 8)).map (fun i => a / 8 + i)
  let whole := fun t => decide (a ≤ 8 * t) && decide (8 * t + 8 ≤ a + b.length)
  { c.lwrite a b with
    ltags := words.foldl (fun l t => if whole t then setTag l t tag else if tag then setTag l t true else l) c.ltags }

end Sys2Proof.Machine
end

