-- ==== Sys2Proof/Machine/Flags.lean ====
section
/-! DEFINITION. The carry of `sr` and the accumulator, with their tags (R208, R213). -/

namespace Sys2Proof.Machine

/-- `C` and `CTAG` of `sr` written. -/
def Ctx.setCarry (c : Ctx) (v tag : Bool) : Ctx := { c with sr := setBits (setBits c.sr 7 1 (b2n v)) 6 1 (b2n tag) }

/-- The sum with carry of `adc`: the value and the carry out. -/
def addCarry (a b : Word) (cin : Bool) : Word × Bool :=
  (a + b + BitVec.ofNat 64 (b2n cin), decide (2 ^ 64 ≤ a.toNat + b.toNat + b2n cin))

/-- The difference with borrow of `sbb`: the value and the borrow. -/
def subBorrow (a b : Word) (cin : Bool) : Word × Bool :=
  (a - b - BitVec.ofNat 64 (b2n cin), decide (a.toNat < b.toNat + b2n cin))

/-- The accumulator increased modulo 2^192, its tag raised by a tagged input (R213). -/
def Ctx.accumulate (c : Ctx) (v : Nat) (tag : Bool) : Ctx :=
  { c with acc := c.acc + BitVec.ofNat 192 v, accTag := c.accTag || tag }

/-- One word of the accumulator. -/
def Ctx.accWord (c : Ctx) (i : Nat) : Word := (c.acc >>> (64 * i)).setWidth 64

/-- The accumulator with one word written (R208). -/
def Ctx.setAccWord (c : Ctx) (i : Nat) (v : Word) (tag : Bool) : Ctx :=
  { c with acc := BitVec.ofNat 192 (c.acc.toNat - bits c.acc.toNat (64 * i + 63) (64 * i) * 2 ^ (64 * i) + v.toNat * 2 ^ (64 * i))
           accTag := c.accTag || tag }

/-- A special register that a context holds, with its tag, as it is stored (Table 9-2). -/
def Ctx.special (c : Ctx) (n : Nat) : Option (Word × Bool) :=
  match n with
  | 0x000 => some (c.sr, false)
  | 0x001 => some (c.lk, false)
  | 0x002 => some (c.rc.setWidth 64, false)
  | 0x003 => some (c.ev, false)
  | 0x004 => some (c.epc, false)
  | 0x005 => some (c.ecause.setWidth 64, false)
  | 0x006 => some (c.einfo, false)
  | 0x007 => some (c.esr, false)
  | 0x008 => some (c.accWord 0, c.accTag)
  | 0x009 => some (c.accWord 1, c.accTag)
  | 0x00A => some (c.accWord 2, c.accTag)
  | 0x00B => some (c.dclc, false)
  | 0x010 | 0x011 | 0x012 | 0x013 | 0x014 | 0x015 | 0x016 | 0x017 => some (c.word (248 + (n - 0x010)))
  | _ => none

/-- A special register of a context written; reserved bits, and a register that is read-only, take nothing (R207, R208, Tables 9-3
and 9-5). -/
def Ctx.setSpecial (c : Ctx) (n : Nat) (v : Word) (tag : Bool) : Ctx :=
  match n with
  | 0x000 => c.setCarry (v.getLsbD 7) false
  | 0x001 => { c with lk := v }
  | 0x002 => { c with rc := v.setWidth 32 }
  | 0x003 => { c with ev := v }
  | 0x004 => { c with epc := v }
  | 0x005 => { c with ecause := v.setWidth 32 &&& 0x1FFFFF }
  | 0x006 => { c with einfo := v }
  | 0x007 => { c with esr := v &&& 0x0000FFFFC0FF08C1 }
  | 0x008 => c.setAccWord 0 v tag
  | 0x009 => c.setAccWord 1 v tag
  | 0x00A => c.setAccWord 2 v tag
  | 0x010 | 0x011 | 0x012 | 0x013 | 0x014 | 0x015 | 0x016 | 0x017 => c.setWord (248 + (n - 0x010)) v tag
  | _ => c

end Sys2Proof.Machine
end

