-- ==== Sys2Proof/Machine/Debug.lean ====
section
/-! DEFINITION. What a debug act does in an island that it reaches (R402, R403, Table 17-5), and the answers to accesses (R419). -/

namespace Sys2Proof.Machine

/-- Whether an island holds a Kaibas processor: a transaction core, or Zenith (R18, R229). -/
def isProcessor (n : Nat) : Bool := isCore n || (decide (n < 412) && n % 206 == 198)

/-- A context of a processor as a debug act finds it. -/
def TwinSt.debugCtx (x : TwinSt) (isl n : Nat) : Ctx := Tbl.getD x.ctxs (2 * isl + n) { occ := !isCore isl }

/-- What a debug read finds, the tag included; nothing where the spec lays out no such place. -/
def TwinSt.debugRead (x : TwinSt) (isl : Nat) : DbgLoc → Option (Word × Bool)
  | .word n i => if isProcessor isl ∧ n < 2 ∧ i < 256 then some ((x.debugCtx isl n).word i) else none
  | .special n r => if isProcessor isl ∧ n < 2 then (x.debugCtx isl n).special r else none
  | .mem n a =>
    if isProcessor isl ∧ n < 2 then
      let c := x.debugCtx isl n
      some (BitVec.ofNat 64 (leNat (c.lread a 8)), c.ltag a 8)
    else none
  | .sram k a =>
    if 192 ≤ isl % 206 ∧ isl % 206 < 196 ∧ k / 4 = isl % 206 - 192 then
      let d := (Tbl.getD x.clusters k ({} : Cluster)).sramData
      some (BitVec.ofNat 64 (leNat ((List.range 8).map (fun i => Tbl.getD d (a + i) 0))), false)
    else none
  | .other _ => none

/-- What a debug write leaves in the twin (R402). -/
def TwinSt.debugWrite (x : TwinSt) (isl : Nat) (l : DbgLoc) (v : Word) (tag : Bool) : TwinSt :=
  let put := fun (n : Nat) (f : Ctx → Ctx) =>
    if isProcessor isl ∧ n < 2 then { x with ctxs := Tbl.put x.ctxs (2 * isl + n) (f (x.debugCtx isl n)) } else x
  match l with
  | .word n i => if i < 256 then put n (fun c => c.setWord i v tag) else x
  | .special n r => put n (fun c => c.setSpecial r v tag)
  | .mem n a => put n (fun c => c.lput a (toLe 8 v.toNat) tag)
  | .sram k a =>
    if 192 ≤ isl % 206 ∧ isl % 206 < 196 ∧ k / 4 = isl % 206 - 192 then
      let c := Tbl.getD x.clusters k ({} : Cluster)
      { x with clusters := Tbl.put x.clusters k { c with sramData := storeBytes c.sramData a (toLe 8 v.toNat) } }
    else x
  | .other _ => x

/-- An access answered at an island. -/
def State.answerAccess (s : State) (dom : Nat) (val : Option (Word × Bool)) (down : Bool) : State :=
  { s with out := s.out ++ [.access dom val down] }

/-- A debug act in an island that serves it (Table 17-5). A halted island executes nothing until it is resumed, but a processor one
instruction for each step. What a read of a place that the spec does not lay out gives is free (assumption 40). -/
def State.debugAct (s : State) (isl : Nat) (act : DbgKind) : State :=
  let setHalt := fun (t : Tbl Nat) => { s with life := { s.life with halted := t } }
  match act with
  | .halt => (setHalt (Tbl.put s.life.halted isl 0)).answerAccess isl none false
  | .step =>
    match Tbl.find? s.life.halted isl with
    | some n => (setHalt (Tbl.put s.life.halted isl (if isProcessor isl then n + 1 else n))).answerAccess isl none false
    | none => s.answerAccess isl none false
  | .resume => (setHalt (Tbl.del s.life.halted isl)).answerAccess isl none false
  | .read l =>
    match (islandTwin isl).bind (fun w => (s.twin w).debugRead isl l) with
    | some v => s.answerAccess isl (some v) false
    | none =>
      let v := s.fresh
      v.2.answerAccess isl (some (v.1.setWidth 64, v.1.getLsbD 64)) false
  | .write l v tag =>
    let s := match islandTwin isl with
      | some w => s.updTwin w (fun x => x.debugWrite isl l v tag)
      | none => s
    s.answerAccess isl none false

/-- One of the steps that a halted processor may make is taken. -/
def State.takeStep (s : State) (isl : Nat) : State :=
  match Tbl.find? s.life.halted isl with
  | some (n + 1) => { s with life := { s.life with halted := Tbl.put s.life.halted isl n } }
  | _ => s

/-- An access that a gatekeeper let through, or has held until its domain is in Run (R419). What a register of an island holds that
Zenith reads over the fabric the spec does not state. -/
def State.serveAccess (s : State) (dom : Nat) : GateAcc → State
  | .zenith true => s.answerAccess dom none false
  | .zenith false =>
    let v := s.fresh
    v.2.answerAccess dom (some (v.1.setWidth 64, false)) false
  | .debug act => s.debugAct dom act

/-- An access answered `ISLAND_DOWN` (R419): a read gives ones, and a write is discarded. -/
def State.refuseAccess (s : State) (dom : Nat) : GateAcc → State
  | .zenith false | .debug (.read _) => s.answerAccess dom (some (BitVec.allOnes 64, false)) true
  | _ => s.answerAccess dom none true

end Sys2Proof.Machine
end

