-- ==== Sys2Proof/Machine/Domains.lean ====
section
/-! DEFINITION. Power domains, the voltages and clocks of islands, the wake events that bring domains to Run, and the accesses
that meet one that is not (R408 to R410, R415 to R419, R425 to R430). -/

namespace Sys2Proof.Machine

/-- The state with its power part changed. -/
def State.updPower (s : State) (f : Power → Power) : State := { s with power := f s.power }

/-- A field of the power section in force. -/
def State.powerFld (s : State) (off len : Nat) : Nat := s.nvm.activeSet.fld 8 off len

/-- The DVFS state of an island. -/
def State.island (s : State) (n : Nat) : IslandDvfs := Tbl.getD s.power.dvfs n {}

/-- An island's DVFS state changed. -/
def State.updIsland (s : State) (n : Nat) (f : IslandDvfs → IslandDvfs) : State :=
  s.updPower (fun p => { p with dvfs := Tbl.store p.dvfs n (f (s.island n)) {} })

/-- The number of a load class (Table 18-8). -/
def classCode : LoadClass → Nat
  | .light => 0
  | .medium => 1
  | .heavy => 2

/-- The table of a class. -/
def IslandDvfs.table (d : IslandDvfs) : LoadClass → Dvfs
  | .light => d.light
  | .medium => d.medium
  | .heavy => d.heavy

/-- The table of a class replaced. -/
def IslandDvfs.setTable (d : IslandDvfs) (c : LoadClass) (t : Dvfs) : IslandDvfs :=
  match c with
  | .light => { d with light := t }
  | .medium => { d with medium := t }
  | .heavy => { d with heavy := t }

/-- Whether an island uses its guard-banded table: that of its class is not trained, or stale (R427). -/
def IslandDvfs.guarded (d : IslandDvfs) (ops : Nat) : Bool :=
  !(d.table d.cls).trained || decide ((d.table d.cls).stamp + opDay ≤ ops)


/-- The nominal clock of an island, in Hz (Table 1-5). -/
def nominalHz (n : Nat) : Nat :=
  if n < 412 then
    if isCore n then 1600000000
    else if isEngine n ∨ n % 206 < 196 then 1250000000
    else match n % 206 with
      | 196 => 1500000000
      | 198 | 200 | 202 => 1200000000
      | 204 => 500000000
      | 205 => 250000000
      | _ => 1000000000
  else if n < 426 then 1000000000
  else if n = 426 then 32768
  else 4000000

/-- Operating points of each table of an island: a core's at 1.6 GHz to 2.0 GHz in steps of 100 MHz, any other's at its nominal
clock (R425). -/
def pointsOf (n : Nat) : Nat := if isCore n then 5 else 1

/-- The operating point of an island (R425, R427, R430): a core's lies above the first only with boost permitted, a trained table
that is current, and no thermal warning; which one then is a choice by the busy fraction alone. -/
def State.pointOf (s : State) (n : Nat) : Nat :=
  let d := s.island n
  if isCore n ∧ s.powerFld 1 1 = 1 ∧ ¬ d.guarded s.opSeconds ∧ ¬ s.power.thermal then min 4 (Config.corePoint d.busy).toNat
  else 0

/-- The clock of an island, in Hz (R17, R425, R430). -/
def State.clockHz (s : State) (n : Nat) : Nat := nominalHz n + 100000000 * s.pointOf n

/-- The local voltage of an island, in mV (Table 18-1, R425, R427 to R429): 0.55 V in Nap, and none in Sleep. -/
def State.localMv (s : State) (n : Nat) : Nat :=
  let d := s.island n
  match (s.domain n).st with
  | .sleep => 0
  | .nap => 550
  | _ =>
    if d.guarded s.opSeconds then min ((Config.guardMv n (classCode d.cls)).toNat + d.bump) (Config.guardMax n).toNat
    else (d.table d.cls).mv.getD (s.pointOf n) 0 + d.bump

/-- The VID code that asks for 20 mV above the highest local voltage of a twin, within 0.60 V to 0.85 V (R425, R484). -/
def State.vidFor (s : State) (w : Twin) : Nat :=
  let top := ((List.range 206).map (fun i => s.localMv (twinBase w + i))).foldl max 0
  (min 850 (max 600 (top + 20)) - 600 + 4) / 5

/-- The VID requests brought up to the local voltages in use; in STANDBY-HOT they stand at code 0 (R424, R425). -/
def State.setVid (s : State) : State :=
  if s.power.mod = .standbyHot then s
  else s.updPower (fun p => { p with vidA := s.vidFor .a, vidB := s.vidFor .b })

/-- A power domain replaced; one that leaves Run stands idle from then on for those it holds a vote of, and `VDD_CORE` follows the
voltages in use (R412, R425). -/
def State.setDomain (s : State) (n : Nat) (d : Domain) : State :=
  let was := (s.domain n).st
  let d := if was = .run ∧ d.st ≠ .run then { d with left := s.now } else d
  let t := { s with power := { s.power with domains := Tbl.store s.power.domains n d {} } }
  if was = d.st then t else t.setVid

/-- A domain changed. -/
def State.updDomain (s : State) (n : Nat) (f : Domain → Domain) : State := s.setDomain n (f (s.domain n))

/-- The twin that a power domain belongs to. -/
def domainTwin (n : Nat) : Option Twin :=
  if n < 428 then islandTwin n else if n < 444 then some .a else if n < 460 then some .b else none

/-- What a domain is when a wake event has brought it to Run: a counter lost in Sleep needs two discipline pulses, one
held in Nap needs one (R25, R410). -/
def Domain.woken (d : Domain) : Domain :=
  { d with st := .run, entry := none, latched := [], busy := 0, stopped := false, held := [],
           pulses := match d.st with | .sleep => 2 | .nap => max 1 d.pulses | _ => d.pulses
           pulse1 := match d.st with | .sleep => none | _ => d.pulse1 }

/-- A domain after a discipline pulse (R25, R410): one in Run needs one pulse less, and the two that follow Sleep must be
consecutive. -/
def Domain.pulsed (d : Domain) (now : Nat) : Domain :=
  if d.st ≠ .run ∨ d.pulses = 0 then d
  else if d.pulses = 2 then { d with pulses := 1, pulse1 := some now }
  else match d.pulse1 with
    | some p => if p + 4000 = now then { d with pulses := 0, pulse1 := none } else { d with pulse1 := some now }
    | none => { d with pulses := 0 }

/-- A domain returns to Run: its gatekeeper serves the accesses it has held (R419), the clamp of island 422 ends (R421), and so does
the `halt` that Zenith waits in (R415). -/
def State.toRun (s : State) (n : Nat) : State :=
  let d := s.domain n
  let s := s.setDomain n d.woken
  let s := if n = 422 then s.updPower (fun p => { p with padClamp := false }) else s
  let s := match (if n % 206 = 198 then islandTwin n else none) with
    | some w => s.updTwin w (fun x => { x with ctxs := Tbl.upd x.ctxs (2 * n) (fun (c : Ctx) => { c with waiting := false }) })
    | none => s
  d.held.foldl (fun s a => s.serveAccess n a) s

/-- Whether a domain is one of an entry in progress: its own, or that of the module state, in which every twin domain takes part
(R417, R418). -/
def State.entering (s : State) (n : Nat) : Bool :=
  (s.domain n).entry.isSome || ((s.domain moduleDomain).entry.isSome && (domainTwin n).isSome)

/-- A wake event at a domain (R416, R417): latched while an entry is in progress. -/
def State.wakeDom (s : State) (n : Nat) : State :=
  let at_ := if (s.domain moduleDomain).entry.isSome ∧ (domainTwin n).isSome then moduleDomain else n
  if s.entering n then s.updDomain at_ (fun d => { d with latched := d.latched ++ [n] }) else s.toRun n

/-- A wake event at several domains. -/
def State.wakeDoms (s : State) (l : List Nat) : State := l.foldl State.wakeDom s

/-- A record of a power event (R432, Table 18-8): its source is an island. -/
def State.powerEvent (s : State) (isl origin kind sev b1 b23 b47 : Nat) : State :=
  s.event (0xC000 + isl) sev origin ([byte kind, byte b1] ++ toLe 2 b23 ++ toLe 4 b47)

/-- The code of a module state in byte 1 of its records (Table 18-8). -/
def ModPower.code : ModPower → Nat
  | .active => 0x11
  | .trimmed => 0x12
  | .standbyHot => 0x13
  | .off => 0

/-- A module state entered, and recorded when it is a change (R422). -/
def State.enterMod (s : State) (m : ModPower) : State :=
  if s.power.mod = m then s
  else ({ s with power := { s.power with mod := m } }).powerEvent 425 3 0x10 0 m.code 0 0

/-- The domains of the twins that the table lists. -/
def State.twinDoms (s : State) : List Nat :=
  (s.power.domains.filter (fun (d : Nat × Domain) => (domainTwin d.1).isSome)).map Prod.fst

/-- The module leaves STANDBY-HOT (R424): every twin domain returns to Run, and VDD_CORE rises to code 24. -/
def State.exitStandby (s : State) : State :=
  if s.power.mod ≠ .standbyHot then s
  else (s.twinDoms.foldl State.toRun s |>.updPower (fun p => { p with vidA := 24, vidB := 24 })).enterMod .active

/-- `REFUSE_WAIT`, in Meridian units. -/
def State.refuseWait (s : State) : Nat := 4000 * s.powerFld 2 2

/-- The islands of a cluster that trimming puts to Sleep (R423). -/
def trimDoms (w : Twin) (k : Nat) : List Nat := coresOf w k ++ enginesOf w k

/-- Whether an entry is one of trimming: a core or an engine enters Sleep in no other way (Table 18-3). -/
def trimEntry (n : Nat) (p : PState) : Bool := (isCore n || isEngine n) && p == .sleep

/-- The entry of one domain, or of the module state, aborted (R417, R418): the blocks that it had stopped return to Run, the domain
makes no new attempt before `REFUSE_WAIT` has passed again, and the wake events latched are replayed in order of arrival. -/
def State.abortOne (s : State) (n : Nat) : State :=
  let d := s.domain n
  if d.entry.isNone then s
  else
    let parts := if n = moduleDomain then s.twinDoms.filter (fun i => (s.domain i).stopped && (s.domain i).entry.isNone)
      else if d.stopped then [n] else []
    let s := s.updDomain n (fun d =>
      { d with entry := none, latched := [], busy := 0, aborted := some s.now, retry := s.now + s.refuseWait })
    (parts.foldl State.toRun s).wakeDoms d.latched

/-- An entry aborted, with those of the whole cluster where it is one of trimming. -/
def State.abortEntry (s : State) (n : Nat) : State :=
  match islandTwin n, (s.domain n).entry with
  | some w, some (target, _) =>
    (if trimEntry n target then trimDoms w (islandCluster n) else [n]).foldl State.abortOne s
  | _, _ => s.abortOne n

/-- A wake event of the last row of Table 18-5 at a domain: every entry in progress there aborts at once (R417). -/
def State.wakeNow (s : State) (n : Nat) : State :=
  let s := if (domainTwin n).isSome then s.abortEntry moduleDomain else s
  (s.abortEntry n).toRun n

/-- The kinds of Table 18-3, numbered as their entries in the power section stand (Table 18-7); none for a domain that never
leaves Run on its own. -/
def domainKind (n : Nat) : Option Nat :=
  if isCore n then some 0
  else if isEngine n then some 1
  else if 428 ≤ n ∧ n < 460 then some 2
  else if n < 412 ∧ 192 ≤ n % 206 ∧ n % 206 < 196 then some 3
  else if n < 412 ∧ n % 206 = 197 then some 4
  else if n = 422 then some 5
  else none

/-- `WOA` of a domain's kind in the set in force, which an entry of the domain takes over (R419, R431). -/
def State.woaOf (s : State) (n : Nat) : Bool := (domainKind n).any (fun k => s.powerFld (18 + 8 * k) 1 == 1)

/-- The code of a domain state in the records of Table 18-8. -/
def PState.code : PState → Nat
  | .run => 0
  | .doze => 1
  | .nap => 2
  | .sleep => 3

/-- The island that a record about a domain names: a cluster memory sub-domain stands in its quadrant island (R408,
R432). -/
def domainIsland (n : Nat) : Nat :=
  match domainTwin n with
  | some w => if 428 ≤ n then quadrantOf w ((n - 428) % 16) else n
  | none => n

/-- The state in which an access that no wake event precedes meets a domain that is not in Run, or is about to leave it (R419). -/
def State.closed (s : State) (n : Nat) : Option PState :=
  match (s.domain n).entry with
  | some (target, _) => some target
  | none => if (s.domain n).st = .run then none else some (s.domain n).st

/-- An access at a domain's gatekeeper (R419): served in Run; otherwise, with the `WOA` of the domain's last entry, a wake event,
and held until the domain is in Run; or answered `ISLAND_DOWN`, and recorded. -/
def State.gatekeep (s : State) (n : Nat) (a : GateAcc) : State :=
  match s.closed n with
  | none => s.serveAccess n a
  | some p =>
    if (s.domain n).woa then (s.updDomain n (fun d => { d with held := d.held ++ [a] })).wakeDom n
    else (s.refuseAccess n a).powerEvent (domainIsland n) (islandOrigin (domainIsland n)) 0x02 sevWarn p.code 0 0

/-- A cluster's flag changed. -/
def TwinSt.setTrimmed (x : TwinSt) (k : Nat) (b : Bool) : TwinSt :=
  { x with clusters := Tbl.put x.clusters k { (Tbl.getD x.clusters k ({} : Cluster)) with trimmed := b } }

/-- Whether a cluster is trimmed. -/
def TwinSt.trimmed (x : TwinSt) (k : Nat) : Bool := (Tbl.getD x.clusters k ({} : Cluster)).trimmed

/-- A trimmed cluster woken (R423, Table 18-6): the last one brings the module back to ACTIVE. -/
def State.wakeCluster (s : State) (w : Twin) (k : Nat) : State :=
  if ¬ (s.twin w).trimmed k then s
  else
    let s := (s.updTwin w (fun x => x.setTrimmed k false)).wakeDoms (trimDoms w k)
    if (s.twinA.clusters ++ s.twinB.clusters).any (fun (c : Nat × Cluster) => c.2.trimmed) then s else s.enterMod .active

/-- The trimmed clusters of which a wake event has reached an island are woken whole (R422, R423). -/
def State.untrim (s : State) (w : Twin) : State :=
  (List.range 16).foldl (fun s k =>
    if (trimDoms w k).all (fun i => (s.domain i).st == .sleep || (s.domain i).entry.isSome) then s else s.wakeCluster w k) s

/-- Every domain of a twin woken at once, every entry in progress there aborted, and STANDBY-HOT and TRIMMED left (Table 18-5, last
row). -/
def State.wakeTwin (s : State) (w : Twin) : State :=
  let s := (s.exitStandby).abortEntry moduleDomain
  ((s.twinDoms.filter (fun n => domainTwin n == some w)).foldl State.wakeNow s).untrim w

/-- The domains that a dispatch wakes (Table 18-5). -/
def dispatchDoms (w : Twin) (isl : Nat) : List Nat :=
  [isl, quadrantOf w (islandCluster isl), clusterMem w (islandCluster isl)]

/-- The domains that an engine operation wakes (Table 18-5). -/
def engineDoms (w : Twin) (k : Nat) : List Nat := enginesOf w k ++ [quadrantOf w k, clusterMem w k]

/-- An engine operation issued between two states wakes the engines of its cluster (Table 18-5). -/
def State.engineWake (s before : State) (isl : Nat) : State :=
  match islandTwin isl with
  | some w =>
    if (s.twin w).nextOp = (before.twin w).nextOp then s else s.wakeDoms (engineDoms w (islandCluster isl))
  | none => s

/-- An Orrery call issued between two states wakes the Orrery (Table 18-5). -/
def State.orreryWake (s before : State) (isl : Nat) : State :=
  match islandTwin isl with
  | some w =>
    if (s.twin w).orrery.nextCall = (before.twin w).orrery.nextCall then s else s.wakeDom (twinBase w + 197)
  | none => s

/-- An SRAM allocation or a hold region taken between two states wakes its cluster (Table 18-5). -/
def State.allocWake (s before : State) (w : Twin) (cluster : Nat) : State :=
  let n := fun (s : State) =>
    let k := Tbl.getD (s.twin w).clusters cluster ({} : Cluster)
    k.sram.length + k.hold.length
  if n s ≤ n before then s else s.wakeDoms (engineDoms w cluster)

/-- An interrupt wakes Zenith (R415). -/
def State.wakeZenith (s : State) (w : Twin) : State :=
  let isl := twinBase w + 198
  if (s.domain isl).st = .run then s else s.wakeDom isl

end Sys2Proof.Machine
end

