-- ==== Sys2Proof/Machine/Effects.lean ====
section
/-! DEFINITION. What a commit changes in a store (R330), how an abort takes it back (R197), and the canonical form that
the effect digest covers. -/

namespace Sys2Proof.Machine

/-- The space of the admin mailbox (R69). -/
abbrev adminSpace : Nat := 1024

/-- The key of a flow in the flow table. -/
def flowKey (sp f : Nat) : Nat := 2 ^ 32 * sp + f

/-- The key of a kept discarded id (R71). -/
def discKey (sp id : Nat) : Nat := 2 ^ 64 * sp + id

/-- A compartment's register and store records. -/
def Store.comp (st : Store) (c : Nat) : Comp := Tbl.getD st.comps c {}

/-- A store with a compartment changed. -/
def Store.updComp (st : Store) (c : Nat) (f : Comp → Comp) : Store :=
  { st with comps := Tbl.put st.comps c (f (st.comp c)) }

/-- A firmware component (1 Relay, 2 Zenith) or an image's component. -/
def Store.component (st : Store) (comp image : Nat) : Component :=
  if comp = 1 then st.comp1 else if comp = 2 then st.comp2 else Tbl.getD st.images image {}

/-- A store with a component replaced. -/
def Store.setComponent (st : Store) (comp image : Nat) (c : Component) : Store :=
  if comp = 1 then { st with comp1 := c } else if comp = 2 then { st with comp2 := c }
  else { st with images := Tbl.put st.images image c }

/-- A slot of a component. -/
def Component.slot (c : Component) (i : Nat) : Slot := if i = 0 then c.slot0 else c.slot1

/-- A component with a slot replaced. -/
def Component.setSlot (c : Component) (i : Nat) (x : Slot) : Component :=
  if i = 0 then { c with slot0 := x } else { c with slot1 := x }

/-- The slot in force for a request, by its acceptance stamp (R250). -/
def Component.forceAt (c : Component) (q : Nat) : Option Nat :=
  match c.history.find? (fun h => decide (q < h.1)) with
  | some h => h.2
  | none =>
    match c.switchAt with
    | some (slot, e) => if e ≤ q then some slot else c.inForce
    | none => c.inForce

/-- A stamp that no request carries: an activation whose epoch the Relay has not placed yet (R250). -/
abbrev notPlaced : Nat := 2 ^ 64

/-- An activation placed at an epoch (R250): in a store that has applied it, and for one that has still to apply it. -/
def Component.placed (c : Component) (slot e : Nat) : Component :=
  if c.inForce = some slot then
    { c with history := c.history.map (fun (h : Nat × Option Nat) => if h.1 = notPlaced then (e, h.2) else h) }
  else { c with switchAt := some (slot, e) }

/-- A value taken back: where it still is what the change made of it, what it was before. What a later change has made of it
stands (R332, R341). -/
def takeBack {α : Type} [DecidableEq α] (now did was : α) : α := if now = did then was else now

/-- Octets taken back, each by itself. -/
def bytesBack (now did was : Bytes) : Bytes :=
  if now = did then was
  else (List.range now.length).map (fun i =>
    if did[i]? ≠ was[i]? ∧ now[i]? = did[i]? then was.getD i 0 else now.getD i 0)

/-- A set taken back, octet by octet. -/
def CfgSet.back (now did was : CfgSet) : CfgSet :=
  { cells := (did.cells ++ was.cells).foldl (fun (t : Tbl Byte) c =>
      let d := Tbl.getD did.cells c.1 0
      if d ≠ Tbl.getD was.cells c.1 0 ∧ Tbl.getD now.cells c.1 0 = d then Tbl.store t c.1 (Tbl.getD was.cells c.1 0) 0 else t)
      now.cells }

/-- The configuration sets of a store. -/
def Store.cfg (st : Store) : CfgState := { a := st.cfgA, b := st.cfgB, validated := st.validated, swap := st.swap }

/-- A store with its configuration sets replaced. -/
def Store.setCfg (st : Store) (c : CfgState) : Store :=
  { st with cfgA := c.a, cfgB := c.b, validated := c.validated, swap := c.swap }

/-- The configuration sets taken back from what a change made of them. -/
def CfgState.back (now did was : CfgState) : CfgState :=
  { a := now.a.back did.a was.a, b := now.b.back did.b was.b
    validated := takeBack now.validated did.validated was.validated, swap := takeBack now.swap did.swap was.swap }

/-- A slot taken back. -/
def Slot.back (now did was : Slot) : Slot :=
  { st := takeBack now.st did.st was.st, data := bytesBack now.data did.data was.data
    shipped := takeBack now.shipped did.shipped was.shipped }

/-- A component taken back, field by field. -/
def Component.back (now did was : Component) : Component :=
  { slot0 := now.slot0.back did.slot0 was.slot0, slot1 := now.slot1.back did.slot1 was.slot1
    inForce := takeBack now.inForce did.inForce was.inForce, trial := takeBack now.trial did.trial was.trial
    svnFloor := takeBack now.svnFloor did.svnFloor was.svnFloor, pinned := takeBack now.pinned did.pinned was.pinned
    history := takeBack now.history did.history was.history, switchAt := takeBack now.switchAt did.switchAt was.switchAt }

/-- The replay entries of a space (R75). -/
def Store.replays (st : Store) (sp : Nat) : List Replay := if sp = adminSpace then st.admReplay else (st.comp sp).replay

/-- A store with a space's replay entries replaced. -/
def Store.setReplays (st : Store) (sp : Nat) (l : List Replay) : Store :=
  if sp = adminSpace then { st with admReplay := l } else st.updComp sp (fun c => { c with replay := l })

/-- The officer list of a scope: 0 the module's, 1 a compartment's (R153). -/
def Store.officers (st : Store) (scope c : Nat) : Tbl Officer := if scope = 0 then st.msos else (st.comp c).officers

/-- A store with an officer list replaced. -/
def Store.setOfficers (st : Store) (scope c : Nat) (l : Tbl Officer) : Store :=
  if scope = 0 then { st with msos := l } else st.updComp c (fun x => { x with officers := l })

/-- The context of a wrapped CMK and of the PX key block key (R126, R127). -/
def cmkContext (c gen : Nat) : Bytes := toLe 2 c ++ toLe 4 gen

/-- The PX key block key of a CMK (R127). -/
def pxKeyOf (cmk : Bytes) (c gen : Nat) : Bytes := kdf108 1 5 cmk [0x50, 0x58, 0x4B, 0x42] (cmkContext c gen) 64

/-- A ledger entry with an effect's: its flags and marks only rise (R143, R144). -/
def mergeLedger (old : Option Ledger) (l : Ledger) : Ledger :=
  match old with
  | none => l
  | some o => { revoked := o.revoked || l.revoked, exhausted := o.exhausted || l.exhausted,
                useMark := max o.useMark l.useMark, nonceMark := max o.nonceMark l.nonceMark, reserve := o.reserve }

/-- A store without the flows, streams, kept ids and approvals of a compartment (R152). -/
def Store.forget (st : Store) (c : Nat) : Store :=
  { st with
    flows := st.flows.filter (fun (f : Nat × Flow) => f.1 / 2 ^ 32 != c)
    discarded := st.discarded.filter (fun (d : Nat × Nat) => d.1 / 2 ^ 64 != c)
    approvals := st.approvals.filter (fun a => !(a.2.scope == 1 && a.2.comp == c)) }

/-- The change that one effect makes to a store, at a stamp (R330). The module-wide effects change no store: the Relay
carries them out once (R332). -/
def applyEffect (now : Nat) (st : Store) : Effect → Store
  | .keyPut c h k => st.updComp c (fun x => { x with keys := Tbl.put x.keys h k })
  | .keyErase c h => st.updComp c (fun x => { x with keys := Tbl.del x.keys h })
  | .keyUnload c h _ => st.updComp c (fun x => { x with keys := Tbl.upd x.keys h (fun k => { k with unloadAt := some 0 }) })
  | .ledgerDel c h =>
    let old := Tbl.find? (st.comp c).ledger h
    { st.updComp c (fun x => { x with ledger := Tbl.del x.ledger h }) with
      reserveUsed := st.reserveUsed - b2n (old.any (fun l => l.reserve)) }
  | .transportDel c => st.updComp c (fun x => { x with transport := none })
  | .replayDel sp id => st.setReplays sp ((st.replays sp).filter (fun r => r.id != id))
  | .drawDel c g => st.updComp c (fun x => { x with draws := Tbl.del x.draws g })
  | .transportPut c k => st.updComp c (fun x =>
      { x with transport := some k, oldTrans := x.oldTrans ++ x.transport.toList.map (fun o => (now, o)) })
  | .ledgerPut c h l =>
    let old := Tbl.find? (st.comp c).ledger h
    { st.updComp c (fun x => { x with ledger := Tbl.put x.ledger h (mergeLedger old l) }) with
      reserveUsed := st.reserveUsed + b2n (old.isNone && l.reserve) }
  | .replayPut sp r => st.setReplays sp ((st.replays sp).filter (fun e => e.id != r.id) ++ [{ r with commit := now }])
  | .streamPut c f t =>
    let fl : Flow := Tbl.getD st.flows (flowKey c f) {}
    { st with flows := Tbl.put st.flows (flowKey c f) { fl with stream := t } }
  | .drawPut c g d => st.updComp c (fun x => { x with draws := Tbl.put x.draws g d })
  | .compCreate c gen cmk wrapped entry =>
    { st.forget c with
      comps := Tbl.put st.comps c
        { st := .active, gen := gen, cmk := cmk, wrapped := wrapped, pxk := if cmk.isEmpty then [] else pxKeyOf cmk c gen, handleCtr := 1,
          fresh := true }
      cfgA := st.cfgA.wr 1 (40 * c) entry
      cfgB := st.cfgB.wr 1 (40 * c) entry
      validated := none }
  | .compState c t => st.updComp c (fun x =>
      { x with st := t, journal := if t = .zeroizing then some now else x.journal
               suspendAt := if t = .suspended then some 0 else none })
  | .officerPut scope c i o => st.setOfficers scope c (Tbl.put (st.officers scope c) i o)
  | .officerDel scope c i => st.setOfficers scope c (Tbl.del (st.officers scope c) i)
  | .approvalPut id a => { st with approvals := Tbl.put st.approvals id a }
  | .approvalAdd id a seen =>
    { st with approvals := if st.withdrawn.contains id then st.approvals else Tbl.put st.approvals id a, nextApp := id + 1,
              withdrawn := st.withdrawn.filter (fun i => i != id), remoteSeen := st.remoteSeen ++ seen.toList }
  | .approvalDel id => { st with approvals := Tbl.del st.approvals id }
  | .csetPut c cs => st.updComp c (fun x => { x with cset := cs })
  | .cfgWrite sec off data => { st.setShadow (st.shadowSet.wr sec off data) with validated := none }
  | .cfgCopy => { st.setShadow st.activeSet with validated := none }
  | .cfgValidated d => { st with validated := d }
  | .cfgSwap e d => { st with swap := some (e, d) }
  | .slotWrite comp image slot off data verdict =>
    let c := st.component comp image
    let old := if off = 0 then [] else (c.slot slot).data
    st.setComponent comp image (c.setSlot slot
      { data := patch old off data
        st := (match verdict with | none => .written | some true => .pendingAct | some false => .unverified) })
  | .slotActivate comp image slot svn pin =>
    let c := st.component comp image
    if comp = 3 then
      let at_ := match c.switchAt with | some (_, e) => e | none => notPlaced
      let c := { c with inForce := some slot, history := c.history ++ [(at_, c.inForce)], switchAt := none,
                        svnFloor := max c.svnFloor svn, pinned := if c.pinned.isSome then c.pinned else pin }
      st.setComponent comp image (c.setSlot slot { (c.slot slot) with st := .ready })
    else st.setComponent comp image { c with trial := some slot }
  | .slotRetire image low pin =>
    let c := st.component 3 image
    st.setComponent 3 image
      { c with slot0 := {}, slot1 := {}, inForce := none, history := c.history ++ [(now, c.inForce)],
               svnFloor := max c.svnFloor low, pinned := if c.pinned.isSome then c.pinned else pin }
  | .dclAdd c image n => st.updComp c (fun x =>
      { x with dclTotals := Tbl.put x.dclTotals image (satAdd 64 (Tbl.getD x.dclTotals image 0) n) })
  | .compPut c k => { st with comps := Tbl.put st.comps c k }
  | .compBack c did t j u => st.updComp c (fun x => if x.st = did then { x with st := t, journal := j, suspendAt := u } else x)
  | .cfgBack did was => st.setCfg (st.cfg.back did was)
  | .componentBack comp image did was => st.setComponent comp image ((st.component comp image).back did was)
  | .attnClear _ => st
  | .healthClear => st
  | .unlock _ => st
  | .lcStart _ _ => st
  | .recoveryOpen => st
  | .dbgGrant _ _ => st

/-- An effect as NVM takes it: the Compartment Master Key stands there wrapped only (R126). -/
def Effect.forNvm : Effect → Effect
  | .compCreate c gen _ wrapped entry => .compCreate c gen [] wrapped entry
  | f => f

/-- Whether an effect resides in NVM and is written by the Relay (R332): the rest is in the twins alone (R348). -/
def Effect.inNvm : Effect → Bool
  | .ledgerPut _ _ _ | .ledgerDel _ _ | .drawPut _ _ _ | .drawDel _ _ | .transportPut _ _ | .transportDel _
  | .compCreate _ _ _ _ _ | .compState _ _ | .officerPut _ _ _ _ | .officerDel _ _ _ | .cfgWrite _ _ _ | .cfgCopy
  | .compPut _ _ | .compBack _ _ _ _ _ | .cfgBack _ _ | .componentBack _ _ _ _
  | .cfgValidated _ | .cfgSwap _ _ | .slotWrite _ _ _ _ _ _ | .slotActivate _ _ _ _ _ | .slotRetire _ _ _
  | .dclAdd _ _ _ => true
  | _ => false

/-- What takes the configuration sets back from what an effect makes of them. -/
def Store.cfgUndo (st : Store) (e : Effect) : Effect := .cfgBack (applyEffect 0 st e).cfg st.cfg

/-- What takes a component's slots back from what an effect makes of them. -/
def Store.slotUndo (st : Store) (comp image : Nat) (e : Effect) : Effect :=
  .componentBack comp image ((applyEffect 0 st e).component comp image) (st.component comp image)

/-- What takes an effect back (R197, R332, R341): the earlier value put again, or the new one removed. A count of `dcl`
executions stands (R245), and the module-wide effects are acts that nothing takes back. -/
def undoEffect (st : Store) : Effect → List Effect
  | .keyPut c h _ => [match Tbl.find? (st.comp c).keys h with | some k => .keyPut c h k | none => .keyErase c h]
  | .keyErase c h => match Tbl.find? (st.comp c).keys h with | some k => [.keyPut c h k] | none => []
  | .keyUnload c h _ => match Tbl.find? (st.comp c).keys h with | some k => [.keyPut c h k] | none => []
  | .ledgerPut c h _ => .ledgerDel c h :: (match Tbl.find? (st.comp c).ledger h with
      | some l => [.ledgerPut c h l]
      | none => [])
  | .transportPut c _ => [match (st.comp c).transport with | some k => .transportPut c k | none => .transportDel c]
  | .transportDel c => match (st.comp c).transport with | some k => [.transportPut c k] | none => []
  | .replayPut sp r => [.replayDel sp r.id]
  | .streamPut c f _ => [.streamPut c f (Tbl.getD st.flows (flowKey c f) ({} : Flow)).stream]
  | .drawPut c g _ => [match Tbl.find? (st.comp c).draws g with | some d => .drawPut c g d | none => .drawDel c g]
  | e@(.compCreate c _ _ _ _) => [.compPut c (st.comp c), st.cfgUndo e]
  | .compState c t => [.compBack c t (st.comp c).st (st.comp c).journal (st.comp c).suspendAt]
  | .officerPut scope c i _ => [match Tbl.find? (st.officers scope c) i with
      | some o => .officerPut scope c i o
      | none => .officerDel scope c i]
  | .officerDel scope c i => match Tbl.find? (st.officers scope c) i with | some o => [.officerPut scope c i o] | none => []
  | .approvalPut id _ => [match Tbl.find? st.approvals id with | some a => .approvalPut id a | none => .approvalDel id]
  | .approvalAdd id _ _ => [.approvalDel id]
  | .approvalDel id => match Tbl.find? st.approvals id with | some a => [.approvalPut id a] | none => []
  | .csetPut c _ => [.csetPut c (st.comp c).cset]
  | .cfgWrite sec off data => [st.cfgUndo (.cfgWrite sec off data)]
  | .cfgCopy => [st.cfgUndo .cfgCopy]
  | .cfgValidated d => [st.cfgUndo (.cfgValidated d)]
  | .cfgSwap n d => [st.cfgUndo (.cfgSwap n d)]
  | .slotWrite comp image slot off data v => [st.slotUndo comp image (.slotWrite comp image slot off data v)]
  | .slotActivate comp image slot svn pin => [st.slotUndo comp image (.slotActivate comp image slot svn pin)]
  | .slotRetire image low pin => [st.slotUndo 3 image (.slotRetire image low pin)]
  | _ => []

/-- The changes that a list of effects makes to a store, in order. -/
def applyEffects (now : Nat) (st : Store) (l : List Effect) : Store := l.foldl (applyEffect now) st

/-- What takes a list of effects back, the last one first. -/
def undoEffects (now : Nat) : Store → List Effect → List Effect
  | _, [] => []
  | st, e :: l => undoEffects now (applyEffect now st e) l ++ undoEffect st e

/-- The attributes and material of a key record as an octet string. -/
def KeyRec.bytes (k : KeyRec) : Bytes :=
  [byte k.alg] ++ toLe 4 k.usage ++ [byte (b2n k.exportable + 2 * b2n k.nonceEn + 4 * b2n k.exhausted), byte k.macRes] ++
  toLe 8 k.useCount ++ toLe 8 k.useLimit ++ toLe 12 k.nonce ++ k.form ++ k.kcv ++ k.material ++ toLe 4 k.gen

/-- One effect record in the model's canonical form (R330): the kind, then the key within the kind big-endian, then the
value. The spec fixes the order and not the bytes (assumption 21). -/
def Effect.bytes : Effect → Bytes
  | .keyPut c h k => [1] ++ toBe 2 c ++ toBe 4 h ++ k.bytes
  | .keyErase c h => [2] ++ toBe 2 c ++ toBe 4 h
  | .keyUnload c h q => [3] ++ toBe 2 c ++ toBe 4 h ++ toBe 8 q
  | .ledgerDel c h => [4] ++ toBe 2 c ++ toBe 4 h
  | .transportDel c => [5] ++ toBe 2 c
  | .replayDel sp id => [6] ++ toBe 2 sp ++ toBe 8 id
  | .drawDel c g => [7] ++ toBe 2 c ++ toBe 4 g
  | .transportPut c k => [8] ++ toBe 2 c ++ k.bytes
  | .ledgerPut c h l => [9] ++ toBe 2 c ++ toBe 4 h ++
      [byte (b2n l.revoked + 2 * b2n l.exhausted + 4 * b2n l.reserve)] ++ toLe 8 l.useMark ++ toLe 12 l.nonceMark
  | .replayPut sp r => [10] ++ toBe 2 sp ++ toBe 8 r.id ++ toLe 2 r.status ++ (r.result.getD [0xFF]) ++
      toLe 2 r.opcode ++ toLe 4 r.flow ++ toLe 8 r.param ++ toLe 4 r.plen ++ r.digest
  | .streamPut c f t => [11] ++ toBe 2 c ++ toBe 4 f ++ [byte (b2n t.isOpen + 2 * b2n t.failed)] ++ toLe 2 t.next ++ t.chain
  | .drawPut c g d => [12] ++ toBe 2 c ++ toBe 4 g ++ toLe 8 d.last ++ toLe 4 d.evSeq ++ toLe 4 d.pcycle
  | .compCreate c gen cmk wrapped entry => [13] ++ toBe 2 c ++ toLe 4 gen ++ cmk ++ wrapped ++ entry
  | .compState c t => [14] ++ toBe 2 c ++ [match t with
      | .undefined => 0 | .active => 1 | .suspended => 2 | .zeroizing => 3 | .zeroized => 4]
  | .officerPut scope c i o => [15, byte scope] ++ toBe 2 c ++ [byte i, byte o.role] ++ o.serial ++ [byte o.alg] ++ o.pub
  | .officerDel scope c i => [16, byte scope] ++ toBe 2 c ++ [byte i]
  | .approvalPut id a => [17] ++ toBe 4 id ++ a.digest
  | .approvalAdd id a seen => [18] ++ toBe 4 id ++ [byte a.scope] ++ toLe 2 a.comp ++ [byte a.cls, byte a.officer] ++
      a.digest ++ toLe 8 a.expiry ++ [byte (a.port.getD 0xFF)] ++ seen.getD []
  | .approvalDel id => [19] ++ toBe 4 id
  | .csetPut c cs => [20] ++ toBe 2 c ++ (match cs with
      | some x => [byte x.alg, byte x.count, byte x.nextNum] ++ x.acc ++ x.custodians.flatten
      | none => [])
  | .cfgWrite sec off data => [21, byte sec] ++ toBe 4 off ++ data
  | .cfgCopy => [22]
  | .cfgValidated d => [23] ++ d.getD []
  | .cfgSwap e d => [24] ++ toBe 8 e ++ d
  | .slotWrite comp image slot off data verdict => [25, byte comp] ++ toBe 4 image ++ [byte slot] ++ toBe 4 off ++
      [match verdict with | none => 0 | some true => 1 | some false => 2] ++ data
  | .slotActivate comp image slot svn pin => [26, byte comp] ++ toBe 4 image ++ [byte slot] ++ toLe 4 svn ++ pin.getD []
  | .slotRetire image low pin => [27] ++ toBe 4 image ++ toLe 4 low ++ pin.getD []
  | .dclAdd c image n => [28] ++ toBe 2 c ++ toBe 4 image ++ toLe 8 n
  | .compPut c k => [36] ++ toBe 2 c ++ toLe 4 k.gen
  | .compBack c _ _ _ _ => [37] ++ toBe 2 c
  | .cfgBack _ _ => [38]
  | .componentBack comp image _ _ => [39, byte comp] ++ toBe 4 image
  | .attnClear m => [29] ++ toLe 2 m
  | .healthClear => [30]
  | .unlock rnd => [31] ++ rnd
  | .lcStart t o => [32] ++ toLe 1 t ++ o
  | .recoveryOpen => [33]
  | .dbgGrant cert r => [34] ++ toLe 4 r ++ cert

/-- Whether an octet string comes before another in ascending byte order. -/
def bytesLt : Bytes → Bytes → Bool
  | _, [] => false
  | [], _ :: _ => true
  | a :: s, b :: t => decide (a < b) || (a == b && bytesLt s t)

/-- An octet string put in its place among sorted ones. -/
def insertBytes (x : Bytes) : List Bytes → List Bytes
  | [] => [x]
  | y :: l => if bytesLt x y then x :: y :: l else y :: insertBytes x l

/-- The record that an event asks for, as an effect record (R330). -/
def EvReq.bytes (e : EvReq) : Bytes := [35] ++ toBe 2 e.id ++ [byte e.sev] ++ e.detail

/-- `EFFECT_DIGEST` of Table 14-3: the effect records in canonical order. -/
def effectDigest (fx : List Effect) (evs : List EvReq) : Bytes :=
  match fx.map Effect.bytes ++ evs.map EvReq.bytes with
  | [] => zeros 32
  | l => sha256 ((l.foldl (fun acc x => insertBytes x acc) []).flatten)

/-- The end digest of Table 14-3. -/
def endDigest (q id comp status rlen : Nat) (result : Bytes) (fx : List Effect) (evs : List EvReq) : Bytes :=
  sha256 (toLe 8 q ++ toLe 8 id ++ toLe 2 comp ++ toLe 2 status ++ toLe 4 rlen ++ sha256 result ++ effectDigest fx evs)

end Sys2Proof.Machine
end

