-- ==== Sys2Proof/Machine/Requests.lean ====
section
/-! DEFINITION. A request in a twin: its payload, what holds it, its tasks on cores, how it ends and how it is aborted
(R176 to R197, R219, R330). -/

namespace Sys2Proof.Machine

/-- A flag of the header's `FLAGS` (Table 4-2). -/
def Hdr.stateChange (h : Hdr) : Bool := bit h.flags 0
/-- `INLINE`. -/
def Hdr.isInline (h : Hdr) : Bool := bit h.flags 1
/-- `SEGMENTED`. -/
def Hdr.segmented (h : Hdr) : Bool := bit h.flags 2
/-- `FLOW_RESUME`. -/
def Hdr.flowResume (h : Hdr) : Bool := bit h.flags 3
/-- `COMPARTMENT` of `TARGET`. -/
def Hdr.comp (h : Hdr) : Nat := bits h.target 9 0
/-- `LANE` of `TARGET`. -/
def Hdr.lane (h : Hdr) : Nat := bits h.target 12 10
/-- `SEG_FIRST`. -/
def Hdr.segFirst (h : Hdr) : Bool := bit h.segCtrl 0
/-- `SEG_LAST`. -/
def Hdr.segLast (h : Hdr) : Bool := bit h.segCtrl 1
/-- `PRED_COUNT`. -/
def Hdr.predCount (h : Hdr) : Nat := bits h.pred 2 0

/-- The payload bytes that a twin holds: inline, or what it has read (R328). -/
def Req.payload (r : Req) : Bytes :=
  if r.hdr.isInline then r.inline.take r.hdr.plen
  else fixLen r.hdr.plen (r.chunks.foldl (fun b c => patch b c.1 c.2) (zeros r.hdr.plen))

/-- How far from a byte on the bytes read reach without a gap. -/
def coverage : Nat → List (Nat × Bytes) → Nat → Nat
  | 0, _, e => e
  | n + 1, cs, e => coverage n cs (cs.foldl (fun m c => if c.1 ≤ m then max m (c.1 + c.2.length) else m) e)

/-- Whether a twin has read some bytes of the payload (R243, R328). -/
def Req.covers (r : Req) (off len : Nat) : Bool :=
  decide (off + len ≤ coverage r.chunks.length r.chunks off)

/-- Whether a twin holds the whole payload. -/
def Req.complete (r : Req) : Bool :=
  r.hdr.plen == 0 || r.hdr.isInline || decide (r.hdr.plen ≤ coverage r.chunks.length r.chunks 0)

/-- The first payload bytes that every twin receives with the entry (R236, R327). -/
def Req.lead (r : Req) : Bytes := if r.hdr.isInline then r.inline.take r.hdr.plen else r.head

/-- The game that a draw request is ordered by (R123). -/
def Req.game (r : Req) : Option Nat :=
  if r.hdr.opcode = 0x0801 then some (fld r.lead 0 4)
  else if r.hdr.opcode = 0x0802 then some (bits r.hdr.param 31 0) else none

/-- Whether an admin command adds, consumes or withdraws approvals or officers (R162). -/
def Req.serial (r : Req) : Bool :=
  r.space == adminSpace &&
  ([0x0142, 0x0140, 0x0141, 0x0112, 0x0121, 0x0130, 0x0131, 0x0132, 0x0133, 0x0144, 0x0150, 0x0160, 0x0A02].contains
    r.hdr.opcode || (r.hdr.opcode == 0x0143 && fld r.lead 1 1 == 2))

/-- Whether a request has left service as this twin sees it: its end record is formed, in the standby the active's
verdict has arrived (R190), and no mismatch is being resolved (R345). -/
def Req.resolved (act : Bool) (r : Req) : Bool :=
  r.fin.isSome && (act || r.hdr.deadline == 0 || r.verdict.isSome) && !r.mismatch

/-- Whether an earlier request holds a later one: same flow (R179), or an internal ordering key (R181). -/
def Req.holds (e r : Req) : Bool :=
  (e.space == r.space && e.hdr.flow != 0 && e.hdr.flow == r.hdr.flow) ||
  (e.space == r.space && e.game.isSome && e.game == r.game) ||
  (e.serial && r.serial) ||
  (e.space == r.space && e.hdr.stateChange && r.hdr.stateChange && e.hdr.id == r.hdr.id)

/-- Whether an ordering wait holds a request (rank 3 of Table 8-3), or a predecessor whose mismatch is being resolved (rank
2, R345). -/
def TwinSt.ordered (x : TwinSt) (act : Bool) (q : Nat) (r : Req) : Bool :=
  x.reqs.any (fun e => decide (e.1 < q) && ((!e.2.resolved act && e.2.holds r) || (e.2.mismatch && r.preds.contains e.1)))

/-- Whether a request not begun waits for the exchange of dispatch sets that decides an ordinary disable (R195): the
twin's batch of the effect point is closed and the other's has not arrived. -/
def TwinSt.cutting (x : TwinSt) (q : Nat) (r : Req) : Bool :=
  !r.begun && r.space != 1024 &&
  ((x.store.comp r.space).suspendAt.any (fun e => e != 0 && decide (e ≤ x.lastBatch)) ||
   x.unbindAt.any (fun e => decide (e ≤ x.lastBatch) && decide (q < 4000 * e)))

/-- Whether a root or child task may be dispatched: counter 0, its flow admits it, and every claim assigned (R177,
R179, R236). -/
def TwinSt.taskReady (x : TwinSt) (act : Bool) (q : Nat) (r : Req) (k : Task) : Bool :=
  (k.st == .waiting || k.st == .ready) && k.dep == 0 && r.fin.isNone && r.matched.isNone &&
  r.claims.all (fun c => c.done) && !x.ordered act q r && !x.cutting q r

/-- A request of a twin changed. -/
def TwinSt.updReq (x : TwinSt) (q : Nat) (f : Req → Req) : TwinSt := { x with reqs := Tbl.upd x.reqs q f }

/-- A task of a request changed. -/
def Req.updTask (r : Req) (i : Nat) (f : Task → Task) : Req := { r with tasks := Tbl.upd r.tasks i f }

/-- A task of a twin changed. -/
def TwinSt.updTask (x : TwinSt) (q i : Nat) (f : Task → Task) : TwinSt := x.updReq q (fun r => r.updTask i f)

/-- A task of a twin. -/
def TwinSt.task? (x : TwinSt) (q i : Nat) : Option Task := (Tbl.find? x.reqs q).bind (fun r => Tbl.find? r.tasks i)

/-- The key of a context in the table of contexts. -/
def ctxKey (c : Cid) : Nat := 2 * c.island + c.ctx

/-- The context as the next task finds it: registers clear, tagged words written 0 and, after an abort, every word
(R197, R219). -/
def Ctx.vacate (c : Ctx) (wipe : Bool) : Ctx :=
  { comp := c.comp, lmem := if wipe then [] else c.lmem.filter (fun e => !c.ltags.contains (e.1 / 8)) }

/-- The tasks that occupy a core: request, index and context number. -/
def TwinSt.onCore (x : TwinSt) (isl : Nat) : List (Nat × Nat × Nat) :=
  [0, 1].filterMap (fun n => match Tbl.find? x.ctxs (2 * isl + n) with
    | some c => if c.occ then c.task.map (fun t => (t.1, t.2, n)) else none
    | none => none)

/-- Whether an occupied context is in a wait. -/
def TwinSt.inWait (x : TwinSt) (isl n : Nat) : Bool := (Tbl.getD x.ctxs (2 * isl + n) {}).waiting

/-- The task that executes on a core: the one charged if it can go on, else one that is not in a wait, a suspended one
last (R187); the only occupied context is charged even in a wait (R183). -/
def TwinSt.executing (x : TwinSt) (isl : Nat) : Option (Nat × Nat) :=
  let l := x.onCore isl
  let can := fun (st : TaskState) (e : Nat × Nat × Nat) => !x.inWait isl e.2.2 &&
    (match x.task? e.1 e.2.1 with | some k => k.st == st | none => false)
  let charged := l.filter (fun e => match x.task? e.1 e.2.1 with | some k => k.chargeOn.isSome | none => false)
  match (charged ++ l).find? (can .running) with
  | some e => some (e.1, e.2.1)
  | none =>
    match l.find? (can .suspended) with
    | some e => some (e.1, e.2.1)
    | none => if l.length = 1 then l.head?.map (fun e => (e.1, e.2.1)) else none

/-- The charge interval of a task closed (R183). -/
def TwinSt.stopCharge (x : TwinSt) (now q i : Nat) : TwinSt :=
  match Tbl.find? x.reqs q, x.task? q i with
  | some r, some k =>
    match k.chargeOn with
    | some b =>
      { x.updTask q i (fun k => { k with used := k.used + (now - b), chargeOn := none }) with
        charges := if now = b then x.charges else x.charges ++ [{ comp := r.hdr.comp, beg := b, fin := now }] }
    | none => x
  | _, _ => x

/-- The core switches to the task that now executes, and charges it (R183, R187). -/
def TwinSt.recharge (x : TwinSt) (isl now : Nat) : TwinSt :=
  let nxt := x.executing isl
  let x := (x.onCore isl).foldl (fun x e => if nxt = some (e.1, e.2.1) then x else x.stopCharge now e.1 e.2.1) x
  match nxt with
  | some (q, i) => x.updTask q i (fun k =>
      { k with st := if k.st = .suspended then .running else k.st, chargeOn := some (k.chargeOn.getD now) })
  | none => x

/-- Whether an SRAM address lies in one of some allocations. -/
def inAllocs (l : Tbl (Nat × Nat × Nat)) (ad : Nat) : Bool := l.any (fun a => decide (a.1 ≤ ad) && decide (ad < a.1 + a.2.1))

/-- Cluster SRAM that tasks may hold, in bytes: 1,536 KiB (R238). -/
def sramSpace : Nat := 1572864

/-- Bytes of a cluster's SRAM that tasks hold. -/
def Cluster.sramUsed (k : Cluster) : Nat := k.sram.foldl (fun (m : Nat) (a : Nat × Nat × Nat × Nat) => m + a.2.1) 0

/-- Retired banks that nothing holds any more leave the pool, the first first (R445): what is allocated moves to free space as far
as the rest has it. -/
def Cluster.settleBanks (k : Cluster) : Cluster :=
  k.held.foldl (fun (k : Cluster) b =>
    if k.sramUsed + 131072 * (k.lost.length + 1) ≤ sramSpace then { k with lost := k.lost ++ [b], held := k.held.erase b } else k) k

/-- A cluster without what some tasks held: queued operations, hold regions, and SRAM allocations, cleared (R134,
R277). -/
def Cluster.release (k : Cluster) (mine : Nat × Nat → Bool) (gone : List Nat) : Cluster :=
  Cluster.settleBanks { k with
    queue := k.queue.filter (fun o => !gone.contains o)
    hold := k.hold.filter (fun h => !mine (h.2.q, h.2.task))
    holdWait := k.holdWait.filter (fun o => !gone.contains o)
    sram := k.sram.filter (fun a => !mine a.2.2)
    sramData := k.sramData.filter (fun d => !inAllocs (k.sram.filter (fun a => mine a.2.2)) d.1) }

/-- Contexts of a twin in a rank-6 wait that has ended go on; each tries its instruction again, and a core whose charged
context is in a wait executes one of them (R177, R238). -/
def TwinSt.wakeMem (x : TwinSt) (now : Nat) (ends : Cid → Ctx → Bool) : TwinSt :=
  let l := (x.ctxs.filter (fun (c : Nat × Ctx) => c.2.waiting && ends { island := c.1 / 2, ctx := c.1 % 2 } c.2)).map Prod.fst
  l.foldl (fun (x : TwinSt) k =>
    { x with ctxs := Tbl.upd x.ctxs k (fun (c : Ctx) => { c with waiting := false, wants := .nothing }) }.recharge (k / 2) now) x

/-- Contexts of a cluster that wait for SRAM try again (R238). -/
def TwinSt.wakeSram (x : TwinSt) (now cluster : Nat) : TwinSt :=
  x.wakeMem now (fun c k => islandCluster c.island == cluster && k.wants == .sram)

/-- Removes the tasks of a request from the cores and everything they hold: contexts, staging entries, engine
operations, hold regions, Orrery calls, SRAM allocations (R134, R197, R219, R260, R304). -/
def TwinSt.dropTasks (x : TwinSt) (now q : Nat) (sel : Nat → Bool) (wipe : Bool) : TwinSt :=
  let mine := fun (c : Ctx) => match c.task with | some t => t.1 == q && sel t.2 | none => false
  let isls := (x.ctxs.filter (fun e => mine e.2)).map (fun e => e.1 / 2)
  let keys := (x.ctxs.filter (fun e => mine e.2)).map Prod.fst
  let gone := (x.ops.filter (fun (o : Nat × EngOp) => o.2.q == q && sel o.2.task)).map Prod.fst
  let freed := (x.clusters.filter (fun (e : Nat × Cluster) => e.2.sram.any (fun a => a.2.2.1 == q && sel a.2.2.2))).map Prod.fst
  let x := isls.foldl (fun (x : TwinSt) (i : Nat) => (x.onCore i).foldl (fun (x : TwinSt) (e : Nat × Nat × Nat) =>
    if e.1 = q ∧ sel e.2.1 then x.stopCharge now e.1 e.2.1 else x) x) x
  let x := { x with
    ctxs := x.ctxs.map (fun (e : Nat × Ctx) => if mine e.2 then (e.1, e.2.vacate wipe) else e)
    staging := x.staging.filter (fun e => !keys.contains (e.1 / 4))
    ops := x.ops.filter (fun (o : Nat × EngOp) => !gone.contains o.1)
    asyncs := x.asyncs.filter (fun a => match a with
      | .payload q' t _ _ _ _ => !(q' == q && sel t)
      | .rng q' t _ _ _ _ => !(q' == q && sel t)
      | .keyGet q' t _ _ _ => !(q' == q && sel t))
    dones := x.dones.filter (fun d => !(d.q == q && sel d.task))
    clusters := x.clusters.map (fun (e : Nat × Cluster) => (e.1, e.2.release (fun t => t.1 == q && sel t.2) gone))
    orrery := { x.orrery with calls := x.orrery.calls.filter (fun c => !(c.2.q == q && sel c.2.task)) } }
  let x := x.updReq q (fun r =>
    { r with tasks := r.tasks.filter (fun t => !sel t.1), gens := r.gens.filter (fun g => !sel g.1)
             ran := r.ran + (r.tasks.filter (fun (t : Nat × Task) => sel t.1)).foldl (fun n (t : Nat × Task) => n + t.2.used) 0 })
  freed.foldl (fun x k => x.wakeSram now k) (isls.foldl (fun x i => x.recharge i now) x)

/-- The read log of a request kept from its beginning on (R344): key records, ledger marks, replay entries, streams, draw registers,
and compartment and officer records all stand in the store. -/
def TwinSt.keepLog (x : TwinSt) (q : Nat) : TwinSt :=
  match Tbl.find? x.reqs q with
  | some r => if r.log.isNone then x.updReq q (fun r => { r with log := some x.store }) else x
  | none => x

/-- Tells the requests that wait for a request that it has completed, once (R71, R178). -/
def TwinSt.notify (x : TwinSt) (q status : Nat) : TwinSt :=
  let waits := fun (r : Req) => r.preds.contains q && !r.told.contains q && r.fin.isNone
  { x with
    dones := x.dones ++ (x.reqs.filter (fun e => waits e.2)).map (fun e =>
      { q := e.1, task := 0, kind := .pred (decide (stClass status ≤ 1)) })
    reqs := x.reqs.map (fun (e : Nat × Req) => (e.1, if waits e.2 then { e.2 with told := q :: e.2.told } else e.2)) }

/-- Keys unloaded leave the store when no earlier request that names them is in service or on its way (R148). -/
def TwinSt.sweep (x : TwinSt) : TwinSt :=
  let open_ := fun (c u : Nat) => x.reqs.any (fun e => decide (e.1 < u) && e.2.space == c && e.2.fin.isNone)
  let holds := fun (c h u : Nat) => decide (x.lowCome < u) ||
    x.reqs.any (fun e => decide (e.1 < u) && e.2.space == c && e.2.fin.isNone && e.2.named.contains h)
  let one := fun (e : Nat × Comp) => (e.1, { e.2 with
    keys := e.2.keys.filter (fun k => match k.2.unloadAt with | some u => u == 0 || holds e.1 k.1 u | none => true)
    oldTrans := e.2.oldTrans.filter (fun o => holds e.1 0 o.1) })
  { x with
    store := { x.store with comps := x.store.comps.map one }
    assigned := x.assigned.filter (fun a => open_ a.sp a.q) }

/-- A request that leaves with a failing status, remembered for the dependants still on their way (R71). -/
def TwinSt.keepFailed (x : TwinSt) (q status : Nat) : TwinSt :=
  match Tbl.find? x.reqs q with
  | some r =>
    if stClass status ≤ 1 then x
    else { x with failed := x.failed ++ [(q, r.space, r.hdr.id, r.fin.elim 0 (fun e => e.stamp))] }
  | none => x

/-- The status of a request whose deadline was reached (R192). -/
def Req.deadlineStatus (r : Req) : Nat := if r.precMark then stPrecedence else stExpired

/-- The result as R65 delivers it: one too long for the reply buffer ends without effect; its bytes count in the end digest alone
(Table 14-3). -/
def Req.fit (r : Req) (e : EndRec) : EndRec :=
  if 24 < e.result.length ∧ r.hdr.rlen < e.result.length then
    { status := stTooSmall, rlen := e.result.length, result := e.result }
  else if e.status = stTooSmall then e
  else { e with rlen := e.result.length }

/-- The replay entry of a state-changing request that commits (R75). The digest is that of all payload bytes; of a payload that
the model has not been told whole it is a free value (assumption 196). -/
def Req.replayEntry (r : Req) (q : Nat) (e : EndRec) : Replay :=
  { id := r.hdr.id, status := e.status, result := if e.result.length ≤ 4096 then some e.result else none,
    opcode := r.hdr.opcode, flow := r.hdr.flow, param := r.hdr.param, plen := r.hdr.plen,
    digest := if r.complete then sha256 r.payload else toBe 32 (Config.unreadDigest q).toNat, accept := q }

/-- The end record as the twin forms it: a commit at or after the deadline is refused in the active twin (R189), as is
any commit once time-out was indicated (R191); R65 decides on the result; a state-changing commit adds its replay entry
(R75). The entry of a key that its assignment exhausted stands in any case (R143). -/
def Req.endRec (r : Req) (act : Bool) (stamp q : Nat) (e : EndRec) : EndRec :=
  let late := r.timedOut.isSome || (act && e.commits && r.hdr.deadline != 0 && decide (r.hdr.deadline ≤ stamp))
  let e : EndRec := if late then { status := r.deadlineStatus } else r.fit e
  let e := if e.commits ∧ r.hdr.stateChange then
    { e with effects := e.effects ++ [.replayPut r.space (r.replayEntry q e)] } else e
  let e := { e with effects := e.effects ++ r.sure, evs := e.evs ++ r.sureEv }
  { e with stamp := stamp,
           digest := endDigest q r.hdr.id (if r.space = adminSpace then 0 else r.space) e.status e.rlen e.result
             e.effects e.evs }

/-- The outcome that a task's exit or an image's end fixes: staged effects and the result form the commit record only at
a status of class 0, 3 or 5 (R241). -/
def Req.outcome (r : Req) (status : Nat) (result : Bytes) : EndRec :=
  if commitsAt status then
    { status := status, result := result, effects := r.staged, evs := r.stagedEv, commits := true }
  else { status := status }

/-- Applies an end record's effects to the twin's store, and tells the dependants (R190, R330). -/
def TwinSt.applyFin (x : TwinSt) (q : Nat) : TwinSt :=
  match Tbl.find? x.reqs q with
  | some r =>
    match r.fin with
    | some e =>
      if r.applied then x else
        let undo := undoEffects e.stamp x.store e.effects
        let x := { x with store := applyEffects e.stamp x.store e.effects }
        (x.updReq q (fun r => { r with applied := true, undo := undo })).notify q e.status
    | none => x
  | none => x

/-- What a committing segment that an owner image served leaves of its stream (R73, R74, R278): the next index and the
segment's synthetic IV, which the image computed and the spec does not say how the module learns (assumption 176). The vendor
commands name theirs themselves. -/
def Req.segEffects (r : Req) (st : Store) (q : Nat) (e : EndRec) : EndRec :=
  let old := (Tbl.getD st.flows (flowKey r.space r.hdr.flow) ({} : Flow)).stream
  if ¬ e.commits ∨ ¬ r.hdr.segmented ∨ r.image = 1 ∨ r.image = 2 then e
  else if e.status = stTag then
    { e with effects := e.effects ++ [.streamPut r.space r.hdr.flow { old with isOpen := false, failed := true, last := q }] }
  else if stClass e.status = 0 then
    { e with effects := e.effects ++ [.streamPut r.space r.hdr.flow
        { isOpen := !r.hdr.segLast, next := r.hdr.segIndex + 1, last := q, chain := toLe 16 (Config.segmentIv q).toNat }] }
  else e

/-- The total of `dcl` executions of a compartment and image advanced by a request's own (R245). -/
def Req.countDcl (r : Req) (st : Store) : Store :=
  if r.dcl = 0 then st else applyEffect 0 st (.dclAdd r.space r.image r.dcl)

/-- The completion stamp of a request's root task, issued by the core that ran it (R33); 0 when none did. -/
def TwinSt.taskDone (x : TwinSt) (now q : Nat) : Nat × TwinSt :=
  match (x.task? q 0).bind (fun k => k.ctx) with
  | some c => (x.stampOf now (c.island % 206), x.stamped now (c.island % 206))
  | none => (0, x)

/-- The island of a die that raises the records of a request, by its number in it: the core that runs the root task, and
otherwise Zenith (R33; assumption 167). -/
def TwinSt.raiser (x : TwinSt) (q : Nat) : Nat :=
  ((x.task? q 0).bind (fun k => k.ctx)).elim 198 (fun c => c.island % 206)

/-- Records as an island of the die stamps them, one after the other, and the die after that (R24, R33). -/
def TwinSt.stampEvs (x : TwinSt) (now l : Nat) : List EvReq → List EvReq × TwinSt
  | [] => ([], x)
  | e :: es =>
    let r := (x.stamped now l).stampEvs now l es
    ({ e with stamp := x.stampOf now l } :: r.1, r.2)

/-- The die after a request's completion and commit have been stamped, and its records as their island stamps them (R33). -/
def TwinSt.stampEnd (x : TwinSt) (now q : Nat) (evs : List EvReq) : List EvReq × TwinSt :=
  ((x.taskDone now q).2.stamped now coachyard).stampEvs now (x.raiser q) evs

/-- The end record that a twin forms of a request: the commit stamp is Coachyard's, the completion stamp that of the core that
ran the root task, and its records carry their own island's (R33, R330). -/
def TwinSt.endOf (x : TwinSt) (act : Bool) (now q : Nat) (r : Req) (e : EndRec) : EndRec :=
  let d := x.taskDone now q
  let e := { e with evs := (x.stampEnd now q e.evs).1 }
  { r.endRec act (d.2.stampOf now coachyard) q (r.segEffects x.store q e) with doneAt := d.1 }

/-- Ends a request in a twin (R330): the end record is formed, its tasks leave the cores, and its effects are applied at
once, except that the standby keeps those of a request with a deadline for the active's verdict (R190). -/
def TwinSt.finish (x : TwinSt) (act : Bool) (now q : Nat) (e : EndRec) : TwinSt :=
  match Tbl.find? x.reqs q with
  | some r =>
    if r.fin.isSome then x else
      let y := (x.stampEnd now q e.evs).2.keepLog q
      let e := x.endOf act now q r e
      let x := y.dropTasks now q (fun _ => true) false
      let x := x.updReq q (fun r => { r with fin := some e })
      let x := { x with store := r.countDcl x.store }
      let x := { x with ctr := { x.ctr with
        commits := satAdd 64 x.ctr.commits (b2n e.commits)
        dlExp := satAdd 32 x.ctr.dlExp (b2n (e.status == stExpired))
        dlPrec := satAdd 32 x.ctr.dlPrec (b2n (e.status == stPrecedence)) } }
      (if act || r.hdr.deadline == 0 || r.verdict.isSome then x.applyFin q else x).sweep
  | none => x

/-- Whether a twin is the active one. -/
def State.isActive (s : State) (w : Twin) : Bool := s.active == some w

/-- Whether a twin executes broadcast inputs (Table 14-1): none does in SCRAPPED, where no command is served (R389). -/
def State.executes (s : State) (w : Twin) : Bool :=
  s.lc != .scrapped &&
  match (s.twin w).role with
  | .active | .healthy | .resync => true
  | _ => false

/-- The standby whose digests are compared (Table 14-1). -/
def State.healthyStandby (s : State) : Option Twin :=
  match s.active with
  | some w => if (s.twin (otherTwin w)).role = .healthy then some (otherTwin w) else none
  | none => none

/-- Ends a request in a twin of the state. -/
def State.finish (s : State) (w : Twin) (q : Nat) (e : EndRec) : State :=
  s.updTwin w (fun x => x.finish (s.isActive w) s.now q e)

/-- Ends a request in a twin with a status and nothing else. -/
def State.endWith (s : State) (w : Twin) (q status : Nat) : State := s.finish w q { status := status }

/-- Aborts a request in a twin with a security status (R197): a commit not yet confirmed is taken back, and the end record
carries no result and no effect but the entry of a key that its assignment exhausted (R143) and, where the status enters the
replay table, its own (R75). With no healthy standby there is no confirmation to wait for (assumption 22). -/
def TwinSt.abort (x : TwinSt) (confirm : Bool) (now from_ : Nat) (secure : Bool) (status q : Nat) : TwinSt :=
  match Tbl.find? x.reqs q with
  | some r =>
    if ¬ confirm ∧ r.fin.isSome then x else
      let x := x.dropTasks now q (fun _ => true) true
      let x := { x with store := if r.fin.isSome then applyEffects now x.store r.undo else r.countDcl x.store }
      let fx := (if commitsAt status ∧ r.hdr.stateChange then
        [Effect.replayPut r.space (r.replayEntry q { status := status })] else []) ++ r.sure
      let e : EndRec :=
        { status := status, stamp := x.stampOf now coachyard, effects := fx, evs := r.sureEv
          digest := endDigest q r.hdr.id (if r.space = adminSpace then 0 else r.space) status 0 [] fx r.sureEv }
      (((x.stamped now coachyard).updReq q (fun r =>
        { r with fin := some e, applied := false, undo := [], mismatch := false, staged := [], stagedEv := [],
                 result := [], sent := none, peerDig := none, digFrom := from_, secure := r.secure || secure
                 awaits := .none })).applyFin q).sweep
  | none => x

/-- Whether a request has completed for the purposes of a disable: both twins decide it jointly, so its commit is confirmed when
either has compared the digests (R195, R196). -/
def State.confirmedReq (s : State) (q : Nat) : Bool :=
  let done := fun (x : TwinSt) => (Tbl.find? x.reqs q).any (fun r => r.compared)
  done s.twinA || done s.twinB

/-- Aborts, in both twins and the Relay's NVM copy, every request that a security disable concerns, the latest first (R196,
R197). -/
def State.abortWhere (s : State) (p : TwinSt → Nat → Req → Bool) (status : Nat) : State :=
  let conf := s.healthyStandby.isSome
  let hits := fun (x : TwinSt) (q : Nat) => (Tbl.find? x.reqs q).any (fun r => p x q r) && !s.confirmedReq q
  let sel := fun (x : TwinSt) => ((x.reqs.map Prod.fst).filter (hits x)).reverse
  let back := fun (e : Nat × RReq) => (hits s.twinA e.1 || hits s.twinB e.1) && conf
  let undo := (s.rreqs.filter back).reverse.flatMap (fun e => e.2.undo)
  let ends := fun (x : TwinSt) (q : Nat) => hits x q && (conf || (Tbl.find? x.reqs q).all (fun r => r.fin.isNone))
  let s := s.voidDraws true (fun q => ends s.twinA q || ends s.twinB q) status
  { s with
    twinA := (sel s.twinA).foldl (TwinSt.abort · conf s.now s.twinB.lastBatch (!s.sw.switching) status ·) s.twinA
    twinB := (sel s.twinB).foldl (TwinSt.abort · conf s.now s.twinA.lastBatch (!s.sw.switching) status ·) s.twinB
    rreqs := s.rreqs.map (fun e => (e.1, if back e then { e.2 with undo := [], first := none } else e.2))
    nvm := applyEffects s.now s.nvm undo }

/-- A request that the Relay cannot commit ends with a status in both twins, compared or not, and nothing of it stands (R405, R446): a
twin that has still to run it is supplied anew. -/
def State.failReq (s : State) (q status : Nat) : State :=
  let fail := fun (x o : TwinSt) =>
    (x.abort true s.now o.lastBatch false status q).updReq q (fun r => { r with compared := false })
  let s := s.voidDraws true (fun p => p == q) status
  { s with
    twinA := fail s.twinA s.twinB, twinB := fail s.twinB s.twinA
    nvm := applyEffects s.now s.nvm ((Tbl.find? s.rreqs q).elim [] (fun rr => rr.undo))
    rreqs := Tbl.upd s.rreqs q (fun rr => { rr with given := none, undo := [], first := none }) }

/-- Whether a twin exchanges batches: the active, a healthy standby, a returning twin that has joined, and a twin whose role is
still to be assigned, which takes the first seed so (R318, R331, R349). -/
def TwinSt.exchanges (x : TwinSt) : Bool :=
  match x.role with
  | .active | .healthy | .booting => true
  | .resync => x.resyncEj.isSome
  | _ => false

end Sys2Proof.Machine
end

