-- ==== Sys2Proof/Machine/Images.lean ====
section
/-! DEFINITION. Image packages as the scheduler and the cores read them: manifest, pages and dispatch entries
(R231 to R236), and the vendor images' declarations (Table 5-15). -/

namespace Sys2Proof.Machine

/-- A key declaration (Table 10-4). -/
structure Decl where
  /-- Payload offset of the handle, or 255 for `PARAM`. -/
  offset    : Nat
  transport : Bool := false
  nonce     : Bool := false
  use       : Bool := false
  usage     : Nat := 0
  deriving DecidableEq, Repr

/-- A dispatch entry (Table 10-3). -/
structure DispEntry where
  newKeys : Nat := 0
  segOk   : Bool := false
  scAlways : Bool := false
  entry   : Nat := 0
  tmo     : Nat := 0
  dclMax  : Nat := 0
  runMax  : Nat := 0
  decls   : List Decl := []
  deriving DecidableEq, Repr

/-- `PAGE_COUNT` of a package; a shipped package is the module's own (assumption 10). -/
def Slot.pageCount (s : Slot) : Nat :=
  if s.shipped ≠ 0 then (Config.vendorPages s.shipped).toNat else fld s.data 20 2

/-- `ENTRY_COUNT` of a package. -/
def Slot.entryCount (s : Slot) : Nat := fld s.data 22 2

/-- Offset of the page flags in a package (R231). -/
def Slot.flagsOff (s : Slot) : Nat := 128 + 32 * s.entryCount

/-- Offset of the owner public key in a package. -/
def Slot.keyOff (s : Slot) : Nat := s.flagsOff + 4 * fld s.data 20 2

/-- Offset of the pages in a package. -/
def Slot.pagesOff (s : Slot) : Nat := s.keyOff + fld s.data 32 2

/-- The flags of a page (Table 10-2). -/
def Slot.pageFlags (s : Slot) (p : Nat) : Nat :=
  if s.shipped ≠ 0 then (Config.vendorPageFlags s.shipped p).toNat else fld s.data (s.flagsOff + 4 * p) 4

/-- A byte of the pages as loaded (R232). -/
def Slot.pageByte (s : Slot) (i : Nat) : Byte :=
  if s.shipped ≠ 0 then Config.shippedByte s.shipped i else (s.data.drop (s.pagesOff + i)).headD 0

/-- `LMEM_KIB`. -/
def Slot.lmemKib (s : Slot) : Nat :=
  if s.shipped ≠ 0 then (max 16 (min 64 (4 * (Config.vendorLmem s.shipped).toNat))) else fld s.data 24 1

/-- `SRAM_KIB`. -/
def Slot.sramKib (s : Slot) : Nat :=
  if s.shipped ≠ 0 then min 256 (Config.vendorSram s.shipped).toNat else fld s.data 26 2

/-- The declarations of the vendor commands, in `KEYSPEC` order (Table 5-15). -/
def vendorDecls (op : Nat) : List Decl :=
  let u := fun off bits => ({ offset := off, use := true, usage := bits } : Decl)
  match op with
  | 0x0201 => [{ offset := 255, use := true, usage := 0x80, transport := true }]
  | 0x0202 => [{ offset := 255, use := true, usage := 0x100, transport := true }, { offset := 0 }]
  | 0x0206 | 0x0207 | 0x0208 => [{ offset := 255, transport := true }]
  | 0x0209 => [{ offset := 255 }]
  | 0x0300 => [u 0 1, u 4 2]
  | 0x0301 | 0x0302 => [u 0 1, u 4 4]
  | 0x0303 => [u 0 1, u 4 1]
  | 0x0400 => [u 0 8]
  | 0x0401 => [u 0 0x10]
  | 0x0500 => [u 0 0x20, { offset := 0, nonce := true, usage := 0x20 }]
  | 0x0501 => [u 0 0x40]
  | 0x0502 => [u 0 0x20]
  | 0x0503 => [u 0 0x40]
  | 0x0600 => [u 0 0x200]
  | 0x0601 => [u 0 0x400, u 20 2]
  | 0x0602 | 0x0603 => [u 0 0x400]
  | 0x0604 => [u 0 0x400, { offset := 20, use := true, usage := 0x100, transport := true }]
  | 0x0700 => [u 0 0x2000]
  | 0x0701 => [u 0 0x1000]
  | 0x0702 => [u 0 0x4000]
  | 0x0801 => [u 20 0x8000]
  | 0x0900 => [{ offset := 0, use := true, nonce := true, usage := 0x800 }]
  | 0x0901 => [u 0 0x800]
  | _ => []

/-- Which vendor images bind an opcode: Stagecoach, Polestar (Table 5-1). -/
def vendorBinds (op : Nat) : Bool × Bool :=
  if 0x0200 ≤ op ∧ op ≤ 0x0209 then (true, true)
  else if [0x0700, 0x0701, 0x0702, 0x0800].contains op then (true, true)
  else if [0x0300, 0x0301, 0x0302, 0x0303, 0x0400, 0x0401, 0x0500, 0x0501, 0x0502, 0x0503, 0x0600, 0x0601, 0x0602,
    0x0603, 0x0604].contains op then (true, false)
  else if [0x0801, 0x0802, 0x0900, 0x0901].contains op then (false, true)
  else (false, false)

/-- The dispatch entry of a vendor command (Table 5-15). -/
def vendorEntry (img op : Nat) : DispEntry :=
  { newKeys := if [0x0200, 0x0201, 0x0204, 0x0600, 0x0702].contains op then 1 else if op = 0x0203 then 2 else 0
    segOk := op = 0x0502 || op = 0x0503
    scAlways := [0x0200, 0x0201, 0x0203, 0x0204, 0x0207, 0x0600, 0x0702, 0x0801, 0x0900].contains op
    entry := (Config.vendorEntry img op 0).toNat, tmo := (Config.vendorEntry img op 1).toNat
    dclMax := (Config.vendorDclMax img op).toNat, runMax := (Config.vendorRunMax img op).toNat
    decls := vendorDecls op }

/-- One key declaration as stored (Table 10-4). -/
def declOf (b : Bytes) : Decl :=
  { offset := fld b 0 1, transport := bit (fld b 1 1) 2, nonce := bit (fld b 1 1) 1, use := bit (fld b 1 1) 0,
    usage := fld b 2 2 }

/-- A dispatch entry as stored (Table 10-3). -/
def entryOf (b : Bytes) : DispEntry :=
  { newKeys := bits (fld b 2 1) 3 2, segOk := bit (fld b 2 1) 1, scAlways := bit (fld b 2 1) 0,
    entry := fld b 4 4, tmo := fld b 8 4, dclMax := fld b 12 2, runMax := fld b 14 2,
    decls := (List.range (min 4 (fld b 3 1))).map (fun i => declOf (slice b (16 + 4 * i) 4)) }

/-- The dispatch entry by which a package binds an opcode (R235). -/
def Slot.entry? (s : Slot) (img op : Nat) : Option DispEntry :=
  if s.shipped ≠ 0 then
    (if (img = 1 ∧ (vendorBinds op).1) ∨ (img = 2 ∧ (vendorBinds op).2) then some (vendorEntry img op) else none)
  else ((List.range s.entryCount).map (fun i => slice s.data (128 + 32 * i) 32)).findSome?
    (fun b => if fld b 0 2 = op then some (entryOf b) else none)

/-- The package of an image in force for a request (R250). -/
def Store.imageSlot (st : Store) (img q : Nat) : Option Slot :=
  match Tbl.find? st.images img with
  | some c => (c.forceAt q).map c.slot
  | none => none

/-- A version of an image as the image caches know it: its slot (R238, R250). -/
def versionKey (img slot : Nat) : Nat := 2 * img + slot

/-- The version of an image in force for a request, as the image caches know it. -/
def Store.version (st : Store) (img q : Nat) : Nat := versionKey img (((st.component 3 img).forceAt q).getD 0)

/-- The images that a compartment's binding names, in the order the dispatch table is searched (Table 6-3). -/
def CfgSet.imagesOf (c : CfgSet) (n : Nat) : List Nat :=
  (if bit (c.images n) 0 then [1] else []) ++ (if bit (c.images n) 1 then [2] else []) ++
  (if bit (c.images n) 2 then [c.comp n 4 4] else [])

/-- Whether a set binds an image to some compartment (Table 6-3). -/
def CfgSet.binds (c : CfgSet) (image : Nat) : Bool :=
  c.cells.any (fun k => k.1 / 65536 == 1 && (c.imagesOf (k.1 % 65536 / 40)).contains image)

/-- The pages that every quadrant's image cache keeps (R238): those flagged `PINNED` of the images that the active set binds, in
their versions in force. -/
def Store.pinnedList (st : Store) : List (Nat × Nat) :=
  (st.images.filter (fun (i : Nat × Component) => st.activeSet.binds i.1)).flatMap (fun i =>
    match i.2.inForce with
    | some n =>
      let x : Slot := i.2.slot n
      ((List.range x.pageCount).filter (fun p => bit (x.pageFlags p) 3)).map (fun p => (versionKey i.1 n, p))
    | none => [])

/-- The image caches of a twin hold pages of bound images only, and every pinned page of them (R238, R250). -/
def TwinSt.loadPinned (x : TwinSt) (st : Store) : TwinSt :=
  let pins := (List.range 4).flatMap (fun k => st.pinnedList.map (fun p => (k, p.1, p.2)))
  { x with cache := x.cache.filter (fun c => st.activeSet.binds (c.2.1 / 2) && !pins.contains c) ++ pins }

/-- The pages of an earlier version in a slot leave the image caches when another one is activated there (R250). -/
def TwinSt.dropVersion (x : TwinSt) (img slot : Nat) : TwinSt :=
  { x with cache := x.cache.filter (fun c => c.2.1 != versionKey img slot) }

/-- The pinned pages loaded when an image version is activated, or another set is in force (R238, R250). -/
def State.loadPinned (s : State) : State :=
  if s.life.recovery then s else s.updBoth (fun x => x.loadPinned s.nvm)

/-- The image and entry that a compartment's dispatch table binds to an opcode at a stamp; none when unbound (R67). -/
def Store.dispatch (st : Store) (n op q : Nat) : Option (Nat × DispEntry) :=
  let cfg := st.setAt q
  if cfg.unbound n op then none
  else (cfg.imagesOf n).findSome? (fun img =>
    match st.imageSlot img q with
    | some s => (s.entry? img op).map (fun e => (img, e))
    | none => none)

end Sys2Proof.Machine
end

