-- ==== Sys2Proof/Machine/Operands.lean ====
section
/-! DEFINITION. What a Kaibas instruction reads and writes: the register file with its windows and tags, the anchors,
the status register, and the four regions of memory (R200 to R217, R240). -/

namespace Sys2Proof.Machine

/-- `CWP` of `sr` (Table 9-3). -/
def Ctx.cwp (c : Ctx) : Nat := bits c.sr.toNat 23 20
/-- `WOLD`. -/
def Ctx.wold (c : Ctx) : Nat := bits c.sr.toNat 19 16
/-- `DEPTH`. -/
def Ctx.depth (c : Ctx) : Nat := bits c.sr.toNat 47 32
/-- `EXC`. -/
def Ctx.exc (c : Ctx) : Bool := c.sr.getLsbD 31
/-- `C`. -/
def Ctx.carry (c : Ctx) : Bool := c.sr.getLsbD 7
/-- `CTAG`. -/
def Ctx.carryTag (c : Ctx) : Bool := c.sr.getLsbD 6
/-- The resident window count N (R202). -/
def Ctx.windows (c : Ctx) : Nat := (c.cwp + 15 - c.wold) % 15 + 1

/-- The place in the register file of general register `n` (Table 9-1): globals 0 to 7, then window w's sixteen
entries from 8 + 16 w. -/
def regPlace (cwp n : Nat) : Nat :=
  if n < 8 then n else if n < 24 then 8 + 16 * cwp + (n - 8) else 8 + 16 * ((cwp + 1) % 15) + (n - 24)

/-- A general register: g0 reads 0, untagged (R201). -/
def Ctx.reg (c : Ctx) (n : BitVec 5) : Word × Bool := if n = 0 then (0, false) else c.word (regPlace c.cwp n.toNat)

/-- A general register written with its tag: a write to g0 is discarded (R201). -/
def Ctx.setReg (c : Ctx) (n : BitVec 5) (v : Word) (tag : Bool) : Ctx :=
  if n = 0 then c else c.setWord (regPlace c.cwp n.toNat) v tag

/-- An entry anchor (R202). -/
def Ctx.anchor (c : Ctx) (w : Nat) : BitVec 64 := Tbl.getD c.ea w 0

/-- The context with an anchor written. -/
def Ctx.setAnchor (c : Ctx) (w : Nat) (v : BitVec 64) : Ctx := { c with ea := Tbl.store c.ea w v 0 }

/-- What an instruction executes in: the twin, the context, and the request, task and package it runs. -/
structure KEnv where
  w    : Twin
  cid  : Cid
  x    : TwinSt
  c    : Ctx
  q    : Nat := 0
  i    : Nat := 0
  req  : Req := {}
  slot : Slot := {}
  now  : Nat := 0

/-- Zenith's context (`feat0`.`SUP`, R229). -/
def KEnv.zenith (e : KEnv) : Bool := e.c.task.isNone

/-- The outcome of an instruction: it completes and goes on at the next address, or elsewhere; it raises an exception
with a cause, a subcode, a register and `einfo`, in the context as the partial effects of R205 leave it; or it aborts
the task (R227); or it stays, waits or ends its task by a change of the whole state. -/
inductive KRes where
  | ok (x : TwinSt) (c : Ctx)
  | jump (x : TwinSt) (c : Ctx) (target : BitVec 64)
  | exc (c : Ctx) (cause sub reg info : Nat)
  | abort
  | leave (f : State → State)

/-- The number of pages of the image that a context runs; Zenith runs the firmware's own, of one page
at least (assumption 23). -/
def KEnv.pages (e : KEnv) : Nat := if e.zenith then max 1 (Config.vendorPages 0).toNat else e.slot.pageCount

/-- The flags of a page of the code region; the first page of Zenith's firmware is executable (assumption 23). -/
def KEnv.pageFlags (e : KEnv) (p : Nat) : Nat :=
  if e.zenith then (Config.vendorPageFlags 0 p).toNat ||| b2n (p == 0) else e.slot.pageFlags p

/-- The page of a code address, when it lies in the image (R232). -/
def KEnv.page? (e : KEnv) (a : Nat) : Option Nat :=
  if 0x40000000 ≤ a ∧ (a - 0x40000000) / 4096 < e.pages then some ((a - 0x40000000) / 4096) else none

/-- Whether an instruction may be fetched at an address (Table 10-2). -/
def KEnv.canFetch (e : KEnv) (a : Nat) : Bool :=
  match e.page? a with | some p => bit (e.pageFlags p) 0 | none => false

/-- The page that must be filled before an access to a code address: the quadrant's image cache lacks it (R238). Zenith's
firmware is in no image cache (assumption 23). -/
def KEnv.missing (e : KEnv) (a : Nat) : Option Nat :=
  match e.page? a with
  | some p => if e.zenith || e.x.cache.contains (islandCluster e.cid.island / 4, e.x.store.version e.req.image e.q, p) then none else some p
  | none => none

/-- `sr`.`DCLP`: the page of an instruction is declassify-capable. -/
def KEnv.dclPage (e : KEnv) (a : Nat) : Bool :=
  match e.page? a with | some p => bit (e.pageFlags p) 2 | none => false

/-- The size of a context's local memory (R238); Zenith has the whole 128 KiB of its core (assumption 23). -/
def KEnv.lmemSize (e : KEnv) : Nat := if e.zenith then 131072 else 1024 * e.slot.lmemKib

/-- The cluster of the context's core. -/
def KEnv.cluster (e : KEnv) : Cluster := Tbl.getD e.x.clusters (islandCluster e.cid.island) {}

/-- The regions of Table 9-6. -/
inductive MemRegion where
  | lmem
  | sram
  | code
  | desc
  deriving DecidableEq, Repr

/-- The region that holds an access of `n` bytes wholly, if any (R209). -/
def KEnv.region (e : KEnv) (a n : Nat) : Option MemRegion :=
  if a + n ≤ e.lmemSize then some .lmem
  else if e.cluster.sram.any (fun s => s.2.2 == (e.q, e.i) && decide (s.1 ≤ a) && decide (a + n ≤ s.1 + s.2.1)) &&
      !e.zenith then some .sram
  else if (match e.page? a with | some p => bit (e.pageFlags p) 1 | none => false) then some .code
  else if 0x70000000 ≤ a ∧ a + n ≤ 0x70001000 ∧ ¬ e.zenith then some .desc
  else none

/-- The task descriptor page (Table 10-5). -/
def descPage (r : Req) (q i : Nat) : Bytes :=
  toLe 8 r.hdr.id ++ toLe 2 r.hdr.opcode ++ toLe 2 r.hdr.comp ++ [byte r.hdr.lane, byte r.hdr.flags, byte i, 0] ++
  toLe 4 r.hdr.flow ++ toLe 4 r.hdr.plen ++ toLe 8 r.hdr.param ++ toLe 4 r.hdr.rlen ++ toLe 2 r.hdr.segIndex ++
  [byte r.hdr.segCtrl, 0] ++ toLe 8 r.hdr.deadline ++ toLe 8 q ++
  fixLen 8 (r.newH.flatMap (fun h => toLe 4 h)) ++ fixLen 8 (r.keyStatus.flatMap (fun k => toLe 2 k)) ++
  toLe 12 r.nonce ++ zeros 4 ++ [1, 2, 3].flatMap (fun c => toLe 8 (Tbl.getD r.childVals c 0)) ++ zeros 16

/-- A load of `n` bytes with its tag (R214); none where the access exception is raised. -/
def KEnv.load (e : KEnv) (a n : Nat) : Option (Nat × Bool) :=
  match e.region a n with
  | some .lmem => some (leNat (e.c.lread a n), e.c.ltag a n)
  | some .sram => some (leNat ((List.range n).map (fun i => Tbl.getD e.cluster.sramData (a + i) 0)), false)
  | some .code => some (leNat ((List.range n).map (fun i =>
      if e.zenith then Config.shippedByte 0 (a - 0x40000000 + i) else e.slot.pageByte (a - 0x40000000 + i))), false)
  | some .desc => some (leNat (slice (descPage e.req e.q e.i) (a - 0x70000000) n), false)
  | none => none

/-- Bytes written to the cluster's SRAM. -/
def KEnv.sramWrite (e : KEnv) (a : Nat) (b : Bytes) : TwinSt :=
  let k := { e.cluster with sramData := storeBytes e.cluster.sramData a b }
  { e.x with clusters := Tbl.put e.x.clusters (islandCluster e.cid.island) k }

/-- A store of `n` bytes of a value with its tag, in the order of R226: access, then a tagged store to a region without
tags (R215). `reg` is the register of the tag violation. -/
def KEnv.store (e : KEnv) (a n v : Nat) (tag : Bool) (reg : Nat) : KRes :=
  match e.region a n with
  | some .lmem => .ok e.x (e.c.lput a (toLe n v) tag)
  | some .sram => if tag then .exc e.c 5 4 reg a else .ok (e.sramWrite a (toLe n v)) e.c
  | _ => .exc e.c 4 0 0 a

end Sys2Proof.Machine
end

