-- ==== Sys2Proof/Machine/Kaibas.lean ====
section
/-! DEFINITION. How one Kaibas instruction runs: the context it runs in, the checks of R226 in their order, the repeat
prefix (R222 to R224), exception entry and the abort of R227. -/

namespace Sys2Proof.Machine

/-- What the repeat prefix may do with an instruction (R222, R223): not repeatable; repeatable with the base registers
that move after each iteration and by how much; or refused for its registers. -/
inductive RepKind where
  | no
  | yes (moves : List (BitVec 5 × Int))
  | bad

/-- The context of a command, when it executes: its island is awake (R25, R410), and it is an occupied context whose task
is the one executing on its core and is not in a wait, or Zenith's own (R186, R191). -/
def State.kenv? (s : State) (cid : Cid) : Option KEnv :=
  match (if s.awake cid.island then islandTwin cid.island else none) with
  | none => none
  | some w =>
    let x := s.twin w
    if cid.island % 206 = 198 then
      let c : Ctx := Tbl.getD x.ctxs (ctxKey cid) { occ := true }
      if cid.ctx = 0 ∧ s.boot.up ∧ ¬ c.waiting then some { w := w, cid := cid, x := x, c := c, now := s.now } else none
    else
      match Tbl.find? x.ctxs (ctxKey cid) with
      | some c =>
        match c.task with
        | some (q, i) =>
          match Tbl.find? x.reqs q, x.task? q i with
          | some r, some k =>
            if c.occ ∧ ¬ c.waiting ∧ k.chargeOn.isSome ∧ k.st = .running ∧ isCore cid.island then
              some { w := w, cid := cid, x := x, c := c, q := q, i := i, req := r, now := s.now,
                     slot := (x.store.imageSlot r.image q).getD {} }
            else none
          | _, _ => none
        | none => none
      | none => none

/-- The state with a context and its twin written back. -/
def State.putCtx (s : State) (e : KEnv) (x : TwinSt) (c : Ctx) : State :=
  s.setTwin e.w { x with ctxs := Tbl.put x.ctxs (ctxKey e.cid) c }

/-- The record of an abort: it carries `ecause` and `epc` (R227, assumption 24). -/
def abortRecord (now cause sub reg epc : Nat) : EvReq :=
  { id := 0xA000 + (Config.imageEvent 0).toNat, sev := (Config.imageEventSev 0).toNat, origin := 0, stamp := now,
    detail := toLe 8 (cause + 256 * sub + 65536 * reg) ++ toLe 8 epc }

/-- The task is aborted and its request ends `IMAGE_EXCEPTION` (R219, R227); Zenith's own context has no request, and is
cleared (assumption 23). -/
def State.killTask (s : State) (e : KEnv) (cause sub reg epc : Nat) : State :=
  if e.zenith then s.putCtx e e.x { (e.c.vacate false) with occ := true, task := none }
  else s.finish e.w e.q { status := stImage, evs := [abortRecord s.now cause sub reg epc] }

/-- Exception entry (R227): with no handler, or inside one, the task is aborted; otherwise `epc`, `einfo`, `ecause` and
`esr` are written, `EXC` is set and the pc goes to `ev`. -/
def State.raise (s : State) (e : KEnv) (c : Ctx) (cause sub reg info epc : Nat) : State :=
  if c.ev = 0 ∨ c.exc then s.killTask e cause sub reg epc
  else
    let sr := setBits c.sr 11 1 (b2n (e.dclPage epc))
    s.putCtx e e.x
      { c with epc := BitVec.ofNat 64 epc, einfo := BitVec.ofNat 64 info,
               ecause := BitVec.ofNat 32 (cause + 256 * sub + 65536 * reg), esr := sr,
               sr := setBits c.sr 31 1 1, pc := c.ev, rep := none }

/-- The base registers moved after an iteration (R223). -/
def moveBases (c : Ctx) (l : List (BitVec 5 × Int)) : Ctx :=
  l.foldl (fun c m => c.setReg m.1 ((c.reg m.1).1 + BitVec.ofInt 64 m.2) (c.reg m.1).2) c

/-- A context enters a rank-6 wait at the instruction it stands at, and another ready context of its core executes (R177,
R238). -/
def State.memWait (s : State) (e : KEnv) (m : MemWait) : State :=
  s.setTwin e.w ({ e.x with ctxs := Tbl.upd e.x.ctxs (ctxKey e.cid) (fun (c : Ctx) =>
    { c with waiting := true, wants := m }) }.recharge e.cid.island s.now)

/-- Access to a code address that may lie in a page to be filled first: the miss is a wait (R238). -/
def KEnv.filled (e : KEnv) (a : Nat) (r : KRes) : KRes :=
  match e.missing a with
  | some p => .leave (fun s => s.memWait e (.page p))
  | none => r

/-- The second word of a long form is fetched after the checks that the first word decides, a tagged base among them (R210,
R226). -/
def KEnv.second (e : KEnv) (len here : Nat) (r : KRes) : KRes :=
  if len ≠ 8 then r
  else match r with
    | .exc c 5 3 reg info => .exc c 5 3 reg info
    | r => if e.canFetch (here + 4) then e.filled (here + 4) r else .exc e.c 4 0 0 (here + 4)

/-- One instruction of `len` bytes in its context. The checks run in the order of R226: the fetch, an undefined word,
the rules of the repeat prefix, then the instruction's own. A word in a page that is not in the image cache is a wait (R238).
Under `rep` at address p it runs one iteration: `rc` falls by one, the bases move, and the pc is p until `rc` is 0 and p + 8
then (R223); an exception has `epc` = p (R224). -/
def kstep (cid : Cid) (len : Nat) (defined : KEnv → Bool) (rep : RepKind) (op : KEnv → KRes) (s : State) : State :=
  match s.kenv? cid with
  | none => s
  | some e =>
    let s := s.takeStep e.cid.island
    let here := e.c.pc.toNat
    let epc := match e.c.rep with | some p => p.toNat | none => here
    let under := e.c.rep
    let c0 := { e.c with rep := none }
    let e := { e with c := c0 }
    if here % 4 ≠ 0 then s.raise e c0 3 0 0 here epc
    else if ¬ e.canFetch here then s.raise e c0 4 0 0 here epc
    else if let some p := e.missing here then s.memWait e (.page p)
    else if ¬ defined e then s.raise e c0 1 0 0 0 epc
    else
      match under, rep with
      | some _, .no => s.raise e c0 2 0 0 0 epc
      | some _, .bad => s.raise e c0 2 0 0 0 epc
      | some p, .yes moves =>
        if c0.rc = 0 then s.putCtx e e.x { c0 with pc := p + 8 }
        else
          match op e with
          | .ok x c =>
            let c := moveBases { c with rc := c.rc - 1 } moves
            s.putCtx e x { c with pc := if c.rc = 0 then p + 8 else p }
          | .jump x c t => s.putCtx e x { c with pc := t }
          | .exc c cause sub reg info => s.raise e c cause sub reg info epc
          | .abort => s.killTask e 0 0 0 epc
          | .leave f => f s
      | none, _ =>
        match e.second len here (op e) with
        | .ok x c => s.putCtx e x { c with pc := c.pc + BitVec.ofNat 64 len }
        | .jump x c t => s.putCtx e x { c with pc := t }
        | .exc c cause sub reg info => s.raise e c cause sub reg info epc
        | .abort => s.killTask e 0 0 0 epc
        | .leave f => f s

/-- One instruction as a command. -/
def kev (cid : Cid) (len : Nat) (defined : KEnv → Bool) (rep : RepKind) (op : KEnv → KRes) (s : State) :
    Host.Outcome State Fault Refusal :=
  ev s.now (kstep cid len defined rep op) s

/-- Whether a word is defined whose reserved field holds `rsvd` (R7, R226). -/
def noRsvd (rsvd : Nat) (_ : KEnv) : Bool := rsvd == 0

/-- A word without a reserved field. -/
def always (_ : KEnv) : Bool := true

/-- A result in a register, tagged when a source is (R213). -/
def KEnv.result (e : KEnv) (rd : BitVec 5) (v : Word) (tag : Bool) : KRes := .ok e.x (e.c.setReg rd v tag)

/-- Sign extension of a 16-bit immediate or offset. -/
def sext16 (i : BitVec 16) : Word := i.signExtend 64

/-- Sign extension of a 32-bit immediate. -/
def sext32 (i : BitVec 32) : Word := i.signExtend 64

/-- An operation of two registers (Table 9-10). -/
def kRR (c : Cid) (rd rs1 rs2 : BitVec 5) (rsvd : Nat) (f : Word → Word → Word) (s : State) :
    Host.Outcome State Fault Refusal :=
  kev c 4 (noRsvd rsvd) (.yes []) (fun e =>
    let a := e.c.reg rs1
    let b := e.c.reg rs2
    e.result rd (f a.1 b.1) (a.2 || b.2)) s

/-- An operation of one register (Table 9-10, Table 9-9). -/
def kR (c : Cid) (rd rs1 : BitVec 5) (rsvd len : Nat) (rep : RepKind) (f : Word → Word) (s : State) :
    Host.Outcome State Fault Refusal :=
  kev c len (noRsvd rsvd) rep (fun e => e.result rd (f (e.c.reg rs1).1) (e.c.reg rs1).2) s

end Sys2Proof.Machine
end

