-- ==== Sys2Proof/Machine/Keys.lean ====
section
/-! DEFINITION. Keys as every command uses them: material, check values, lookup, the quota step, new keys, and the
replicated randomness of a task (R97 to R102, R135 to R144, R237, R318 to R321). -/

namespace Sys2Proof.Machine

/-- The epoch that holds a stamp (R22). -/
def epochOf (t : Nat) : Nat := t / 4000

/-- Whether an algorithm code is symmetric (R98). -/
def isSym (alg : Nat) : Bool := decide (1 ≤ alg) && decide (alg ≤ 10)

/-- Whether an algorithm code is asymmetric (Table 5-3). -/
def isAsym (alg : Nat) : Bool := [0x10, 0x11, 0x12, 0x20, 0x21, 0x22, 0x30, 0x31].contains alg

/-- Whether an algorithm is an RSA size. -/
def isRsa (alg : Nat) : Bool := decide (0x10 ≤ alg) && decide (alg ≤ 0x12)

/-- Whether an algorithm is a Weierstrass curve. -/
def isEcc (alg : Nat) : Bool := alg == 0x20 || alg == 0x21

/-- The length of a symmetric key (Table 5-3). -/
def symLen (alg : Nat) : Nat :=
  match alg with
  | 1 => 16 | 2 => 24 | 3 => 16 | 4 => 24 | 5 => 32 | 6 => 32 | 7 => 64 | 8 => 32 | 9 => 64 | 10 => 32 | _ => 0

/-- The modulus length of an RSA algorithm, in bytes. -/
def rsaLen (alg : Nat) : Nat := if alg = 0x10 then 256 else if alg = 0x11 then 384 else 512

/-- The class of a key handle: 0 symmetric, 1 public, 2 private (R135). -/
def handleClass (h : Nat) : Nat := h / 2 ^ 30 % 4

/-- M of Table 6-5, by algorithm and class. -/
def materialLen (alg cls : Nat) : Nat :=
  if isSym alg then symLen alg
  else if isRsa alg then rsaLen alg + 4 + (if cls = 2 then rsaLen alg / 2 * 5 else 0)
  else match alg with
    | 0x20 => if cls = 2 then 96 else 64
    | 0x21 => if cls = 2 then 144 else 96
    | 0x22 => if cls = 2 then 64 else 32
    | 0x30 => 1952
    | 0x31 => 2592
    | _ => 0

/-- Extension slots of a material length (R138). -/
def extSlots (m : Nat) : Nat := if 32 < m then ceilDiv (m - 32) 64 else 0

/-- The public part of a key's material (Table 6-5). -/
def publicPart (alg cls : Nat) (m : Bytes) : Bytes :=
  if cls ≠ 2 then m
  else if isRsa alg then m.take (rsaLen alg + 4)
  else match alg with
    | 0x20 => m.drop 32
    | 0x21 => m.drop 48
    | 0x22 => m.drop 32
    | _ => m

/-- The encoding of R100 of the public half of a key. -/
def pubEncoding (alg cls : Nat) (m : Bytes) : Bytes :=
  if isEcc alg then 0x04 :: publicPart alg cls m else publicPart alg cls m

/-- The key check value of R99. -/
def kcvOf (alg cls : Nat) (m : Bytes) : Bytes :=
  if isTdea alg then (tdeaE m (zeros 8)).take 3 ++ [0, 0]
  else if isAes alg then (cmac alg m (zeros 16)).take 5
  else match alg with
    | 6 => (cmac 3 (m.take 16) (zeros 16)).take 5
    | 7 => (cmac 5 (m.take 32) (zeros 16)).take 5
    | 8 => (hmac shaP256 m []).take 5
    | 9 => (hmac shaP512 m []).take 5
    | 10 => (kmac 168 m [] [] 16).take 5
    | _ => (sha256 (pubEncoding alg cls m)).take 5

/-- The key that a handle names for a request, by the pair of compartment and handle (R134): the transport key for 0
(R99); a key unloaded by a later request still stands, and an earlier transport key serves the requests accepted before
it was replaced (R148). -/
def Store.key? (st : Store) (c h q : Nat) : Option KeyRec :=
  let x := st.comp c
  if h = 0 then
    match x.oldTrans.find? (fun o => decide (q < o.1)) with
    | some o => some o.2
    | none => x.transport
  else match Tbl.find? x.keys h with
    | some k => if k.unloadAt.all (fun u => u == 0 || decide (q < u)) then some k else none
    | none => none

/-- A key that a request has created and not committed (R237). -/
def Req.created (r : Req) (h : Nat) : Option KeyRec :=
  r.staged.findSome? (fun e => match e with | .keyPut _ h' k => if h = h' then some k else none | _ => none)

/-- The key that a request may name in a service or an engine operation (R237). -/
def TwinSt.keyFor (x : TwinSt) (q : Nat) (r : Req) (h : Nat) : Option KeyRec :=
  if r.allowed.contains h then (r.created h).orElse (fun _ => x.store.key? r.space h q) else none

/-- Slots and ledger entries taken by the requests of a compartment accepted since the batch that a request's holding was
agreed at, up to it (R139). -/
def TwinSt.takenBefore (x : TwinSt) (q c base : Nat) (f : Nat × Nat × Nat → Nat) : Nat :=
  (x.taken.filter (fun e => e.1 % 2048 == c && decide (e.1 / 2048 ≤ q) && decide (4000 * base ≤ e.1 / 2048))).foldl
    (fun n e => n + f e.2) 0

/-- The quota step (R139, R143): what is added must fit `KEY_SLOTS`, `KEY_EXT_SLOTS` and `LEDGER` over the holding
agreed at acceptance and what earlier requests of the same epoch took. -/
def TwinSt.quota (x : TwinSt) (q slots ext led : Nat) : Option TwinSt :=
  match Tbl.find? x.reqs q with
  | none => none
  | some r =>
    let cfg := x.store.setAt q
    let fits := fun (i add lim : Nat) (f : Nat × Nat × Nat → Nat) =>
      add == 0 || decide (r.base.getD i 0 + x.takenBefore q r.space (r.base.getD 4 0) f + add ≤ lim)
    if fits 0 slots (cfg.comp r.space 16 4) (fun e => e.1) && fits 1 ext (cfg.comp r.space 20 4) (fun e => e.2.1) &&
        fits 2 led (cfg.comp r.space 24 4) (fun e => e.2.2) then
      let k := q * 2048 + r.space
      let o := Tbl.getD x.taken k (0, 0, 0)
      some ({ x with taken := Tbl.put x.taken k (o.1 + slots, o.2.1 + ext, o.2.2 + led) }.updReq q (fun r =>
        { r with slotsTaken := r.slotsTaken + slots, extTaken := r.extTaken + ext, ledTaken := r.ledTaken + led }))
    else none

/-- The attribute block of a new key (R242). -/
structure KeyAttr where
  usage   : Nat
  alg     : Nat
  expt    : Bool := false
  nonceEn : Bool := false
  limit   : Nat := 0
  deriving DecidableEq, Repr

/-- The class that a new key's handle takes: by its algorithm, and for an asymmetric one public when it carries
`VERIFY` (assumption 25). -/
def newClass (a : KeyAttr) : Nat := if isSym a.alg then 0 else if a.usage = 0x2000 ∨ 0x30 ≤ a.alg then 1 else 2

/-- The checks of an attribute block: reserved fields, then what R97 and R102 permit. -/
def attrOf (sym : Bool) (b : Bytes) : Nat ⊕ KeyAttr :=
  let a : KeyAttr := { usage := fld b 0 4, alg := fld b 4 1, expt := bit (fld b 5 1) 0, nonceEn := bit (fld b 5 1) 1,
                       limit := fld b 8 8 }
  if fld b 6 2 ≠ 0 ∨ fld b 16 8 ≠ 0 ∨ 4 ≤ fld b 5 1 ∨ 65536 ≤ a.usage then .inl stReserved
  else if sym then (if isSym a.alg ∧ a.usage < 0x1000 then .inr a else .inl stBadParam)
  else if ¬ isAsym a.alg ∨ (bit a.usage 12 ∧ bit a.usage 15) then .inl stBadParam
  else .inr a

/-- The record of a new key. -/
def newKey (a : KeyAttr) (gen cls : Nat) (m : Bytes) : KeyRec :=
  { alg := a.alg, usage := a.usage, exportable := a.expt, nonceEn := a.nonceEn, useLimit := a.limit,
    kcv := kcvOf a.alg cls m, material := m, gen := gen }

/-- Whether a new key needs a ledger entry (R143). -/
def KeyAttr.ledger (a : KeyAttr) : Bool := a.limit != 0 || a.nonceEn

/-- The effects that create a key: its record, and its ledger entry where it needs one, with both marks one step ahead
(R143, R144, assumption 26). -/
def newKeyFx (c h : Nat) (led : Bool) (k : KeyRec) : List Effect :=
  .keyPut c h k :: (if led then [.ledgerPut c h { useMark := 65536, nonceMark := 65536 }] else [])

/-- The quota step of a task that draws the material of its next new keys only afterwards: passed once for them, however often
the task is looked at while it waits (R139). -/
def TwinSt.prepay (x : TwinSt) (q i n slots ext led : Nat) : Option TwinSt :=
  if (Tbl.find? x.reqs q).any (fun r => r.paid.contains i) then some x
  else (x.quota q slots ext led).map (fun x => x.updReq q (fun r => { r with paid := List.replicate n i ++ r.paid }))

/-- The quota step of one new key, or what its task has passed already (R139). -/
def TwinSt.payKey (x : TwinSt) (q : Nat) (i : Option Nat) (ext led : Nat) : Option TwinSt :=
  match i with
  | some i =>
    if (Tbl.find? x.reqs q).any (fun r => r.paid.contains i) then
      some (x.updReq q (fun r => { r with paid := r.paid.erase i }))
    else x.quota q 1 ext led
  | none => x.quota q 1 ext led

/-- A new key of a request from its attributes and material (R242): the next identity of `NEW_HANDLES`, the quota step,
and the effects staged; none where the identities are spent, a status where the quota refuses. The key is one that task `i`
makes, or an engine operation. -/
def TwinSt.createKey (x : TwinSt) (q : Nat) (i : Option Nat) (a : KeyAttr) (cls : Nat) (m : Bytes) :
    Option (Nat ⊕ (Nat × TwinSt)) :=
  match Tbl.find? x.reqs q with
  | none => none
  | some r =>
    match r.newH[r.newUsed]? with
    | none => none
    | some id =>
      if id = 0 then none else
      let h := cls * 2 ^ 30 + id % 2 ^ 30
      match x.payKey q i (extSlots (materialLen a.alg cls)) (b2n a.ledger) with
      | none => some (.inl stQuota)
      | some x =>
        let k := newKey a (x.store.comp r.space).gen cls m
        some (.inr (h, x.updReq q (fun r => { r with
          newUsed := r.newUsed + 1, allowed := h :: r.allowed,
          staged := r.staged ++ newKeyFx r.space h a.ledger k })))

/-- The module serial as the eight octets of `SERIAL`. -/
def serialBytes : Bytes := toLe 8 Config.serial.toNat

/-- The epoch seed and generation of a request: in force at the epoch that holds its acceptance stamp, and generation 1
for one accepted earlier (R319). -/
def TwinSt.seedFor (x : TwinSt) (q : Nat) : Option (Nat × Bytes) :=
  match (x.ent.seeds.filter (fun e => decide (e.1 ≤ epochOf q))).getLast? with
  | some e => some e.2
  | none => (x.ent.seeds.find? (fun e => e.2.1 == 1)).map (fun e => e.2)

/-- A task generator of a request (R320, Table 13-5). -/
def taskGen (r : Req) (q i gen : Nat) (seed : Bytes) : Drbg :=
  drbgInst 32 (fixLen 32 seed) (toLe 8 q ++ toLe 2 r.hdr.comp ++ [byte i] ++ zeros 5)
    (toLe 8 r.hdr.id ++ toLe 2 r.hdr.opcode ++ toLe 4 gen)

/-- The outcome of a consumer call: bytes; a wait for the first seed or a generator slot (R313, R320); random service
stopped (R317); the call past the limit of R321. -/
inductive RngRes where
  | ok (b : Bytes) (x : TwinSt)
  | wait
  | stopped
  | over

/-- Task generators in use (R320). -/
def TwinSt.gensUsed (x : TwinSt) : Nat := x.reqs.foldl (fun n e => n + e.2.gens.length) 0

/-- One consumer call of a task for a number of bytes (R320, R321). -/
def TwinSt.rng (x : TwinSt) (q i len : Nat) : RngRes :=
  match Tbl.find? x.reqs q with
  | none => .wait
  | some r =>
    if x.ent.stopped then .stopped
    else match x.seedFor q with
      | none => .wait
      | some (gen, seed) =>
        match Tbl.find? r.gens i with
        | none =>
          if 2048 ≤ x.gensUsed then .wait
          else
            let o := drbgGen (taskGen r q i gen seed) len
            .ok o.1 (x.updReq q (fun r => { r with gens := Tbl.put r.gens i (o.2, 1), rngWait := r.rngWait.erase i, slotWait := r.slotWait.erase i }))
        | some (d, n) =>
          if 2 ^ 20 ≤ n then .over
          else
            let o := drbgGen d len
            .ok o.1 (x.updReq q (fun r => { r with gens := Tbl.put r.gens i (o.2, n + 1), rngWait := r.rngWait.erase i }))

/-- Whether a task of a request waits for a generator slot, and not for the first seed (R313, R320). -/
def TwinSt.slotsFull (x : TwinSt) (q i : Nat) : Bool :=
  decide (2048 ≤ x.gensUsed) && (x.seedFor q).isSome && (Tbl.find? x.reqs q).any (fun r => (Tbl.find? r.gens i).isNone)

/-- A consumer begins to wait, or waits on: a task's wait for a generator slot is counted once (R193, R320, R322). -/
def TwinSt.awaitRng (x : TwinSt) (q i : Nat) : TwinSt :=
  let new := x.slotsFull q i && (Tbl.find? x.reqs q).any (fun r => !r.slotWait.contains i)
  let x := if new then { x with ent := { x.ent with slotWaits := satAdd 32 x.ent.slotWaits 1 } } else x
  x.updReq q (fun r => { r with rngWait := if r.rngWait.contains i then r.rngWait else i :: r.rngWait
                                slotWait := if new then i :: r.slotWait else r.slotWait })

/-- The dependence counter of a task raised, saturating the request at 65,535 under R177: none where it would pass. -/
def TwinSt.raiseDep (x : TwinSt) (q i : Nat) (f : Task → Task) : Option TwinSt :=
  match x.task? q i with
  | some k => if 65535 ≤ k.dep then none else some (x.updTask q i (fun k => f { k with dep := k.dep + 1 }))
  | none => none

end Sys2Proof.Machine
end

