-- ==== Sys2Proof/Machine/Units.lean ====
section
/-! DEFINITION. Units that wear or fail, and what a cause does to its twin: retirement, spares, degradation, relinquish
(R281, R282, R337, R346, R347, R436 to R441, R449). -/

namespace Sys2Proof.Machine

/-- What a role change asks for: a report at its epoch (R352), and the attention of both Zeniths (R415). -/
def State.roleReport (s : State) : State :=
  ({ s with health := { s.health with due := s.health.due ++ [(ceilDiv (s.now + 200000) 400000 * 100, 3)] } }.wakeZenith .a).wakeZenith .b

/-- The units of a kind in an island's own cluster. -/
def mates (w : Twin) (isl : Nat) : List Nat :=
  if isCore isl then coresOf w (islandCluster isl) else enginesOf w (islandCluster isl)

/-- Slot of a unit in its cluster: cores 0 to 8, engines 0 to 2 (R18). -/
def unitSlot (isl : Nat) : Nat := if isEngine isl then isl % 206 % 12 - 9 else isl % 206 % 12

/-- A unit changed. -/
def TwinSt.setUnit (x : TwinSt) (isl : Nat) (f : UnitRec → UnitRec) : TwinSt :=
  { x with units := Tbl.put x.units isl (f (x.unit isl)) }

/-- A free spare of an island's cluster (R439). -/
def TwinSt.spareFor (x : TwinSt) (w : Twin) (isl : Nat) : Option Nat :=
  (mates w isl).find? (fun i => i != isl && x.freeSpare i)

/-- Active units of an island's kind in its cluster. -/
def TwinSt.activesIn (x : TwinSt) (w : Twin) (isl : Nat) : Nat :=
  (mates w isl).countP (fun i => (x.unit i).role == .active && !(x.unit i).draining)

/-- Active units that a cluster has when nothing is out: 8 cores, 2 engines (R13). -/
def fullActive (isl : Nat) : Nat := if isCore isl then 8 else 2

/-- Another active engine of an engine's cluster (R281). -/
def TwinSt.otherEngine (x : TwinSt) (w : Twin) (isl : Nat) : Option Nat :=
  (mates w isl).find? (fun i => i != isl && (x.unit i).role == .active && !(x.unit i).draining)

/-- Operations placed on an engine and not ended, oldest first; the first two are in service (R257). -/
def TwinSt.placed (x : TwinSt) (isl : Nat) : List Nat :=
  (x.ops.filter (fun (o : Nat × EngOp) => o.2.engine == some isl && o.2.admitted && o.2.done.isNone)).map Prod.fst

/-- Operations on an engine that are not in service go to another active engine of the cluster (Table 8-4). -/
def TwinSt.moveOps (x : TwinSt) (w : Twin) (isl : Nat) : TwinSt :=
  match x.otherEngine w isl with
  | none => x
  | some dst =>
    let moved := (x.placed isl).drop 2
    { x with ops := x.ops.map (fun (o : Nat × EngOp) =>
        (o.1, if moved.contains o.1 then { o.2 with engine := some dst } else o.2)) }

/-- A unit begins to leave the active set (R438): a spare joins first when there is one, and the operations of an engine that
are not in service go elsewhere (Table 8-4). -/
def TwinSt.startDrain (x : TwinSt) (w : Twin) (isl : Nat) (spare : Option Nat) (deferred : Bool) : TwinSt :=
  let x := match spare with
    | some sp => x.setUnit sp (fun u => { u with role := .active })
    | none => x
  let x := x.setUnit isl (fun u => { u with draining := true, spareWait := none, deferred := deferred })
  if isEngine isl then x.moveOps w isl else x

/-- The unit that the spare role passes to: the next one in slot order, wrapping, retired units skipped (R437). -/
def TwinSt.nextUnit (x : TwinSt) (w : Twin) (isl : Nat) : Option Nat :=
  let l := mates w isl
  let i := unitSlot isl - unitSlot (l.headD 0)
  (l.drop (i + 1) ++ l.take i).find? (fun j => (x.unit j).role != .retired)

/-- The units of a kind in a cluster, in slot order. -/
def clusterUnits (w : Twin) (k : Nat) : UnitKind → List Nat
  | .core => coresOf w k
  | .engine => enginesOf w k

/-- A rotation of a cluster begins where the spare is free (R437, R438): it joins the active set, and the next unit begins to
drain. -/
def TwinSt.rotate (x : TwinSt) (w : Twin) (cluster : Nat) (kind : UnitKind) : TwinSt :=
  match (clusterUnits w cluster kind).find? x.freeSpare with
  | none => x
  | some sp =>
    match x.nextUnit w sp with
    | some out => if (x.unit out).role = .active ∧ ¬ (x.unit out).draining then x.startDrain w out (some sp) false else x
    | none => x

/-- The spares that have become free are given out (R439, R440): first to the units that wait for one, then to the rotations that a
re-execution has held up. -/
def TwinSt.tendSpares (x : TwinSt) (w : Twin) : TwinSt :=
  let waiting := (x.units.filter (fun (u : Nat × UnitRec) => u.2.spareWait.isSome && u.2.role == .active)).map Prod.fst
  let x := waiting.foldl (fun (x : TwinSt) i => match x.spareFor w i with
    | some sp => x.startDrain w i (some sp) false
    | none => x) x
  let held := fun (r : Nat × UnitKind) => (clusterUnits w r.1 r.2).any x.reexecCores.contains
  let x := (x.rotations.filter (fun r => !held r)).foldl (fun (x : TwinSt) r => x.rotate w r.1 r.2) x
  { x with rotations := x.rotations.filter held }

/-- A unit whose test is abandoned, with the twin's service or at a reset (R281, R434, R443): one that leaves its test goes back to
the place that its cluster has room for, but an engine taken out for a compare failure stays out until a test passes. -/
def TwinSt.untest (x : TwinSt) (w : Twin) (isl : Nat) : TwinSt :=
  let u := x.unit isl
  let stays := u.role = .selftest ∧ u.why = 0x05
  let role : URole := if u.role ≠ .selftest ∨ stays then u.role
    else if x.activesIn w isl < fullActive isl then .active else .spare
  x.setUnit isl (fun u => { u with role := role, draining := false, spareWait := none, asked := false, deferred := false
                                   why := if u.role = .retired ∨ stays then u.why else 0 })

/-- Every test and rotation of a twin's units abandoned. -/
def TwinSt.untestAll (x : TwinSt) (w : Twin) : TwinSt :=
  { (x.units.map Prod.fst).foldl (fun (x : TwinSt) i => x.untest w i) x with rotations := [] }

/-- A twin that executes nothing: its requests, contexts and operations are gone, its store stands until
resynchronisation replaces it (R347, R348). -/
def TwinSt.idle (x : TwinSt) : TwinSt :=
  { x with reqs := [], ctxs := [], staging := [], dones := [], asyncs := [], ops := [], taken := [],
           repTaken := [], flowTaken := [], resTaken := [], agreed := [], assigned := [], outBatch := [], sentBatch := [], fxOut := [],
           testsOut := [],
           clusters := x.clusters.map (fun (e : Nat × Cluster) =>
             (e.1, { e.2 with queue := [], hold := [], holdWait := [], sram := [], sramData := [] })),
           orrery := { x.orrery with calls := [], slice := none } }

/-- A twin held out of service for its self-test, the tests of its units abandoned (R443), or OFFLINE at its third departure within
24 h of operating time or when a failed unit had no spare (R347). -/
def TwinSt.depart (x : TwinSt) (w : Twin) (ops code isl : Nat) : TwinSt :=
  let left := x.role = .active ∨ x.role = .healthy
  let d := if left then (x.departs.filter (fun o => decide (ops < o + opDay))) ++ [ops] else x.departs
  { x.idle.untestAll w with
    role := if 3 ≤ d.length ∨ code = 0x0D then .offline else .degraded
    cause := code, causeIsl := isl, departs := d, inTest := true, giveUp := false, resyncEs := none, resyncEj := none, missed := 0 }

/-- The record of a resolved mismatch, and its count (R345, Table 14-8). -/
def State.mismatchEvent (s : State) (q comp row : Nat) : State :=
  ({ s with health := { s.health with mismatches := satAdd 32 s.health.mismatches 1 } }).eventU 0x6009 3
    (toLe 8 q ++ toLe 2 comp ++ [byte row])

/-- A mismatch that ends with one twin's own result standing (rows 2 and 3 of Table 14-5). Where the other twin's end record
was the first at the Relay, the records in NVM are rewritten from the surviving one (R332). The resolution wakes both twins
(Table 18-5). -/
def State.settleMismatch (s : State) (win : Twin) (q row : Nat) : State :=
  match Tbl.find? (s.twin win).reqs q with
  | none => s
  | some r =>
    let s := s.mismatchEvent q r.hdr.comp row
    let rr := (Tbl.find? s.rreqs q).getD { first := r.relayFirst, undo := r.relayUndo }
    let fx := match r.fin with | some e => (e.effects.filter Effect.inNvm).map Effect.forNvm | none => []
    let s := if rr.first = some (otherTwin win) then
      let back := applyEffects s.now s.nvm rr.undo
      { s with nvm := applyEffects s.now back fx
               rreqs := Tbl.upd s.rreqs q (fun rr => { rr with first := some win, undo := undoEffects s.now back fx }) }
      else s
    s.updTwin win (fun x =>
      (x.updReq q (fun r => { r with mismatch := false, compared := true, log := none, rechunks := [], reexecOn := none })).notify q
        (r.fin.elim 0 (fun e => e.status))) |>.wakeTwin .a |>.wakeTwin .b

/-- Every mismatch a twin has pending ends as row 2 of Table 14-5: its own result stands (R346). -/
def State.releaseOwn (s : State) (win : Twin) : State :=
  (((s.twin win).reqs.filter (fun (e : Nat × Req) => e.2.mismatch)).map Prod.fst).foldl
    (fun s q => s.settleMismatch win q 2) s

/-- The record of a third departure (R347). -/
def State.noteOffline (s : State) (w : Twin) (code isl : Nat) : State :=
  if (s.twin w).role = .offline then s.eventU 0x600B (twinCode w) (toLe 2 code ++ toLe 2 isl) else s

/-- A twin that left service is no longer one that a request was broadcast to (R333, R350). -/
def State.unsend (s : State) (w : Twin) : State :=
  { s with rreqs := s.rreqs.map (fun (e : Nat × RReq) =>
      (e.1, match w with | .a => { e.2 with toA := false } | .b => { e.2 with toB := false })) }

/-- The commit record of an admin command that ends `OK`. -/
def done (result : Bytes) (fx : List Effect) (evs : List EvReq) : EndRec :=
  { result := result, effects := fx, evs := evs, commits := true }

/-- What a report or a self-test gives, delivered to the requests of one twin that wait for it; a twin that has not yet
served its request finds it (R352, R442). -/
def State.deliverIn (s : State) (w : Twin) (h : Hold) (b : Bytes) : State :=
  let qs := ((s.twin w).reqs.filter (fun (r : Nat × Req) => r.2.fin.isNone && r.2.awaits == h)).map Prod.fst
  let s := { s with rreqs := s.rreqs.map (fun (r : Nat × RReq) =>
    if qs.contains r.1 then (r.1, { r.2 with given := some (0 :: b) }) else r) }
  qs.foldl (fun s q => if s.executes w then s.finish w q (done b [] []) else s) s

/-- `EROLE` of Table 14-10. -/
def URole.code : URole → Nat
  | .active => 1
  | .spare => 2
  | .selftest => 3
  | .retired => 4

/-- The result of `SELFTEST_REQUEST` (Table 19-3). -/
def testResult (outcome role deferred ageing dur : Nat) : Bytes :=
  [byte outcome, byte role, byte deferred, 0] ++ toLe 2 ageing ++ [0, 0] ++ toLe 4 dur ++ zeros 4

/-- The tests of a twin's units that its departure abandons: a request of the other twin that waits for one is answered with
outcome 0x05 (R443). -/
def State.abandonTests (s : State) (w : Twin) : State :=
  let isls := (s.twin (otherTwin w)).reqs.filterMap (fun (r : Nat × Req) =>
    match r.2.awaits with
    | .selftest isl => if islandTwin isl = some w then some isl else none
    | _ => none)
  isls.foldl (fun s isl =>
    s.deliverIn (otherTwin w) (.selftest isl) (testResult 5 ((s.twin w).unit isl).role.code 0 0 0)) s

/-- A cause that comes while a twin is acted on for another: the tie rule of R28 puts it first when its island is the lower one
and the two lie less than 8 units apart, and `CAUSE`, `LAST_CAUSE` and a record of the other still queued name it. -/
def State.firstCause (s : State) (w : Twin) (code isl : Nat) : State :=
  let x := s.twin w
  if x.causeAt + 8 ≤ s.now ∨ x.causeIsl ≤ isl then s
  else
    let words := fun (c i : Nat) => fixLen 16 (toLe 2 c ++ toLe 2 i)
    let fix := fun (e : EvReq) =>
      if [0x6001, 0x6006].contains e.id ∧ e.origin = twinCode w ∧ e.detail = words x.cause x.causeIsl then
        { e with detail := words code isl } else e
    let alm := { s.alm with ev := { s.alm.ev with queue := s.alm.ev.queue.map fix }
                            gen := { s.alm.gen with queue := s.alm.gen.queue.map fix } }
    { s with alm := alm
             health := if x.giveUp then { s.health with lastCause := code, lastIsl := isl } else s.health
             }.updTwin w (fun x => { x with cause := code, causeIsl := isl })

/-- A standby, booting or returning twin becomes DEGRADED (R337, R346, R347). -/
def State.degrade (s : State) (w : Twin) (code isl : Nat) : State :=
  if (s.twin w).role = .degraded ∨ (s.twin w).role = .offline then s.firstCause w code isl else
    let s := s.releaseOwn (otherTwin w)
    let s := (s.updTwin w (fun x => { x.depart w s.opSeconds code isl with causeAt := s.now })).unsend w
    let s := { s with health := { s.health with degradations := satAdd 32 s.health.degradations 1 },
                      payStore := [] }
    ((s.eventU 0x6006 (twinCode w) (toLe 2 code ++ toLe 2 isl)).noteOffline w code isl).roleReport.abandonTests w

/-- The active recognises a cause (R337, R339, R346): with no HEALTHY standby, or before an earlier switch-over has
completed, the module fails stop; otherwise it stops releasing and asserts relinquish. -/
def State.giveUp (s : State) (w : Twin) (code isl : Nat) : State :=
  if (s.twin w).giveUp then s.firstCause w code isl
  else if s.healthyStandby.isNone ∨ s.sw.switching then s.doFailStop code
  else
    let s := s.updTwin w (fun x => { x with giveUp := true, cause := code, causeIsl := isl, causeAt := s.now })
    let s := { s with sw := { s.sw with detected := s.now },
                      health := { s.health with lastCause := code, lastIsl := isl } }
    s.eventU 0x6001 (twinCode w) (toLe 2 code ++ toLe 2 isl)

/-- A cause of Table 14-4 in a twin: the active gives up, any other twin is degraded; a degradation while the active is
giving up fails the module stop (R337, R346). -/
def State.cause (s : State) (w : Twin) (code isl : Nat) : State :=
  if s.active = some w then s.giveUp w code isl
  else if s.active = none ∧ s.sw.switching ∧ s.sw.old = some w then s
  else if (s.twin (otherTwin w)).giveUp ∨ (s.sw.switching ∧ s.active = none) then s.doFailStop code
  else s.degrade w code isl

/-- An uncorrectable ECC error counted in its twin (Table 14-9). -/
def TwinSt.countEcc (x : TwinSt) : TwinSt := { x with ctr := { x.ctr with eccUnc := satAdd 32 x.ctr.eccUnc 1 } }

/-- A wear record (R449, Table 19-5). -/
def State.wearEvent (s : State) (isl kind reason unit ageing b67 spares : Nat) : State :=
  s.event (0xC1AC + isl) (if kind = 0x22 ∧ reason = 0x07 then sevEvid else if [0x21, 0x22, 0x24, 0x26].contains kind then sevWarn else sevInfo)
    (islandOrigin isl) ([byte kind, byte reason] ++ toLe 2 unit ++ toLe 2 ageing ++ toLe 2 b67 ++ toLe 4 spares)

/-- Free spares in an island's cluster. -/
def TwinSt.sparesIn (x : TwinSt) (w : Twin) (isl : Nat) : Nat :=
  (mates w isl).countP (x.freeSpare)

/-- Spares of an island's kind in its cluster that are not retired, those under test among them (R448, Table 19-5). -/
def TwinSt.sparesLeft (x : TwinSt) (w : Twin) (isl : Nat) : Nat :=
  (mates w isl).countP (fun i => (x.unit i).role != .retired) - fullActive isl

/-- A unit leaves the active set, to a test or for good. -/
def State.leaveActive (s : State) (w : Twin) (isl : Nat) (role : URole) (reason : Nat) : State :=
  s.updTwin w (fun x =>
    let x := x.setUnit isl (fun u => { u with role := role, draining := false, spareWait := none, why := reason })
    if isEngine isl then x.moveOps w isl else x)

/-- The place of a unit that has been retired: a free spare of its cluster takes it (R281), and otherwise a record of kind 0x24
says that the unit left without replacement, unless its departure wrote one before (R440). -/
def State.fillPlace (s : State) (w : Twin) (isl reason : Nat) (left : Bool) : State :=
  let x := s.twin w
  if fullActive isl ≤ x.activesIn w isl then s
  else match x.spareFor w isl with
    | some sp => s.updTwin w (fun x => x.setUnit sp (fun u => { u with role := .active }))
    | none => if left then s.wearEvent isl 0x24 reason (unitSlot isl) 0 0 0 else s

/-- A unit is retired (R434, R436, R441): the record, the budget of R282 for an engine, and cause 0x0D for a cluster left
with fewer than six active cores. -/
def State.retire (s : State) (isl reason ageing : Nat) : State :=
  match islandTwin isl with
  | none => s
  | some w =>
    let u := (s.twin w).unit isl
    if u.role = .retired then s else
      let s := s.leaveActive w isl .retired reason
      let s := s.fillPlace w isl reason ((u.role == .active && !u.draining) || (u.role == .selftest && u.why == 0x05))
      let s := s.wearEvent isl 0x22 reason (unitSlot isl) ageing 0 ((s.twin w).sparesLeft w isl)
      let s := if isEngine isl then
        s.updTwin w (fun x => { x with ctr := { x.ctr with engRetired := satAdd 32 x.ctr.engRetired 1 } }) else s
      let n := (s.twin w).activesIn w isl
      if isCore isl ∧ n < 6 then s.cause w 0x0D isl
      else if isEngine isl ∧ n = 0 then s.cause w 0x02 isl
      else s

/-- A compare failure of an engine (R281, R282): counted, and with it a re-run away from the engine; the engine is taken out
for a self-test. More than four in one second, or a cluster left with no active engine, breach the budget. -/
def State.compareFail (s : State) (w : Twin) (isl : Nat) (away : Bool) : State :=
  let recent := fun (u : UnitRec) => u.fails.filter (fun f => decide (s.now < f + 4000000000))
  let day := fun (u : UnitRec) => u.failOps.filter (fun o => decide (s.opSeconds < o + opDay))
  let out := ((s.twin w).unit isl).role == .active
  let s := s.updTwin w (fun x =>
    let x := x.setUnit isl (fun u => { u with fails := recent u ++ [s.now], failOps := day u ++ [s.opSeconds] })
    let c : EngCtr := Tbl.getD x.engCtr isl {}
    let c := { c with cmpFail := satAdd 16 c.cmpFail 1, rerun := satAdd 16 c.rerun (b2n away) }
    { x with engCtr := Tbl.put x.engCtr isl c })
  let s := if out then s.leaveActive w isl .selftest 0x05 else s
  let x := s.twin w
  let inSec := x.units.foldl (fun (n : Nat) (e : Nat × UnitRec) =>
    n + (if isEngine e.1 then e.2.fails.countP (fun f => decide (s.now < f + 4000000000)) else 0)) 0
  if 4 < inSec ∨ x.activesIn w isl = 0 then s.cause w 0x02 isl else s

end Sys2Proof.Machine
end

