-- ==== Sys2Proof/Machine/Almanac.lean ====
section
/-! DEFINITION. The Almanac: records, chaining, merging, the two regions, the fill of the evidence region, draw groups
and the cursor window (R58, R59, R323 to R325, R370 to R385). -/

namespace Sys2Proof.Machine

/-- Bytes 0 to 47 of a record (Table 16-1). -/
def AlmRec.body (r : AlmRec) : Bytes :=
  toLe 2 r.id ++ [byte r.sev, byte r.origin] ++ toLe 4 r.pcycle ++ toLe 5 r.ops ++ toLe 3 r.rpt ++ toLe 8 r.first ++
  toLe 8 r.last ++ fixLen 16 r.detail

/-- A record of 64 bytes. -/
def AlmRec.bytes (r : AlmRec) : Bytes := r.body ++ fixLen 16 r.chain

/-- The seed of a region's chain (R377). -/
def regionSeed (evid : Bool) : Bytes := (sha256 ([0x50, 0x58, 0x41, 0x4C, byte (b2n evid)] ++ serialBytes)).take 16

/-- A region (R376). -/
def State.reg (s : State) (evid : Bool) : AlmReg := if evid then s.alm.ev else s.alm.gen

/-- The state with a region replaced. -/
def State.setReg (s : State) (evid : Bool) (g : AlmReg) : State :=
  if evid then { s with alm := { s.alm with ev := g } } else { s with alm := { s.alm with gen := g } }

/-- `ALM_OLDEST` of a region. -/
def State.oldest (s : State) (evid : Bool) : Nat := if evid then 0 else s.alm.gen.oldest

/-- The sequence number before another, modulo 2^32 (R376). -/
def seqPrev (n : Nat) : Nat := (n + 2 ^ 32 - 1) % 2 ^ 32

/-- The chain value of the record with sequence number `n`: number 0 follows the region seed (R377). -/
def AlmReg.chainOf (g : AlmReg) (evid : Bool) (n : Nat) (r : AlmRec) : Bytes :=
  let prev := if n = 0 then regionSeed evid else (Tbl.getD g.recs (seqPrev n) {}).chain
  (sha256 (prev ++ r.body)).take 16

/-- A record appended, or merged into the newest one where that is allowed (R374 to R377). The ring erases its oldest unit
of 1,024 records before a record goes to a unit that still holds any; the last record erased stays behind, unreadable, for
the chain value that an export begins with (R386). -/
def State.appendRaw (s : State) (evid : Bool) (r : AlmRec) (merge : Bool) : State :=
  let g := s.reg evid
  let top := seqPrev g.next
  match Tbl.find? g.recs top with
  | some e =>
    if merge ∧ g.next ≠ s.oldest evid ∧ e.merges r then
      let e := { e with rpt := e.rpt + 1, last := r.last }
      s.setReg evid { g with recs := Tbl.put g.recs top { e with chain := g.chainOf evid top e }, pend := true }
    else put s evid g r
  | none => put s evid g r
where
  /-- A record appended as a new one; a merge that awaits its write is written first (R375). -/
  put (s : State) (evid : Bool) (g : AlmReg) (r : AlmRec) : State :=
    let full := !evid && (g.next + 2 ^ 32 - g.oldest) % 2 ^ 32 == 1048576
    let g := if full then
      { g with recs := (List.range 1024).foldl (fun (t : Tbl AlmRec) i => Tbl.del t ((g.oldest + i + (2 ^ 32 - 1)) % 2 ^ 32)) g.recs
               oldest := (g.oldest + 1024) % 2 ^ 32 } else g
    s.setReg evid { g with recs := Tbl.put g.recs g.next { r with chain := g.chainOf evid g.next r }
                           next := (g.next + 1) % 2 ^ 32, pend := false
                           lastWr := if g.pend then some s.now else g.lastWr }

/-- A swap whose epoch has not come is cancelled by LOCK (R470): the shadow stays validated. -/
def State.cancelSwap (s : State) : State :=
  match s.nvm.swap with
  | some (e, _) => (s.updStores (fun st => { st with swap := none })).event 0x2004 sevEvid 3 (toLe 8 e)
  | none => s

/-- LOCK entered now with main power on: compartment requests in service end with the status of Table 8-4, the approvals
go, and the entry is recorded (R163, R196, R363, Table 15-5). -/
def State.lockNow (s : State) (cause status origin : Nat) : State :=
  let was := s.tamper.lock
  let s := (s.abortWhere (fun _ _ r => r.space != adminSpace) status).enterLock cause
  if was then s else (s.event 0x7F00 sevEvid origin ([1, 0] ++ List.replicate 14 0xFF)).cancelSwap

/-- The last ordinary evidence position taken: `EVIDENCE_FULL` at position 130,816, and LOCK (R382). -/
def State.evidenceFull (s : State) : State :=
  let r := s.ownRec 0x0003 sevEvid (toLe 4 130815)
  let s := { r.2 with alm := { r.2.alm with full := true } }
  (s.appendRaw true r.1 false).lockNow 2 stLocked 3

/-- The one record of the high-water mark (R381): while a draw reservation is open it waits behind the group as every evidence
record does (R323). -/
def State.highWater (s : State) : State :=
  if 16384 < s.evidenceFree ∨ s.alm.highDone then s
  else
    let s := { s with alm := { s.alm with highDone := true } }
    let d := toLe 4 s.evidenceFree
    if s.alm.draws.isEmpty then
      let r := s.ownRec 0x0002 sevEvid d
      r.2.appendRaw true r.1 false
    else s.event 0x0002 sevEvid 3 d

/-- What follows an append to the evidence region (R381, R382): the high-water record, and the full region once position 130,815
is taken. -/
def State.afterEv (s : State) : State :=
  let s := s.highWater
  if s.alm.ev.next = 130816 then s.evidenceFull else s

/-- An evidence record appended (R381, R382): past the reserve one that does not merge is only counted. -/
def State.appendEv (s : State) (r : AlmRec) (merge : Bool) : State :=
  if 131072 ≤ s.alm.ev.next ∧ ¬ (merge ∧ (Tbl.find? s.alm.ev.recs (seqPrev s.alm.ev.next)).any (fun e => e.merges r)) then { s with alm := { s.alm with unwritten := satAdd 32 s.alm.unwritten 1 } }
  else (s.appendRaw true r merge).afterEv

/-- A received record appended to its region. -/
def State.appendReq (s : State) (e : EvReq) : State :=
  if e.sev = sevEvid then s.appendEv (s.recOf e) true else s.appendRaw false (s.recOf e) true

/-- The draw groups whose records are known, written in the order of their numbers, each without a break (R324, R325). -/
def State.flushDraws : Nat → State → State
  | 0, s => s
  | k + 1, s =>
    match List.find? (fun (d : Nat × (Nat × Nat × Option (List EvReq))) => d.2.1 == s.alm.ev.next) s.alm.draws with
    | some (q, _, _, some g) =>
      let s := { s with alm := { s.alm with draws := Tbl.del s.alm.draws q } }
      State.flushDraws k (g.foldl (fun s e => s.appendRaw true (s.recOf e) false) s).afterEv
    | _ => s

/-- Every group that can be written is (R324). -/
def State.writeDraws (s : State) : State := s.flushDraws s.alm.draws.length

/-- The draw group of a reservation filled when the first end record reaches the Relay (R324, R325). -/
def State.fillDraws (s : State) (w : Twin) (q : Nat) (id comp : Nat) (e : EndRec) : State :=
  match Tbl.find? s.alm.draws q with
  | some (first, n, none) =>
    let own := (e.evs.filter (fun r => r.id / 256 == 0x81)).map (fun r => { r with stamp := e.stamp, origin := twinCode w })
    let g := if e.commits then own else voidGroup n (twinCode w) e.stamp id comp e.status
    ({ s with alm := { s.alm with draws := Tbl.put s.alm.draws q (first, n, some g) } }).writeDraws
  | _ => s

/-- Whether the Relay's firmware keeps the Almanac (R450, R452): it runs, and the storage key has not gone (R395, R397). -/
def State.almRuns (s : State) : Bool := s.boot.up && !s.boot.inRom && !s.life.keyBlown

/-- The front of the evidence queue appended, unless a reservation is open (R323, R378); the producer that has waited longest
then finds room (R380). -/
def State.takeEvidence (s : State) : State :=
  if ¬ s.alm.draws.isEmpty then s else
    match s.alm.ev.queue with
    | [] => s
    | e :: l => ({ s with alm := { s.alm with ev := { s.alm.ev with queue := l ++ s.alm.waiting.take 1 }
                                              waiting := s.alm.waiting.drop 1 } }).appendReq e

/-- The evidence queue appended as a whole, with what waits for room in it. -/
def State.drainEvidence (s : State) : State :=
  (List.range (s.alm.ev.queue.length + s.alm.waiting.length)).foldl (fun s _ => s.takeEvidence) s

/-- `ALMANAC_APPEND` (R378, R379): the Relay appends one received record, and after it the count of the general records
lost, when there are any. -/
def execAlmanacAppend (t : Nat) (region : Region) (s : State) : Host.Outcome State Fault Refusal :=
  ev t (fun s => if ¬ s.almRuns then s else
    match region with
    | .evidence => s.writeDraws.takeEvidence
    | .general =>
      match s.alm.gen.queue with
      | [] => s
      | e :: l =>
        let s := ({ s with alm := { s.alm with gen := { s.alm.gen with queue := l } } }).appendReq e
        if s.alm.dropped = 0 then s else
          let r := s.ownRec 0x0001 sevWarn (toLe 4 s.alm.dropped)
          ({ r.2 with alm := { r.2.alm with dropped := 0 } }).appendRaw false r.1 true) s

/-- `MERGE_WRITE` (R375): a pending merge is written to NVM at most once per millisecond. -/
def execMergeWrite (t : Nat) (region : Region) (s : State) : Host.Outcome State Fault Refusal :=
  ev t (fun s =>
    let evid := region == .evidence
    let g := s.reg evid
    if g.pend ∧ g.lastWr.all (fun n => decide (n + 4000000 ≤ s.now)) ∧ s.almRuns then
      s.setReg evid { g with pend := false, lastWr := some s.now }
    else s) s

/-- `OP_SECONDS_RECORD` (R373): every 64 s the count goes to NVM. -/
def execOpSecondsRecord (t : Nat) (s : State) : Host.Outcome State Fault Refusal :=
  ev t (fun s =>
    if s.boot.up ∧ s.alm.opsNvm + 64 ≤ s.opSeconds then { s with alm := { s.alm with opsNvm := s.opSeconds } } else s) s

/-- Whether a number is older than the oldest record (R376): none is in the evidence region. -/
def State.older (s : State) (evid : Bool) (n : Nat) : Bool :=
  !evid && decide (2 ^ 31 ≤ (n + 2 ^ 32 - s.alm.gen.oldest) % 2 ^ 32)

/-- A read of records at one moment (R58, R384, R385): whether the start was clamped, the first number, and the
records. Without the storage key none can be read (R395). -/
def State.almRead (s : State) (evid : Bool) (n count : Nat) : Bool × Nat × List Bytes :=
  if s.life.keyBlown then (false, n, []) else
  let c := s.older evid n
  let first := if c then s.oldest evid else n
  let off := fun (k : Nat) => (k + 2 ^ 32 - s.oldest evid) % 2 ^ 32
  let have_ := off (s.reg evid).next - off first
  (c, first, (List.range (min count have_)).map (fun i =>
    (Tbl.getD (s.reg evid).recs ((first + i) % 2 ^ 32) {}).bytes))

/-- A write to `ALM_CURSOR` starts, or restarts, a load of the window (R58, R59). -/
def State.writeCursor (s : State) (v : Nat) : State :=
  { s with win := { s.win with cursor := BitVec.ofNat 32 v, loading := true, loadReg := s.win.region } }

/-- `ALM_WINDOW_LOADED` (R59): the window becomes a snapshot of up to 64 records. -/
def execAlmWindowLoaded (t : Nat) (s : State) : Host.Outcome State Fault Refusal :=
  ev t (fun s =>
    if s.win.loading then
      let r := s.almRead s.win.loadReg s.win.cursor.toNat 64
      { s with win := { s.win with loading := false, clamped := r.1, valid := r.2.2.length, recs := r.2.2 } }
    else s) s

end Sys2Proof.Machine
end

