-- ==== Sys2Proof/Machine/Host.lean ====
section
/-! DEFINITION. The host interface: BAR0 registers, mailboxes, doorbells, reply rings, MSI-X, the PCIe function resets and
PTM (R36 to R59). -/

namespace Sys2Proof.Machine

/-- The key of a mailbox in the table of mailboxes. -/
def mbxKey (fn i : Nat) : Nat := 4096 * fn + i

/-- A mailbox of a function. -/
def State.mbx (s : State) (fn i : Nat) : Mbx := Tbl.getD s.mbxs (mbxKey fn i) {}

/-- A mailbox changed. -/
def State.updMbx (s : State) (fn i : Nat) (f : Mbx → Mbx) : State :=
  { s with mbxs := Tbl.put s.mbxs (mbxKey fn i) (f (s.mbx fn i)) }

/-- A function of the endpoint. -/
def State.fn (s : State) (n : Nat) : Fn := Tbl.getD s.fns n {}

/-- A function changed. -/
def State.updFn (s : State) (n : Nat) (f : Fn → Fn) : State := { s with fns := Tbl.put s.fns n (f (s.fn n)) }

/-- Whether a function is there: the Relay is out of reset, the link is up, boundary scan does not isolate the pads, and a
virtual function is enabled (R36, R37, R55, R406). -/
def State.fnOn (s : State) (n : Nat) : Bool := s.boot.up && s.linkUp && !s.isolated && (n == 0 || (s.fn n).enabled)

/-- The identity of a function in configuration space (R36, Table 3-1): vendor, device, revision and class code. -/
structure PciId where
  vendor   : Nat := 0x1F6D
  device   : Nat
  revision : Nat := 0xB0
  cls      : Nat := 0x108000
  deriving DecidableEq, Repr

/-- The identity of the physical function or of a virtual function. -/
def pciId (fn : Nat) : PciId := { device := if fn = 0 then 0x0920 else 0x0921 }

/-- A capability of Table 3-1. -/
inductive PciCap where
  | express
  | powerManagement
  | msix
  | advancedError
  | sriov
  | ptm
  deriving DecidableEq, Repr

/-- The capabilities in a function's lists; what Table 3-1 does not list is absent (R36). SR-IOV and PTM stand in the physical
function (R34, R46). -/
def pciCaps (fn : Nat) : List PciCap :=
  [.express, .powerManagement, .msix, .advancedError] ++ (if fn = 0 then [.sriov, .ptm] else [])

/-- The ID and the place of a capability in configuration space (assumption 197). -/
def PciCap.at_ : PciCap → Nat × Nat
  | .express => (0x10, 0x40)
  | .powerManagement => (0x01, 0x80)
  | .msix => (0x11, 0xB0)
  | .advancedError => (0x01, 0x100)
  | .sriov => (0x10, 0x140)
  | .ptm => (0x1F, 0x180)

/-- The sizes that the endpoint takes (Table 3-1): a maximum payload of 128 to 512 bytes and a read request of 128 to 4,096. -/
def PciFn.legal (p : PciFn) : Bool :=
  [128, 256, 512].contains p.mps && [128, 256, 512, 1024, 2048, 4096].contains p.mrrs

/-- The binary logarithm of a size over 128 bytes, as the Device Control register codes it. -/
def sizeCode (n : Nat) : Nat := ((List.range 6).find? (fun k => 128 * 2 ^ k == n)).getD 0

/-- The header word of a capability: its ID and the place of the next one in the function's lists, which begin anew at the
extended ones. -/
def capHeader (fn : Nat) (c : PciCap) : Nat :=
  let low := fun (d : PciCap) => decide (d.at_.2 < 0x100)
  let rest := ((pciCaps fn).dropWhile (fun d => d != c)).drop 1
  let next := match rest.find? (fun d => low d == low c) with | some d => d.at_.2 | none => 0
  if low c then c.at_.1 + 256 * next else c.at_.1 + 65536 + 1048576 * next

/-- A 32-bit word of a function's configuration space (Table 3-1; assumption 197). -/
def State.cfgRead (s : State) (fn off : Nat) : Nat :=
  let f := s.fn fn
  let p := f.pci
  let id := pciId fn
  match off with
  | 0x00 => id.vendor + 65536 * id.device
  | 0x08 => id.revision + 256 * id.cls
  | 0x10 => p.bar0.toNat % 2 ^ 32 / 65536 * 65536 + 4
  | 0x14 => p.bar0.toNat / 2 ^ 32
  | 0x18 => p.bar2.toNat % 2 ^ 32 / 65536 * 65536 + 4
  | 0x1C => p.bar2.toNat / 2 ^ 32
  | 0x34 => PciCap.express.at_.2
  | 0x48 => 32 * sizeCode p.mps + 4096 * sizeCode p.mrrs
  | 0x50 => 2 * b2n p.aspmL1
  | 0x84 => 3 * b2n f.d3hot
  | 0xB0 => capHeader fn .msix + (f.vecSize - 1) * 65536 + b2n p.fnMask * 2 ^ 30 + b2n p.msixEn * 2 ^ 31
  | 0xB4 => 2
  | 0xB8 => 0x8002
  | 0x104 => p.aerUnc.toNat
  | 0x110 => p.aerCor.toNat
  | 0x118 => 0x20 + 0x40 * b2n p.ecrcGen + 0x80 + 0x100 * b2n p.ecrcChk
  | 0x148 => if fn = 0 then b2n (s.fns.any (fun (e : Nat × Fn) => e.1 != 0 && e.2.enabled)) else 0
  | 0x188 => if fn = 0 then b2n s.ptm.en else 0
  | o => match (pciCaps fn).find? (fun c => c.at_.2 == o) with | some c => capHeader fn c | none => 0

/-- `STATE` (Table 3-5). -/
def mbxStateCode : MbxState → Nat
  | .disabled => 0
  | .enabled => 1
  | .draining => 2
  | .error => 3

/-- `MBX_COUNT` of a function under the active set (Table 3-3). -/
def State.mbxCount (s : State) (fn : Nat) : Nat := s.nvm.activeSet.mbxCount fn

/-- The index that a function's window selects, when it is below `MBX_COUNT` (R43). -/
def State.selected (s : State) (fn : Nat) : Option Nat :=
  let i := (s.fn fn).mbxSel.toNat
  if i < s.mbxCount fn then some i else none

/-- Ring sizes (Table 3-5). -/
def Mbx.sqSize (m : Mbx) : Nat := 2 ^ bits m.cfg.toNat 20 16
/-- Reply ring entries. -/
def Mbx.rqSize (m : Mbx) : Nat := 2 ^ bits m.cfg.toNat 28 24
/-- Submission entry size in bytes. -/
def Mbx.stride (m : Mbx) : Nat := if bit m.cfg.toNat 29 then 256 else 64
/-- `VEC_EN`. -/
def Mbx.vecEn (m : Mbx) : Bool := bit m.cfg.toNat 11
/-- `VECTOR`. -/
def Mbx.vector (m : Mbx) : Nat := bits m.cfg.toNat 10 0
/-- `COUNT`. -/
def Mbx.count (m : Mbx) : Nat := bits m.coal.toNat 7 0
/-- `TIME_US`. -/
def Mbx.timeUs (m : Mbx) : Nat := bits m.coal.toNat 31 16

/-- `MBX_STAT` (Table 3-5). -/
def Mbx.stat (m : Mbx) : Nat := mbxStateCode m.state * 2 ^ 30 + m.errs.toNat

/-- A package's version, as the version registers give it (Table 3-2, Table 10-1). -/
def Slot.version (x : Slot) (fw : Bool) : Nat :=
  match x.shipped with
  | 1 => 0x02040000 + (Config.build 1).toNat
  | 2 => 0x03010000 + (Config.build 2).toNat
  | 3 => 0x05000000 + (Config.build 3).toNat
  | 4 => 0x01020000 + (Config.build 4).toNat
  | _ => fld x.data (if fw then 8 else 12) 4

/-- The version of an image in force for a request accepted now; 0 when it has none. -/
def Store.imageVersion (st : Store) (img now : Nat) : Nat := (st.imageSlot img now).elim 0 (fun x => x.version false)

/-- The version of an image that runs on the active twin (R41): what that twin has loaded. While none is active it is the one
that NVM holds in force (assumption 195). -/
def State.imageVersion (s : State) (img : Nat) : Nat :=
  match s.active with
  | some w => (s.twin w).store.imageVersion img s.now
  | none => s.nvm.imageVersion img s.now

/-- A 32-bit word of BAR0 at an offset that is a multiple of 4 (Table 3-2). Window words past `VALID` read 0
(assumption 170). DESIGN CHOICE: until the boot has chosen Zenith's slot, which the spec says nothing of, `ID_ZENITH_FW` reads the
version in slot 0 (assumption 195). -/
def State.reg32 (s : State) (fn off : Nat) : Nat :=
  let lo := fun (v : Nat) => v % 2 ^ 32
  let hi := fun (v : Nat) => v / 2 ^ 32 % 2 ^ 32
  let pf := fun (v : Nat) => if fn = 0 then v else 0
  let pair := fun (v : Nat) => if s.ptm.valid then pf v else 0
  let win := fun (f : Nat → Mbx → Nat) => match s.selected fn with | some i => f i (s.mbx fn i) | none => 0
  let ser := Config.serial.toNat
  match off with
  | 0x0000 => 0x0009B000 + Config.grade.toNat
  | 0x0004 => (s.nvm.comp1.slot s.boot.relaySlot).version true
  | 0x0008 => (s.nvm.comp2.slot s.boot.zenSlot).version true
  | 0x000C => s.imageVersion 1
  | 0x0010 => s.imageVersion 2
  | 0x0014 => s.mbxCount fn * 65536 + b2n (fn != 0) * 256 + fn % 256
  | 0x0018 => lo ser
  | 0x001C => hi ser
  | 0x0020 => s.modState
  | 0x0024 => s.attention
  | 0x0028 => s.pcycle
  | 0x0030 => lo s.now
  | 0x0034 => hi s.now
  | 0x0040 => pf s.ptm.ctrl.toNat
  | 0x0044 => pf (b2n s.ptm.valid * 2 ^ 31 + s.ptm.seq)
  | 0x0048 => pair (lo s.ptm.mOld)
  | 0x004C => pair (hi s.ptm.mOld)
  | 0x0050 => pair (lo s.ptm.hOld)
  | 0x0054 => pair (hi s.ptm.hOld)
  | 0x0058 => pair (lo s.ptm.mNew)
  | 0x005C => pair (hi s.ptm.mNew)
  | 0x0060 => pair (lo s.ptm.hNew)
  | 0x0064 => pair (hi s.ptm.hNew)
  | 0x0100 => (s.fn fn).mbxSel.toNat
  | 0x0104 => win (fun i _ => match s.nvm.activeSet.mbox? fn i with
      | some m => 2 ^ 31 + b2n (fn == 0 && i == 0) * 2 ^ 30 + m.comp % 1024 * 65536 + m.lane % 8
      | none => 0)
  | 0x0108 => win (fun _ m => m.cfg.toNat)
  | 0x010C => win (fun _ m => m.coal.toNat)
  | 0x0110 => win (fun _ m => lo m.sqBase.toNat)
  | 0x0114 => win (fun _ m => hi m.sqBase.toNat)
  | 0x0118 => win (fun _ m => lo m.rqBase.toNat)
  | 0x011C => win (fun _ m => hi m.rqBase.toNat)
  | 0x0120 => win (fun _ m => m.stat)
  | 0x0124 => win (fun _ m => m.infl)
  | 0x0C00 => pf (b2n s.win.region)
  | 0x0C04 => pf s.win.cursor.toNat
  | 0x0C08 => pf (s.oldest s.win.region)
  | 0x0C0C => pf (s.reg s.win.region).next
  | 0x0C10 => pf (b2n s.win.loading * 2 ^ 31 + b2n s.win.clamped * 2 ^ 30 + s.win.valid)
  | o =>
    if 0x1000 ≤ o ∧ o < 0x2000 then
      pf (if s.win.loading then 0xFFFFFFFF else fld (s.win.recs.getD ((o - 0x1000) / 64) []) (o % 64) 4)
    else if 0x4000 ≤ o ∧ o < 0x8000 then
      let i := (o - 0x4000) / 4
      if (s.nvm.activeSet.mbox? fn i).isSome then mbxStateCode (s.mbx fn i).state * 2 ^ 30 + (s.mbx fn i).sqHead else 0
    else if 0x8000 ≤ o then
      let i := (o - 0x8000) / 8
      if (s.nvm.activeSet.mbox? fn i).isSome then
        (if o % 8 = 0 then (s.mbx fn i).sqTail else (s.mbx fn i).rqHead) else 0
    else 0

/-- A 32-bit word of BAR2 (Table 3-1): the MSI-X table from offset 0x0000, four words to a vector, and the pending bit array
from 0x8000. -/
def State.bar2 (s : State) (fn off : Nat) : Nat :=
  let f := s.fn fn
  let v := off / 16
  let e := Tbl.getD f.pci.vecs v (0, 0)
  if off < 0x8000 then
    if f.vecSize ≤ v then 0
    else match off % 16 / 4 with
      | 0 => e.1.toNat % 2 ^ 32
      | 1 => e.1.toNat / 2 ^ 32
      | 2 => e.2.toNat
      | _ => b2n (!f.unmasked.contains v)
  else (f.pends.filter (fun p => p / 32 == (off - 0x8000) / 4)).foldl (fun n p => n + 2 ^ (p % 32)) 0

/-- Whether an offset is the low word of a 64-bit register (Table 3-2). -/
def wideReg (off : Nat) : Bool :=
  [0x0018, 0x0030, 0x0048, 0x0050, 0x0058, 0x0060, 0x0110, 0x0118].contains off

/-- Whether an access is 32-bit or 64-bit and naturally aligned (R41). -/
def accessOk (off width : Nat) : Bool := (width == 4 || width == 8) && off % width == 0

/-- A BAR0 read: the value, and the latch that a 32-bit read of a low word leaves (R41). -/
def State.barRead (s : State) (fn off width : Nat) : Nat × State :=
  if ¬ accessOk off width then (0, s)
  else if width = 8 then (s.reg32 fn off + 2 ^ 32 * s.reg32 fn (off + 4), s)
  else if wideReg off then
    (s.reg32 fn off, s.updFn fn (fun f => { f with latch := Tbl.put f.latch off (BitVec.ofNat 32 (s.reg32 fn (off + 4))) }))
  else
    match Tbl.find? (s.fn fn).latch (off - 4) with
    | some v =>
      if 4 ≤ off then (v.toNat, s.updFn fn (fun f => { f with latch := Tbl.del f.latch (off - 4) })) else (s.reg32 fn off, s)
    | none => (s.reg32 fn off, s)

/-- The first offset past what a function's commands reach: BAR0, BAR2 from 0x10000 on, and the configuration space from 0x20000
on (assumption 197). -/
abbrev hostLimit : Nat := 0x21000

/-- A read of BAR2 or of the configuration space, word by word (R36). -/
def State.otherRead (s : State) (fn off width : Nat) : Nat :=
  let word := fun (o : Nat) => if o < 0x20000 then s.bar2 fn (o - 0x10000) else s.cfgRead fn (o - 0x20000)
  if ¬ accessOk off width then 0 else word off + (if width = 8 then 2 ^ 32 * word (off + 4) else 0)

/-- `HIGH_WORD_LATCH_READ` (R36, R41): a read of a function's registers. An offset past them is no address of the function. -/
def execHighWordLatchRead (t fn off width : Nat) (s : State) : Host.Outcome State Fault Refusal :=
  if hostLimit ≤ off then .fault .outsideBar0
  else ev t (fun s =>
    if ¬ s.fnOn fn then s
    else if off < 0x10000 then
      let r := s.barRead fn off width
      { r.2 with out := r.2.out ++ [.barRead fn off r.1] }
    else { s with out := s.out ++ [.barRead fn off (s.otherRead fn off width)] }) s

/-- A mailbox error bit set by hardware (Table 3-5). -/
def Mbx.err (m : Mbx) (now i : Nat) : Mbx :=
  { m with errs := m.errs ||| (1#6 <<< i), fresh := (if m.freshAt = now then m.fresh else 0) ||| (1#6 <<< i), freshAt := now }

/-- Error bits written 1 clear, but for those set in this very unit of time (R6, R8; assumption 168). -/
def Mbx.clearErrs (m : Mbx) (now : Nat) (v : BitVec 6) : Mbx :=
  { m with errs := m.errs &&& ~~~(v &&& ~~~(if m.freshAt = now then m.fresh else 0)) }

/-- Whether a vector's message may go: MSI-X is enabled, and neither the function nor the vector is masked (R54, PCIe 5.0). -/
def Fn.open_ (f : Fn) (v : Nat) : Bool := f.pci.msixEn && !f.pci.fnMask && f.unmasked.contains v

/-- The message of a vector: the address and data of its entry in the MSI-X table (Table 3-1). -/
def Fn.message (f : Fn) (fn v : Nat) : Output :=
  let e := Tbl.getD f.pci.vecs v (0, 0)
  .msix fn v e.1 e.2

/-- A function's vector sent, or set pending while it is masked (R54). -/
def State.sendVector (s : State) (fn v : Nat) : State :=
  let f := s.fn fn
  if f.vecSize ≤ v then s
  else if f.open_ v then { s with out := s.out ++ [f.message fn v] }
  else if f.pends.contains v then s
  else s.updFn fn (fun f => { f with pends := f.pends ++ [v] })

/-- The vector of a mailbox's unsignalled replies sent (R54). -/
def State.signal (s : State) (fn i : Nat) : State :=
  let m := s.mbx fn i
  (s.updMbx fn i (fun m => { m with unsig := 0 })).sendVector fn m.vector

/-- A draining mailbox whose accepted requests are all replied becomes disabled, and signals what is left (R47, R54). An
entry fetched and not yet accepted holds it (assumption 32). -/
def State.drained (s : State) (fn i : Nat) : State :=
  let m := s.mbx fn i
  if m.state = .draining ∧ m.infl = 0 ∧ ¬ s.ingress.any (fun e => e.fn == fn && e.idx == i) then
    let s := s.updMbx fn i (fun m => { m with state := .disabled })
    if m.vecEn ∧ m.unsig ≠ 0 then s.signal fn i else s
  else s

/-- An ordinary disable of a mailbox (R40, R47). -/
def State.disableMbx (s : State) (fn i : Nat) : State :=
  match (s.mbx fn i).state with
  | .enabled | .error =>
    (s.updMbx fn i (fun m => { m with state := .draining, cfg := m.cfg &&& 0x7FFFFFFF#32 })).drained fn i
  | _ => s

/-- The fields of `MBX_CFG` that are not reserved. -/
abbrev cfgMask : BitVec 32 := 0xBF1F0FFF

/-- Whether an enable is refused (R44). -/
def State.enableBad (s : State) (fn i : Nat) (m : Mbx) : Bool :=
  (s.nvm.activeSet.mbox? fn i).isNone ||
  decide (bits m.cfg.toNat 20 16 < 6) || decide (16 < bits m.cfg.toNat 20 16) ||
  decide (bits m.cfg.toNat 28 24 < 6) || decide (16 < bits m.cfg.toNat 28 24) ||
  (m.vecEn && decide ((s.fn fn).vecSize ≤ m.vector)) || (decide (1 < m.count) && m.timeUs == 0)

/-- A write of `MBX_CFG` (R44, R45, R47). A refused enable keeps the other fields written (assumption 33), and `EN` = 1 with
no other change does nothing in a mailbox that is draining (assumption 169). -/
def State.writeCfg (s : State) (fn i : Nat) (v : BitVec 32) : State :=
  let m := s.mbx fn i
  let v := v &&& cfgMask
  if m.state ≠ .disabled then
    if (v ^^^ m.cfg) &&& 0x7FFFFFFF#32 ≠ 0 then s.updMbx fn i (fun m => m.err s.now 4)
    else if v.getLsbD 31 then s else s.disableMbx fn i
  else
    let m := { m with cfg := v &&& 0x7FFFFFFF#32 }
    if ¬ v.getLsbD 31 then s.updMbx fn i (fun _ => m)
    else if s.enableBad fn i m then s.updMbx fn i (fun _ => m.err s.now 4)
    else s.updMbx fn i (fun _ =>
      { m with cfg := v, state := .enabled, sqTail := 0, sqHead := 0, rqHead := 0, slot := 0, written := 0,
               phase := true, unsig := 0, firstUnsig := s.now })

/-- A mailbox register that only a disabled mailbox lets be written (R44). -/
def State.writeIdle (s : State) (fn i : Nat) (f : Mbx → Mbx) : State :=
  s.updMbx fn i (fun m => if m.state = .disabled then f m else m.err s.now 4)

/-- A doorbell write (R48, R49, Table 3-6). -/
def State.doorbell (s : State) (fn i v : Nat) : State :=
  if (s.nvm.activeSet.mbox? fn i).isNone then s else
    s.updMbx fn i (fun m =>
      let v := v % 65536
      let n := m.sqSize
      if m.state ≠ .enabled then m.err s.now 1
      else if n ≤ v ∨ (v + n - m.sqHead) % n < (m.sqTail + n - m.sqHead) % n then { m.err s.now 3 with state := .error }
      else { m with sqTail := v })

/-- A write of `RQ_HEAD` (R53). -/
def State.freeReplies (s : State) (fn i v : Nat) : State :=
  if (s.nvm.activeSet.mbox? fn i).isNone then s else
    s.updMbx fn i (fun m =>
      let v := v % 65536
      let n := m.rqSize
      if n ≤ v then m.err s.now 5
      else { m with rqHead := v, written := m.written - ((v + n - m.rqHead) % n : Nat) })

/-- The low or high half of a 64-bit register replaced. -/
def halfOf (old : BitVec 64) (high : Bool) (v : Nat) : BitVec 64 :=
  BitVec.ofNat 64 (if high then old.toNat % 2 ^ 32 + v * 2 ^ 32 else old.toNat / 2 ^ 32 * 2 ^ 32 + v)

/-- A 32-bit write to BAR0 (R41 to R44, R48, R53, R58, Table 3-2), reserved bits discarded. -/
def State.write32 (s : State) (fn off val : Nat) : State :=
  let v := val % 2 ^ 32
  let win := fun (f : Nat → State) => match s.selected fn with | some i => f i | none => s
  let base := fun (b : BitVec 64) => b &&& 0xFFFFFFFFFFFFF000#64
  match off with
  | 0x0040 =>
    let n := v % 1024
    if fn = 0 ∧ 1 ≤ n ∧ n ≤ 1000 then { s with ptm := { s.ptm with ctrl := BitVec.ofNat 32 n } } else s
  | 0x0100 => s.updFn fn (fun f => { f with mbxSel := BitVec.ofNat 12 v })
  | 0x0108 => win (fun i => s.writeCfg fn i (BitVec.ofNat 32 v))
  | 0x010C => win (fun i => s.writeIdle fn i (fun m => { m with coal := BitVec.ofNat 32 v &&& 0xFFFF00FF#32 }))
  | 0x0110 => win (fun i => s.writeIdle fn i (fun m => { m with sqBase := base (halfOf m.sqBase false v) }))
  | 0x0114 => win (fun i => s.writeIdle fn i (fun m => { m with sqBase := base (halfOf m.sqBase true v) }))
  | 0x0118 => win (fun i => s.writeIdle fn i (fun m => { m with rqBase := base (halfOf m.rqBase false v) }))
  | 0x011C => win (fun i => s.writeIdle fn i (fun m => { m with rqBase := base (halfOf m.rqBase true v) }))
  | 0x0120 => win (fun i => s.updMbx fn i (fun m => m.clearErrs s.now (BitVec.ofNat 6 v)))
  | 0x0C00 => if fn = 0 then { s with win := { s.win with region := bit v 0 } } else s
  | 0x0C04 => if fn = 0 then s.writeCursor v else s
  | o =>
    if 0x8000 ≤ o then
      if o % 8 = 0 then s.doorbell fn ((o - 0x8000) / 8) v else s.freeReplies fn ((o - 0x8000) / 8) v
    else s

/-- A BAR0 write: 32 bits, or 64 bits as the low word and then the high word (R41, assumption 34). -/
def State.barWrite (s : State) (fn off width val : Nat) : State :=
  if ¬ accessOk off width then s
  else if width = 8 then (s.write32 fn off val).write32 fn (off + 4) (val / 2 ^ 32)
  else s.write32 fn off val

/-- The pending vectors of a function that may go now, sent (R54). -/
def State.flushVectors (s : State) (fn : Nat) : State :=
  let f := s.fn fn
  let now_ := f.pends.filter f.open_
  { s.updFn fn (fun f => { f with pends := f.pends.filter (fun v => !f.open_ v) }) with
    out := s.out ++ now_.map (f.message fn) }

/-- A 32-bit write to BAR2 (Table 3-1): an MSI-X table entry; clearing a vector's mask bit sends its pending message (R54). The
pending bits are read-only. -/
def State.writeBar2 (s : State) (fn off v : Nat) : State :=
  let n := off / 16
  if 0x8000 ≤ off ∨ (s.fn fn).vecSize ≤ n then s
  else
    let entry := fun (g : BitVec 64 × BitVec 32 → BitVec 64 × BitVec 32) =>
      s.updFn fn (fun f => { f with pci := { f.pci with vecs := Tbl.put f.pci.vecs n (g (Tbl.getD f.pci.vecs n (0, 0))) } })
    match off % 16 / 4 with
    | 0 => entry (fun e => (halfOf e.1 false (v / 4 * 4), e.2))
    | 1 => entry (fun e => (halfOf e.1 true v, e.2))
    | 2 => entry (fun e => (e.1, BitVec.ofNat 32 v))
    | _ =>
      let rest := (s.fn fn).unmasked.filter (fun u => u != n)
      (s.updFn fn (fun f => { f with unmasked := if bit v 0 then rest else rest ++ [n] })).flushVectors fn

/-- A 32-bit write to a function's configuration space (R36, Table 3-1; assumption 197): a size that the endpoint does not take
leaves the field as it was, and the error status bits clear where 1 is written. -/
def State.cfgWrite (s : State) (fn off v : Nat) : State :=
  let pci := fun (g : PciFn → PciFn) => s.updFn fn (fun f => { f with pci := g f.pci })
  match off with
  | 0x10 => pci (fun p => { p with bar0 := halfOf p.bar0 false (v / 65536 * 65536) })
  | 0x14 => pci (fun p => { p with bar0 := halfOf p.bar0 true v })
  | 0x18 => pci (fun p => { p with bar2 := halfOf p.bar2 false (v / 65536 * 65536) })
  | 0x1C => pci (fun p => { p with bar2 := halfOf p.bar2 true v })
  | 0x48 => pci (fun p =>
      let new_ := { p with mps := 128 * 2 ^ bits v 7 5, mrrs := 128 * 2 ^ bits v 14 12 }
      if new_.legal then new_ else p)
  | 0x50 => pci (fun p => { p with aspmL1 := bit v 1 })
  | 0xB0 => (pci (fun p => { p with msixEn := bit v 31, fnMask := bit v 30 })).flushVectors fn
  | 0x104 => pci (fun p => { p with aerUnc := p.aerUnc &&& ~~~BitVec.ofNat 32 v })
  | 0x110 => pci (fun p => { p with aerCor := p.aerCor &&& ~~~BitVec.ofNat 32 v })
  | 0x118 => pci (fun p => { p with ecrcGen := bit v 6, ecrcChk := bit v 8 })
  | _ => s

/-- A write of BAR2 or of the configuration space: 32 bits, or 64 bits as two words (R36, assumption 34). -/
def State.otherWrite (s : State) (fn off width val : Nat) : State :=
  let word := fun (s : State) (o v : Nat) =>
    if o < 0x20000 then s.writeBar2 fn (o - 0x10000) v else s.cfgWrite fn (o - 0x20000) v
  if ¬ accessOk off width then s
  else
    let s := word s off (val % 2 ^ 32)
    if width = 8 then word s (off + 4) (val / 2 ^ 32 % 2 ^ 32) else s

/-- `REGISTER_WRITE` (R36, R41): a write of a function's registers. An offset past them is no address of the function. -/
def execRegisterWrite (t fn off width val : Nat) (s : State) : Host.Outcome State Fault Refusal :=
  if hostLimit ≤ off then .fault .outsideBar0
  else ev t (fun s =>
    if ¬ s.fnOn fn then s
    else if off < 0x10000 then s.barWrite fn off width val
    else s.otherWrite fn off width val) s

/-- `ALM_CURSOR` (R58): the cursor of physical function 0. -/
def execAlmCursor (t val : Nat) (s : State) : Host.Outcome State Fault Refusal :=
  ev t (fun s => if s.fnOn 0 then s.writeCursor val else s) s

/-- `MBX_ENABLE` (R44, R45): the write of `MBX_CFG` with `EN` = 1 to the selected mailbox. -/
def execMbxEnable (t fn val : Nat) (s : State) : Host.Outcome State Fault Refusal :=
  ev t (fun s => if s.fnOn fn ∧ bit val 31 then s.write32 fn 0x0108 val else s) s

/-- `MBX_DISABLE` (R47): the write of `MBX_CFG` with `EN` = 0 to the selected mailbox. -/
def execMbxDisable (t fn val : Nat) (s : State) : Host.Outcome State Fault Refusal :=
  ev t (fun s => if s.fnOn fn ∧ ¬ bit val 31 then s.write32 fn 0x0108 val else s) s

/-- `SQ_TAIL_DOORBELL` (R49). -/
def execSqTailDoorbell (t fn i val : Nat) (s : State) : Host.Outcome State Fault Refusal :=
  ev t (fun s => if s.fnOn fn then s.doorbell fn i val else s) s

/-- `RQ_HEAD` (R53). -/
def execRqHead (t fn i val : Nat) (s : State) : Host.Outcome State Fault Refusal :=
  ev t (fun s => if s.fnOn fn then s.freeReplies fn i val else s) s

/-- What a reply carries (Table 4-4). -/
structure Reply where
  id       : Nat := 0
  status   : Nat := 0
  rlen     : Nat := 0
  accept   : Nat := 0
  complete : Nat := 0
  isInline : Bool := false
  result   : Bytes := []
  orig     : Nat := 0
  by_      : Nat := 0

/-- The reply record of 64 bytes (Tables 4-4 and 4-5). -/
def Reply.record (r : Reply) (attn : Nat) (phase : Bool) : Bytes :=
  toLe 8 r.id ++ toLe 2 r.status ++ toLe 2 attn ++ toLe 4 r.rlen ++ toLe 8 r.accept ++ toLe 8 r.complete ++
  fixLen 24 r.result ++ toLe 2 r.orig ++ [byte r.by_, byte (b2n r.isInline), 0, 0, 0, byte (b2n phase)]

/-- The posted writes of one reply, in the order of R52, and the coalescing of R54. -/
def State.writeReply (s : State) (fn i : Nat) (r : Reply) (payload : Option (Nat × Bytes)) : State :=
  let m := s.mbx fn i
  let rec_ := r.record s.attention m.phase
  let at_ := m.rqBase.toNat + 64 * m.slot
  let writes := payload.toList.map (fun p => Output.dma p.1 p.2) ++
    [Output.dma at_ (rec_.take 56), Output.dma (at_ + 56) (rec_.drop 56)]
  let s := { s with out := s.out ++ writes }
  let last := m.slot + 1 == m.rqSize
  let urgent := [6, 7, 0xF].contains (stClass r.status) || m.lastSeq.any (fun q => q != s.attnSeq.toNat)
  let s := s.updMbx fn i (fun m =>
    { m with slot := if last then 0 else m.slot + 1, phase := if last then !m.phase else m.phase,
             written := m.written + 1, lastSeq := some s.attnSeq.toNat,
             unsig := if m.vecEn then m.unsig + 1 else 0, firstUnsig := if m.unsig = 0 then s.now else m.firstUnsig })
  if m.vecEn ∧ (urgent ∨ max 1 m.count ≤ m.unsig + 1) then s.signal fn i else s

/-- The record of replies dropped (R57, Table 16-8). -/
def State.droppedEvent (s : State) (fn cause n : Nat) : State :=
  if n = 0 then s else s.event 0x9001 sevWarn 3 ([byte fn, byte cause, 0, 0] ++ toLe 4 n)

/-- Resets of a function whose last earlier request has ended leave their record (R57). -/
def State.closeDrops (s : State) (fn : Nat) : State :=
  let open_ := fun (d : Nat × Nat × Nat) => s.rreqs.any (fun (e : Nat × RReq) =>
    e.2.fn == fn && e.2.drop && decide (e.1 < d.1))
  let f := s.fn fn
  let done_ := f.drops.filter (fun d => !open_ d)
  done_.foldl (fun s d => s.droppedEvent fn d.2.1 d.2.2) (s.updFn fn (fun f => { f with drops := f.drops.filter open_ }))

/-- A dropped reply counted with the first reset that came after its request's acceptance (R57). -/
def countDrop (q : Nat) : List (Nat × Nat × Nat) → List (Nat × Nat × Nat)
  | [] => []
  | d :: l => if q < d.1 then (d.1, d.2.1, d.2.2 + 1) :: l else d :: countDrop q l

/-- A request leaves the Relay with its reply, written or dropped (R47, R57). -/
def State.leaveRelay (s : State) (q : Nat) (post : RReq → State → State) : State :=
  match Tbl.find? s.rreqs q with
  | none => s
  | some r =>
    let s := { s with rreqs := Tbl.del s.rreqs q, payStore := s.payStore.filter (fun p => p.q != q) }
    if r.drop then (s.updFn r.fn (fun f => { f with drops := countDrop q f.drops })).closeDrops r.fn
    else
      let s := if (s.fn r.fn).d3hot then s.updFn r.fn (fun f => { f with d3count := f.d3count + 1 }) else post r s
      (s.updMbx r.fn r.idx (fun m => { m with infl := m.infl - 1 })).drained r.fn r.idx

/-- A function's registers at their reset values and its mailboxes disabled without draining (R57). The error status words are
lost at PERST# alone (PCIe 5.0; assumption 165). -/
def State.resetFn (s : State) (n cause : Nat) : State :=
  let f := s.fn n
  let s := if f.d3hot then s.droppedEvent n 4 f.d3count else s
  let s := { s with
    rreqs := s.rreqs.map (fun (e : Nat × RReq) => (e.1, if e.2.fn = n then { e.2 with drop := true } else e.2))
    ingress := s.ingress.filter (fun e => e.fn != n)
    mbxs := s.mbxs.filter (fun (e : Nat × Mbx) => e.1 / 4096 != n) }
  let s := s.updFn n (fun _ =>
    { enabled := f.enabled, vecSize := f.vecSize, drops := f.drops ++ [(max s.now (s.stampOf 414), cause, 0)]
      pci := if cause = 1 then {} else { aerUnc := f.pci.aerUnc, aerCor := f.pci.aerCor } })
  let s := if n = 0 then
    { s with ptm := {}, win := {} } else s
  s.closeDrops n

/-- The MSI-X table size that the active set gives a function (R46). -/
def State.vectors (s : State) (n : Nat) : Nat := s.nvm.activeSet.fld 3 (if n = 0 then 0 else 2) 2

/-- Every virtual function reset and disabled: VF Enable is clear (R57). -/
def State.clearVfs (s : State) (cause : Nat) : State :=
  (((s.fns.filter (fun (e : Nat × Fn) => e.1 != 0 && e.2.enabled)).map Prod.fst).foldl (fun s n =>
    (s.resetFn n cause).updFn n (fun f => { f with enabled := false })) s)

/-- A reset of all functions (R57). -/
def State.resetAll (s : State) (cause : Nat) : State := (s.clearVfs cause).resetFn 0 cause

/-- `PERST` (R57). -/
def execPerst (t : Nat) (s : State) : Host.Outcome State Fault Refusal :=
  ev t (onlyIf s.boot.up (fun s => s.resetAll 1)) s

/-- `LINK_DOWN` (R57). -/
def execLinkDown (t : Nat) (s : State) : Host.Outcome State Fault Refusal :=
  ev t (onlyIf s.boot.up (fun s => s.resetAll 2)) s

/-- `FUNCTION_LEVEL_RESET` (R46, R57): of physical function 0 it clears VF Enable too; of a virtual function it leaves
`REPLY_LOST` set in each of its mailboxes. -/
def execFunctionLevelReset (t fn : Nat) (s : State) : Host.Outcome State Fault Refusal :=
  ev t (fun s =>
    if ¬ s.fnOn fn then s else
      let s := (if fn = 0 then s.resetAll 3 else s.resetFn fn 3).updFn fn (fun f => { f with vecSize := s.vectors fn })
      if fn = 0 then s
      else (s.nvm.activeSet.mboxes.filter (fun m => m.fn == fn)).foldl (fun s m =>
        s.updMbx fn m.idx (fun b => b.err s.now 0)) s) s

/-- `D3HOT_ENTRY` (R57). -/
def execD3hotEntry (t fn : Nat) (s : State) : Host.Outcome State Fault Refusal :=
  ev t (fun s => if s.fnOn fn then s.updFn fn (fun f => { f with d3hot := true }) else s) s

/-- `D3HOT_EXIT` (R57). -/
def execD3hotExit (t fn : Nat) (s : State) : Host.Outcome State Fault Refusal :=
  ev t (fun s =>
    if s.fnOn fn ∧ (s.fn fn).d3hot then (if fn = 0 then s.clearVfs 4 else s).resetFn fn 4 else s) s

/-- `LANE_RETRAIN_X8` (R37): a half of the lanes without a failed one is kept, the lanes that failed before counted; with
none, the link stays down until the next reset of the Relay (assumption 171). A link that is down trains no more, and one at
×8 is not recorded again. -/
def execLaneRetrainX8 (t : Nat) (failed : List Nat) (s : State) : Host.Outcome State Fault Refusal :=
  ev t (fun s =>
    if ¬ s.boot.up ∨ ¬ s.linkUp ∨ failed.isEmpty then s
    else
      let was := s.wear.linkX8
      let all_ := s.wear.lanes ++ failed.filter (fun l => !s.wear.lanes.contains l)
      let s := { s with wear := { s.wear with lanes := all_ } }
      if all_.all (fun l => decide (8 ≤ l)) ∨ all_.all (fun l => decide (l < 8)) then
        (if was then s
         else ({ s with wear := { s.wear with linkX8 := true } }).wearEvent 412 0x22 0x09 (failed.headD 0) 0 0 0)
      else { s.resetAll 2 with linkUp := false }) s

/-- A read by the endpoint that completed with Unsupported Request, Completer Abort, poison or a time-out (R51): the function's
error reporting takes it. Which of its status bits it sets, of those for poison and for a completion time-out, R51 does not
tell: a free value (assumption 198). -/
def State.readError (s : State) (fn : Nat) : State :=
  let v := s.fresh
  v.2.updFn fn (fun f => { f with pci := { f.pci with aerUnc := f.pci.aerUnc ||| (v.1.setWidth 32 &&& 0x5000#32) } })

/-- `FETCH_ERROR` (R51). -/
def execFetchError (t fn i : Nat) (s : State) : Host.Outcome State Fault Refusal :=
  ev t (fun s =>
    if s.fnOn fn ∧ (s.mbx fn i).state = .enabled then
      (s.readError fn).updMbx fn i (fun m => { m.err s.now 2 with state := .error })
    else s) s

/-- Entries of a mailbox that wait in the ingress. -/
def State.waiting (s : State) (fn i : Nat) : Nat := s.ingress.countP (fun e => e.fn == fn && e.idx == i)

/-- Whether `n` entries may be fetched from a mailbox now (R50, R56, R57). -/
def State.mayFetch (s : State) (fn i n : Nat) : Bool :=
  let m := s.mbx fn i
  s.fnOn fn && s.boot.ready && !s.failStop && !(s.fn fn).d3hot && m.state == .enabled &&
  (s.nvm.activeSet.mbox? fn i).isSome && decide (1 ≤ n) && decide (n ≤ 8) &&
  decide (n ≤ (m.sqTail + m.sqSize - m.sqHead) % m.sqSize) && decide (m.sqHead + n ≤ m.sqSize) &&
  decide (m.infl + s.waiting fn i + m.written.toNat + n ≤ m.rqSize)

/-- The lanes of the mailboxes from which an entry may be fetched now (R50). -/
def State.readyLanes (s : State) : List Nat :=
  (s.nvm.activeSet.mboxes.filter (fun m => s.mayFetch m.fn m.idx 1)).map (fun m => m.lane % 8)

/-- The lane that is served next: the first one after the lane last served that has something to fetch (R50). -/
def State.nextLane (s : State) : Option Nat :=
  ((List.range 8).map (fun k => (s.lastLane + 1 + k) % 8)).find? (fun l => s.readyLanes.contains l)

/-- `SUBMISSION_FETCH` (R50): up to eight contiguous entries are copied, each with its reply slot reserved; lanes are served
round-robin (assumption 125). -/
def execSubmissionFetch (t fn i : Nat) (entries : List Bytes) (s : State) : Host.Outcome State Fault Refusal :=
  ev t (fun s =>
    let m := s.mbx fn i
    match s.nvm.activeSet.mbox? fn i with
    | some a =>
      if s.mayFetch fn i entries.length ∧ s.nextLane = some (a.lane % 8) ∧ entries.all (fun e => e.length == m.stride) then
        let s := s.updMbx fn i (fun m => { m with sqHead := (m.sqHead + entries.length) % m.sqSize })
        { s with lastLane := a.lane % 8
                 ingress := s.ingress ++ entries.map (fun e =>
            { fn := fn, idx := i, comp := a.comp, lane := a.lane, entry := e }) }
      else s
    | none => s) s

/-- `COALESCE_TIMEOUT` (R54). -/
def execCoalesceTimeout (t fn i : Nat) (s : State) : Host.Outcome State Fault Refusal :=
  ev t (fun s =>
    let m := s.mbx fn i
    if m.vecEn ∧ m.timeUs ≠ 0 ∧ m.unsig ≠ 0 ∧ m.firstUnsig + 4000 * m.timeUs ≤ s.now then s.signal fn i
    else s) s

/-- `MSIX_VECTOR_UNMASK` (R54): a pending message is sent. -/
def execMsixVectorUnmask (t fn vec : Nat) (s : State) : Host.Outcome State Fault Refusal :=
  ev t (fun s =>
    let f := s.fn fn
    if ¬ s.fnOn fn ∨ f.vecSize ≤ vec ∨ f.unmasked.contains vec then s else
      (s.updFn fn (fun f => { f with unmasked := f.unmasked ++ [vec] })).flushVectors fn) s

/-- Whether a dialogue is due: none has run since the enable, or `INTERVAL` milliseconds have passed since the last (R34). -/
def Ptm.due (p : Ptm) (now : Nat) : Bool := p.last.all (fun l => decide (l + 4000000 * p.ctrl.toNat ≤ now))

/-- `PTM_DIALOGUE` (R34, R42): the NEW pair becomes OLD, the new pair is written, and `SEQ` advances. DESIGN CHOICE: the spec
does not say whose counter gives the Meridian stamp of a pair, the PCIe endpoint's island or the master; the model takes the
master's count (assumption 195). -/
def execPtmDialogue (t h : Nat) (s : State) : Host.Outcome State Fault Refusal :=
  ev t (fun s =>
    if ¬ s.fnOn 0 ∨ ¬ s.ptm.en ∨ ¬ s.ptm.due s.now then s else
      { s with ptm := { s.ptm with
          mOld := s.ptm.mNew, hOld := s.ptm.hNew, mNew := s.now % 2 ^ 64, hNew := h % 2 ^ 64, last := some s.now,
          seq := (s.ptm.seq + 1) % 2 ^ 31, count := s.ptm.count + 1, valid := decide (2 ≤ s.ptm.count + 1) } }) s

/-- `PTM_ENABLE` (R42): the PTM Enable bit set or cleared; clearing it clears `VALID` and `SEQ`. -/
def execPtmEnable (t : Nat) (en : Bool) (s : State) : Host.Outcome State Fault Refusal :=
  ev t (fun s =>
    if ¬ s.fnOn 0 ∨ en = s.ptm.en then s
    else if en then { s with ptm := { s.ptm with en := true, count := 0 } }
    else { s with ptm := { ctrl := s.ptm.ctrl } }) s

/-- `VF_ENABLE` (R46): virtual functions 1 to `numVfs` come up with the table size of the active set; clearing it resets
and removes them, as a Function Level Reset does (assumption 172). -/
def execVfEnable (t numVfs : Nat) (en : Bool) (s : State) : Host.Outcome State Fault Refusal :=
  ev t (fun s =>
    let any_ := s.fns.any (fun (e : Nat × Fn) => e.1 != 0 && e.2.enabled)
    if ¬ s.fnOn 0 then s
    else if en then
      if any_ ∨ numVfs = 0 ∨ 255 < numVfs then s
      else (List.range numVfs).foldl (fun s k => s.updFn (k + 1) (fun f =>
        { enabled := true, vecSize := s.vectors (k + 1), drops := f.drops })) s
    else s.clearVfs 3) s

end Sys2Proof.Machine
end

