-- ==== Sys2Proof/Machine/Services.lean ====
section
/-! DEFINITION. The services of `svc` (R241 to R243, R245, Table 10-6). -/

namespace Sys2Proof.Machine

/-- Argument register o`n` (R242). DESIGN CHOICE: its value is used whatever its tag, no use in Table 9-16 being a service's
argument (assumption 195). -/
def KEnv.arg (e : KEnv) (n : Nat) : Nat := (e.c.reg (BitVec.ofNat 5 (24 + n))).1.toNat

/-- A context with results in o0, o1, and so on, untagged. -/
def setResults (c : Ctx) (vs : List Nat) : Ctx :=
  (vs.zipIdx).foldl (fun (c : Ctx) (v : Nat × Nat) => c.setReg (BitVec.ofNat 5 (24 + v.2)) (BitVec.ofNat 64 v.1) false) c

/-- A service that returns values in o0 to o3. -/
def KEnv.ret (e : KEnv) (x : TwinSt) (vs : List Nat) : KRes := .ok x (setResults e.c vs)

/-- Service refusal: cause 0x08, with the function number (Table 9-17). -/
def KEnv.refuse (e : KEnv) (fn : Nat) : KRes := .exc e.c 8 0 0 fn

/-- A service called in a context: Zenith has no task, so a service refuses there (assumption 23). -/
def kSvc (t : Nat) (c : Cid) (rsvd fn : Nat) (op : KEnv → KRes) (s : State) : Host.Outcome State Fault Refusal :=
  ev t (kstep c 4 (noRsvd rsvd) .no (fun e => if e.zenith then e.refuse fn else op e)) s

/-- Whether `n` bytes at an address lie in the task's own allocations (R242). -/
def KEnv.owns (e : KEnv) (a n : Nat) : Bool :=
  match e.region a n with
  | some .lmem => true
  | some .sram => true
  | _ => false

/-- Bytes of the task's own memory. -/
def KEnv.bytesAt (e : KEnv) (a n : Nat) : Bytes :=
  if e.region a n = some .lmem then e.c.lread a n
  else (List.range n).map (fun i => Tbl.getD e.cluster.sramData (a + i) 0)

/-- Bytes put into a context's local memory with a tag, or into its cluster's SRAM. -/
def TwinSt.deposit (x : TwinSt) (c : Cid) (a : Nat) (b : Bytes) (tag : Bool) : TwinSt :=
  if a < 0x10000000 then { x with ctxs := Tbl.upd x.ctxs (ctxKey c) (fun k => k.lput a b tag) }
  else
    let put := fun (k : Cluster) => { k with sramData := storeBytes k.sramData a b }
    { x with clusters := Tbl.upd x.clusters (islandCluster c.island) put }

/-- Free bytes: a value the spec does not state (assumption 8). -/
def freeBytes (k n : Nat) : Bytes := (List.range n).map (fun i => (Config.freeValue (k + i)).setWidth 8)

/-- A task waits for randomness: its context is in a rank-6 wait, and another ready one of its core executes (R177, R320). -/
def State.waitRng (s : State) (w : Twin) (q i : Nat) : State :=
  s.updTwin w (fun x =>
    let x := x.awaitRng q i
    match (x.task? q i).bind (fun k => k.ctx) with
    | some c =>
      { x with ctxs := Tbl.upd x.ctxs (ctxKey c) (fun (k : Ctx) => { k with waiting := true, wants := .rng }) }.recharge c.island
        s.now
    | none => x)

/-- The request of a random call ends, or waits for its deadline, when random service has stopped (R193, R317). -/
def State.rngStopped (s : State) (w : Twin) (q i : Nat) (r : Req) : State :=
  if r.hdr.deadline = 0 then s.endWith w q stRng else s.waitRng w q i

/-- Whether an earlier `RNG` of a task still waits for its bytes: calls are taken in the order of their issue (R321). -/
def TwinSt.rngCalled (x : TwinSt) (q i : Nat) : Bool :=
  x.asyncs.any (fun a => match a with | .rng p k _ _ _ _ => p == q && k == i | _ => false)

/-- Whether a task that waits for randomness may ask again. -/
def TwinSt.rngBack (x : TwinSt) (q i : Nat) : Bool :=
  !x.rngCalled q i && (match x.rng q i 1 with | .ok _ _ | .over => true | _ => false)

/-- One asynchronous service carried out when what it waits for is there (R243); it stays in progress otherwise. -/
def State.serveOne (w : Twin) (s : State) (a : Async) : State :=
  let keep := s.updTwin w (fun x => { x with asyncs := x.asyncs ++ [a] })
  let finish := fun (s : State) (x : TwinSt) (q i : Nat) =>
    s.setTwin w { x with dones := x.dones ++ [{ q := q, task := i, kind := .service }] }
  let x := s.twin w
  match a with
  | .payload q i off len dst c =>
    match Tbl.find? x.reqs q with
    | none => s
    | some r =>
      if r.hdr.isInline ∨ r.covers off (min len (r.hdr.plen - off)) then
        let have_ := min len (r.hdr.plen - off)
        let b := (r.payload.drop off).take have_ ++ freeBytes s.free (len - have_)
        finish { s with free := s.free + (len - have_) } (x.deposit c dst b false) q i
      else keep
  | .rng q i dst len tag c =>
    match Tbl.find? x.reqs q with
    | none => s
    | some r =>
      match x.rng q i len with
      | .ok b x => finish s (x.deposit c dst b (tag == 1)) q i
      | .wait => keep.updTwin w (fun x => x.awaitRng q i)
      | .stopped => if r.hdr.deadline = 0 then s.endWith w q stRng else keep.updTwin w (fun x => x.awaitRng q i)
      | .over => s.endWith w q stImage
  | .keyGet q i h dst c =>
    match Tbl.find? x.reqs q with
    | none => s
    | some r =>
      match x.keyFor q r h with
      | some k => finish s (x.deposit c dst k.material (handleClass h == 2)) q i
      | none => finish s x q i

/-- Every asynchronous service of a twin that can complete does, in the order of its calls, and tasks whose wait for randomness
is over try again. -/
def State.serve (s : State) (w : Twin) : State :=
  let l := (s.twin w).asyncs
  let s := l.foldl (State.serveOne w) (s.updTwin w (fun x => { x with asyncs := [] }))
  s.updTwin w (fun x => x.wakeMem s.now (fun _ c => c.wants == .rng && c.task.any (fun t => x.rngBack t.1 t.2)))

/-- An asynchronous service begun: the dependence counter rises, and the service completes as soon as it can (R243). -/
def KEnv.begin (e : KEnv) (c : Ctx) (a : Async) : KRes :=
  match e.x.raiseDep e.q e.i id with
  | none => .abort
  | some x => .leave (fun s =>
      (s.putCtx e { x with asyncs := x.asyncs ++ [a] } { c with pc := c.pc + 4 }).serve e.w)

/-- The statuses that an image may exit with (R241). -/
def exitStatuses : List Nat :=
  [stOk, stReserved, stBadParam, stBadFormat, stBadSegment, stTooSmall, stQuorum, stApproval, stKeyNotFound, stKeyUsage,
   stExhausted, stRole, stQuota, stDisabled, stBusy, stTag, stVerify, stStream, stBlockAuth]

/-- The record of an excess of `dcl` executions: compartment, image, opcode and count (R245, assumption 24). -/
def dclRecord (r : Req) (now : Nat) : EvReq :=
  { id := 0xA000 + (Config.imageEvent 1).toNat, sev := (Config.imageEventSev 1).toNat, origin := 0, stamp := now,
    detail := toLe 2 r.space ++ toLe 4 r.image ++ toLe 2 r.hdr.opcode ++ toLe 8 r.dcl }

/-- The exit of a task with o0 and o1 (R241, R245): an excess of `dcl` executions ends the request whether or not time-out was
indicated. -/
def exitTask (e : KEnv) (v len : Nat) (s : State) : State :=
  let r := e.req
  let dmax := match e.slot.entry? r.image r.hdr.opcode with | some d => d.dclMax | none => 0
  if dmax < r.dcl then
    (s.updTwin e.w (fun x => x.updReq e.q (fun r => { r with timedOut := none }))).finish e.w e.q
      { status := stImage, evs := [dclRecord r s.now] }
  else if e.i = 0 then
    let st := v % 65536
    let st := if exitStatuses.contains st then st else stImage
    let st := if st = stOk ∧ 1 < r.tasks.length then stImage else st
    if st = stTooSmall ∨ (commitsAt st ∧ 24 < len ∧ r.hdr.rlen < len) then
      s.finish e.w e.q { status := stTooSmall, rlen := len % 2 ^ 32, result := fixLen (len % 2 ^ 32) r.result }
    else s.finish e.w e.q (r.outcome st (fixLen len r.result))
  else
    s.updTwin e.w (fun x =>
      let joined := match x.task? e.q e.i with | some k => k.joined | none => false
      let x := x.dropTasks s.now e.q (fun i => i == e.i) false
      let x := x.updReq e.q (fun r => { r with childVals := Tbl.put r.childVals e.i v })
      let sib := (r.tasks.filter (fun (t : Nat × Task) => bit t.2.prereqs (e.i - 1) && t.1 != e.i)).map Prod.fst
      { x with dones := x.dones ++ ((if joined then [0] else []) ++ sib).map (fun i =>
          { q := e.q, task := i, kind := .child }) })

/-- `EXIT` (R241). -/
def execExit (t : Nat) (c : Cid) (rsvd : Nat) (s : State) : Host.Outcome State Fault Refusal :=
  kSvc t c rsvd 0x0001 (fun e => .leave (fun s => (exitTask e (e.arg 0) (e.arg 1) s).serve e.w)) s

/-- Children of a request created so far (R176). -/
def Req.children (r : Req) : Nat := (r.tasks.filter (fun t => t.1 != 0)).length + r.childVals.length

/-- `CHILD` (Table 10-6): the child waits for the named siblings that are still there; a joined child raises the root's
counter. A tagged argument refuses (assumption 27). -/
def execChild (t : Nat) (c : Cid) (rsvd : Nat) (s : State) : Host.Outcome State Fault Refusal :=
  kSvc t c rsvd 0x0002 (fun e =>
    if e.i ≠ 0 ∨ (e.c.reg 25).2 then e.refuse 0x0002
    else if 3 ≤ e.req.children then .abort
    else
      let n := e.req.children + 1
      let live := [1, 2, 3].filter (fun i => bit (e.arg 2) (i - 1) && (Tbl.find? e.req.tasks i).isSome)
      let join := bit (e.arg 3) 0
      let k : Task := { entry := e.arg 0, arg := e.arg 1, joined := join, dep := live.length,
                        prereqs := live.foldl (fun m i => m + 2 ^ (i - 1)) 0 }
      match if join then e.x.raiseDep e.q 0 id else some e.x with
      | none => .abort
      | some x => e.ret (x.updReq e.q (fun r => { r with tasks := Tbl.put r.tasks n k })) [n]) s

/-- `PAYLOAD_READ` (Table 10-6). -/
def execPayloadRead (t : Nat) (c : Cid) (rsvd : Nat) (s : State) : Host.Outcome State Fault Refusal :=
  kSvc t c rsvd 0x0010 (fun e =>
    if ¬ e.owns (e.arg 2) (e.arg 1) then e.refuse 0x0010
    else e.begin e.c (.payload e.q e.i (e.arg 0) (e.arg 1) (e.arg 2) e.cid)) s

/-- `RESULT_WRITE` (Table 10-6): a tagged source raises subcode 0x07 before any refusal (R226). -/
def execResultWrite (t : Nat) (c : Cid) (rsvd : Nat) (s : State) : Host.Outcome State Fault Refusal :=
  kSvc t c rsvd 0x0011 (fun e =>
    let a := e.arg 0
    let n := e.arg 1
    if e.region a n = some .lmem ∧ e.c.ltag a n ∧ n ≠ 0 then .exc e.c 5 7 0 0
    else if e.i ≠ 0 ∨ ¬ e.owns a n then e.refuse 0x0011
    else if max 24 e.req.hdr.rlen < e.arg 2 + n then e.ret e.x [stBadParam]
    else e.ret (e.x.updReq e.q (fun r => { r with result := patch r.result (e.arg 2) (e.bytesAt a n) })) [0]) s

/-- `RNG` (Table 10-6, R321): a length outside 1 to 4,096 refuses (assumption 27). -/
def execRng (t : Nat) (c : Cid) (rsvd : Nat) (s : State) : Host.Outcome State Fault Refusal :=
  kSvc t c rsvd 0x0012 (fun e =>
    if e.arg 1 = 0 ∨ 4096 < e.arg 1 ∨ e.region (e.arg 0) (e.arg 1) ≠ some .lmem then e.refuse 0x0012
    else
      e.begin e.c (.rng e.q e.i (e.arg 0) (e.arg 1) (e.arg 2 % 2) e.cid)) s

/-- `KEY_ATTR` (Table 10-6). -/
def execKeyAttr (t : Nat) (c : Cid) (rsvd : Nat) (s : State) : Host.Outcome State Fault Refusal :=
  kSvc t c rsvd 0x0013 (fun e =>
    match e.x.keyFor e.q e.req (e.arg 0) with
    | none => e.ret e.x [stKeyNotFound]
    | some k => e.ret e.x [0, k.alg, k.usage, b2n k.exportable + 2 * b2n k.nonceEn + 4 * b2n k.exhausted]) s

/-- A new key service after its attribute check (R242). -/
def KEnv.create (e : KEnv) (x : TwinSt) (fn : Nat) (a : KeyAttr) (cls : Nat) (m : Bytes) : KRes :=
  match x.createKey e.q (some e.i) a cls m with
  | none => e.refuse fn
  | some (.inl st) => e.ret x [st]
  | some (.inr (h, x)) => e.ret x [0, h]

/-- Whether the request's `NEW_KEYS` identities are spent (R242). -/
def Req.spent (r : Req) : Bool := decide (r.newH.length ≤ r.newUsed)

/-- `KEY_NEW` (Table 10-6): the material is replicated randomness, one consumer call (R321). Before the first seed, with no
generator slot free and behind an earlier `RNG` of the task it waits. -/
def execKeyNew (t : Nat) (c : Cid) (rsvd : Nat) (s : State) : Host.Outcome State Fault Refusal :=
  kSvc t c rsvd 0x0014 (fun e =>
    if e.req.spent ∨ ¬ e.owns (e.arg 0) 24 then e.refuse 0x0014
    else match attrOf true (e.bytesAt (e.arg 0) 24) with
      | .inl st => e.ret e.x [st]
      | .inr a =>
        match e.x.prepay e.q e.i 1 1 (extSlots (symLen a.alg)) (b2n a.ledger) with
        | none => e.ret e.x [stQuota]
        | some y =>
          if y.rngCalled e.q e.i then .leave (fun s => (s.setTwin e.w y).waitRng e.w e.q e.i) else
          match y.rng e.q e.i (symLen a.alg) with
          | .ok m x => e.create x 0x0014 a 0 m
          | .wait => .leave (fun s => (s.setTwin e.w y).waitRng e.w e.q e.i)
          | .stopped => .leave (fun s => (s.setTwin e.w y).rngStopped e.w e.q e.i e.req)
          | .over => .abort) s

/-- `KEY_PUT` (Table 10-6): asymmetric material of Table 6-5 from local memory. -/
def execKeyPut (t : Nat) (c : Cid) (rsvd : Nat) (s : State) : Host.Outcome State Fault Refusal :=
  kSvc t c rsvd 0x0015 (fun e =>
    if e.req.spent ∨ ¬ e.owns (e.arg 0) 24 then e.refuse 0x0015
    else match attrOf false (e.bytesAt (e.arg 0) 24) with
      | .inl st => e.ret e.x [st]
      | .inr a =>
        let m := materialLen a.alg (newClass a)
        if e.region (e.arg 1) m ≠ some .lmem then e.refuse 0x0015
        else e.create e.x 0x0015 a (newClass a) (e.c.lread (e.arg 1) m)) s

/-- `KEY_GET` (Table 10-6): asymmetric material; a symmetric key never leaves the key store this way (R15). -/
def execKeyGet (t : Nat) (c : Cid) (rsvd : Nat) (s : State) : Host.Outcome State Fault Refusal :=
  kSvc t c rsvd 0x0016 (fun e =>
    match e.x.keyFor e.q e.req (e.arg 0) with
    | none => e.ret e.x [stKeyNotFound]
    | some k =>
      if handleClass (e.arg 0) = 0 then e.ret e.x [stKeyUsage]
      else if e.region (e.arg 1) k.material.length ≠ some .lmem then e.refuse 0x0016
      else e.begin (setResults e.c [0]) (.keyGet e.q e.i (e.arg 0) (e.arg 1) e.cid)) s

/-- The first place of `n` free bytes among some allocations; banks retired without a spare have left the pool (R238,
R445). -/
def placeSram (lost : Nat) (l : Tbl (Nat × Nat × Nat)) (n : Nat) : Option Nat :=
  if sramSpace < 131072 * lost + n + l.foldl (fun (m : Nat) (a : Nat × Nat × Nat × Nat) => m + a.2.1) 0 then none else
  (0x10000000 :: l.map (fun (a : Nat × Nat × Nat × Nat) => a.1 + a.2.1)).find? (fun b =>
    decide (b + n ≤ 0x10000000 + sramSpace) && !l.any (fun (a : Nat × Nat × Nat × Nat) =>
      decide (a.1 < b + n) && decide (b < a.1 + a.2.1)))

/-- `SRAM_ALLOC` (Table 10-6, R238): a cluster that is exhausted makes the task wait. A size that is no positive multiple
of 64, or beyond `SRAM_KIB`, is answered `BAD_PARAMETER` (assumption 27). -/
def execSramAlloc (t : Nat) (c : Cid) (rsvd : Nat) (s : State) : Host.Outcome State Fault Refusal :=
  ev t (fun s => (kstep c 4 (noRsvd rsvd) .no (fun e => if e.zenith then e.refuse 0x0020 else
    let n := e.arg 0
    let k := e.cluster
    let held := (k.sram.filter (fun a => a.2.2 == (e.q, e.i))).foldl (fun m (a : Nat × Nat × Nat × Nat) => m + a.2.1) 0
    if n = 0 ∨ n % 64 ≠ 0 ∨ 1024 * e.slot.sramKib < held + n then e.ret e.x [stBadParam]
    else match placeSram (k.lost.length + k.held.length) k.sram n with
      | none => .leave (fun s => s.memWait e .sram)
      | some b =>
        let k := { k with sram := Tbl.put k.sram b (n, e.q, e.i) }
        e.ret { e.x with clusters := Tbl.put e.x.clusters (islandCluster e.cid.island) k } [0, b]) s).allocWake s
      ((islandTwin c.island).getD .a) (islandCluster c.island)) s

/-- `SRAM_FREE` (Table 10-6): the allocation is cleared and freed, a retired bank that it held leaves the pool, and contexts that
wait for room try again (R134, R238, R445). -/
def execSramFree (t : Nat) (c : Cid) (rsvd : Nat) (s : State) : Host.Outcome State Fault Refusal :=
  kSvc t c rsvd 0x0021 (fun e =>
    let k := e.cluster
    match Tbl.find? k.sram (e.arg 0) with
    | some (n, q, i) =>
      if (q, i) = (e.q, e.i) then
        let k := Cluster.settleBanks { k with
          sram := Tbl.del k.sram (e.arg 0)
          sramData := k.sramData.filter (fun d => !(decide (e.arg 0 ≤ d.1) && decide (d.1 < e.arg 0 + n))) }
        .ok ({ e.x with clusters := Tbl.put e.x.clusters (islandCluster e.cid.island) k }.wakeSram e.now
          (islandCluster e.cid.island)) e.c
      else e.refuse 0x0021
    | none => e.refuse 0x0021) s

end Sys2Proof.Machine
end

