-- ==== Sys2Proof/Machine/Shares.lean ====
section
/-! DEFINITION. The share accounting of the compartments, the ready tasks, and the wait of those whose compartment is at its cap
(R183, R184, R194). -/

namespace Sys2Proof.Machine

/-- The share window of 100 epochs, in units. -/
abbrev shareWindow : Nat := 400000

/-- Core time used by a compartment in the window, U (R183). -/
def TwinSt.usedTime (x : TwinSt) (now c : Nat) : Nat :=
  let part := fun (b f : Nat) => min f now - max b (now - shareWindow)
  let closed := x.charges.foldl (fun n k => if k.comp = c then n + part k.beg k.fin else n) 0
  x.reqs.foldl (fun (n : Nat) (e : Nat × Req) =>
    if e.2.hdr.comp = c then
      e.2.tasks.foldl (fun (n : Nat) (k : Nat × Task) => match k.2.chargeOn with
        | some b => n + part b now
        | none => n) n
    else n) closed

/-- The window's capacity K: active cores times the window (R183). -/
def TwinSt.capacity (x : TwinSt) (w : Twin) : Nat := x.countRole w .core .active * shareWindow

/-- A compartment's standing in the share accounting (R183). -/
structure Standing where
  comp : Nat
  used : Nat
  min  : Nat
  cap  : Nat
  k    : Nat
  deriving DecidableEq, Repr

/-- The standing of a compartment: `CORE_MIN` and `CORE_CAP` of its entry in the active set. -/
def TwinSt.standing (x : TwinSt) (w : Twin) (now c : Nat) : Standing :=
  { comp := c, used := x.usedTime now c, min := x.store.activeSet.comp c 8 2, cap := x.store.activeSet.comp c 10 2,
    k := x.capacity w }

/-- U below E_min. -/
def Standing.belowMin (a : Standing) : Bool := decide (1024 * a.used < a.min * a.k)

/-- U below E_cap. -/
def Standing.belowCap (a : Standing) : Bool := decide (1024 * a.used < a.cap * a.k)

/-- The weight w: `CORE_MIN`, or 1 when that is 0. -/
def Standing.weight (a : Standing) : Nat := if a.min = 0 then 1 else a.min

/-- Whether Zenith serves a request: the admin commands, and `ATTEST_REPORT` of a compartment (R84, R85). -/
def Req.forZenith (r : Req) : Bool := r.space == adminSpace || r.hdr.opcode == 0x0A00

/-- A ready task: request, index, compartment and lane. -/
structure Ready where
  q    : Nat
  i    : Nat
  comp : Nat
  lane : Nat
  deriving DecidableEq, Repr

/-- The ready tasks of a twin in acceptance order, a child at its root's place. -/
def TwinSt.readyTasks (x : TwinSt) (act : Bool) : List Ready :=
  x.reqs.flatMap (fun (e : Nat × Req) =>
    if e.2.forZenith then [] else
      (e.2.tasks.filter (fun (k : Nat × Task) => k.2.ctx.isNone && x.taskReady act e.1 e.2 k.2)).map (fun k =>
        { q := e.1, i := k.1, comp := e.2.hdr.comp, lane := e.2.hdr.lane }))

/-- Values without repeats, first places kept. -/
def distinct (l : List Nat) : List Nat := l.foldl (fun acc n => if acc.contains n then acc else acc ++ [n]) []

/-- The ready tasks of compartments at their cap wait by rank 4, which sets the precedence mark of their requests (R194, R198,
Table 8-3). -/
def TwinSt.markCap (x : TwinSt) (w : Twin) (act : Bool) (now : Nat) : TwinSt :=
  let l := x.readyTasks act
  let capped := (distinct (l.map (fun t => t.comp))).filter (fun c => !(x.standing w now c).belowCap)
  l.foldl (fun (x : TwinSt) (t : Ready) =>
    if capped.contains t.comp then x.updReq t.q (fun r => { r with precMark := true }) else x) x

end Sys2Proof.Machine
end

