-- ==== Sys2Proof/Machine/Acceptance.lean ====
section
/-! DEFINITION. Acceptance: the checks of the Relay, the broadcast, and what each twin does when an entry arrives: fences,
predecessors, replay room, the flow table, key declarations and identities (R60 to R78, R92, R93, R136 to R144, R180,
R235, R236, R327). -/

namespace Sys2Proof.Machine

/-- The header of an entry (Table 4-1). -/
def Hdr.parse (b : Bytes) : Hdr :=
  { version := fld b 0 1, flags := fld b 1 1, opcode := fld b 2 2, target := fld b 4 2, pred := fld b 6 1,
    rsv7 := fld b 7 1, id := fld b 8 8, flow := fld b 16 4, plen := fld b 20 4, deadline := fld b 24 8,
    pptr := fld b 32 8, rptr := fld b 40 8, rlen := fld b 48 4, segIndex := fld b 52 2, segCtrl := fld b 54 1,
    rsv55 := fld b 55 1, param := fld b 56 8 }

/-- Where an opcode is accepted (Table 4-6): on the admin mailbox, on compartment mailboxes. -/
def opGroup (op : Nat) : Bool × Bool :=
  if op / 256 = 0x01 then (true, false)
  else if 0x02 ≤ op / 256 ∧ op / 256 ≤ 0x09 then (false, true)
  else if op = 0x0A00 then (true, true)
  else if op / 256 = 0x0A then (true, false)
  else if op / 256 = 0x0F then (false, true)
  else (false, false)

/-- The admin commands served in LOCK (Table 4-9). -/
def lockServed (op : Nat) : Bool := [0x0100, 0x0101, 0x0143, 0x0150, 0x0A01].contains op

/-- Whether an entry came from the admin mailbox (R38). -/
def Ingress.admin (g : Ingress) : Bool := g.fn == 0 && g.idx == 0

/-- The predecessor ids of an entry (Table 4-3). -/
def Ingress.predIds (g : Ingress) : List Nat :=
  (List.range (Hdr.parse g.entry).predCount).map (fun i => fld g.entry (64 + 8 * i) 8)

/-- The inline payload area of an entry (Table 4-3). -/
def inlineArea (h : Hdr) (entry : Bytes) : Bytes := entry.drop (if h.predCount = 0 then 64 else 96)

/-- Inline and extension faults of R61 and R62. -/
def Ingress.entryBad (g : Ingress) : Bool :=
  let h := Hdr.parse g.entry
  ((h.isInline || h.predCount != 0) && g.entry.length != 256) || decide (4 < h.predCount) ||
  (h.predCount != 0 && !allZero (slice g.entry (64 + 8 * h.predCount) (32 - 8 * h.predCount))) ||
  (h.isInline && (h.pptr != 0 || decide ((if h.predCount = 0 then 192 else 160) < h.plen)))

/-- Address and length faults of R62. -/
def Ingress.bufferBad (g : Ingress) : Bool :=
  let h := Hdr.parse g.entry
  h.pptr % 8 != 0 || h.rptr % 8 != 0 || decide (0x01000000 < h.plen) || decide (0x01001000 < h.rlen) ||
  (h.plen == 0 && h.pptr != 0) || (h.rlen == 0 && h.rptr != 0)

/-- The checks of R63 in their order: the code of the first that fails (assumption 35 for the order within step 5). -/
def Ingress.check (g : Ingress) (locked : Bool) : Option Nat :=
  let h := Hdr.parse g.entry
  let grp := opGroup h.opcode
  if h.version ≠ 1 then some stBadVersion
  else if h.rsv7 ≠ 0 ∨ h.rsv55 ≠ 0 ∨ 16 ≤ h.flags ∨ 8 ≤ h.pred ∨ 8192 ≤ h.target ∨ 4 ≤ h.segCtrl then some stReserved
  else if h.comp ≠ g.comp % 1024 ∨ h.lane ≠ g.lane % 8 then some stBadTarget
  else if ¬ (if g.admin then grp.1 else grp.2) then some stWrongMailbox
  else if g.entryBad then some stBadEntry
  else if g.bufferBad then some stBadBuffer
  else if g.predIds.contains h.id then some stBadPred
  else if locked ∧ ¬ (g.admin ∧ lockServed h.opcode) then some stLocked
  else none

/-- A reply that the Relay posts for an entry it does not accept (R63, R66), with its completion stamp (R29); dropped and
counted while its function is in D3hot (R57). -/
def State.answerEntry (s : State) (g : Ingress) (status : Nat) : State :=
  let h := Hdr.parse g.entry
  let c := s.stampOf 415
  let s := s.stamped 415
  if (s.fn g.fn).d3hot then s.updFn g.fn (fun f => { f with d3count := f.d3count + 1 })
  else s.writeReply g.fn g.idx { id := h.id, status := status, complete := c } none

/-- Whether an entry stamped `q` goes to a twin (R327). -/
def TwinSt.receives (x : TwinSt) (q : Nat) : Bool :=
  match x.role with
  | .active | .healthy => true
  | .resync => x.resyncEj.any (fun e => decide (4000 * e ≤ q))
  | _ => false

/-- The payload bytes that the Relay has of a request: inline, or those it reads before the broadcast (R236). -/
def RReq.lead (r : RReq) : Bytes := if r.hdr.isInline then (inlineArea r.hdr r.entry).take r.hdr.plen else r.pre

/-- Whether a request in service is a holder that a new one meets: of the shadow set (R467), or of a slot (R455). -/
def RReq.meets (e r : RReq) : Bool :=
  let admin := fun (x : RReq) => x.fn == 0 && x.idx == 0
  let holder := fun (x : RReq) => [0x0110, 0x0111, 0x0130].contains x.hdr.opcode
  admin e && admin r && ((holder e && (holder r || r.hdr.opcode == 0x0112)) ||
    (e.hdr.opcode == 0x0120 && r.hdr.opcode == 0x0120 && e.lead.take 8 == r.lead.take 8))

/-- Whether a twin takes the place of a further request in its descriptor pool (R176). -/
def State.poolRoom (s : State) : Bool := decide (s.rreqs.length < 65536)

/-- Whether a committed swap's epoch has come and the swap has not taken effect: no request is accepted until it has
(R495). -/
def State.swapDue (s : State) : Bool := s.nvm.swap.any (fun p => decide (4000 * p.1 ≤ s.now))

/-- `ENTRY_ACCEPTANCE` (R63, R236, R327): the entry at the front of the ingress is answered by the Relay, or stamped and
broadcast. `pre` is what the Relay reads of payload bytes 0 to 63. -/
def execEntryAcceptance (t : Nat) (pre : Bytes) (s : State) : Host.Outcome State Fault Refusal :=
  ev t (fun s =>
    match s.ingress with
    | [] => s
    | g :: l =>
      if ¬ s.boot.ready ∨ s.failStop ∨ ¬ s.sw.accepting ∨ ¬ s.poolRoom ∨ s.swapDue then s
      else
        let s := { s with ingress := l }
        match g.check s.tamper.lock with
        | some st => (s.answerEntry g st).drained g.fn g.idx
        | none =>
          let h := Hdr.parse g.entry
          let q := s.stampOf 414
          let r : RReq :=
            { hdr := h, entry := g.entry, fn := g.fn, idx := g.idx,
              pre := if h.isInline then [] else fixLen (min 64 h.plen) pre,
              toA := s.twinA.receives q, toB := s.twinB.receives q }
          let r := { r with behind := s.rreqs.any (fun e => e.2.meets r) }
          ({ s.stamped 414 with rreqs := Tbl.put s.rreqs q r }).updMbx g.fn g.idx (fun m => { m with infl := m.infl + 1 })) s

/-- Whether a request was broadcast to a twin. -/
def RReq.to (r : RReq) : Twin → Bool
  | .a => r.toA
  | .b => r.toB

/-- The space of a request (R69): its compartment, or the admin mailbox's. -/
def RReq.space (r : RReq) : Nat := if r.fn = 0 ∧ r.idx = 0 then adminSpace else r.hdr.comp

/-- The dispatch entry that serves a request, at its acceptance stamp (R67, R87, R250). -/
def TwinSt.entryOf (x : TwinSt) (q : Nat) (r : Req) : Option (Nat × DispEntry) := x.store.dispatch r.space r.hdr.opcode q

/-- What the newest batch before an acceptance agreed (R76, R139, R143, R180). -/
def TwinSt.agreedAt (x : TwinSt) (q : Nat) : Batch := (x.agreed.find? (fun b => decide (4000 * b.epoch < q))).getD {}

/-- The replay entry that answers a state-changing request not yet begun (R77). -/
def TwinSt.replayOf (x : TwinSt) (r : Req) : Option Replay :=
  if r.hdr.stateChange then (x.store.replays r.space).find? (fun e => e.id == r.hdr.id) else none

/-- The end record of a request that a replay entry answers (R77). -/
def Replay.answer (e : Replay) (r : Req) : EndRec :=
  if e.opcode = r.hdr.opcode ∧ e.flow = r.hdr.flow ∧ e.param = r.hdr.param ∧ e.plen = r.hdr.plen ∧
      e.digest = sha256 r.payload then
    { status := stReplayed, result := e.result.getD [], orig := e.status, replay := some e.commit }
  else { status := stIdConflict }

/-- Result units of a stored result (R75, R76). -/
def Replay.units (e : Replay) : Nat :=
  match e.result with
  | some b => if 24 < b.length then ceilDiv b.length 256 else 0
  | none => 0

/-- Removes eligible replay entries, oldest acceptance stamp first, until a reservation fits (R76): entries and units
short, and what is left of the list. -/
def evict (n u : Int) : List Replay → Int × Int × List Nat
  | [] => (n, u, [])
  | e :: l =>
    if n ≤ 0 ∧ u ≤ 0 then (n, u, [])
    else
      let r := evict (n - 1) (u - e.units) l
      (r.1, r.2.1, e.id :: r.2.2)

/-- The replay reservation at acceptance (R76): whether it fits, once eligible entries have been removed for it. The admin
mailbox has no share of its own to exceed (assumption 36). -/
def TwinSt.reserveReplay (x : TwinSt) (q : Nat) (r : Req) : Bool × TwinSt :=
  if r.space = adminSpace then (true, x) else
    let cfg := x.store.setAt q
    let base := x.agreedAt q
    let units := if 24 < r.hdr.rlen then ceilDiv (min r.hdr.rlen 4096) 256 else 0
    let own := Tbl.getD base.rep r.space (0, 0)
    let taken := (x.repTaken.filter (fun e => e.1 % 2048 == r.space && decide (4000 * base.epoch ≤ e.1 / 2048))).foldl
      (fun (a : Int × Int) e => (a.1 + e.2.1, a.2 + e.2.2)) (0, 0)
    let shortN : Int := own.1 + taken.1 + 1 - cfg.comp r.space 28 4
    let shortU : Int := own.2 + taken.2 + units - cfg.comp r.space 32 4
    let old := ((x.store.replays r.space).filter (fun e => e.agedAt.any (fun b => decide (b < q)))).mergeSort
      (fun a b => decide (a.accept ≤ b.accept))
    let v := evict shortN shortU old
    let fits := decide (v.1 ≤ 0) && decide (v.2.1 ≤ 0)
    let gone := old.filter (fun e => v.2.2.contains e.id)
    let freed : Int × Int := gone.foldl (fun (a : Int × Int) e => (a.1 + 1, a.2 + e.units)) (0, 0)
    let got : Int × Int := if fits then (1, units) else (0, 0)
    let x := { x with
      store := x.store.setReplays r.space ((x.store.replays r.space).filter (fun e => !v.2.2.contains e.id))
      repTaken := Tbl.put x.repTaken (q * 2048 + r.space) (got.1 - freed.1, got.2 - freed.2) }
    (fits, if fits then x.updReq q (fun r => { r with resUnits := units }) else x)

/-- The flow table step at acceptance (R69, R180); none where the set of the flow is full. An entry that arrives after the batch
of its epoch is closed counts from that batch on. -/
def TwinSt.takeFlow (x : TwinSt) (pcycle q : Nat) (r : Req) : Option TwinSt :=
  if r.hdr.flow = 0 then some x else
    let k := flowKey r.space r.hdr.flow
    let base := x.agreedAt q
    let occ := distinct (base.flows ++ (x.flowTaken.filter (fun e => decide (4000 * base.epoch ≤ e.1))).map Prod.snd)
    let set := fun (f : Nat) => (Config.flowSet pcycle (f / 2 ^ 32) (f % 2 ^ 32)).toNat
    if occ.contains k then some x
    else if 8 ≤ occ.countP (fun f => set f == set k) then none
    else some { x with flowTaken := x.flowTaken ++ [(max q (4000 * x.lastBatch), k)] }

/-- The handle that a declaration names in a request (Table 10-4); none when its bytes lie beyond the payload. -/
def Decl.handle (d : Decl) (r : Req) : Option Nat :=
  if d.offset = 255 then some (bits r.hdr.param 31 0)
  else if d.offset + 4 ≤ r.hdr.plen then some (fld r.lead d.offset 4) else none

/-- The outcome of a declaration before any assignment (R236). -/
def TwinSt.declStatus (x : TwinSt) (q : Nat) (r : Req) (d : Decl) : Nat :=
  match d.handle r with
  | none => stBadParam
  | some h =>
    if h = 0 ∧ ¬ d.transport then stKeyNotFound
    else match x.store.key? r.space h q with
      | none => stKeyNotFound
      | some k =>
        if (List.range 16).any (fun i => bit d.usage i && !bit k.usage i) then stKeyUsage
        else if d.nonce ∧ r.hdr.stateChange ∧ ¬ k.nonceEn then stKeyUsage
        else if k.exhausted then stExhausted
        else 0

/-- Key or transport key changed in the store. -/
def Store.updKey (st : Store) (c h : Nat) (f : KeyRec → KeyRec) : Store :=
  st.updComp c (fun x => if h = 0 then { x with transport := x.transport.map f } else { x with keys := Tbl.upd x.keys h f })

/-- A key's counters changed by an assignment to a request: in the store, and in what the requests accepted later saw of the
key at their acceptance (R125, R146). -/
def TwinSt.updKey (x : TwinSt) (q c h : Nat) (f : KeyRec → KeyRec) : TwinSt :=
  { x with
    store := x.store.updKey c h f
    reqs := x.reqs.map (fun (e : Nat × Req) =>
      (e.1, if q < e.1 ∧ e.2.space = c then { e.2 with snaps := Tbl.upd e.2.snaps h f } else e.2)) }

/-- Whether the revocation reserve of 65,536 entries has one for a request (R143). -/
def TwinSt.reserveRoom (x : TwinSt) (q : Nat) (r : Req) : Bool :=
  decide (r.base.getD 3 0 + x.resTaken.countP (fun p => decide (p ≤ q) && decide (4000 * r.base.getD 4 0 ≤ p)) < 65536)

/-- An assignment remembered for the requests accepted earlier (R146). -/
def TwinSt.noteAssigned (x : TwinSt) (a : Assigned) : TwinSt := { x with assigned := x.assigned ++ [a] }

/-- The ledger entry of a key that becomes exhausted (R143): its own, one of `LEDGER`, one of the reserve, or none and a
record of event 0x3006. It stands however the request ends. -/
def TwinSt.exhaust (x : TwinSt) (q h : Nat) (now : Nat) : TwinSt :=
  match Tbl.find? x.reqs q with
  | none => x
  | some r =>
    let c := r.space
    let x := x.updKey q c h (fun k => { k with exhausted := true })
    let x := x.noteAssigned { sp := c, handle := h, q := q, exh := true }
    let put := fun (x : TwinSt) (res : Bool) =>
      x.updReq q (fun r => { r with sure := r.sure ++ [.ledgerPut c h { exhausted := true, reserve := res }] })
    if (Tbl.find? (x.store.comp c).ledger h).isSome then put x false
    else match x.quota q 0 0 1 with
      | some x => put x false
      | none =>
        if x.reserveRoom q r then put { x with resTaken := x.resTaken ++ [q] } true
        else (x.stamped now coachyard).updReq q (fun r => { r with sureEv := r.sureEv ++ [
          { id := 0x3006, sev := sevEvid, origin := 0, stamp := x.stampOf now coachyard,
            detail := toLe 2 c ++ [0, 0] ++ toLe 4 h ++ toLe 8 r.hdr.id }] })

/-- A ledger mark carried forward by an assignment (R144). -/
def TwinSt.moveMark (x : TwinSt) (q h : Nat) (nonce : Bool) (n : Nat) : TwinSt :=
  match Tbl.find? x.reqs q with
  | none => x
  | some r =>
    match Tbl.find? (x.store.comp r.space).ledger h with
    | none => x
    | some l =>
      let mark := if nonce then l.nonceMark else l.useMark
      if n < mark then x
      else
        let l : Ledger := if nonce then { nonceMark := mark + 65536 } else { useMark := mark + 65536 }
        x.updReq q (fun r => { r with staged := r.staged ++ [.ledgerPut r.space h l] })

/-- One claim assigned (R92, R93, R140, R141): the use number and the nonce value, or exhaustion, which makes the outcome
0x3005 and takes the handle from those the request may name, but for the transport key (R237). -/
def TwinSt.assign (x : TwinSt) (q now : Nat) (c : Claim) : TwinSt :=
  match Tbl.find? x.reqs q with
  | none => x
  | some r =>
    let sp := r.space
    let key := fun (x : TwinSt) => x.store.key? sp c.handle q
    let end_ := fun (x : TwinSt) (st : Nat) => x.updReq q (fun r =>
      { r with keyStatus := r.keyStatus.set c.decl st
               allowed := if c.handle = 0 then r.allowed else r.allowed.erase c.handle })
    let fail := fun (x : TwinSt) => end_ x stExhausted
    let x := x.updReq q (fun r => { r with claims := r.claims.map (fun d => if d = c then { d with done := true } else d) })
    match key x with
    | none => end_ x stKeyNotFound
    | some k =>
      if k.exhausted then fail x
      else
        let n := k.useCount + 1
        let ends := c.use && k.useLimit == 0 && n == 2 ^ 64 - 1
        let past := c.use && k.useLimit != 0 && decide (k.useLimit < n)
        let x := if c.use ∧ ¬ ends ∧ n < 2 ^ 64 then
          let x := (x.updKey q sp c.handle (fun k => { k with useCount := k.useCount + 1 })).moveMark q c.handle false n
          x.noteAssigned { sp := sp, handle := c.handle, q := q, use := true }
        else x
        if ends ∨ past then fail (x.exhaust q c.handle now)
        else if c.nonce then
          let v := k.nonce + 1
          if v = 2 ^ 96 - 1 then fail (x.exhaust q c.handle now)
          else
            let x := x.updKey q sp c.handle (fun k => { k with nonce := k.nonce + 1 })
            let x := x.noteAssigned { sp := sp, handle := c.handle, q := q, nonce := true }
            (x.updReq q (fun r => { r with nonce := v })).moveMark q c.handle true v
        else x

/-- Whether a request not begun has a claim to make on a handle that named no key when it was last looked at (R236). -/
def TwinSt.mayClaim (x : TwinSt) (q : Nat) (r : Req) (h : Nat) : Bool :=
  r.fin.isNone && !r.begun && r.matched.isNone && !r.forZenith &&
  (x.entryOf q r).any (fun e => e.2.decls.zipIdx.any (fun (d : Decl × Nat) =>
    r.keyStatus.getD d.2 0 == stKeyNotFound && (d.1.use || d.1.nonce) && d.1.handle r == some h))

/-- Whether an earlier claim on a handle is still open in a compartment: one not assigned, or one that its request makes only
when the handle names a key (R92, R93, R236). -/
def TwinSt.claimWaits (x : TwinSt) (q sp h : Nat) : Bool :=
  x.reqs.any (fun (e : Nat × Req) => decide (e.1 < q) && e.2.space == sp &&
    (e.2.claims.any (fun c => !c.done && c.handle == h) || x.mayClaim e.1 e.2 h))

/-- A key as the requests accepted up to one leave it: what was assigned to later ones taken off (R146). -/
def TwinSt.keyAsOf (x : TwinSt) (sp h q : Nat) (k : KeyRec) : KeyRec :=
  let later := x.assigned.filter (fun a => a.sp == sp && a.handle == h && decide (q < a.q))
  { k with useCount := k.useCount - later.countP (fun a => a.use), nonce := k.nonce - later.countP (fun a => a.nonce)
           exhausted := k.exhausted && !later.any (fun a => a.exh) }

/-- One declaration checked: its outcome, the handle it lets the request name, and its claim, which is assigned at once
where nothing holds it (R92, R236, R237). -/
def TwinSt.declare (x : TwinSt) (q now i : Nat) (d : Decl) : TwinSt :=
  match Tbl.find? x.reqs q with
  | none => x
  | some r =>
    let st := x.declStatus q r d
    let x := x.updReq q (fun r => { r with keyStatus := r.keyStatus.set i st })
    match d.handle r with
    | none => x
    | some h =>
      let x := match x.store.key? r.space h q with
        | some k => x.updReq q (fun r => { r with snaps := Tbl.put r.snaps h (x.keyAsOf r.space h q k) })
        | none => x
      let nonce := d.nonce && r.hdr.stateChange
      let use := d.use && !r.claims.any (fun c => c.handle == h && c.use)
      let x := if (st = 0 ∨ (h = 0 ∧ d.transport)) ∧ ¬ r.allowed.contains h then
        x.updReq q (fun r => { r with allowed := r.allowed ++ [h] }) else x
      if st ≠ 0 then x
      else
        if ¬ use ∧ ¬ nonce then x
        else
          let c : Claim := { decl := i, handle := h, use := use, nonce := nonce }
          let x := x.updReq q (fun r => { r with claims := r.claims ++ [c] })
          let lim : Bool := match x.store.key? r.space h q with | some k => k.useLimit != 0 | none => false
          if (lim ∨ nonce) ∧ x.claimWaits q r.space h then x else x.assign q now c

/-- The declarations of a request before they are checked. -/
def Req.undeclared (l : List Decl) (r : Req) : Req :=
  { r with keyStatus := l.map (fun _ => stKeyNotFound), named := l.filterMap (fun d => d.handle r) }

/-- Key declarations checked in `KEYSPEC` order. -/
def TwinSt.declareAll (x : TwinSt) (q now : Nat) (l : List Decl) : TwinSt :=
  (l.zipIdx).foldl (fun x d => x.declare q now d.2 d.1) (x.updReq q (Req.undeclared l))

/-- The declarations of a request that its turn has yet to bring, and the image that serves it (R77, R236). -/
def TwinSt.declareLater (x : TwinSt) (q : Nat) : TwinSt :=
  match Tbl.find? x.reqs q with
  | none => x
  | some r =>
    match if r.forZenith then none else x.entryOf q r with
    | none => x
    | some (img, d) => x.updReq q (fun r => { Req.undeclared d.decls r with image := img })

/-- Declarations that named no key are checked again before the root's first instruction: an earlier request of the flow
may have made it (R236, assumption 37). -/
def TwinSt.redeclare (x : TwinSt) (q now : Nat) (l : List Decl) : TwinSt :=
  (l.zipIdx).foldl (fun (x : TwinSt) (d : Decl × Nat) =>
    match Tbl.find? x.reqs q with
    | some r => if r.keyStatus.getD d.2 0 = stKeyNotFound then x.declare q now d.2 d.1 else x
    | none => x) x

/-- Identities for a request that creates keys, from its compartment's handle counter (R136, R235): every accepted request of a
compartment that stands takes them, however it ends; none once the counter would pass its last value. -/
def TwinSt.identify (x : TwinSt) (q n : Nat) : TwinSt :=
  match Tbl.find? x.reqs q with
  | none => x
  | some r =>
    let ctr := (x.store.comp r.space).handleCtr
    if n = 0 ∨ 0x3FFFFFFF < ctr + n then x
    else
      let x := { x with store := x.store.updComp r.space (fun c =>
        { c with handleCtr := ctr + n, handleRec := max c.handleRec ((ctr + n) / 4096 * 4096) }) }
      x.updReq q (fun r => { r with newH := (List.range n).map (fun i => ctr + i) })

/-- The form of a segmented request that needs no stream state (R73, checks 2 and 3). -/
def Req.segForm (r : Req) : Option Nat :=
  if ¬ r.hdr.stateChange then some stBadParam
  else if r.hdr.flow = 0 ∨ r.hdr.isInline ∨ r.hdr.plen = 0 ∨ 65536 < r.hdr.plen then some stBadSegment
  else none

/-- The state by which a compartment serves a request: before the commit epoch of its `COMP_CREATE` it stands as it stood
(R130), and a suspension that is not yet in effect leaves it active (R195). -/
def Store.served (st : Store) (c q : Nat) : CompState :=
  let k := st.comp c
  if k.fresh ∧ ¬ (Tbl.find? st.starts c).any (fun g => g.1 == k.gen && decide (g.2 ≤ q)) then
    (if k.gen = 1 then .undefined else .zeroized)
  else if k.suspendAt.isSome then .active else k.st

/-- Whether a request names a handle in a declaration (R103, R236). -/
def TwinSt.names (x : TwinSt) (q : Nat) (r : Req) (h : Nat) : Bool :=
  match if r.forZenith then none else x.entryOf q r with
  | some (_, d) => d.decls.any (fun d => d.handle r == some h && (h != 0 || d.transport))
  | none => false

/-- Whether a request names a key that a request accepted later has revoked (R149). -/
def TwinSt.namesRevoked (x : TwinSt) (q : Nat) (r : Req) : Bool :=
  (x.store.comp r.space).revs.any (fun e => decide (q < e.2) && x.names q r e.1)

/-- The commands of Table 4-9. -/
def adminOps : List Nat :=
  [0x0100, 0x0101, 0x0102, 0x0103, 0x0104, 0x0110, 0x0111, 0x0112, 0x0113, 0x0120, 0x0121, 0x0130, 0x0131, 0x0132,
   0x0133, 0x0140, 0x0141, 0x0142, 0x0143, 0x0144, 0x0150, 0x0160, 0x0161, 0x0170, 0x0A00, 0x0A01, 0x0A02]

/-- The status with which an arriving request is answered at once, from the state of its compartment and its dispatch
entry (R67, R73, R90, Table 6-2, R235); an admin request that is segmented is refused (assumption 38). -/
def TwinSt.arrivalBad (x : TwinSt) (q : Nat) (r : Req) : Option Nat :=
  if r.space = adminSpace then
    (if ¬ adminOps.contains r.hdr.opcode then some stBadOpcode else if r.hdr.segmented then some stBadParam else none)
  else match x.store.served r.space q with
    | .undefined | .suspended => some stDisabled
    | .zeroizing | .zeroized => some stZeroized
    | .active =>
      if r.hdr.opcode = 0x0A00 then (if r.hdr.segmented then some stBadParam else none)
      else match x.entryOf q r with
        | none => some stBadOpcode
        | some (_, d) =>
          if d.scAlways ∧ ¬ r.hdr.stateChange then some stBadParam
          else if r.hdr.segmented ∧ ¬ d.segOk then some stBadParam
          else if r.hdr.segmented ∧ r.segForm.isSome then r.segForm
          else if x.namesRevoked q r then some stRevoked
          else none

/-- The requests that a dependent waits for: those its predecessor ids name that are accepted before it and not
completed here (R71). -/
def TwinSt.pendingPreds (x : TwinSt) (act : Bool) (q sp : Nat) (ids : List Nat) : List Nat :=
  (x.reqs.filter (fun (e : Nat × Req) =>
    decide (e.1 < q) && e.2.space == sp && ids.contains e.2.hdr.id && !e.2.resolved act)).map Prod.fst

/-- Whether a predecessor id is kept as discarded and not re-issued (R71). -/
def TwinSt.predLost (x : TwinSt) (sp : Nat) (ids : List Nat) : Bool :=
  ids.any (fun i => (Tbl.find? x.store.discarded (discKey sp i)).isSome)

/-- Whether a predecessor failed between the dependent's acceptance and its arrival here: it was not completed when the
dependent was accepted (R71). -/
def TwinSt.predFailed (x : TwinSt) (act : Bool) (q sp : Nat) (ids : List Nat) : Bool :=
  x.failed.any (fun e => decide (e.1 < q) && e.2.1 == sp && ids.contains e.2.2.1 && decide (q ≤ e.2.2.2)) ||
  x.reqs.any (fun (e : Nat × Req) => decide (e.1 < q) && e.2.space == sp && ids.contains e.2.hdr.id && e.2.resolved act &&
    e.2.fin.any (fun f => decide (1 < stClass f.status) && decide (q ≤ f.stamp)))

/-- A request is answered at once with a status (R63, R67, R72). -/
def TwinSt.answer (x : TwinSt) (act : Bool) (now q status : Nat) : TwinSt := x.finish act now q { status := status }

/-- The root task made (R176): it waits for the pending predecessors. The precedence mark is set when an ordering wait
begins (R194). -/
def TwinSt.start (x : TwinSt) (act : Bool) (q : Nat) : TwinSt :=
  x.updReq q (fun r => { r with
    tasks := if r.tasks.isEmpty then [(0, { dep := r.preds.length })] else r.tasks
    precMark := r.precMark || !r.preds.isEmpty || x.ordered act q r })

/-- Whether a request of the same id is still in service whose replay entry may answer this one (R77). -/
def TwinSt.reissued (x : TwinSt) (q : Nat) (r : Req) : Bool :=
  r.hdr.stateChange && x.reqs.any (fun (e : Nat × Req) =>
    decide (e.1 < q) && e.2.space == r.space && e.2.hdr.stateChange && e.2.hdr.id == r.hdr.id && e.2.fin.isNone)

/-- A request that no replay entry answers yet: its deadline and its lost predecessors, its declarations, and its root task
(R71, R72, R92, R136, R235, R236). While a request of the same id is in service these wait for its outcome. -/
def TwinSt.enlist (x : TwinSt) (act : Bool) (now q : Nat) (r : Req) (lost : Bool) : TwinSt :=
  let status := if r.hdr.deadline ≠ 0 ∧ r.hdr.deadline ≤ q then stExpired else if lost then stPredFailed else 0
  if x.reissued q r then
    (x.updReq q (fun r => { r with denied := status })).declareLater q |>.start act q
  else if status ≠ 0 then x.answer act now q status
  else
    match if r.forZenith then none else x.entryOf q r with
    | none => x.start act q
    | some (img, d) =>
      let x := x.updReq q (fun r => { r with image := img })
      if r.newH.length < d.newKeys then x.answer act now q stQuota
      else (x.declareAll q now d.decls).start act q

/-- The identities that a request takes at its arrival (R136, R235). -/
def TwinSt.takeIds (x : TwinSt) (q : Nat) (r : Req) : TwinSt :=
  match if r.forZenith then none else x.entryOf q r with
  | some (_, d) =>
    match x.store.served r.space q with
    | .active | .suspended => x.identify q d.newKeys
    | _ => x
  | none => x

/-- What the arrival of a request does in a twin after its record is made: the answers given at acceptance, or the
root task (R67, R70 to R78, R235). -/
def TwinSt.arrive (x : TwinSt) (act : Bool) (now pcycle q : Nat) (r : Req) (lock : Option Nat) (ids : List Nat) : TwinSt :=
  let fk := flowKey r.space r.hdr.flow
  let fl : Flow := Tbl.getD x.store.flows fk {}
  let fenced := fl.fence && !r.hdr.flowResume
  let st := { x.store with
    flows := if fl.fence ∧ r.hdr.flowResume then Tbl.put x.store.flows fk { fl with fence := false } else x.store.flows
    discarded := Tbl.del x.store.discarded (discKey r.space r.hdr.id) }
  let lost := x.predLost r.space ids || x.predFailed act q r.space ids
  let base := x.agreedAt q
  let held := Tbl.getD base.hold r.space (0, 0, 0)
  let r := { r with preds := x.pendingPreds act q r.space ids
                    base := [held.1, held.2.1, held.2.2, base.reserve, base.epoch] }
  let x := { x with store := st, reqs := Tbl.put x.reqs q r }.takeIds q r
  match lock with
  | some status => x.answer act now q status
  | none =>
    if fenced then x.answer act now q stFenced
    else match x.arrivalBad q r with
      | some status => x.answer act now q status
      | none =>
        let entry := x.replayOf r
        let (room, x) := if r.hdr.stateChange then x.reserveReplay q r else (true, x)
        if ¬ room then x.answer act now q stReplayFull
        else match x.takeFlow pcycle q r with
          | none => x.answer act now q stFlowFull
          | some x =>
            match entry with
            | some e => (x.updReq q (fun r => { r with matched := some e })).start act q
            | none => x.enlist act now q r lost

/-- The compartment register in NVM records the handle counter in steps of 4,096 (R137). -/
def State.recordHandles (s : State) (w : Twin) (c : Nat) : State :=
  if (Tbl.find? s.nvm.comps c).isNone then s
  else { s with nvm := s.nvm.updComp c (fun x => { x with handleRec := max x.handleRec ((s.twin w).store.comp c).handleRec }) }

/-- The domains of a twin that are in Nap, which an arriving entry wakes (Table 18-5). -/
def State.napping (s : State) (w : Twin) : List Nat :=
  (s.power.domains.filter (fun (e : Nat × Domain) => domainTwin e.1 == some w && e.2.st == .nap)).map Prod.fst

/-- The status with which every compartment request is answered while the module gives no transaction service: in LOCK,
during a life-cycle transition, in BLANK and ANALYSIS, in a recovery boot, and for a compartment whose zeroization has
committed in either twin (R151, R175, R363, R388, R397, R399). -/
def State.noService (s : State) (q : Nat) (r : Req) : Option Nat :=
  if r.space = adminSpace then none
  else if s.tamper.lock then some (if s.tamper.lockCause = 2 then stLocked else stTamper)
  else if q < s.tamper.resumeAt then some stLocked
  else if s.life.journal.isSome then some stZeroized
  else if s.life.recovery then some stLifecycle
  else match s.lc with
    | .test | .production =>
      match (s.nvm.comp r.space).st with
      | .zeroizing | .zeroized => some stZeroized
      | _ => none
    | _ => some stLifecycle

/-- `BROADCAST_ENTRY_ARRIVAL` (R327): entries arrive in acceptance order; while the module enters STANDBY-HOT the arrival is latched as
a wake event, and in STANDBY-HOT it ends it: in both cases Coachyard takes the entry in once it is awake (R417, R424). What it decides by was agreed before its acceptance, so it waits for a batch of
before then that is still on its way (R139, R180, R329; assumption 175). -/
def execBroadcastEntryArrival (t : Nat) (w : Twin) (q : Nat) (s : State) : Host.Outcome State Fault Refusal :=
  ev t (fun s =>
    match Tbl.find? s.rreqs q with
    | none => s
    | some rr =>
      let x := s.twin w
      let due := (s.twin (otherTwin w)).outBatch.any (fun b => decide (4000 * b.epoch < q)) && x.exchanges
      let first := s.rreqs.all (fun (e : Nat × RReq) => !decide (e.1 < q) || !e.2.to w || (Tbl.find? x.reqs e.1).isSome)
      if ¬ rr.to w ∨ ¬ s.executes w ∨ (Tbl.find? x.reqs q).isSome ∨ ¬ first ∨ due then s
      else if s.power.mod = .standbyHot then s.exitStandby
      else if (s.domain moduleDomain).entry.isSome then s.wakeDoms ((twinBase w + coachyard) :: s.napping w)
      else if ¬ s.coachyardAwake w then s
      else
        let s := s.wakeDoms (s.napping w)
        let s := if rr.space = adminSpace then s.wakeZenith w else s
        let g : Ingress := { fn := rr.fn, idx := rr.idx, comp := 0, lane := 0, entry := rr.entry }
        let r : Req := { hdr := rr.hdr, space := rr.space, inline := inlineArea rr.hdr rr.entry, head := rr.pre }
        let act := s.isActive w
        let s := (s.setTwin w (((s.twin w).arrive act s.now s.pcycle q r (s.noService q r) g.predIds).markCap w act
          s.now)).recordHandles w r.space
        if rr.readFail then s.endWith w q stPayload else s) s

/-- `USE_ASSIGNMENT` (R236): a deferred claim is assigned once no earlier claim on its handle is open. -/
def execUseAssignment (t : Nat) (w : Twin) (q k : Nat) (s : State) : Host.Outcome State Fault Refusal :=
  ev t (fun s => s.updTwin w (fun x =>
    match Tbl.find? x.reqs q with
    | none => x
    | some r =>
      match r.claims[k]? with
      | none => x
      | some c => if c.done ∨ x.claimWaits q r.space c.handle then x else x.assign q s.now c)) s

/-- `PAYLOAD_READ_FAILED` (R51, R243): the request ends `PAYLOAD_READ_ERROR` in every twin that executes it. -/
def execPayloadReadFailed (t q : Nat) (s : State) : Host.Outcome State Fault Refusal :=
  ev t (fun s =>
    match Tbl.find? s.rreqs q with
    | none => s
    | some r =>
      if r.hdr.isInline ∨ r.hdr.plen = 0 ∨ s.failStop then s else
        let s := { s.readError r.fn with rreqs := Tbl.put s.rreqs q { r with readFail := true } }
        (s.endWith .a q stPayload).endWith .b q stPayload) s

/-- Bytes kept in the Relay's payload store (R328). -/
def State.payUsed (s : State) : Nat := s.payStore.foldl (fun n p => n + p.data.length) 0

/-- Whether the other twin is to read the same payload too (R328). -/
def State.shares (s : State) (w : Twin) (q : Nat) : Bool :=
  s.executes (otherTwin w) && (match Tbl.find? s.rreqs q with | some r => r.to (otherTwin w) | none => false)

/-- Bytes read at an offset, with those that the store keeps in their places (R328). -/
def overlay (off : Nat) (data : Bytes) (p : PayKeep) : Bytes :=
  (data.zipIdx).map (fun (b : Byte × Nat) =>
    if p.off ≤ off + b.2 ∧ off + b.2 < p.off + p.data.length then p.data.getD (off + b.2 - p.off) b.1 else b.1)

/-- What of some bytes at an offset lies outside a range. -/
def cutOut (a b : Nat) (p : Nat × Bytes) : List (Nat × Bytes) :=
  (if p.1 < a then [(p.1, p.2.take (a - p.1))] else []) ++
  (if b < p.1 + p.2.length then [(max p.1 b, p.2.drop (b - p.1))] else [])

/-- The payload store without the bytes of a range that a twin has now read (R328). -/
def State.freePayload (s : State) (w : Twin) (q off len : Nat) : State :=
  { s with payStore := s.payStore.flatMap (fun p =>
      if p.q = q ∧ p.for_ = w then
        (cutOut off (off + len) (p.off, p.data)).map (fun c => { p with off := c.1, data := c.2 })
      else [p]) }

/-- What a twin's read has to leave in the store for the other twin (R328): the bytes that it has not read itself. -/
def State.keepFor (s : State) (w : Twin) (q off : Nat) (data : Bytes) : List PayKeep :=
  let o := otherTwin w
  if ¬ s.shares w q then []
  else
    let had := ((Tbl.find? (s.twin o).reqs q).elim [] (fun r => r.chunks)) ++
      (s.payStore.filter (fun p => p.q == q)).map (fun p => (p.off, p.data))
    (had.foldl (fun ps c => ps.flatMap (cutOut c.1 (c.1 + c.2.length))) [(off, data)]).map (fun c =>
      { q := q, off := c.1, data := c.2, for_ := o })

/-- `PAYLOAD_STORE_READ` (R328): a twin's read is served from the store where the other twin has read those bytes, and
from host memory elsewhere, when the store has room to keep for the other twin what it has not read. A re-execution reads from
host memory again (R344). -/
def execPayloadStoreRead (t : Nat) (w : Twin) (q off : Nat) (data : Bytes) (s : State) :
    Host.Outcome State Fault Refusal :=
  ev t (fun s =>
    match Tbl.find? (s.twin w).reqs q with
    | none => s
    | some r =>
      if r.hdr.isInline ∨ r.hdr.plen < off + data.length ∨ s.failStop then s
      else if r.mismatch ∧ r.reexec.isNone then
        s.updTwin w (fun x => x.updReq q (fun r => { r with rechunks := r.rechunks ++ [(off, data)] }))
      else
        let bytes := (s.payStore.filter (fun p => p.q == q && p.for_ == w)).foldl (fun b p => overlay off b p) data
        let keep := s.keepFor w q off bytes
        let s' := s.freePayload w q off data.length
        if keep ≠ [] ∧ 8388608 < s'.payUsed + (keep.map (fun p => p.data.length)).sum then s
        else ({ s' with payStore := s'.payStore ++ keep }.updTwin w (fun x =>
          x.updReq q (fun r => { r with chunks := r.chunks ++ [(off, bytes)] }))).serve w) s

end Sys2Proof.Machine
end

