-- ==== Sys2Proof/Machine/EngineChecks.lean ====
section
/-! DEFINITION. The checks of an engine operation before it executes: fields, kinds, bounds, keys, usages and the class
of its output (R254 to R268). -/

namespace Sys2Proof.Machine

/-- A field of the command block (Table 11-2). -/
def EngOp.f (o : EngOp) (off len : Nat) : Nat := fld o.blk off len

/-- `OP`. -/
def EngOp.code (o : EngOp) : Nat := o.f 0 1
/-- `FUNC`. -/
def EngOp.func (o : EngOp) : Nat := o.f 1 1
/-- A flag of `CFLAGS` (Table 11-3). -/
def EngOp.flag (o : EngOp) (i : Nat) : Bool := bit (o.f 2 1) i
/-- `KKIND`. -/
def EngOp.kkind (o : EngOp) : Nat := bits (o.f 3 1) 7 4
/-- `KPART`. -/
def EngOp.kpart (o : EngOp) : Nat := bits (o.f 3 1) 1 0
/-- Kind of source A. -/
def EngOp.aKind (o : EngOp) : Nat := bits (o.f 8 1) 7 4
/-- Kind of source B. -/
def EngOp.bKind (o : EngOp) : Nat := bits (o.f 8 1) 3 0
/-- Kind of the destination. -/
def EngOp.dKind (o : EngOp) : Nat := bits (o.f 9 1) 7 4
/-- `OUTLEN`. -/
def EngOp.outLen (o : EngOp) : Nat := o.f 10 1
/-- `CTR_W` as a width in bits. -/
def EngOp.ctrW (o : EngOp) : Nat := [32, 64, 128].getD (bits (o.f 11 1) 7 6) 0
/-- `FINAL_MIX`. -/
def EngOp.mix (o : EngOp) : Nat := bits (o.f 11 1) 5 4
/-- `A_ADDR`. -/
def EngOp.aAddr (o : EngOp) : Nat := o.f 12 4
/-- `A_LEN`. -/
def EngOp.aLen (o : EngOp) : Nat := o.f 16 4
/-- `B_ADDR`. -/
def EngOp.bAddr (o : EngOp) : Nat := o.f 20 4
/-- `B_LEN`. -/
def EngOp.bLen (o : EngOp) : Nat := o.f 24 4
/-- `DST_ADDR`. -/
def EngOp.dAddr (o : EngOp) : Nat := o.f 28 4
/-- `AUX_ADDR`. -/
def EngOp.aux (o : EngOp) : Nat := o.f 32 4
/-- `IV`. -/
def EngOp.iv (o : EngOp) : Bytes := slice o.blk 36 16
/-- `VERIFY`. -/
def EngOp.verify (o : EngOp) : Bool := o.flag 7

/-- A key as an operation selects it: algorithm, usage, flags and material. -/
structure EKey where
  alg   : Nat := 0
  usage : Nat := 0
  expt  : Bool := false
  /-- Carries `DUKPT_BDK`, or was staged under such a key (R263). -/
  bdk   : Bool := false
  res   : Nat := 0
  data  : Bytes := []
  deriving DecidableEq, Repr

/-- What an engine operation executes in. -/
structure EngEnv where
  x   : TwinSt
  id  : Nat
  o   : EngOp
  r   : Req
  c   : Ctx
  k   : Cluster
  /-- The size of the context's local memory. -/
  lm  : Nat
  /-- The key selected; none where there is none, or its handle is not eligible. -/
  key : Option EKey

/-- A staging entry of the context. -/
def EngEnv.stg (e : EngEnv) (i : Nat) : Staging := Tbl.getD e.x.staging (4 * ctxKey e.o.ctx + i) {}

/-- The hold region of the task (R275). -/
def EngEnv.region (e : EngEnv) : Option (Nat × HoldReg) :=
  List.find? (fun (h : Nat × HoldReg) => h.2.q == e.o.q && h.2.task == e.o.task) e.k.hold

/-- Whether `n` bytes at an address lie in one SRAM allocation of the task. -/
def EngEnv.inSram (e : EngEnv) (a n : Nat) : Bool :=
  e.k.sram.any (fun s => s.2.2 == (e.o.q, e.o.task) && decide (s.1 ≤ a) && decide (a + n ≤ s.1 + s.2.1))

/-- The key that a handle, a staging entry, an inline key or PXK gives (R261); an inline key and PXK carry no flag and
do not bar exportability (assumption 30). -/
def EngEnv.select (e : EngEnv) : Option EKey :=
  match e.o.kkind with
  | 1 => (e.x.keyFor e.o.q e.r (e.o.f 4 4)).map (fun k =>
      { alg := k.alg, usage := k.usage, expt := k.exportable, bdk := bit k.usage 10, res := k.macRes, data := k.material })
  | 2 =>
    let s := e.stg (e.o.f 4 4 % 4)
    some { alg := s.alg, usage := s.usage, expt := s.expt, bdk := s.bdk || bit s.usage 10, data := fixLen (symLen s.alg) s.data }
  | 3 => some { expt := true, data := e.c.lread (e.o.f 4 4) (e.o.f 55 1) }
  | 4 => some { alg := 7, expt := true, data := (e.x.store.comp e.r.space).pxk }
  | _ => none

/-- Whether the key carries a usage bit. -/
def EngEnv.has (e : EngEnv) (i : Nat) : Bool := match e.key with | some k => bit k.usage i | none => false

/-- Whether the key is an AES-SIV key or PXK, which work by halves (R263). -/
def EKey.halves (k : EKey) : Bool := k.alg == 6 || k.alg == 7

/-- The algorithm that the selected part of a key has (R262, R263). -/
def EngEnv.partAlg (e : EngEnv) : Nat :=
  match e.key with
  | some k => if k.alg = 6 then 3 else if k.alg = 7 then 5 else k.alg
  | none => 0

/-- The block size of the key's cipher. -/
def EngEnv.bs (e : EngEnv) : Nat := blkLen e.partAlg

/-- Whether a length is a whole number of blocks; where no key tells the block size, of the shortest block (R255, R259). -/
def EngEnv.whole (e : EngEnv) (n : Nat) : Bool := n % (if e.key.isNone then 8 else e.bs) == 0

/-- Whether an operation needs a key (Table 11-4). -/
def EngOp.keyed (o : EngOp) : Bool := [0x01, 0x02, 0x03, 0x04, 0x05, 0x06, 0x08, 0x11].contains o.code

/-- The output length of a `FUNC` code that gives a check value; 64 for KMAC, 0 for no such code (Table 11-5). -/
def macLimit (f : Nat) : Nat :=
  match f with
  | 1 => 16 | 2 | 3 | 4 | 5 => 8 | 6 => 32 | 7 => 48 | 8 => 64 | 9 | 10 => 64 | 11 => 8 | _ => 0

/-- The digest length of a `FUNC` code of `HASH` (Table 11-5). -/
def hashLen (f : Nat) : Nat :=
  match f with
  | 0x21 | 0x24 => 32 | 0x22 | 0x25 => 48 | 0x23 | 0x26 => 64 | _ => 0

/-- The length of an operation's output (R256). -/
def EngEnv.outputLen (e : EngEnv) : Nat :=
  let o := e.o
  match o.code with
  | 1 | 2 | 3 => o.aLen
  | 4 => if o.outLen = 0 then o.aLen + o.bLen else o.outLen
  | 5 => if o.verify then 0 else o.outLen
  | 6 => o.outLen
  | 7 => hashLen o.func
  | 8 => 5
  | 9 => o.aLen
  | 10 => o.aLen + o.bLen
  | 0x11 => o.aLen
  | _ => 0

/-- Whether a source's address and length obey Table 11-6. -/
def EngEnv.srcOk (e : EngEnv) (kind a n : Nat) : Bool :=
  match kind with
  | 0 => a == 0 && n == 0
  | 1 => decide (a + n ≤ e.lm)
  | 2 => e.inSram a n
  | 3 => decide (a + n ≤ e.r.hdr.plen)
  | 4 => (match e.region with | some g => decide (a + n ≤ g.2.size) | none => false)
  | 5 => decide (a < 512) && decide (a % 128 + n ≤ 128)
  | 6 => (match e.x.keyFor e.o.q e.r a with | some k => decide (n ≤ k.material.length) | none => true)
  | 7 => a == 0
  | _ => false

/-- Whether a destination's address obeys Table 11-6 for an output of `n` bytes. -/
def EngEnv.dstOk (e : EngEnv) (n : Nat) : Bool :=
  let a := e.o.dAddr
  match e.o.dKind with
  | 0 => a == 0
  | 1 => decide (a + n ≤ e.lm)
  | 2 => e.inSram a n
  | 4 => (match e.region with | some g => decide (a + n ≤ g.2.size) | none => false)
  | 5 => decide (a < 512) && decide (a % 128 + n ≤ 128)
  | 8 => decide (a + n ≤ max 24 e.r.hdr.rlen)
  | 9 => a == 0
  | _ => false

/-- Bytes of the auxiliary block that the operation uses (Table 11-7). -/
def EngEnv.auxLen (e : EngEnv) : Nat :=
  let o := e.o
  max (max (if o.mix ≠ 0 then 16 else 0) (if o.verify then 16 + o.outLen else 0))
    (max (if o.flag 3 then (match e.key with | some k => k.data.length | none => 0) else 0) (if o.dKind = 9 then 24 else 0))

/-- The auxiliary block. -/
def EngEnv.auxBytes (e : EngEnv) : Bytes := e.c.lread e.o.aux e.auxLen

/-- Whether the sources and the destination of the operation are those of Table 11-4; only `HOLD_RELEASE` reads a hold region
into a destination outside it (R276). -/
def EngEnv.shapeOk (e : EngEnv) : Bool :=
  let o := e.o
  let anyDst := o.dKind != 0
  let noB := o.bKind == 0
  let hold := o.aKind == 4 || o.bKind == 4
  (!hold || o.code == 0x11 || o.dKind == 4 || o.dKind == 0) &&
  match o.code with
  | 1 | 2 =>
    o.aKind != 0 && anyDst && e.whole o.aLen &&
      (if o.flag 5 || o.flag 4 then o.bKind != 0 && o.bLen == o.aLen else noB)
  | 3 => o.aKind != 0 && noB && anyDst && o.ctrW != 0
  | 4 => anyDst && e.whole (o.aLen + o.bLen) &&
      (o.outLen == 0 || (if e.key.isNone then o.outLen == 8 || o.outLen == 16 else o.outLen == e.bs))
  | 5 =>
    macLimit o.func != 0 && decide (1 ≤ o.outLen) && decide (o.outLen ≤ macLimit o.func) &&
      (o.verify || anyDst) &&
      (o.mix == 0 || (o.mix == 1 && decide (16 ≤ o.aLen + o.bLen)) || (o.mix == 2 && decide (o.aLen + o.bLen < 16)))
  | 6 =>
    [1, 6, 7, 8, 9, 10, 11].contains o.func && decide (1 ≤ o.outLen) && decide (o.outLen ≤ 64) &&
      (o.dKind == 5 || o.dKind == 9)
  | 7 => hashLen o.func != 0 && o.outLen == 0 && anyDst
  | 8 => o.aKind == 0 && noB && (o.dKind == 1 || o.dKind == 2 || o.dKind == 8)
  | 9 => o.aKind == 5 && noB && o.dKind == 9
  | 10 => o.aKind == 1 && (o.bKind == 6 || noB) && o.dKind == 5
  | 0x10 => o.aKind == 0 && noB && o.dKind == 0 && decide (1 ≤ o.aLen) && decide (o.aLen ≤ 262144) && e.region.isNone
  | 0x11 =>
    o.aKind == 4 && noB && o.verify && macLimit o.func != 0 && decide (1 ≤ o.outLen) && decide (o.outLen ≤ macLimit o.func) &&
      (o.dKind == 1 || o.dKind == 2 || o.dKind == 8) &&
      (o.mix == 0 || (o.mix == 1 && decide (16 ≤ o.aLen)) || (o.mix == 2 && decide (o.aLen < 16)))
  | 0x12 => o.aKind == 0 && noB && o.dKind == 0
  | _ => false

/-- Whether the flags and modes are ones that the operation uses (Table 11-3, R255). -/
def EngEnv.flagsOk (e : EngEnv) : Bool :=
  let o := e.o
  (!o.verify || o.code == 5 || o.code == 0x11) && (!(o.flag 5 || o.flag 4) || o.code == 1 || o.code == 2) &&
  (!o.flag 2 || o.code == 9) && decide (o.kpart ≠ 3) && decide (o.kkind ≤ 5) && decide (bits (o.f 11 1) 7 6 ≠ 3) &&
  decide (o.mix ≠ 3) && (o.mix == 0 || o.code == 5 || o.code == 0x11) &&
  (o.func == 0 || [5, 6, 7, 0x11].contains o.code) && (o.keyed == decide (o.kkind ≠ 0)) &&
  (if o.kkind = 3 then decide (1 ≤ o.f 55 1) && decide (o.f 55 1 ≤ 64) && decide (o.f 4 4 + o.f 55 1 ≤ e.lm) &&
     !e.c.ltag (o.f 4 4) (o.f 55 1)
   else o.f 55 1 == 0) &&
  (e.key.isNone || !isTdea e.partAlg || allZero (slice o.blk 44 8))

/-- A source is a local word with a tag (R268). -/
def EngEnv.tagged (e : EngEnv) : Bool :=
  (e.o.aKind == 1 && e.o.aLen != 0 && e.c.ltag e.o.aAddr e.o.aLen) ||
  (e.o.bKind == 1 && e.o.bLen != 0 && e.c.ltag e.o.bAddr e.o.bLen)

/-- Whether a kind is a secret source: staging or key material (R266). -/
def secretKind (k : Nat) : Bool := k == 5 || k == 6

/-- Whether a secret source is exportable: a staging entry by its flag, key material by its record (R264). -/
def EngEnv.srcExpt (e : EngEnv) (kind a : Nat) : Bool :=
  match kind with
  | 5 => (e.stg (a / 128)).expt
  | 6 => (match e.x.keyFor e.o.q e.r a with | some k => k.exportable | none => false)
  | _ => true

/-- Every secret source is exportable. -/
def EngEnv.allExpt (e : EngEnv) : Bool := e.srcExpt e.o.aKind e.o.aAddr && e.srcExpt e.o.bKind e.o.bAddr

/-- A secret source is read. -/
def EngEnv.readsSecret (e : EngEnv) : Bool := secretKind e.o.aKind || secretKind e.o.bKind

/-- The class of the output: 2 key-class, 1 secret, 0 clear (Table 11-9). -/
def EngEnv.outClass (e : EngEnv) : Nat :=
  let o := e.o
  let pxk := o.kkind == 4
  let tag := o.flag 6
  match o.code with
  | 1 | 4 =>
    if e.has 10 || (e.readsSecret && !((e.has 8 || pxk) && e.allExpt)) then 2
    else b2n (tag || e.has 2 || (e.tagged && !e.has 1 && !e.has 8))
  | 2 => if e.has 7 || e.has 10 || e.readsSecret then 2 else b2n (tag || e.has 0 || e.tagged)
  | 3 => if e.readsSecret && !pxk then 2 else b2n (tag || e.tagged)
  | 5 =>
    if o.verify then 0
    else if e.readsSecret && !(e.has 7 || e.has 8 || pxk) then 2
    else b2n (tag || e.tagged || (e.has 4 && !e.has 3 && !e.has 11))
  | 6 | 9 | 10 => 2
  | 7 => b2n (tag || e.tagged)
  | _ => 0

/-- A secret source that is known not to be exportable is read: the output of an encryption is key-class under any key (Table
11-9). -/
def EngEnv.secretKept (e : EngEnv) : Bool :=
  let kept := fun (kind a : Nat) => match kind with
    | 5 => !(e.stg (a / 128)).expt
    | 6 => (e.x.keyFor e.o.q e.r a).any (fun k => !k.exportable)
    | _ => false
  kept e.o.aKind e.o.aAddr || kept e.o.bKind e.o.bAddr

/-- The class that an output has whatever key its handle turns out not to name: what Table 11-9 decides without the key
(R259). -/
def EngEnv.keylessClass (e : EngEnv) : Nat :=
  let o := e.o
  match o.code with
  | 1 | 4 => if e.secretKept then 2 else b2n (o.flag 6)
  | 2 | 3 => if e.readsSecret then 2 else b2n (o.flag 6 || e.tagged)
  | 5 => if o.verify then 0 else b2n (o.flag 6 || e.tagged)
  | _ => e.outClass

/-- The class that the destination is checked against: an operation whose key is still to be refused has none of its own. -/
def EngEnv.checkClass (e : EngEnv) : Nat := if e.o.keyed && e.key.isNone then e.keylessClass else e.outClass

/-- Whether the output may go to its destination (R268). -/
def EngEnv.classOk (e : EngEnv) : Bool :=
  match e.checkClass with
  | 2 => e.o.dKind == 5 || e.o.dKind == 9 || e.o.dKind == 0
  | 1 => e.o.dKind == 1 || e.o.dKind == 5 || e.o.dKind == 0
  | _ => true

/-- The attributes of a new key destination, when they pass (R97, R267). -/
def EngEnv.attr (e : EngEnv) : Option KeyAttr :=
  match attrOf true (e.auxBytes.take 24) with
  | .inr a => if e.outputLen = symLen a.alg then some a else none
  | .inl _ => none

/-- Step 2 of R259. -/
def EngEnv.step2 (e : EngEnv) : Bool :=
  e.flagsOk && e.shapeOk &&
  decide (e.o.aLen ≤ 0x01000000) && (e.o.code == 0x10 || e.srcOk e.o.aKind e.o.aAddr e.o.aLen) && (e.o.code != 0x10 || e.o.aAddr == 0) &&
  e.srcOk e.o.bKind e.o.bAddr e.o.bLen && e.dstOk e.outputLen &&
  ((e.auxLen == 0 && !e.o.flag 3) || (e.o.aux % 8 == 0 && decide (e.o.aux + e.auxLen ≤ e.lm) && !e.c.ltag e.o.aux e.auxLen)) &&
  (e.o.dKind != 9 || (e.attr.isSome && !e.r.spent))

/-- Step 3 of R259: the key handle and every key-material handle are eligible (R237). -/
def EngEnv.step3 (e : EngEnv) : Bool :=
  (e.o.kkind != 1 || e.key.isSome) &&
  (e.o.aKind != 6 || (e.x.keyFor e.o.q e.r e.o.aAddr).isSome) &&
  (e.o.bKind != 6 || (e.x.keyFor e.o.q e.r e.o.bAddr).isSome)

/-- The key carries one of some usages. -/
def EngEnv.hasAny (e : EngEnv) (l : List Nat) : Bool := l.any e.has

/-- Table 11-8. -/
def EngEnv.usageOk (e : EngEnv) : Bool :=
  let o := e.o
  let pxk := o.kkind == 4
  let inline := o.kkind == 3
  let siv := match e.key with | some k => k.halves && !pxk | none => false
  match o.code with
  | 1 => e.hasAny [1, 2, 5, 8, 10]
  | 2 => e.hasAny [0, 6, 7] || (o.kkind == 2 && e.has 10)
  | 3 => e.hasAny [5, 6] || pxk
  | 4 => e.hasAny [1, 5, 8]
  | 5 =>
    if o.verify then e.hasAny [3, 4, 11, 7] || (siv && e.hasAny [5, 6]) || pxk
    else e.hasAny [3, 4, 11, 7, 8] || (siv && e.hasAny [5, 6]) || inline || pxk
  | 0x11 => e.hasAny [3, 4, 11, 7] || (siv && e.hasAny [5, 6]) || pxk
  | 6 => e.hasAny [9, 7, 8, 10] || inline
  | 8 => (match e.key with | some k => isSym k.alg | none => false)
  | _ => true

/-- Whether the key's algorithm suits the operation and `FUNC` (R262, R112). -/
def EngEnv.algOk (e : EngEnv) : Bool :=
  match e.key with
  | none => true
  | some k =>
    let p := e.partAlg
    let f := e.o.func
    let inline := e.o.kkind == 3
    match e.o.code with
    | 1 | 2 | 3 | 4 => isAes p || isTdea p
    | 5 | 6 | 0x11 =>
      if inline then decide (6 ≤ f) && decide (f ≤ 10)
      else (k.res == 0 || k.res == f) &&
        (match f with
        | 1 => isAes p
        | 2 | 3 | 11 => isTdea p
        | 4 | 5 => p == 1
        | 6 | 7 => p == 8 || p == 9
        | 8 => p == 9
        | _ => p == 10)
    | _ => true

/-- `KPART` and `KVAR` as R263 permits them; without a key there is no use of them. -/
def EngEnv.partOk (e : EngEnv) : Bool :=
  match e.key with
  | none => e.o.kpart == 0 && !e.o.flag 3
  | some k =>
    let o := e.o
    if k.halves then
      !o.flag 3 && (match o.code with
        | 5 | 0x11 => o.kpart == 1
        | 3 => o.kpart == 2
        | 8 => true
        | _ => false)
    else if (o.kpart ≠ 0 ∨ o.flag 3) then k.bdk && k.alg == 1 && (o.code == 1 || o.code == 2)
    else true

/-- The bits that a staged usage may hold (Table 11-9a). -/
def EngEnv.stageMask (e : EngEnv) : Nat :=
  let b := fun (p : Bool) (m : Nat) => if p then m else 0
  b (e.has 10) 0x451 ||| b (e.has 7) 0x80 ||| b (e.has 8) 0x100 ||| b (e.has 9 || e.o.kkind == 3) 0x200

/-- Whether a staging destination's attributes are permitted (R265). -/
def EngEnv.stageOk (e : EngEnv) : Bool :=
  let u := e.o.f 52 2
  let a := e.o.f 54 1
  e.o.dKind != 5 || ((u &&& e.stageMask) == u && (u == 0 || isSym a))

/-- Secret sources as R266 permits them. -/
def EngEnv.secretOk (e : EngEnv) : Bool :=
  let o := e.o
  let pxk := o.kkind == 4
  let one := fun (kind a : Nat) =>
    !secretKind kind ||
    ((o.code == 10 && kind == 6) || (o.code == 9 && kind == 5) || e.hasAny [7, 8, 10] || pxk) &&
    (kind != 6 || ((handleClass a != 2 || pxk) &&
      (pxk || o.code == 10 || (match e.x.keyFor o.q e.r a with | some k => k.exportable | none => false))))
  one o.aKind o.aAddr && one o.bKind o.bAddr && (o.code != 7 || !e.readsSecret)

/-- Step 4 of R259: kinds of keys (R261), usages, algorithms, parts, staged usages and secret sources (R262 to R267). -/
def EngEnv.step4 (e : EngEnv) : Bool :=
  let o := e.o
  (o.kkind != 5) && (o.kkind != 4 || e.r.image == 1 || e.r.image == 2) &&
  (o.kkind != 1 || handleClass (o.f 4 4) == 0) &&
  (o.kkind != 3 || o.code == 5 || o.code == 6) &&
  (o.kkind != 2 || (match e.key with | some k => isSym k.alg | none => false)) &&
  e.usageOk && e.algOk && e.partOk && e.stageOk && e.secretOk &&
  (o.dKind != 9 || (match e.attr with
    | some a => !a.expt || (e.allExpt && (match e.key with | some k => k.expt | none => true))
    | none => true))

end Sys2Proof.Machine
end

