-- ==== Sys2Proof/Machine/Engine.lean ====
section
/-! DEFINITION. The cipher engines: issue, admission, each operation and its completion (R252 to R287). -/

namespace Sys2Proof.Machine

/-- A source's bytes (Table 11-6). -/
def EngEnv.read (e : EngEnv) (kind a n : Nat) : Bytes :=
  match kind with
  | 1 => e.c.lread a n
  | 2 => (List.range n).map (fun i => Tbl.getD e.k.sramData (a + i) 0)
  | 3 => slice e.r.payload a n
  | 4 => (match e.region with | some g => slice g.2.data a n | none => [])
  | 5 => slice (e.stg (a / 128)).data (a % 128) n
  | 6 => (match e.x.keyFor e.o.q e.r a with | some k => k.material.take n | none => [])
  | 7 => zeros n
  | _ => []

/-- Source A. -/
def EngEnv.a (e : EngEnv) : Bytes := e.read e.o.aKind e.o.aAddr e.o.aLen
/-- Source B. -/
def EngEnv.b (e : EngEnv) : Bytes := e.read e.o.bKind e.o.bAddr e.o.bLen

/-- The key as selected: the variant mask first, then the part (R263). -/
def EngEnv.material (e : EngEnv) : Bytes :=
  match e.key with
  | none => []
  | some k =>
    let m := if e.o.flag 3 then xorB k.data e.auxBytes else k.data
    let h := if k.halves then k.data.length / 2 else 8
    match e.o.kpart with
    | 1 => m.take h
    | 2 => (m.drop h).take h
    | _ => m

/-- The block function of an operation, as DES on a part of a two-key TDEA key (R263). -/
def EngEnv.blockFn (e : EngEnv) (enc : Bool) (m : Bytes) : Bytes :=
  let des := (match e.key with | some k => !k.halves | none => false) && e.o.kpart != 0
  if des then (if enc then desE1 e.material m else desD1 e.material m)
  else if enc then blkE e.partAlg e.material m else blkD e.partAlg e.material m

/-- `BLOCK_E` and `BLOCK_D` (Table 11-4). -/
def EngEnv.blocks (e : EngEnv) (enc : Bool) : Bytes :=
  let as := pieces e.bs e.a
  let bs := if e.o.bKind = 0 then as else pieces e.bs e.b
  (List.zipWith (fun a b =>
    let y := e.blockFn enc (if e.o.flag 5 then xorB a b else a)
    if e.o.flag 4 then xorB y b else y) as bs).flatten

/-- The counter block after one block: the low `w` bits count up, the others stay (R270). -/
def ctrNext (w : Nat) (c : Bytes) : Bytes :=
  let v := beNat c
  toBe c.length (v / 2 ^ w * 2 ^ w + (v + 1) % 2 ^ w)

/-- Counter-mode keystream over pieces of the source (R270). -/
def xctrRun (f : Bytes → Bytes) (w : Nat) : Bytes → List Bytes → Bytes
  | _, [] => []
  | c, p :: ps => xorB p (f c) ++ xctrRun f w (ctrNext w c) ps

/-- CBC chaining: every c_i (R271). -/
def chainRun (f : Bytes → Bytes) : Bytes → List Bytes → List Bytes
  | _, [] => []
  | c, m :: ms => let y := f (xorB c m); y :: chainRun f y ms

/-- The check value of a `FUNC` code (Table 11-5). -/
def macOf (f alg : Nat) (key m : Bytes) (len : Nat) : Bytes :=
  (if f = 0x0B then cmac alg key m else macAlg f alg key m len).take len

/-- `FINAL_MIX` (R272). -/
def mixData (mix : Nat) (v m : Bytes) : Bytes :=
  match mix with
  | 1 => patch m (m.length - 16) (xorB (m.drop (m.length - 16)) v)
  | 2 => xorB (fixLen 16 (m ++ [0x80])) v
  | _ => m

/-- A digest of `HASH` (R274). -/
def hashOf (f : Nat) (m : Bytes) : Bytes :=
  match f with
  | 0x21 => sha256 m
  | 0x22 => sha384 m
  | 0x23 => sha512 m
  | 0x24 => sponge 136 0x06 m 32
  | 0x25 => sponge 104 0x06 m 48
  | _ => sponge 72 0x06 m 64

/-- `KDF` (R273). -/
def kdfRun (f alg : Nat) (key a b : Bytes) (len : Nat) : Bytes :=
  if f = 9 ∨ f = 10 then kmac (if f = 9 then 168 else 136) key b a len
  else
    let n := macLimit f
    ((List.range (ceilDiv len n)).flatMap (fun i => macOf f alg key (toBe 4 (i + 1) ++ a ++ b) n)).take len

/-- `KCV` of the key as selected (R269). -/
def EngEnv.kcv (e : EngEnv) : Bytes :=
  match e.key with
  | none => []
  | some k =>
    if k.halves ∧ e.o.kpart = 2 then (cmac e.partAlg e.material (zeros 16)).take 5
    else kcvOf k.alg 0 k.data

/-- The check value of `CV` and `HOLD_RELEASE` over some data, after `FINAL_MIX`. -/
def EngEnv.checkValue (e : EngEnv) (m : Bytes) : Bytes :=
  macOf e.o.func e.partAlg e.material (mixData e.o.mix (e.auxBytes.take 16) m) e.o.outLen

/-- The expected check value (Table 11-7). -/
def EngEnv.expected (e : EngEnv) : Bytes := slice e.auxBytes 16 e.o.outLen

/-- The output bytes of an operation that writes some. -/
def EngEnv.output (e : EngEnv) : Bytes :=
  let o := e.o
  match o.code with
  | 1 => e.blocks true
  | 2 => e.blocks false
  | 3 => xctrRun (e.blockFn true) o.ctrW (o.iv.take e.bs) (pieces e.bs e.a)
  | 4 =>
    let cs := chainRun (e.blockFn true) (o.iv.take e.bs) (pieces e.bs (e.a ++ e.b))
    if o.outLen = 0 then cs.flatten else cs.getLastD (o.iv.take e.bs)
  | 5 => e.checkValue (e.a ++ e.b)
  | 6 => kdfRun o.func e.partAlg e.material e.a e.b o.outLen
  | 7 => hashOf o.func (e.a ++ e.b)
  | 8 => e.kcv
  | 9 => e.a
  | 10 => e.a ++ e.b
  | _ => []

/-- The attributes that a staging destination takes (R264). -/
def EngEnv.stagingAttr (e : EngEnv) : Staging :=
  { alg := e.o.f 54 1, usage := e.o.f 52 2, bdk := e.has 10 && (match e.key with | some k => k.alg == 1 | none => false),
    expt := e.has 10 || (e.allExpt && (match e.key with | some k => k.expt | none => true)) }

/-- A completion without output. -/
def engFail (status flags : Nat) : EngOut := { status := status, flags := flags + 1 }

/-- Blocks of a length, at least one. -/
def blockCount (n b : Nat) : Nat := max 1 (ceilDiv n b)

/-- The block in bytes of the hash of a `FUNC` code (Table 11-1). -/
def funcBlock (f : Nat) : Nat :=
  match f with
  | 6 | 0x21 => 64 | 7 | 8 | 0x22 | 0x23 => 128 | 9 => 168 | 10 | 0x24 => 136 | 0x25 => 104 | _ => 72

/-- SHA-2 blocks of a message: 0x80 and the length field follow it (8 bytes of length for SHA-256, 16 for the others). -/
def sha2Blocks (blk n : Nat) : Nat := ceilDiv (n + 1 + blk / 8) blk

/-- Keccak blocks of a message with its padding. -/
def keccakBlocks (rate n : Nat) : Nat := n / rate + 1

/-- Blocks that a check value computes, padding, outer hash and key blocks among them; `fresh` adds what the first use of a key
in the cache adds: the CMAC subkey, or the two pad states of HMAC (Table 11-12). A KMAC absorbs its name and customisation
string, and its key, in padded blocks of their own, and the encoded output length after the message. -/
def macBlocks (f n custom out : Nat) (fresh : Bool) : Nat :=
  match f with
  | 1 => blockCount n 16 + b2n fresh
  | 11 => blockCount n 8 + b2n fresh
  | 2 | 4 => blockCount n 8 + 2 * b2n (f == 4)
  | 3 | 5 => n / 8 + 1 + 2 * b2n (f == 5)
  | 6 | 7 | 8 => sha2Blocks (funcBlock f) n + 1 + 2 * b2n fresh
  | _ => ceilDiv (8 + (leftEnc (8 * custom)).length + custom) (funcBlock f) + 1 +
      keccakBlocks (funcBlock f) (n + (rightEnc (8 * out)).length)

/-- The cipher and hash blocks that an operation computes (R286, Table 11-13, assumption 29). -/
def EngEnv.blockWork (e : EngEnv) (fresh : Bool) : Nat :=
  let o := e.o
  match o.code with
  | 1 | 2 | 3 => ceilDiv o.aLen e.bs
  | 4 => (o.aLen + o.bLen) / e.bs
  | 5 => macBlocks o.func (o.aLen + o.bLen) 0 o.outLen fresh
  | 7 =>
    if o.func < 0x24 then sha2Blocks (funcBlock o.func) (o.aLen + o.bLen)
    else keccakBlocks (funcBlock o.func) (o.aLen + o.bLen)
  | 6 =>
    if o.func = 9 ∨ o.func = 10 then macBlocks o.func o.bLen o.aLen o.outLen false
    else ceilDiv o.outLen (max 1 (macLimit o.func)) * macBlocks o.func (4 + o.aLen + o.bLen) 0 0 false +
      (macBlocks o.func 0 0 0 fresh - macBlocks o.func 0 0 0 false)
  | 8 => if isTdea e.partAlg then 1 else
      macBlocks (if isAes e.partAlg then 1 else if e.partAlg = 8 then 6 else if e.partAlg = 9 then 8 else 9)
        (if isAes e.partAlg then 16 else 0) 0 16 fresh
  | 0x11 => macBlocks o.func o.aLen 0 o.outLen fresh
  | _ => 0

/-- The operations whose first use of a cached key adds blocks (Table 11-12). -/
def EngOp.pads (o : EngOp) : Bool := [5, 6, 8, 0x11].contains o.code

/-- The cluster of an operation changed. -/
def TwinSt.updCluster (x : TwinSt) (k : Nat) (f : Cluster → Cluster) : TwinSt :=
  { x with clusters := Tbl.put x.clusters k (f (Tbl.getD x.clusters k {})) }

/-- The size of a hold region: rounded up to 4 KiB (R275). -/
def holdSize (n : Nat) : Nat := ceilDiv n 4096 * 4096

/-- Whether a cluster's hold buffer of 512 KiB has room (R275). -/
def Cluster.holdRoom (k : Cluster) (n : Nat) : Bool :=
  decide (k.hold.foldl (fun m (h : Nat × HoldReg) => m + h.2.size) 0 + holdSize n ≤ 524288)

/-- A hold region granted to an operation's task. -/
def TwinSt.grantHold (x : TwinSt) (id : Nat) (o : EngOp) : TwinSt :=
  x.updCluster o.cluster (fun k => { k with
    hold := Tbl.put k.hold id { q := o.q, task := o.task, size := holdSize o.aLen, data := zeros (holdSize o.aLen) },
    holdWait := k.holdWait.filter (fun i => i != id) })

/-- The execution of an operation that has passed its checks (step 6 of R259); none while it waits for a hold region
(R275). -/
def EngEnv.execute (e : EngEnv) : TwinSt × Option EngOut :=
  let o := e.o
  let freed := fun (refused : Nat) => e.x.updCluster o.cluster (fun k => { k with
    hold := k.hold.filter (fun (h : Nat × HoldReg) => !(h.2.q == o.q && h.2.task == o.task)),
    holdRefused := satAdd 32 k.holdRefused refused })
  match o.code with
  | 5 =>
    if o.verify then
      if e.checkValue (e.a ++ e.b) = e.expected then (e.x, some { flags := 3 })
      else (e.x, some (engFail stVerify 0))
    else
      let d := e.output
      (e.x, some { flags := 1 + 4 * b2n (e.outClass == 1), out := d.length, data := d, tag := e.outClass == 1,
                   stg := some e.stagingAttr })
  | 0x10 =>
    if e.k.holdRoom o.aLen then (e.x.grantHold e.id o, some {})
    else (e.x.updCluster o.cluster (fun k => { k with holdWait := k.holdWait ++ [e.id] }), none)
  | 0x11 =>
    let m := e.a
    if e.checkValue m = e.expected then (freed 0, some { flags := 3, out := m.length, data := m })
    else (freed 1, some (engFail stTag 0))
  | 0x12 => (freed 0, some {})
  | _ =>
    let d := e.output
    if o.dKind = 9 then
      match e.attr with
      | none => (e.x, some (engFail stBadParam 0))
      | some a =>
        match e.x.createKey o.q none a 0 d with
        | some (.inr (h, x)) => (x, some { flags := 1, out := h })
        | some (.inl st) => (e.x, some (engFail st 0))
        | none => (e.x, some (engFail stBadParam 0))
    else
      (e.x, some { flags := 1 + 4 * b2n (e.outClass == 1), out := d.length, data := d, tag := e.outClass == 1,
                   stg := some e.stagingAttr })

/-- `LENCHK` (R267): the two staging bytes before `A_ADDR` are 8 times `A_LEN`, big-endian. -/
def EngEnv.lenOk (e : EngEnv) : Bool :=
  !e.o.flag 2 || (decide (2 ≤ e.o.aAddr % 128) && beNat (e.read 5 (e.o.aAddr - 2) 2) == 8 * e.o.aLen)

/-- The checks of R259 in their order; none where the operation goes on to execution. -/
def EngEnv.refusal (e : EngEnv) : Option EngOut :=
  let o := e.o
  if bits (o.f 2 1) 1 0 ≠ 0 ∨ bits (o.f 3 1) 3 2 ≠ 0 ∨ bits (o.f 9 1) 3 0 ≠ 0 ∨ bits (o.f 11 1) 3 0 ≠ 0 then
    some (engFail stReserved 0)
  else if ¬ e.step2 then some (engFail stBadParam 0)
  else if ¬ e.classOk then some (engFail stBadParam (if e.checkClass = 1 then 8 else 0))
  else if ¬ e.step3 then some (engFail stKeyNotFound 0)
  else if ¬ e.step4 then some (engFail stKeyUsage 0)
  else if ¬ e.lenOk then some (engFail stBadFormat 0)
  else if o.dKind = 9 then
    match e.attr with
    | some a => if (e.x.quota o.q 1 (extSlots (symLen a.alg)) (b2n a.ledger)).isNone then some (engFail stQuota 0) else none
    | none => none
  else none

/-- What an operation executes in, when its task is still there. -/
def TwinSt.engEnv? (x : TwinSt) (id : Nat) : Option EngEnv :=
  match Tbl.find? x.ops id with
  | none => none
  | some o =>
    match Tbl.find? x.reqs o.q with
    | none => none
    | some r =>
      let slot := (x.store.imageSlot r.image o.q).getD {}
      let e : EngEnv := { x := x, id := id, o := o, r := r, c := Tbl.getD x.ctxs (ctxKey o.ctx) {},
                          k := Tbl.getD x.clusters o.cluster {}, lm := 1024 * slot.lmemKib, key := none }
      some { e with key := e.select }

/-- Blocks queued on an engine: those of the operations placed on it that have not ended (R257, assumption 29). -/
def TwinSt.blocksOn (x : TwinSt) (isl : Nat) : Nat :=
  (x.placed isl).foldl (fun n id => n + (match x.engEnv? id with | some e => e.blockWork false | none => 0)) 0

/-- The engine that takes an operation: the active one of the cluster with the fewest blocks queued, the lower slot on a
tie (R257). -/
def TwinSt.pickEngine (x : TwinSt) (w : Twin) (cluster : Nat) : Option Nat :=
  ((enginesOf w cluster).filter (fun i => (x.unit i).role == .active && !(x.unit i).draining)).foldl
    (fun b i => match b with
      | none => some i
      | some j => if x.blocksOn i < x.blocksOn j then some i else some j) none

/-- Operations of a context outstanding (R244). -/
def TwinSt.outstanding (x : TwinSt) (c : Cid) : Nat := x.ops.countP (fun (o : Nat × EngOp) => o.2.ctx == c && o.2.admitted)

/-- Whether an operation finds a place: fewer than 8 of its context and fewer than 64 in its cluster (R244, R257). -/
def TwinSt.engRoom (x : TwinSt) (c : Cid) (cluster : Nat) : Bool :=
  decide (x.outstanding c < 8) && decide ((Tbl.getD x.clusters cluster {}).queue.length < 64)

/-- An operation admitted to its cluster's queue: placed on an engine, and counted in the task's counter (R177, R257). -/
def TwinSt.admitOp (x : TwinSt) (w : Twin) (id : Nat) (o : EngOp) : Option TwinSt :=
  (x.raiseDep o.q o.task (fun k => { k with engOut := k.engOut + 1 })).map (fun x =>
    let x := x.updCluster o.cluster (fun k => { k with queue := k.queue ++ [id] })
    { x with ops := Tbl.put x.ops id { o with admitted := true, engine := x.pickEngine w o.cluster } })

/-- A core switches to the task that executes after a context has entered or left a wait. -/
def State.rechargeCore (s : State) (isl : Nat) : State :=
  match islandTwin isl with
  | some w => s.updTwin w (fun x => x.recharge isl s.now)
  | none => s

/-- `ENG` (Table 9-14, R226, R257): undefined on Zenith; the checks of the base, the alignment, the access and the tags
of bytes 0 to 55; a full queue or eight outstanding operations make the context wait (R244). -/
def execEng (c : Cid) (rs1 : BitVec 5) (rsvd : Nat) (s : State) : Host.Outcome State Fault Refusal :=
  ev s.now (fun s =>
    (kstep c 4 (fun e => rsvd == 0 && !e.zenith) .no (fun e =>
      let a := (e.c.reg rs1).1.toNat
      if (e.c.reg rs1).2 then .exc e.c 5 3 rs1.toNat 0
      else if a % 64 ≠ 0 then .exc e.c 3 0 0 a
      else if e.region a 64 ≠ some .lmem then .exc e.c 4 0 0 a
      else if e.c.ltag a 56 then .exc e.c 5 8 0 0
      else
        let o : EngOp := { blk := e.c.lread a 56, q := e.q, task := e.i, ctx := e.cid, blkAddr := a,
                           cluster := islandCluster e.cid.island, arrived := e.now }
        let x := { e.x with nextOp := e.x.nextOp + 1 }
        if x.engRoom e.cid o.cluster then
          match x.admitOp e.w e.x.nextOp o with
          | some x => .ok x e.c
          | none => .abort
        else .ok { x with ops := Tbl.put x.ops e.x.nextOp o } { e.c with waiting := true }) s).rechargeCore c.island |>.engineWake s c.island) s

/-- `ENGINE_QUEUE_ADMIT` (R244, R257): the first operation held in a cluster that now finds room is admitted, and its
context goes on. -/
def execEngineQueueAdmit (t : Nat) (w : Twin) (cluster : Nat) (s : State) : Host.Outcome State Fault Refusal :=
  ev t (fun s =>
    let x := s.twin w
    match List.find? (fun (o : Nat × EngOp) => o.2.cluster == cluster && !o.2.admitted && x.engRoom o.2.ctx cluster) x.ops with
    | none => s
    | some (id, o) =>
      match x.admitOp w id o with
      | none => s.endWith w o.q stImage
      | some x =>
        (s.setTwin w { x with ctxs := Tbl.upd x.ctxs (ctxKey o.ctx) (fun c => { c with waiting := false }) }
          ).rechargeCore o.ctx.island) s

/-- Whether the payload bytes that an operation reads have been read by the twin (R328). -/
def EngEnv.payloadThere (e : EngEnv) : Bool :=
  let ok := fun (kind a n : Nat) => kind != 3 || e.r.hdr.isInline || e.r.covers a (min n (e.r.hdr.plen - a))
  ok e.o.aKind e.o.aAddr e.o.aLen && ok e.o.bKind e.o.bAddr e.o.bLen

/-- The masking generators of an engine (R283). -/
def TwinSt.masksOf (x : TwinSt) (isl : Nat) : List MaskGen :=
  [0, 1].map (fun d => Tbl.getD x.ent.masks (2 * isl + d) {})

/-- An operation held for the reseed of its engine's tainted masks (R315): each hold is counted once. -/
def TwinSt.holdMasks (x : TwinSt) (isl : Nat) : TwinSt :=
  [0, 1].foldl (fun (x : TwinSt) (d : Nat) =>
    let m : MaskGen := Tbl.getD x.ent.masks (2 * isl + d) {}
    if m.tainted ∧ ¬ m.held then
      { x with ent := { x.ent with masks := Tbl.put x.ent.masks (2 * isl + d) { m with held := true }
                                   holdsN := satAdd 32 x.ent.holdsN 1 } }
    else x) x

/-- Blocks between two reseeds of a masking generator, and the further ones that it may run on (R283, R284). -/
abbrev maskPeriod : Nat := 2 ^ 20
/-- The further blocks of R284. -/
abbrev maskExtra : Nat := 2 ^ 24

/-- Whether a masking generator's reseed is due: by its blocks, or by 100 ms (R283, Table 13-2). -/
def MaskGen.due (m : MaskGen) (now : Nat) : Bool := decide (maskPeriod ≤ m.blocks) || decide (m.seeded + 400000000 ≤ now)

/-- A masking generator whose next output waits for a block: not instantiated, or its reseed due while random service runs
(R284, R312). -/
def Entropy.maskDue (e : Entropy) (now : Nat) (m : MaskGen) : Bool := !m.inst || (!e.stopped && m.due now)

/-- The state of a masking generator after the masks of `n` more blocks: each block draws by one generate request
(R283, assumption 185). -/
def maskDrawn : Nat → Drbg → Drbg
  | 0, d => d
  | n + 1, d => maskDrawn n (drbgGen d Config.maskBytes).2

/-- The masks of the next block of a datapath (R283). -/
def MaskGen.masks (m : MaskGen) : Bytes := (drbgGen (maskDrawn m.blocks m.drbg) Config.maskBytes).1

/-- The personalisation string of a local generator (R311): kind 1 is the seed generator, 2 a masking generator. -/
def localPers (w : Twin) (kind isl dp pcycle : Nat) : Bytes :=
  serialBytes ++ [byte (twinCode w), byte kind] ++ toLe 2 isl ++ [byte dp, 0] ++ toLe 4 pcycle

/-- A masking generator takes a block: its first instantiates it, and a later one reseeds the state that its masks have left
(R310 to R312). -/
def MaskGen.takes (m : MaskGen) (w : Twin) (island dp pcycle now : Nat) (b : CBlock) : MaskGen :=
  { inst := true, srcs := b.srcs, last := b.stamp, seeded := now,
    drbg := if m.inst then drbgReseed (maskDrawn m.blocks m.drbg) b.data
            else drbgInst 16 b.data [] (localPers w 2 island dp pcycle) }

/-- A masking generator reseeded, or instantiated, from the oldest block; unchanged where there is none. -/
def TwinSt.reseedMask (x : TwinSt) (w : Twin) (island dp pcycle now : Nat) : TwinSt :=
  match x.ent.blocks with
  | [] => x
  | b :: l =>
    let k := 2 * island + dp
    let m : MaskGen := Tbl.getD x.ent.masks k {}
    let c : EngCtr := Tbl.getD x.engCtr island {}
    { x with
      ent := { x.ent with blocks := l, masks := Tbl.put x.ent.masks k (m.takes w island dp pcycle now b) }
      engCtr := if m.inst then Tbl.put x.engCtr island { c with reseed := satAdd 32 c.reseed 1 } else x.engCtr }

/-- The masks of `n` blocks drawn by one datapath: while random service runs a reseed falls due at every 2^20th block and is
made there; after a stop the generator runs on, and what it draws past the moment is counted (R283, R284). -/
def TwinSt.drawMasks (w : Twin) (isl dp pcycle now : Nat) : Nat → Nat → TwinSt → TwinSt
  | 0, _, x => x
  | fuel + 1, n, x =>
    let m : MaskGen := Tbl.getD x.ent.masks (2 * isl + dp) {}
    let put := fun (m : MaskGen) => { x with ent := { x.ent with masks := Tbl.put x.ent.masks (2 * isl + dp) m } }
    if x.ent.stopped then
      put { m with blocks := m.blocks + n, late := m.late + (if m.due now then n else m.blocks + n - maskPeriod) }
    else if m.blocks + n ≤ maskPeriod then put { m with blocks := m.blocks + n }
    else ((put { m with blocks := maskPeriod }).reseedMask w isl dp pcycle now).drawMasks w isl dp pcycle now fuel
      (n - (maskPeriod - m.blocks))

/-- Blocks of entropy that the masks of an operation of `n` blocks take on its way (R283). -/
def TwinSt.maskNeed (x : TwinSt) (isl n : Nat) : Nat :=
  if x.ent.stopped then 0
  else (x.masksOf isl).foldl (fun k m => k + (m.blocks + n - 1) / maskPeriod) 0

/-- An operation of `n` blocks would pass the 2^24 further blocks of R284 in one of its engine's generators. -/
def TwinSt.masksSpent (x : TwinSt) (isl n now : Nat) : Bool :=
  x.ent.stopped && (x.masksOf isl).any (fun m =>
    decide (maskExtra ≤ m.late) || decide (maskExtra < m.late + (if m.due now then n else m.blocks + n - maskPeriod)))

/-- The blocks of an operation counted on its engine, and their masks drawn in both datapaths (R283, R286). -/
def TwinSt.countWork (x : TwinSt) (w : Twin) (isl n pcycle now : Nat) : TwinSt :=
  let x := [0, 1].foldl (fun (x : TwinSt) d => x.drawMasks w isl d pcycle now (n / maskPeriod + 2) n) x
  let c : EngCtr := Tbl.getD x.engCtr isl {}
  { x with engCtr := Tbl.put x.engCtr isl { c with blocks := satAdd 48 c.blocks n } }

/-- Blocks that a generator may still draw once random service has stopped: up to its due moment, and the further ones of
R284. -/
def MaskGen.left (m : MaskGen) (now : Nat) : Nat := (if m.due now then 0 else maskPeriod - m.blocks) + (maskExtra - m.late)

/-- The masks run out in an operation: the blocks before one of its engine's generators had none left (R284). -/
def TwinSt.spendMasks (x : TwinSt) (w : Twin) (isl pcycle now : Nat) : TwinSt :=
  x.countWork w isl ((x.masksOf isl).foldl (fun k m => min k (m.left now)) (maskPeriod + maskExtra)) pcycle now

/-- The blocks that a run computes before its datapaths are found to differ: check values, KDF output and digests are compared at
the end, and the other functions block by block (R280). -/
def EngEnv.blocksTo (e : EngEnv) (n k : Nat) : Nat := if [1, 2, 3, 4].contains e.o.code then min n (k + 1) else n

/-- A key's entry in the cache of an engine. -/
def CachedKey.names (k : CachedKey) (c h born : Nat) : Bool := k.comp == c && k.handle == h && k.born == born

/-- The key store holds what a cache entry names: the entry of an erased key is invalid (R261). -/
def TwinSt.stillHeld (x : TwinSt) (k : CachedKey) : Bool :=
  let c := x.store.comp k.comp
  let l := if k.handle = 0 then c.transport.toList ++ c.oldTrans.map Prod.snd else (Tbl.find? c.keys k.handle).toList
  l.any (fun (r : KeyRec) => r.born == k.born) || x.reqs.any (fun (p : Nat × Req) => p.2.space == k.comp && (p.2.created k.handle).isSome)

/-- The handle key of an operation as its engine's cache knows it. -/
def EngEnv.cached (e : EngEnv) : Option CachedKey :=
  if e.o.kkind = 1 then (e.x.keyFor e.o.q e.r (e.o.f 4 4)).map (fun k =>
    { comp := e.r.space, handle := e.o.f 4 4, born := k.born }) else none

/-- Whether an operation is the first to use its key's subkey or pad states on an engine (Table 11-12). -/
def EngEnv.firstUse (e : EngEnv) (isl : Nat) : Bool :=
  match e.cached with
  | none => true
  | some c => !(Tbl.getD e.x.engCtr isl {}).cache.any (fun k => k.names c.comp c.handle c.born && k.pads && e.x.stillHeld k)

/-- The key cache of an engine after an operation: entries of erased keys are invalid, a miss is counted, and the oldest of 16
makes room (R261, R286, assumption 29). -/
def TwinSt.cacheKey (x : TwinSt) (isl : Nat) (c : CachedKey) (pads : Bool) : TwinSt :=
  let k : EngCtr := Tbl.getD x.engCtr isl {}
  let l := k.cache.filter x.stillHeld
  let k := if l.any (fun d => d.names c.comp c.handle c.born) then
      { k with cache := l.map (fun d => if d.names c.comp c.handle c.born then { d with pads := d.pads || pads } else d) }
    else { k with keyMiss := satAdd 32 k.keyMiss 1, cache := { c with pads := pads } :: l.take 15 }
  { x with engCtr := Tbl.put x.engCtr isl k }

/-- An operation's record changed. -/
def TwinSt.updOp (x : TwinSt) (id : Nat) (f : EngOp → EngOp) : TwinSt := { x with ops := Tbl.upd x.ops id f }

/-- Whether an operation has the key store deliver key material: its key by handle, PXK or CMK, or a source (R261, R280). -/
def EngOp.delivers (o : EngOp) : Bool := o.kkind == 1 || o.kkind == 4 || o.aKind == 6 || o.bKind == 6

/-- What a run leaves on its engine whether or not it succeeds: the blocks it computed, with their masks, and its key in the
cache (R261, R283, R286). -/
def TwinSt.ranOn (x : TwinSt) (e : EngEnv) (w : Twin) (isl n pcycle now : Nat) : TwinSt :=
  let x := x.countWork w isl n pcycle now
  match e.cached with
  | some c => x.cacheKey isl c e.o.pads
  | none => x

/-- A compare failure of an operation on its engine after `n` blocks (R281, R282): the engine is taken out, and the operation
re-run on another; a second failure ends it. -/
def State.mismatchOp (s : State) (w : Twin) (e : EngEnv) (id isl n : Nat) : State :=
  let s := s.updTwin w (fun x => x.ranOn e w isl n s.pcycle s.now)
  if e.o.rerun then
    ((s.updTwin w (fun x => x.updOp id (fun o => { o with done := some (engFail stInternal 0) }))).compareFail w isl
      false).cause w 0x02 isl
  else
    let other := (s.twin w).otherEngine w isl
    (s.compareFail w isl other.isSome).updTwin w (fun x =>
      x.updOp id (fun o => { o with engine := some (other.getD isl), rerun := true }))

/-- One operation on its engine. It waits while it is not admitted, for payload bytes, for the first seed and a due
reseed of the masks (R284, R312) and through a reseed hold, which sets the precedence mark (R194, R315). The checks of R259
come first. `cmpFail` says at which block the datapaths differ, and `keyFails` how many deliveries of its key failed their check
code: one is fetched once more, and a second counts as a compare failure (R280). -/
def engRun (w : Twin) (id code keyFails : Nat) (cmpFail : Option Nat) (s : State) : State :=
  let x := s.twin w
  match x.engEnv? id with
  | none => s
  | some e =>
    match e.o.engine.orElse (fun _ => x.pickEngine w e.o.cluster) with
    | none => s
    | some isl =>
      let o := e.o
      let woken := fun (t : State) => t.allocWake s w o.cluster
      if o.code ≠ code ∨ ¬ o.admitted ∨ o.waits ∨ o.done.isSome ∨ ¬ e.payloadThere ∨ ¬ s.awake isl ∨
          x.ent.seeds.isEmpty then s
      else if (x.masksOf isl).any (fun m => m.tainted) then
        s.updTwin w (fun x => (x.holdMasks isl).updReq o.q (fun r => { r with precMark := true }))
      else if (x.masksOf isl).any (x.ent.maskDue s.now) then s
      else
        match e.refusal with
        | some out => s.updTwin w (fun x => x.updOp id (fun o => { o with done := some out, engine := some isl }))
        | none =>
          let n := e.blockWork (e.firstUse isl)
          if x.masksSpent isl n s.now then
            s.updTwin w (fun x => (x.spendMasks w isl s.pcycle s.now).updOp id (fun o =>
              { o with done := some (engFail stRng 0), engine := some isl }))
          else if x.ent.blocks.length < x.maskNeed isl n then s
          else if o.delivers ∧ 2 ≤ keyFails then s.mismatchOp w e id isl 0
          else match cmpFail with
            | some k => s.mismatchOp w e id isl (e.blocksTo n k)
            | none =>
              let r := e.execute
              woken (s.setTwin w ((r.1.updOp id (fun o => { o with done := r.2, waits := r.2.isNone, engine := some isl })).ranOn e w
                isl n s.pcycle s.now))

/-- One engine operation as a command. -/
def engOp (t : Nat) (w : Twin) (op code keyFails : Nat) (cmpFail : Option Nat) (s : State) : Host.Outcome State Fault Refusal :=
  ev t (engRun w op code keyFails cmpFail) s

/-- `BLOCK_E` (Table 11-4). -/
def execBlockE (t : Nat) (w : Twin) (op : KeyedOp) (cmpFail : Option Nat) (s : State) : Host.Outcome State Fault Refusal :=
  engOp t w op.op 0x01 op.keyFails cmpFail s

/-- `BLOCK_D` (Table 11-4). -/
def execBlockD (t : Nat) (w : Twin) (op : KeyedOp) (cmpFail : Option Nat) (s : State) : Host.Outcome State Fault Refusal :=
  engOp t w op.op 0x02 op.keyFails cmpFail s

/-- `XCTR` (R270). -/
def execXctr (t : Nat) (w : Twin) (op : KeyedOp) (cmpFail : Option Nat) (s : State) : Host.Outcome State Fault Refusal :=
  engOp t w op.op 0x03 op.keyFails cmpFail s

/-- `CHAIN` (R271). -/
def execChain (t : Nat) (w : Twin) (op : KeyedOp) (cmpFail : Option Nat) (s : State) : Host.Outcome State Fault Refusal :=
  engOp t w op.op 0x04 op.keyFails cmpFail s

/-- `CV` (R272). -/
def execCv (t : Nat) (w : Twin) (op : KeyedOp) (cmpFail : Option Nat) (s : State) : Host.Outcome State Fault Refusal :=
  engOp t w op.op 0x05 op.keyFails cmpFail s

/-- `KDF` (R273). -/
def execKdf (t : Nat) (w : Twin) (op : KeyedOp) (cmpFail : Option Nat) (s : State) : Host.Outcome State Fault Refusal :=
  engOp t w op.op 0x06 op.keyFails cmpFail s

/-- `HASH` (R274). -/
def execHash (t : Nat) (w : Twin) (op : Nat) (cmpFail : Option Nat) (s : State) : Host.Outcome State Fault Refusal :=
  engOp t w op 0x07 0 cmpFail s

/-- `KCV` (R269). -/
def execKcv (t : Nat) (w : Twin) (op : KeyedOp) (cmpFail : Option Nat) (s : State) : Host.Outcome State Fault Refusal :=
  engOp t w op.op 0x08 op.keyFails cmpFail s

/-- `INSTALL` (R267). -/
def execInstall (t : Nat) (w : Twin) (op : Nat) (s : State) : Host.Outcome State Fault Refusal :=
  engOp t w op 0x09 0 none s

/-- `STG_BUILD` (Table 11-4). -/
def execStgBuild (t : Nat) (w : Twin) (op : KeyedOp) (s : State) : Host.Outcome State Fault Refusal :=
  engOp t w op.op 0x0A op.keyFails none s

/-- `HOLD_ALLOC` (R275). -/
def execHoldAlloc (t : Nat) (w : Twin) (op : Nat) (s : State) : Host.Outcome State Fault Refusal :=
  engOp t w op 0x10 0 none s

/-- `HOLD_RELEASE` (R276). -/
def execHoldRelease (t : Nat) (w : Twin) (op : KeyedOp) (cmpFail : Option Nat) (s : State) : Host.Outcome State Fault Refusal :=
  engOp t w op.op 0x11 op.keyFails cmpFail s

/-- `HOLD_FREE` (Table 11-4). -/
def execHoldFree (t : Nat) (w : Twin) (op : Nat) (s : State) : Host.Outcome State Fault Refusal :=
  engOp t w op 0x12 0 none s

/-- `HOLD_REGION_GRANTED` (R275): a waiting `HOLD_ALLOC` receives its region when the cluster has room; one whose task holds a
region by then ends with `BAD_PARAMETER`. -/
def execHoldRegionGranted (t : Nat) (w : Twin) (op : Nat) (s : State) : Host.Outcome State Fault Refusal :=
  ev t (fun s =>
    let x := s.twin w
    match Tbl.find? x.ops op with
    | none => s
    | some o =>
      if o.waits ∧ (x.engEnv? op).any (fun e => e.region.isSome) then
        (s.setTwin w ((x.updCluster o.cluster (fun k => { k with holdWait := k.holdWait.filter (fun i => i != op) })).updOp op
          (fun o => { o with waits := false, done := some (engFail stBadParam 0) }))).wakeDoms (engineDoms w o.cluster)
      else if o.waits ∧ (Tbl.getD x.clusters o.cluster {}).holdRoom o.aLen then
        (s.setTwin w ((x.grantHold op o).updOp op (fun o => { o with waits := false, done := some {} }))).wakeDoms
          (engineDoms w o.cluster)
      else s) s

/-- An operation whose `OP` names none ends with `BAD_PARAMETER`, after the reserved fields (R255, R259). -/
def EngEnv.unknown (e : EngEnv) : Option EngOut :=
  if [1, 2, 3, 4, 5, 6, 7, 8, 9, 10, 0x10, 0x11, 0x12].contains e.o.code then none else e.refusal

/-- The output written to the destination (R256, R258). -/
def EngEnv.deliver (e : EngEnv) (out : EngOut) : TwinSt :=
  let x := e.x
  let a := e.o.dAddr
  if out.data.isEmpty then x else
  match e.o.dKind with
  | 1 => x.deposit e.o.ctx a out.data out.tag
  | 2 => x.deposit e.o.ctx a out.data false
  | 4 => x.updCluster e.o.cluster (fun k => { k with hold := k.hold.map (fun (h : Nat × HoldReg) =>
      (h.1, if h.2.q = e.o.q ∧ h.2.task = e.o.task then { h.2 with data := patch h.2.data a out.data } else h.2)) })
  | 5 =>
    let key := 4 * ctxKey e.o.ctx + a / 128
    let attr := out.stg.getD {}
    let old := (Tbl.getD x.staging key {}).data
    { x with staging := Tbl.put x.staging key { attr with data := patch old (a % 128) out.data } }
  | 8 => x.updReq e.o.q (fun r => { r with result := patch r.result a out.data })
  | _ => x

/-- `ENGINE_OP_COMPLETE` (R258, R286): the output and `OUT`, then `ESTATUS` and `EFLAGS`, then the completion that lowers
the counter. -/
def execEngineOpComplete (t : Nat) (w : Twin) (op : Nat) (s : State) : Host.Outcome State Fault Refusal :=
  ev t (fun s =>
    let x := s.twin w
    match x.engEnv? op with
    | none => s
    | some e =>
      if ¬ e.o.admitted then s else
      match e.o.done.orElse (fun _ => e.unknown) with
      | none => s
      | some out =>
        let x := e.deliver out
        let x := x.deposit e.o.ctx (e.o.blkAddr + 56) (toLe 2 out.status ++ [byte out.flags, 0] ++ toLe 4 out.out) false
        let x := x.updTask e.o.q e.o.task (fun k => { k with engOut := k.engOut - 1 })
        let x := x.updCluster e.o.cluster (fun k => { k with queue := k.queue.filter (fun i => i != op) })
        let x := match e.o.engine with
          | some isl =>
            let c : EngCtr := Tbl.getD x.engCtr isl {}
            { x with engCtr := Tbl.put x.engCtr isl { c with ops := satAdd 48 c.ops 1 } }
          | none => x
        s.setTwin w { x with ops := Tbl.del x.ops op,
                             dones := x.dones ++ [{ q := e.o.q, task := e.o.task, kind := .engine }] }) s

end Sys2Proof.Machine
end

