-- ==== Sys2Proof/Machine/OrreryOps.lean ====
section
/-! DEFINITION. The Orrery: issue, the slice schedule, each operation and its completion (R288 to R304). -/

namespace Sys2Proof.Machine

/-- A field of the call block (Table 12-2). -/
def OrrCall.f (k : OrrCall) (off len : Nat) : Nat := fld k.blk off len

/-- P of Table 12-4: the ML-DSA public key length. -/
def OrrCall.pkLen (k : OrrCall) : Nat := mldsaPk (k.f 1 1)

/-- The status of a call that fails its reserved fields or R290; none for a call that may run (R292). -/
def OrrCall.refusal (k : OrrCall) : Option Nat :=
  let op := k.f 0 1
  let ps := k.f 1 1
  let fl := k.f 2 1
  let d := k.f 4 2
  let il := k.f 12 4
  let ol := k.f 20 4
  let ex := k.f 24 4
  let ml := k.f 28 4
  let plain := fl == 0 && ml == 0
  let ok : Bool := (match op with
    | 0x01 => ps == 0 && plain && decide (1 ≤ d) && decide (d ≤ 64) && il == 16 * d && ol == 8 * d
    | 0x10 =>
      d == 0 && ex == 0 && plain && ((ps == 0x20 && il == 160 && ol == 32) || (ps == 0x21 && il == 240 && ol == 48))
    | 0x11 => d == 0 && ex == 0 && plain && ps == 0x22 && il == 160 && ol == 0
    | 0x20 =>
      d == 0 && ex == 0 && (ps == 0x30 || ps == 0x31) && decide (bits fl 1 0 = 0) && ol == 0 &&
        (if bit fl 2 then ml == 0 && il == k.pkLen + mldsaSig ps + 64
         else decide (ml ≤ 32768) && il == k.pkLen + mldsaSig ps + ml)
    | 0x30 =>
      d == 0 && ex == 0 && ps == 0 && !bit fl 2 && il == 200 + ml && decide (ml ≤ 32640) &&
        (if bit fl 0 then decide (1 ≤ ol) && decide (ol ≤ 136) else ml % 136 == 0 && ol == 200)
    | _ => false)
  if k.f 3 1 ≠ 0 ∨ k.f 6 2 ≠ 0 ∨ 8 ≤ fl ∨ ¬ allZero (slice k.blk 32 24) then some stReserved
  else if ok ∧ il ≤ 40960 ∧ (ol ≠ 0 ∨ k.f 16 4 = 0) then none
  else some stBadParam

/-- The number of bits of a number below 2^32. -/
def bitLen (v : Nat) : Nat := (List.range 32).foldl (fun m i => if bit v i then i + 1 else m) 0

/-- C of R294. -/
def OrrCall.cycles (k : OrrCall) : Nat :=
  let ps := k.f 1 1
  let d := k.f 4 2
  let ml := k.f 28 4
  let b := if ps = 0x30 then 3300 else 4900
  match k.f 0 1 with
  | 0x01 => 160 + 4 * d + (d + 12) * (bitLen (k.f 24 4) + popCount 32 (k.f 24 4))
  | 0x10 => if ps = 0x20 then 14800 else 16400
  | 0x11 => 12000
  | 0x20 => if bit (k.f 2 1) 2 then b else b + 12 * (k.pkLen / 136 + 1 + (66 + ml) / 136 + 1)
  | _ => 40 + 12 * (if bit (k.f 2 1) 0 then ml / 136 + 1 else ml / 136)

/-- The lane class of a call and its lanes (Table 12-1). -/
def OrrCall.lane (k : OrrCall) : Nat × Nat :=
  match k.f 0 1 with
  | 0x01 => if k.f 4 2 ≤ 32 then (1, 2) else (2, 1)
  | 0x10 => if k.f 1 1 = 0x20 then (3, 4) else (4, 2)
  | 0x11 => (3, 4)
  | _ => (5, 1)

/-- Absorption of whole blocks of 136 bytes into a Keccak state. -/
def shakeAbsorb (st : Bytes) (m : Bytes) : Bytes :=
  (pieces 136 m).foldl (fun s b => keccakF (patch s 0 (xorB s b))) st

/-- `SHAKE256` (Table 12-4): the new state, or with `FINAL` the digest. -/
def shakeStep (first final : Bool) (st data : Bytes) (n : Nat) : Bytes :=
  let st := if first then zeros 200 else st
  if final then
    let full := data.length / 136 * 136
    let s := shakeAbsorb st (data.take full)
    let last := fixLen 136 (data.drop full ++ [0x1F])
    let last := patch last 135 [(last.getLastD 0) ^^^ 0x80]
    (keccakF (patch s 0 (xorB s last))).take n
  else shakeAbsorb st data

/-- The outcome of a call: its verdict where it has one, and its output (R295 to R298). -/
def OrrCall.compute (k : OrrCall) : Option Bool × Bytes :=
  let ps := k.f 1 1
  let i := k.input
  match k.f 0 1 with
  | 0x01 =>
    let d := 8 * k.f 4 2
    (none, toBe d (rsaPub (beNat (i.take d)) (beNat (slice i d d)) (k.f 24 4)))
  | 0x10 =>
    let f := (curveOf ps).len
    let p := fun n => beNat (slice i (n * f) f)
    let r := ecdsaVerify ps (p 0) (p 1) (p 2) (p 3) (p 4)
    (some r.1, toBe f r.2)
  | 0x11 => (some (edVerify (slice i 0 32) (slice i 32 32) (leNat (slice i 64 32)) (leNat (slice i 96 64))), [])
  | 0x20 =>
    let pk := i.take k.pkLen
    let sig := slice i k.pkLen (mldsaSig ps)
    let m := i.drop (k.pkLen + mldsaSig ps)
    (some (mldsaVerify ps pk sig (if bit (k.f 2 1) 2 then m else mldsaMu pk m)), [])
  | _ => (none, shakeStep (bit (k.f 2 1) 1) (bit (k.f 2 1) 0) (i.take 200) (i.drop 200) (k.f 20 4))

/-- Bytes of the call store in use: 512 KiB in each twin (R292). -/
def Orrery.used (o : Orrery) : Nat :=
  o.calls.foldl (fun n (c : Nat × OrrCall) => if c.2.admitted then n + 64 + c.2.input.length else n) 0

/-- Whether a call finds a place: room in the store, and at most two of its task (R244, R292). -/
def Orrery.room (o : Orrery) (k : OrrCall) : Bool :=
  decide (o.used + 64 + k.input.length ≤ 524288) &&
  decide (o.calls.countP (fun (c : Nat × OrrCall) => c.2.admitted && c.2.ctx == k.ctx && c.2.q == k.q && c.2.task == k.task) < 2)

/-- A call that enters the call store: one that fails its checks is done at once with `CYCLES` 0 (R292). -/
def OrrCall.enter (k : OrrCall) : OrrCall :=
  { k with admitted := true, done := k.refusal.map (fun st => (st, 1, [], 0)) }

/-- The calls that wait for a slot owned by another compartment, or whose compartment is at its cap, wait by rank 4, which sets
the precedence mark of their requests (R194, R301, Table 8-3). -/
def TwinSt.markOrrery (x : TwinSt) : TwinSt :=
  let mark := fun (p : OrrCall → Bool) => (x.orrery.calls.filter (fun (c : Nat × OrrCall) =>
    c.2.admitted && c.2.done.isNone && p c.2)).foldl (fun (x : TwinSt) c =>
      x.updReq c.2.q (fun r => { r with precMark := true })) x
  let full := fun (c : Nat) => decide (x.store.activeSet.comp c 13 1 ≤ Tbl.getD x.orrery.counts c 0)
  mark (fun k => k.owner != adminSpace && (full k.owner ||
    x.orrery.slice.any (fun l => l.1 != adminSpace && l.1 != k.owner)))

/-- A call admitted, and counted in its task's counter; Zenith's has no task. -/
def TwinSt.admitCall (x : TwinSt) (id : Nat) (k : OrrCall) : Option TwinSt :=
  let put := fun (x : TwinSt) =>
    ({ x with orrery := { x.orrery with calls := Tbl.put x.orrery.calls id k.enter } } : TwinSt).markOrrery
  if k.owner = adminSpace then some (put x)
  else (x.raiseDep k.q k.task (fun t => { t with orrOut := t.orrOut + 1 })).map put

/-- Bytes of a task's or Zenith's own memory, as `orr` copies them. -/
def KEnv.copy (e : KEnv) (a n : Nat) : Bytes := e.bytesAt a n

/-- `ORR` (Table 9-14, R226, R291): the base, alignment and access of the block and of both areas, then the tags of the
block and of the input; the block and the input are copied to the call store. -/
def execOrr (c : Cid) (rs1 : BitVec 5) (rsvd : Nat) (s : State) : Host.Outcome State Fault Refusal :=
  ev s.now (fun s =>
    (kstep c 4 (noRsvd rsvd) .no (fun e =>
      let a := (e.c.reg rs1).1.toNat
      let blk := e.c.lread a 56
      let ia := fld blk 8 4
      let il := fld blk 12 4
      let oa := fld blk 16 4
      let ol := fld blk 20 4
      let lm := fun (a n : Nat) => e.owns a n
      let shown := fun (at_ v : Nat) => if e.c.ltag (a + at_) 4 then 0 else v
      if (e.c.reg rs1).2 then .exc e.c 5 3 rs1.toNat 0
      else if a % 64 ≠ 0 then .exc e.c 3 0 0 a
      else if e.region a 64 ≠ some .lmem then .exc e.c 4 0 0 a
      else if ia % 8 ≠ 0 then .exc e.c 3 0 0 (shown 8 ia)
      else if oa % 8 ≠ 0 then .exc e.c 3 0 0 (shown 16 oa)
      else if ¬ lm ia il then .exc e.c 4 0 0 (shown 8 ia)
      else if ol ≠ 0 ∧ ¬ lm oa ol then .exc e.c 4 0 0 (shown 16 oa)
      else if e.c.ltag a 56 ∨ (e.region ia il = some .lmem ∧ il ≠ 0 ∧ e.c.ltag ia il) then .exc e.c 5 6 0 0
      else
        let k : OrrCall := { blk := blk, input := e.copy ia il, owner := if e.zenith then adminSpace else e.req.space,
                             q := e.q, task := e.i, ctx := e.cid, blkAddr := a, arrived := e.now }
        let id := e.x.orrery.nextCall
        let x := { e.x with orrery := { e.x.orrery with nextCall := id + 1 } }
        if x.orrery.room k then
          match x.admitCall id k with
          | some x => .ok x e.c
          | none => .abort
        else .ok { x with orrery := { x.orrery with calls := Tbl.put x.orrery.calls id k } } { e.c with waiting := true }) s
      ).rechargeCore c.island |>.orreryWake s c.island) s

/-- `ORRERY_CALL_STORE_ADMIT` (R292): the first waiting call that finds room is admitted, and its context goes on. -/
def execOrreryCallStoreAdmit (t : Nat) (w : Twin) (s : State) : Host.Outcome State Fault Refusal :=
  ev t (fun s =>
    let x := s.twin w
    match List.find? (fun (k : Nat × OrrCall) => !k.2.admitted && x.orrery.room k.2) x.orrery.calls with
    | none => s
    | some (id, k) =>
      match x.admitCall id { k with arrived := s.now } with
      | none => s.endWith w k.q stImage
      | some x =>
        (s.setTwin w { x with ctxs := Tbl.upd x.ctxs (ctxKey k.ctx) (fun c => { c with waiting := false }) }
          ).rechargeCore k.ctx.island) s

/-- Calls of an owner that wait to start. -/
def Orrery.queued (o : Orrery) (owner : Nat) : List (Nat × OrrCall) :=
  o.calls.filter (fun k => k.2.owner == owner && k.2.admitted && k.2.done.isNone)

/-- The call of an owner that starts next: the one that reached the call store first (R302). -/
def Orrery.firstQueued (o : Orrery) (owner : Nat) : Option (Nat × OrrCall) :=
  (o.queued owner).foldl (fun (b : Option (Nat × OrrCall)) k => match b with
    | none => some k
    | some c => if k.2.arrived < c.2.arrived then some k else some c) none

/-- Calls running at a stamp: their ends. -/
def Orrery.running (o : Orrery) (now : Nat) : List (OrrCall × Nat) :=
  o.calls.filterMap (fun (k : Nat × OrrCall) => match k.2.ends with
    | some e => if now < e then some (k.2, e) else none
    | none => none)

/-- Whether a call may start now under R302. -/
def Orrery.canStart (o : Orrery) (now id : Nat) (k : OrrCall) : Bool :=
  match o.slice with
  | none => false
  | some (owner, start, qEnd, ext, ran) =>
    let run := o.running now
    let stop := now + 4 * k.cycles
    let last := run.foldl (fun m r => max m r.2) 0
    owner == k.owner && decide (start ≤ now) && (o.firstQueued owner).map Prod.fst == some id &&
    (run.isEmpty || (run.all (fun r => r.1.lane.1 == k.lane.1) && decide (run.length < k.lane.2))) &&
    (decide (stop ≤ qEnd) || !ran || decide (now = start) || (decide (qEnd < ext) && !run.isEmpty && decide (stop ≤ last)))

/-- A call that starts: its outcome, and the stamp at which its output stands in operand memory (R293, R294, R302). -/
def TwinSt.startCall (x : TwinSt) (now id : Nat) (k : OrrCall) : TwinSt :=
  let r := k.compute
  let stop := now + 4 * k.cycles
  let st := match r.1 with | some false => stVerify | _ => stOk
  let fl := match r.1 with | some true => 3 | _ => 1
  let o := x.orrery
  let slice := o.slice.map (fun (ow, start, qEnd, ext, ran) =>
    let first := !ran || now == start
    (ow, if ran then start else now, qEnd, if first then max ext stop else ext, true))
  { x with orrery := { o with
      calls := Tbl.put o.calls id { k with done := some (st, fl, r.2, k.cycles), ends := some stop }
      slice := slice, lastOwner := some k.owner, dirty := true } }

/-- One Orrery operation as a command: the call starts where R302 lets it, in an Orrery that is awake (R25). -/
def orrOp (t : Nat) (w : Twin) (call code : Nat) (s : State) : Host.Outcome State Fault Refusal :=
  ev t (fun s =>
    let x := s.twin w
    match Tbl.find? x.orrery.calls call with
    | none => s
    | some k =>
      if k.f 0 1 = code ∧ k.admitted ∧ k.done.isNone ∧ x.orrery.canStart s.now call k ∧ s.awake (twinBase w + 197) then
        s.setTwin w (x.startCall s.now call k)
      else s) s

/-- `RSA_PUB` (R295). -/
def execRsaPub (t : Nat) (w : Twin) (call : Nat) (s : State) : Host.Outcome State Fault Refusal := orrOp t w call 0x01 s

/-- `ECDSA_VERIFY` (R296). -/
def execEcdsaVerify (t : Nat) (w : Twin) (call : Nat) (s : State) : Host.Outcome State Fault Refusal :=
  orrOp t w call 0x10 s

/-- `ED25519_VERIFY` (R297). -/
def execEd25519Verify (t : Nat) (w : Twin) (call : Nat) (s : State) : Host.Outcome State Fault Refusal :=
  orrOp t w call 0x11 s

/-- `MLDSA_VERIFY` (R298). -/
def execMldsaVerify (t : Nat) (w : Twin) (call : Nat) (s : State) : Host.Outcome State Fault Refusal :=
  orrOp t w call 0x20 s

/-- `SHAKE256` (R290). -/
def execShake256 (t : Nat) (w : Twin) (call : Nat) (s : State) : Host.Outcome State Fault Refusal := orrOp t w call 0x30 s

/-- The completion of a call written, its counter lowered, and the call gone from the call store (R293). -/
def TwinSt.completeCall (x : TwinSt) (call : Nat) (k : OrrCall) (st fl : Nat) (out : Bytes) (cyc : Nat) : TwinSt :=
  let x := if out.isEmpty then x else x.deposit k.ctx (k.f 16 4) out false
  let x := x.deposit k.ctx (k.blkAddr + 56) (toLe 2 st ++ [byte fl, 0] ++ toLe 4 cyc) false
  let x := { x with orrery := { x.orrery with calls := Tbl.del x.orrery.calls call } }
  if k.owner = adminSpace then x
  else { x.updTask k.q k.task (fun t => { t with orrOut := t.orrOut - 1 }) with
         dones := x.dones ++ [{ q := k.q, task := k.task, kind := .orrery }] }

/-- `ORRERY_CALL_COMPLETE` (R293): the output, untagged, then `OSTATUS`, `OVFLAGS` and `CYCLES`, then the completion. `ecc` says
that operand memory or the call store had an uncorrectable error: the call ends `INTERNAL_ERROR` with no output and a record,
and the error is cause 0x01 of its twin (R337). -/
def execOrreryCallComplete (t : Nat) (w : Twin) (call : CallEnd) (s : State) : Host.Outcome State Fault Refusal :=
  ev t (fun s =>
    match Tbl.find? (s.twin w).orrery.calls call.call with
    | none => s
    | some k =>
      if call.ecc ∧ k.admitted then
        let s := s.updTwin w (fun x => (x.completeCall call.call k stInternal 1 [] (match k.done with
          | some d => d.2.2.2
          | none => 0)).countEcc)
        (s.event (0xB000 + Config.orreryEvent.toNat) Config.orreryEventSev.toNat (twinCode w)
          (toLe 16 (Config.orreryDetail k.q call.call).toNat)).cause w 0x01 (twinBase w + 197)
      else match k.done with
        | none => s
        | some (st, fl, out, cyc) =>
          if k.ends.any (fun e => decide (s.now < e)) then s
          else s.updTwin w (fun x => x.completeCall call.call k st fl out cyc)) s

/-- The compartments that a set names. -/
def CfgSet.compNums (c : CfgSet) : List Nat :=
  c.cells.filterMap (fun (e : Nat × Byte) =>
    if e.1 / 65536 = 1 ∧ e.1 % 65536 % 40 = 2 ∧ e.1 % 65536 < 40960 then some (e.1 % 65536 / 40) else none)

/-- The reserved slots of a frame: each compartment's k-th slot is the first free one at or after 256 k / m (R300). -/
def CfgSet.frame (c : CfgSet) : Tbl Nat :=
  c.compNums.foldl (fun (f : Tbl Nat) (n : Nat) =>
    let m := c.comp n 12 1
    (List.range m).foldl (fun (f : Tbl Nat) (k : Nat) =>
      match (List.range 256).find? (fun d => (Tbl.find? f ((256 * k / m + d) % 256)).isNone) with
      | some d => Tbl.put f ((256 * k / m + d) % 256) n
      | none => f) f) []

/-- The quantum Q in Meridian units (R300). -/
def CfgSet.quantum (c : CfgSet) : Nat := 1000 * c.fld 6 0 2

/-- The slice in progress ended, at the latest with its quantum and its extension (R302): its owner's count grows by the slots
it used, and the frame moves on unless it was an inserted Zenith slice (R301). -/
def Orrery.endSlice (o : Orrery) (now q : Nat) : Orrery :=
  match o.slice with
  | none => o
  | some (owner, start, qEnd, ext, _) =>
    let stop := min now (max qEnd ext)
    let o := { o with slice := none }
    if owner = adminSpace then o
    else
      let o := { o with counts := Tbl.put o.counts owner (Tbl.getD o.counts owner 0 + ceilDiv (stop - start) (max 1 q)),
                        served := Tbl.put o.served owner stop }
      if o.slot = 255 then { o with slot := 0, counts := [], inserted := 0 } else { o with slot := o.slot + 1 }

/-- The owner of the next slice (R301): Zenith's inserted slice, the reserved slot's compartment, or the compartment with
the smallest count by its weight. -/
def Orrery.nextOwner (o : Orrery) (cfg : CfgSet) : Option Nat :=
  let has := fun (c : Nat) => !(o.queued c).isEmpty
  let count := fun (c : Nat) => Tbl.getD o.counts c 0
  let below := fun (c : Nat) => decide (count c < cfg.comp c 13 1)
  if has adminSpace ∧ o.inserted < 4 then some adminSpace
  else match Tbl.find? cfg.frame o.slot with
    | some c => if has c ∧ below c then some c else pick has count below
    | none => pick has count below
where
  /-- The third rule of R301. -/
  pick (has : Nat → Bool) (count : Nat → Nat) (below : Nat → Bool) : Option Nat :=
    let weight := fun (c : Nat) => max 1 (cfg.comp c 12 1)
    ((cfg.compNums.filter (fun c => has c && below c))).foldl (fun b c => match b with
      | none => some c
      | some d =>
        if count c * weight d < count d * weight c ∨
            (count c * weight d = count d * weight c ∧ Tbl.getD o.served c 0 < Tbl.getD o.served d 0) then some c
        else some d) none

/-- Whether the slice in progress has ended under R302: nothing of it runs, and its quantum has passed or its owner has
nothing left that can start. -/
def Orrery.sliceOver (o : Orrery) (now : Nat) : Bool :=
  match o.slice with
  | none => true
  | some (owner, start, qEnd, _, _) =>
    decide (start ≤ now) && (o.running now).isEmpty &&
      (decide (qEnd ≤ now) || (match o.firstQueued owner with
        | some k => !o.canStart now k.1 k.2
        | none => true))

/-- `ORRERY_SLOT_BOUNDARY` (R301, R303): the next slice begins, after the erasure of operand memory when its owner is
another than that of the last call run; a slot without an owner passes. -/
def execOrrerySlotBoundary (t : Nat) (w : Twin) (s : State) : Host.Outcome State Fault Refusal :=
  ev t (fun s => s.updTwin w (fun x =>
    if ¬ x.orrery.sliceOver s.now then x else
    let cfg := x.store.activeSet
    let o := x.orrery.endSlice s.now cfg.quantum
    match o.nextOwner cfg with
    | none =>
      let x := { x with orrery := if o.slot = 255 then { o with slot := 0, counts := [], inserted := 0 }
                                  else { o with slot := o.slot + 1 } }
      (o.calls.filter (fun (k : Nat × OrrCall) =>
        k.2.admitted && k.2.done.isNone && k.2.owner != adminSpace)).foldl (fun (x : TwinSt) k =>
          x.updReq k.2.q (fun r => { r with precMark := true })) x
    | some c =>
      let wipe := o.dirty && o.lastOwner != some c
      let start := if wipe then s.now + 512 else s.now
      { x with orrery := { o with
          slice := some (c, start, start + cfg.quantum, 0, false), dirty := o.dirty && !wipe,
          inserted := if c = adminSpace then o.inserted + 1 else o.inserted } }.markOrrery)) s

/-- `ORRERY_QUANTUM_EXPIRY` (R302): the quantum has passed; the slice ends once no call of it is running. -/
def execOrreryQuantumExpiry (t : Nat) (w : Twin) (s : State) : Host.Outcome State Fault Refusal :=
  ev t (fun s => s.updTwin w (fun x =>
    match x.orrery.slice with
    | some (_, _, qEnd, _, _) =>
      if qEnd ≤ s.now ∧ (x.orrery.running s.now).isEmpty then
        { x with orrery := x.orrery.endSlice s.now x.store.activeSet.quantum }
      else x
    | none => x)) s

end Sys2Proof.Machine
end

