-- ==== Sys2Proof/Machine/Scheduler.lean ====
section
/-! DEFINITION. Coachyard: shares, ready lists, dispatch and pre-emption, completions, deadlines and budgets, and the ends
of streams and discarded ids (R71, R73, R176 to R194, R239, R247). -/

namespace Sys2Proof.Machine

/-- The first of the least elements of a list, by a strict order. -/
def leastBy {α : Type} (lt : α → α → Bool) : List α → Option α
  | [] => none
  | a :: l => match leastBy lt l with
    | none => some a
    | some b => if lt b a then some b else some a

/-- When a compartment was last served. -/
def TwinSt.lastServed (x : TwinSt) (c : Nat) : Nat := Tbl.getD x.served c 0

/-- The compartment chosen among those with a ready task (R184). -/
def TwinSt.chooseComp (x : TwinSt) (l : List Standing) : Option Standing :=
  let tie := fun (a b : Standing) => decide (x.lastServed a.comp < x.lastServed b.comp)
  let lt := fun (wa wb : Nat) (a b : Standing) =>
    decide (a.used * wb < b.used * wa) || (a.used * wb == b.used * wa && tie a b)
  let first := l.filter Standing.belowMin
  if first.isEmpty then leastBy (fun a b => lt a.weight b.weight a b) (l.filter Standing.belowCap)
  else leastBy (fun a b => lt a.min b.min a b) first

/-- The key of a lane in the counts of dispatches that passed it over. -/
def laneKey (c lane : Nat) : Nat := 8 * c + lane

/-- The lane chosen within a compartment (R185). -/
def TwinSt.chooseLane (x : TwinSt) (c : Nat) (lanes : List Nat) : Option Nat :=
  let starved := lanes.filter (fun n => decide (64 ≤ Tbl.getD x.passed (laneKey c n) 0))
  if starved.isEmpty then leastBy (fun a b => decide (b < a)) lanes else leastBy (fun a b => decide (a < b)) starved

/-- The task that Coachyard chooses next (R184, R185); in the standby an owed request comes first (R336). -/
def TwinSt.chooseTask (x : TwinSt) (w : Twin) (act : Bool) (now : Nat) : Option Ready :=
  let l := x.readyTasks act
  let owed := l.find? (fun t => !act && (match Tbl.find? x.reqs t.q with | some r => r.peerDig.isSome | none => false))
  if owed.isSome then owed else
  match x.chooseComp ((distinct (l.map (fun t => t.comp))).map (x.standing w now)) with
  | none => none
  | some a =>
    let mine := l.filter (fun t => t.comp == a.comp)
    match x.chooseLane a.comp (distinct (mine.map (fun t => t.lane))) with
    | none => none
    | some n => mine.find? (fun t => t.lane == n)

/-- 30 s (R71, R73, R76). -/
abbrev halfMinute : Nat := 120000000000

/-- The stream of a flow as a segment's judgement finds it: 30 s after its latest segment it has failed (R73). -/
def Stream.at_ (st : Stream) (q : Nat) : Stream :=
  if st.isOpen ∧ st.last + halfMinute ≤ q then { st with isOpen := false, failed := true } else st

/-- The segment fields against the stream of the flow (R73, R74): a status where they break a rule. -/
def segStatus (h : Hdr) (st : Stream) : Nat :=
  if st.isOpen then (if ¬ h.segFirst ∧ h.segIndex = st.next then 0 else stBadSegment)
  else if h.segFirst ∧ h.segIndex = 0 then 0
  else if st.failed ∧ ¬ h.segFirst then stStream
  else stBadSegment

/-- The check of a segment's fields when its turn in the flow has come, whichever image serves it (R73, check 4). -/
def TwinSt.segBad (x : TwinSt) (q : Nat) (r : Req) : Nat :=
  let fl : Flow := Tbl.getD x.store.flows (flowKey r.space r.hdr.flow) {}
  if r.hdr.segmented ∧ ¬ r.forZenith then segStatus r.hdr (fl.stream.at_ q) else 0

/-- One root task when its turn has come: it is answered from the replay table (R77), its segment fields are judged (R73), or
its late declarations are checked (R236). -/
def TwinSt.settleRoot (x : TwinSt) (act : Bool) (now q : Nat) : TwinSt :=
  match Tbl.find? x.reqs q with
  | none => x
  | some r =>
    match Tbl.find? r.tasks 0 with
    | none => x
    | some k =>
      if r.fin.isSome ∨ r.begun ∨ k.dep ≠ 0 ∨ x.ordered act q r ∨ x.cutting q r then x
      else match r.matched.orElse (fun _ => x.replayOf r) with
        | some e =>
          if r.complete then x.finish act now q (e.answer r)
          else x.updReq q (fun r => { r with matched := some e })
        | none =>
          if r.denied ≠ 0 then x.answer act now q r.denied
          else if x.segBad q r ≠ 0 then x.finish act now q { status := x.segBad q r, commits := commitsAt (x.segBad q r) }
          else match if r.forZenith then none else x.entryOf q r with
          | some (_, d) => if r.newH.length < d.newKeys then x.answer act now q stQuota else x.redeclare q now d.decls
          | none => x

/-- Whether a core may be a target at all: active, not draining, not trimmed, not taken by a re-execution. -/
def TwinSt.coreServes (x : TwinSt) (isl : Nat) : Bool :=
  (x.unit isl).role == .active && !(x.unit isl).draining && !(Tbl.getD x.clusters (islandCluster isl) {}).trimmed &&
  !x.reexecCores.contains isl

/-- Whether a context is free. -/
def TwinSt.ctxFree (x : TwinSt) (isl n : Nat) : Bool := !(Tbl.getD x.ctxs (2 * isl + n) {}).occ

/-- The cores of a twin, in island order. -/
def twinCores (w : Twin) : List Nat := (List.range 16).flatMap (coresOf w)

/-- Whether the quadrant of a core holds pages of an image (R186, R238). -/
def TwinSt.holdsImage (x : TwinSt) (isl img : Nat) : Bool :=
  x.cache.any (fun p => p.1 == islandCluster isl / 4 && p.2.1 / 2 == img)

/-- A pending re-execution takes its core (R345): the first free one in the spare role, and with none free the first idle one,
ahead of all other work. -/
def TwinSt.takeReexec (x : TwinSt) (w : Twin) : TwinSt :=
  let due := (x.reqs.filter (fun (p : Nat × Req) => p.2.mismatch && p.2.reexec.isNone && p.2.reexecOn.isNone)).map Prod.fst
  due.foldl (fun (x : TwinSt) q =>
    let cores := twinCores w
    match (cores.find? x.freeSpare).orElse (fun _ =>
        cores.find? (fun i => x.coreServes i && x.ctxFree i 0 && x.ctxFree i 1)) with
    | some i => x.updReq q (fun r => { r with reexecOn := some i })
    | none => x) x

/-- Every request of a twin looked at before a dispatch choice: turns that have come, tasks made ready, the precedence mark
of those that wait while their compartment is at its cap (R194, rank 4). -/
def TwinSt.prepare (x : TwinSt) (w : Twin) (act : Bool) (now : Nat) : TwinSt :=
  let x := (x.reqs.map Prod.fst).foldl (fun x q => x.settleRoot act now q) (x.takeReexec w)
  let x := { x with charges := x.charges.filter (fun c => decide (now < c.fin + shareWindow)) }
  (x.readyTasks act).foldl (fun (x : TwinSt) (t : Ready) => x.updTask t.q t.i (fun k => { k with st := .ready }))
    (x.markCap w act now)

/-- `CAP_HELD` (Table 14-9): a choice has passed over a compartment at its cap. -/
def TwinSt.countCap (x : TwinSt) (w : Twin) (act : Bool) (now : Nat) : TwinSt :=
  let comps := distinct ((x.readyTasks act).map (fun t => t.comp))
  let held := comps.any (fun c => !(x.standing w now c).belowCap)
  { x with ctr := { x.ctr with capHeld := satAdd 32 x.ctr.capHeld (b2n held) } }

/-- The first of some cores: one whose quadrant holds the image, and otherwise the lowest island (R186). -/
def TwinSt.preferred (x : TwinSt) (img : Nat) (l : List Nat) : Option Nat :=
  (l.find? (fun i => x.holdsImage i img)).orElse (fun _ => l.head?)

/-- The target of a task without a pre-emption: an idle core, and then a core with one empty context whose other is in a
wait (R186). -/
def TwinSt.target (x : TwinSt) (w : Twin) (img : Nat) : Option (Nat × Nat) :=
  let cores := (twinCores w).filter x.coreServes
  match x.preferred img (cores.filter (fun i => x.ctxFree i 0 && x.ctxFree i 1)) with
  | some i => some (i, 0)
  | none =>
    let half := cores.filter (fun i =>
      (x.ctxFree i 0 && !x.ctxFree i 1 && x.inWait i 1) || (x.ctxFree i 1 && !x.ctxFree i 0 && x.inWait i 0))
    (x.preferred img half).map (fun i => (i, if x.ctxFree i 0 then 0 else 1))

/-- A context as the task finds it at its dispatch or at its time-out entry (R239, Table 9-4). Local memory of another
compartment's task is cleared (R134). -/
def Ctx.fresh (c : Ctx) (q i comp n lmemKib entry arg : Nat) (dclp : Bool) : Ctx :=
  let z : Ctx := { occ := true, task := some (q, i), comp := comp,
                   lmem := if c.comp = comp then c.lmem else [], ltags := if c.comp = comp then c.ltags else [],
                   pc := BitVec.ofNat 64 (0x40000000 + entry),
                   sr := BitVec.ofNat 64 (2048 * b2n dclp + b2n (n == 1)) }
  let sp := BitVec.ofNat 64 (1024 * lmemKib)
  ((((z.setReg 6 sp false).setReg 7 0x70000000 false).setReg 8 (BitVec.ofNat 64 i) false).setReg 9
    (BitVec.ofNat 64 arg) false).setAnchor 0 sp

/-- The entry point of a task: the dispatch entry's for a root, its own for a child. -/
def Req.entryPoint (r : Req) (slot : Slot) (i : Nat) : Nat :=
  if i = 0 then (match slot.entry? r.image r.hdr.opcode with | some d => d.entry | none => 0)
  else match Tbl.find? r.tasks i with | some k => k.entry | none => 0

/-- A task placed on a context (R186, R239), with its dispatch stamp. -/
def TwinSt.place (x : TwinSt) (now stamp q i isl n : Nat) (pre : Bool) : TwinSt :=
  match Tbl.find? x.reqs q, x.task? q i with
  | some r, some k =>
    let slot := (x.store.imageSlot r.image q).getD {}
    let ent := r.entryPoint slot i
    let old : Ctx := Tbl.getD x.ctxs (2 * isl + n) {}
    let c := old.fresh q i r.space n slot.lmemKib ent k.arg (bit (slot.pageFlags (ent / 4096)) 2)
    let x := { x with ctxs := Tbl.put x.ctxs (2 * isl + n) c }
    let x := x.updReq q (fun r => { (r.updTask i (fun k =>
      { k with st := .running, dispatch := stamp, ctx := some ⟨isl, n⟩, preempting := pre })) with begun := true })
    let x := x.keepLog q
    x.recharge isl now
  | _, _ => x

/-- The counts of R184 and R185 after a dispatch of a compartment's task. -/
def TwinSt.countServed (x : TwinSt) (stamp : Nat) (t : Ready) (lanes : List Nat) : TwinSt :=
  let passed := (List.range 8).foldl (fun (p : Tbl Nat) n =>
    let v := if n = t.lane ∨ ¬ lanes.contains n then 0 else Tbl.getD p (laneKey t.comp n) 0 + 1
    Tbl.store p (laneKey t.comp n) v 0) x.passed
  { x with served := Tbl.put x.served t.comp stamp, passed := passed }

/-- The lanes of a compartment that hold a ready task. -/
def TwinSt.lanesOf (x : TwinSt) (act : Bool) (c : Nat) : List Nat :=
  distinct (((x.readyTasks act).filter (fun t => t.comp == c)).map (fun t => t.lane))

/-- A chosen task dispatched to a context: the stamp of Coachyard, and the wake of its domains (R33, R416). -/
def State.dispatchTo (s : State) (w : Twin) (t : Ready) (isl n : Nat) (pre : Bool) : State :=
  let co := twinBase w + 196
  let stamp := s.stampOf co
  let s := s.stamped co
  let x := (s.twin w).countCap w (s.isActive w) s.now
  let lanes := x.lanesOf (s.isActive w) t.comp
  (s.setTwin w ((x.place s.now stamp t.q t.i isl n pre).countServed stamp t lanes)).wakeDoms (dispatchDoms w isl)

/-- `TASK_DISPATCH` (R184 to R186): Coachyard looks at its ready lists and places the chosen task on a target of the first
two kinds, when there is one. -/
def execTaskDispatch (t : Nat) (w : Twin) (s : State) : Host.Outcome State Fault Refusal :=
  ev t (fun s =>
    if ¬ s.executes w ∨ ¬ s.coachyardAwake w then s else
      let s := s.updTwin w (fun x => x.prepare w (s.isActive w) s.now)
      let x := s.twin w
      match x.chooseTask w (s.isActive w) s.now with
      | none => s
      | some t =>
        match x.target w (match Tbl.find? x.reqs t.q with | some r => r.image | none => 0) with
        | none => s
        | some (isl, n) => s.dispatchTo w t isl n false) s

/-- A task that may be pre-empted: its request, index, core, free context, compartment's standing and rank keys (R187). -/
structure Victim where
  q    : Nat
  i    : Nat
  isl  : Nat
  free : Nat
  lane : Nat
  disp : Nat
  st   : Standing

/-- The running tasks that are the only occupied context of their core and do not pre-empt. -/
def TwinSt.victims (x : TwinSt) (w : Twin) (now : Nat) : List Victim :=
  (twinCores w).filterMap (fun isl =>
    match x.onCore isl with
    | [(q, i, n)] =>
      match Tbl.find? x.reqs q, x.task? q i with
      | some r, some k =>
        if k.st = .running ∧ ¬ k.preempting ∧ x.coreServes isl ∧ ¬ x.inWait isl n then
          some { q := q, i := i, isl := isl, free := 1 - n, lane := r.hdr.lane, disp := k.dispatch,
                 st := x.standing w now r.hdr.comp }
        else none
      | _, _ => none
    | _ => none)

/-- Whether a task may take a victim's core: for a reserved share, or for a higher lane of the same compartment. -/
def Victim.reserved (v : Victim) (a : Standing) : Bool := a.belowMin && !v.st.belowMin

/-- The order in which victims are taken (R187). -/
def Victim.before (u v : Victim) : Bool :=
  let share := fun (a b : Standing) => if b.min = 0 then false else a.min == 0 || decide (b.used * a.min < a.used * b.min)
  if share u.st v.st then true else if share v.st u.st then false
  else if u.lane ≠ v.lane then decide (u.lane < v.lane) else decide (v.disp < u.disp)

/-- `PREEMPTION` (R187): the chosen task takes the empty context of a victim's core, and the victim is suspended. A victim of
a reserved share takes the precedence mark (R194). -/
def execPreemption (t : Nat) (w : Twin) (s : State) : Host.Outcome State Fault Refusal :=
  ev t (fun s =>
    if ¬ s.executes w ∨ ¬ s.coachyardAwake w then s else
      let s := s.updTwin w (fun x => x.prepare w (s.isActive w) s.now)
      let x := s.twin w
      match x.chooseTask w (s.isActive w) s.now with
      | none => s
      | some t =>
        let img := match Tbl.find? x.reqs t.q with | some r => r.image | none => 0
        let a := x.standing w s.now t.comp
        let ok := fun (v : Victim) => v.reserved a || (v.st.comp == t.comp && decide (v.lane < t.lane))
        if (x.target w img).isSome then s
        else match leastBy Victim.before ((x.victims w s.now).filter ok) with
          | none => s
          | some v =>
            let s := s.updTwin w (fun x =>
              let x := x.stopCharge s.now v.q v.i
              let x := x.updReq v.q (fun r => { (r.updTask v.i (fun k => { k with st := .suspended })) with
                precMark := r.precMark || v.reserved a })
              { x with ctr := { x.ctr with preempts := satAdd 32 x.ctr.preempts 1 } })
            s.dispatchTo w t v.isl v.free true) s

/-- Whether a context is held by an operation or a call that has found no place yet, or by a rank-6 wait (R238, R244). -/
def TwinSt.held (x : TwinSt) (c : Cid) : Bool :=
  (Tbl.getD x.ctxs (ctxKey c) {}).wants != .nothing ||
  x.ops.any (fun (o : Nat × EngOp) => o.2.ctx == c && !o.2.admitted) ||
  x.orrery.calls.any (fun (o : Nat × OrrCall) => o.2.ctx == c && !o.2.admitted)

/-- A task's wait ends: its context goes on when nothing else holds it. -/
def TwinSt.endWait (x : TwinSt) (now q i : Nat) : TwinSt :=
  match (x.task? q i).bind (fun k => k.ctx) with
  | some c =>
    if x.held c then x
    else { x with ctxs := Tbl.upd x.ctxs (ctxKey c) (fun (k : Ctx) => { k with waiting := false }) }.recharge c.island now
  | none => x

/-- One completion applied (R177, R178): the counter falls; a failed predecessor marks the root, which ends
`PREDECESSOR_FAILED` when its counter is 0. -/
def TwinSt.complete (x : TwinSt) (act : Bool) (now : Nat) (d : Done) : TwinSt :=
  let x := x.updTask d.q d.task (fun k => { k with dep := k.dep - 1 })
  let x := if d.kind = .pred false then x.updReq d.q (fun r => { r with failMark := true }) else x
  match Tbl.find? x.reqs d.q, x.task? d.q d.task with
  | some r, some k =>
    if k.dep ≠ 0 then x
    else if d.task = 0 ∧ r.failMark ∧ ¬ r.begun then x.finish act now d.q { status := stPredFailed }
    else x.endWait now d.q d.task
  | _, _ => x

/-- `DEPENDENCE_COMPLETION` (R177, R178, R243, R320): the services that can complete now do, and completions are applied in the
order in which they reach Coachyard. -/
def execDependenceCompletion (t : Nat) (w : Twin) (s : State) : Host.Outcome State Fault Refusal :=
  ev t (fun s =>
    let s := s.serve w
    if ¬ s.coachyardAwake w then s else
    match (s.twin w).dones with
    | [] => s
    | d :: l => s.updTwin w (fun x =>
        ({ x with dones := l }.complete (s.isActive w) s.now d).markCap w (s.isActive w) s.now)) s

/-- Whether a task of a request waits for randomness while random service has stopped (R193). -/
def TwinSt.rngHeld (x : TwinSt) (q : Nat) (r : Req) : Bool :=
  x.ent.stopped && (!r.rngWait.isEmpty || x.asyncs.any (fun a => match a with | .rng q' _ _ _ _ _ => q' == q | _ => false))

/-- Core time of a task so far (R183). -/
def Task.ranFor (k : Task) (now : Nat) : Nat := k.used + (match k.chargeOn with | some b => now - b | none => 0)

/-- One dispatched task of a request whose deadline is reached (R191): a wait ends with the time-out indication; any other
task starts at `TMO_ENTRY`, as R239 gives a context (assumption 39). -/
def TwinSt.timeOutTask (x : TwinSt) (now q : Nat) (r : Req) (i : Nat) : TwinSt :=
  match (x.task? q i).bind (fun k => k.ctx) with
  | none => x
  | some c =>
    let old : Ctx := Tbl.getD x.ctxs (ctxKey c) {}
    let slot := (x.store.imageSlot r.image q).getD {}
    let tmo := match slot.entry? r.image r.hdr.opcode with | some d => d.tmo | none => 0
    let new : Ctx := if old.waiting then { old with waiting := false, wants := .nothing, sr := setBits old.sr 30 1 1 }
      else old.fresh q i old.comp c.ctx slot.lmemKib tmo
        (match x.task? q i with | some k => k.arg | none => 0) (bit (slot.pageFlags (tmo / 4096)) 2)
    let x := x.updTask q i (fun k => { k with timedOut := true, usedAt := k.ranFor now })
    { x with ctxs := Tbl.put x.ctxs (ctxKey c) new }.recharge c.island now

/-- A deadline or a budget reached in the active twin (R191 to R193, R247): tasks not dispatched leave without running; with
none dispatched the request ends at once. -/
def TwinSt.timeOut (x : TwinSt) (now q : Nat) : TwinSt :=
  match Tbl.find? x.reqs q with
  | none => x
  | some r =>
    if r.fin.isSome ∨ r.timedOut.isSome ∨ r.matched.isSome ∨ r.denied ≠ 0 then x
    else if x.rngHeld q r then x.finish true now q { status := stRng }
    else
      let on := (r.tasks.filter (fun (k : Nat × Task) => k.2.ctx.isSome)).map Prod.fst
      if on.isEmpty then x.finish true now q { status := r.deadlineStatus }
      else
        let x := x.dropTasks now q (fun i => !on.contains i) false
        let x := x.updReq q (fun r => { r with timedOut := some now })
        on.foldl (fun x i => x.timeOutTask now q r i) x

/-- A card dialogue of a request that has ended is over (R166, R191). -/
def State.dropDialogue (s : State) (q : Nat) : State :=
  let off := fun (p : Port) => match p.dlg with
    | some d => if d.q = q then { p with dlg := none, active := false } else p
    | none => p
  { s with port0 := off s.port0, port1 := off s.port1 }

/-- The deadline of a request reached in the active twin. -/
def State.timeOutIn (s : State) (w : Twin) (q : Nat) : State :=
  let s := s.updTwin w (fun x => (x.markCap w true s.now).timeOut s.now q)
  match Tbl.find? (s.twin w).reqs q with
  | some r => if r.fin.isSome then s.dropDialogue q else s
  | none => s

/-- `DEADLINE_REACHED` (R32, R189, R191): the active twin alone decides, by its Coachyard's own counter. -/
def execDeadlineReached (t q : Nat) (s : State) : Host.Outcome State Fault Refusal :=
  ev t (fun s =>
    match s.active with
    | none => s
    | some w =>
      match Tbl.find? (s.twin w).reqs q with
      | some r =>
        if r.hdr.deadline ≠ 0 ∧ r.hdr.deadline ≤ clockAt (s.twin w).offs s.now coachyard ∧ s.coachyardAwake w then
          s.timeOutIn w q
        else s
      | none => s) s

/-- `RUN_BUDGET_REACHED` (R247): core execution of the request's tasks has reached `RUN_MAX`. -/
def execRunBudgetReached (t q : Nat) (s : State) : Host.Outcome State Fault Refusal :=
  ev t (fun s =>
    match s.active with
    | none => s
    | some w =>
      match Tbl.find? (s.twin w).reqs q with
      | some r =>
        let max := match (s.twin w).entryOf q r with | some (_, d) => d.runMax | none => 0
        let ran := r.tasks.foldl (fun (n : Nat) (k : Nat × Task) => n + k.2.ranFor s.now) r.ran
        if ¬ r.forZenith ∧ max ≠ 0 ∧ 4000000 * max ≤ ran ∧ s.coachyardAwake w then s.timeOutIn w q else s
      | none => s) s

/-- `TIMEOUT_EXIT_LIMIT` (R191): a task still there after 20 µs of execution is aborted, and the request ends with the status
of R192. -/
def execTimeoutExitLimit (t : Nat) (w : Twin) (q : Nat) (s : State) : Host.Outcome State Fault Refusal :=
  ev t (fun s =>
    match Tbl.find? (s.twin w).reqs q with
    | some r =>
      let past := r.tasks.any (fun (k : Nat × Task) =>
        k.2.timedOut && decide (k.2.usedAt + 80000 ≤ k.2.ranFor s.now))
      if r.fin.isNone ∧ r.timedOut.isSome ∧ past ∧ s.coachyardAwake w then
        s.updTwin w (fun x => (x.dropTasks s.now q (fun _ => true) true).finish (s.isActive w) s.now q
          { status := r.deadlineStatus })
      else s
    | none => s) s

/-- `STREAM_TIMEOUT` (R73): an open stream is closed as failed at the first epoch at which 30 s have passed since its latest
segment's acceptance; a segment accepted in time and still in service keeps it. -/
def execStreamTimeout (t : Nat) (w : Twin) (space key : Nat) (s : State) : Host.Outcome State Fault Refusal :=
  ev t (fun s =>
    let x := s.twin w
    let fk := flowKey space key
    match Tbl.find? x.store.flows fk with
    | some f =>
      let later := x.reqs.any (fun (e : Nat × Req) => e.2.space == space && e.2.hdr.flow == key && e.2.hdr.segmented &&
        e.2.fin.isNone && decide (e.1 < f.stream.last + halfMinute))
      if f.stream.isOpen ∧ f.stream.last + halfMinute ≤ 4000 * epochOf s.now ∧ ¬ later then
        let f : Flow := { f with stream := { f.stream with isOpen := false, failed := true } }
        s.updTwin w (fun x => { x with store := { x.store with flows := Tbl.put x.store.flows fk f } })
      else s
    | none => s) s

/-- `DISCARDED_ID_EXPIRY` (R71): an id kept for 30 s stops failing its dependants. -/
def execDiscardedIdExpiry (t : Nat) (w : Twin) (space key : Nat) (s : State) : Host.Outcome State Fault Refusal :=
  ev t (fun s =>
    let x := s.twin w
    match Tbl.find? x.store.discarded (discKey space key) with
    | some d =>
      if d + halfMinute ≤ s.now then
        s.updTwin w (fun x =>
          { x with store := { x.store with discarded := Tbl.del x.store.discarded (discKey space key) } })
      else s
    | none => s) s

end Sys2Proof.Machine
end

