-- ==== Sys2Proof/Machine/Vendor.lean ====
section
/-! DEFINITION. How a vendor image serves a command: its checks in order, the replicated stream, and the exit
(R87 to R96, R241, R496). -/

namespace Sys2Proof.Machine

/-- Why an image's run does not reach its end. -/
inductive VStop where
  /-- A check fails, or the image ends with this status; what the run took before of quotas and reservations stays taken (R139,
  R323). -/
  | status (n : Nat) (s : State)
  /-- Something it waits for is not there yet. -/
  | wait
  /-- It needs randomness and random service has stopped (R193). -/
  | stopped (s : State)
  /-- The request is aborted by the module, in a state of its own. -/
  | halt (s : State)

/-- A run of an image over the module's state. -/
abbrev VM (α : Type) := StateT State (Except VStop) α

/-- What a run of a vendor command sees: the twin, the request and its payload. -/
structure VEnv where
  w : Twin
  q : Nat
  r : Req
  p : Bytes

/-- The run ends with a status. -/
def vfail {α : Type} (n : Nat) : VM α := fun s => .error (.status n s)

/-- The run waits. -/
def vwait {α : Type} : VM α := fun _ => .error .wait

/-- The module's state as the run sees it. -/
def vstate : VM State := fun s => .ok (s, s)

/-- The module's time. -/
def vnow : VM Nat := fun s => .ok (s.now, s)

/-- The request is brought to an end by the module, in a state of its own. -/
def vhalt {α : Type} (f : State → State) : VM α := fun s => .error (.halt (f s))

/-- A check of R91: the status where it fails. -/
def need (b : Bool) (n : Nat) : VM Unit := if b then pure () else vfail n

/-- Bytes of the payload. -/
def VEnv.b (e : VEnv) (off len : Nat) : Bytes := slice e.p off len

/-- A field of the payload (R88). -/
def VEnv.f (e : VEnv) (off len : Nat) : Nat := fld e.p off len

/-- `PAYLOAD_LEN`. -/
def VEnv.len (e : VEnv) : Nat := e.r.hdr.plen

/-- The payload from an offset to its end. -/
def VEnv.from_ (e : VEnv) (off : Nat) : Bytes := e.p.drop off

/-- The twin that runs the command. -/
def VEnv.x (e : VEnv) : VM TwinSt := fun s => .ok (s.twin e.w, s)

/-- The twin replaced. -/
def VEnv.put (e : VEnv) (x : TwinSt) : VM Unit := fun s => .ok ((), s.setTwin e.w x)

/-- Payload length, `PARAM` and reserved bytes, in that order (R89): a non-zero `PARAM` that no section defines is answered
`BAD_PARAMETER` (assumption 45). -/
def VEnv.shape (e : VEnv) (lenOk paramOk : Bool) (reserved : List (Nat × Nat)) : VM Unit := do
  need (lenOk && paramOk) stBadParam
  need (reserved.all (fun r => allZero (e.b r.1 r.2))) stReserved

/-- One consumer call of the root task (R94, R321). -/
def VEnv.draw (e : VEnv) (len : Nat) : VM Bytes := fun s =>
  match (s.twin e.w).rng e.q 0 len with
  | .ok b x => .ok (b, s.setTwin e.w x)
  | .wait => .error (.halt (s.waitRng e.w e.q 0))
  | .stopped => .error (.stopped s)
  | .over => .error (.status stImage s)

/-- A declared key at its place in step 2 of R91: it is found and carries its usages, its algorithm is one the command
needs, what stands immediately after that check holds of it (R89), and it is not exhausted (R98, R496). -/
def VEnv.keyThen (e : VEnv) (i h : Nat) (fits : KeyRec → Bool) (after : KeyRec → VM Unit) : VM KeyRec := do
  let st := e.r.keyStatus.getD i stKeyNotFound
  need (st != stKeyNotFound && st != stBadParam) (if st = stBadParam then stBadParam else stKeyNotFound)
  need (st != stKeyUsage) stKeyUsage
  let x ← e.x
  match x.store.key? e.r.space h e.q with
  | none => vfail stKeyNotFound
  | some k => do
    need (fits k) stKeyUsage
    after k
    need (st != stExhausted) stExhausted
    pure k

/-- A declared key that no further check follows (R91, R98, R496). -/
def VEnv.key (e : VEnv) (i h : Nat) (fits : KeyRec → Bool) : VM KeyRec := e.keyThen i h fits (fun _ => pure ())

/-- A new key made and staged: its handle (R242). -/
def VEnv.newKey (e : VEnv) (a : KeyAttr) (cls : Nat) (m : Bytes) (edit : KeyRec → KeyRec) : VM Nat := do
  let x ← e.x
  match x.createKey e.q (some 0) a cls m with
  | none => vfail stImage
  | some (.inl st) => vfail st
  | some (.inr (h, x)) => do
    let own := fun (f : Effect) => match f with
      | .keyPut c h' k => if h' = h then .keyPut c h' (edit k) else f
      | _ => f
    e.put (x.updReq e.q (fun r => { r with staged := r.staged.map own }))
    pure h

/-- The quota step of new keys whose material is drawn afterwards (R91, R139). -/
def VEnv.prepay (e : VEnv) (n ext led : Nat) : VM Unit := do
  let x ← e.x
  match x.prepay e.q 0 n n ext led with
  | none => vfail stQuota
  | some x => e.put x

/-- An effect staged for the commit. -/
def VEnv.stage (e : VEnv) (f : Effect) : VM Unit := do
  let x ← e.x
  e.put (x.updReq e.q (fun r => { r with staged := r.staged ++ [f] }))

/-- A record staged for the commit. -/
def VEnv.stageEv (e : VEnv) (v : EvReq) : VM Unit := do
  let x ← e.x
  e.put (x.updReq e.q (fun r => { r with stagedEv := r.stagedEv ++ [v] }))

/-- Whether a request's root task runs in a vendor image and has its payload (R87, R243). -/
def VEnv.ready (e : VEnv) (op : Nat) : Bool :=
  e.r.hdr.opcode == op && e.r.space != adminSpace && (e.r.image == 1 || e.r.image == 2) && e.r.fin.isNone &&
  e.r.complete && (Tbl.find? e.r.tasks 0).any (fun k => k.st == .running && k.ctx.isSome)

/-- Whether the core that runs a request's root task executes it: after a wake it waits for its pulses, and its context is in
no wait (R25, R177, R410). -/
def State.coreAwake (s : State) (w : Twin) (q : Nat) : Bool :=
  (((s.twin w).task? q 0).bind (fun k => k.ctx)).any (fun c => s.awake c.island && !(s.twin w).inWait c.island c.ctx)

/-- A vendor command (R241): the run's status and result become the outcome of the root task's exit. A failed check leaves
no effect but what the acceptance made of the keys (R91, R92). -/
def State.runVendor (s : State) (op : Nat) (w : Twin) (q : Nat) (cmd : VEnv → VM (Nat × Bytes)) : State :=
  match Tbl.find? (s.twin w).reqs q with
  | none => s
  | some r =>
    let e : VEnv := { w := w, q := q, r := r, p := r.payload }
    if ¬ e.ready op ∨ ¬ s.executes w ∨ ¬ s.coreAwake w q then s
    else match (cmd e).run s with
      | .ok ((st, res), s) =>
        let r := (Tbl.find? (s.twin w).reqs q).getD r
        (s.finish w q (r.outcome st res)).serve w
      | .error (.status n s) => (s.finish w q (r.outcome n [])).serve w
      | .error .wait => s
      | .error (.stopped s) => s.rngStopped w q 0 r
      | .error (.halt s) => s

/-- A vendor command as an event. -/
def vendor (t op : Nat) (w : Twin) (q : Nat) (cmd : VEnv → VM (Nat × Bytes)) (s : State) :
    Host.Outcome State Fault Refusal :=
  ev t (fun s => s.runVendor op w q cmd) s

end Sys2Proof.Machine
end

