-- ==== Sys2Proof/Machine/Asym.lean ====
section
/-! DEFINITION. Signatures and their verification (R118, R119). -/

namespace Sys2Proof.Machine

/-- The key algorithms of a signature algorithm (Table 5-11). -/
def sigKeys (code : Nat) : List Nat :=
  match code with
  | 1 | 2 | 3 => [0x10, 0x11, 0x12]
  | 4 => [0x20]
  | 5 => [0x21]
  | 6 => [0x22]
  | 7 => [0x30]
  | 8 => [0x31]
  | _ => []

/-- The length of a signature's encoding under a key of an algorithm (Table 5-11). -/
def sigLen (code alg : Nat) : Nat :=
  match code with
  | 1 | 2 | 3 => rsaLen alg
  | 4 | 6 => 64
  | 5 => 96
  | 7 => 3309
  | _ => 4627

/-- The hash of a signature algorithm that takes a digest. -/
def sigHash (code : Nat) : Sha2 := if code = 3 ∨ code = 5 then shaP384 else shaP256

/-- `MSG_KIND` 1 is permitted for an algorithm, with its digest's length (Table 5-11). -/
def digestOk (code kind len : Nat) : Bool := kind == 0 || (kind == 1 && decide (code ≤ 5) && len == (sigHash code).out)

/-- The digest that a signature covers. -/
def digestOf (code kind : Nat) (m : Bytes) : Bytes := if kind = 1 then m else sha2 (sigHash code) m

/-- The verdict of a signature under a public key: a malformed, out-of-range or zero one runs and does not match (R119,
R295 to R298). -/
def sigCheck (code alg kind : Nat) (pub sig m : Bytes) : Bool :=
  match code with
  | 1 | 2 | 3 =>
    let l := rsaLen alg
    let n := beNat (pub.take l)
    let sv := beNat sig
    let em := toBe l (rsaPub n sv (leNat (pub.drop l)))
    decide (0 < sv) && decide (sv < n) &&
      (if code = 1 then em == emsaPkcs1 l (digestOf code kind m) else pssVerify (sigHash code) l (digestOf code kind m) em)
  | 4 | 5 => ecdsaCheck alg (0x04 :: pub) (digestOf code kind m) sig
  | 6 =>
    let r := sig.take 32
    edVerify pub r (leNat (sig.drop 32)) (leNat (sha512 (r ++ pub ++ m)))
  | _ => mldsaVerify alg pub sig (mldsaMu pub m)

/-- `SIG_VERIFY`. -/
def runSigVerify (e : VEnv) : VM (Nat × Bytes) := do
  let code := e.f 4 1
  let kind := e.f 5 1
  let sl := e.f 6 2
  let m := e.from_ (8 + sl)
  e.shape (decide (8 + sl ≤ e.len)) (e.r.hdr.param == 0) []
  need (decide (1 ≤ code) && decide (code ≤ 8) && digestOk code kind m.length &&
    (decide (code ≤ 3) || sl == sigLen code 0)) stBadParam
  let k ← e.key 0 (e.f 0 4) (fun k => (sigKeys code).contains k.alg && handleClass (e.f 0 4) == 1)
  need (sl == sigLen code k.alg) stBadParam
  pure (if sigCheck code k.alg kind k.material (e.b 8 sl) m then 0 else stVerify, [])

/-- `SIG_VERIFY` (R118, R119). -/
def execSigVerify (t : Nat) (w : Twin) (q : Nat) (s : State) : Host.Outcome State Fault Refusal :=
  vendor t 0x0700 w q runSigVerify s

/-- The RSA private operation over the material of Table 6-5, by the Chinese remainder theorem. -/
def rsaPriv (alg : Nat) (m : Bytes) (v : Nat) : Nat :=
  let l := rsaLen alg
  let h := l / 2
  let at_ := fun (i : Nat) => beNat (slice m (l + 4 + h * i) h)
  let p := at_ 0
  let q := at_ 1
  let a := modPow (8 * h) v (at_ 2) p
  let b := modPow (8 * h) v (at_ 3) q
  b + q * ((a + p - b % p) * at_ 4 % p)

/-- A signature under a private key (R118, R119): the PSS salt and the ECDSA value are replicated randomness (R94). -/
def VEnv.sign (e : VEnv) (code kind : Nat) (k : KeyRec) (m : Bytes) : VM Bytes := do
  let l := rsaLen k.alg
  match code with
  | 1 => pure (toBe l (rsaPriv k.alg k.material (beNat (emsaPkcs1 l (digestOf code kind m)))))
  | 2 | 3 => do
    let salt ← e.draw (sigHash code).out
    pure (toBe l (rsaPriv k.alg k.material (beNat (emsaPss (sigHash code) l (digestOf code kind m) salt))))
  | 4 | 5 => do
    let n := (curveOf k.alg).len
    let rnd ← e.draw n
    pure (ecdsaSign k.alg (beNat (k.material.take n)) (digestOf code kind m) rnd)
  | _ => pure (edSign (k.material.take 32) m)

/-- `SIGN`. -/
def runSign (e : VEnv) : VM (Nat × Bytes) := do
  let code := e.f 4 1
  let kind := e.f 5 1
  let m := e.from_ 8
  e.shape (decide (8 ≤ e.len)) (e.r.hdr.param == 0) [(6, 2)]
  need (decide (1 ≤ code) && decide (code ≤ 6) && digestOk code kind m.length) stBadParam
  let k ← e.key 0 (e.f 0 4) (fun k => (sigKeys code).contains k.alg && handleClass (e.f 0 4) == 2)
  let sig ← e.sign code kind k m
  pure (0, sig)

/-- `SIGN` (R118, R119). -/
def execSign (t : Nat) (w : Twin) (q : Nat) (s : State) : Host.Outcome State Fault Refusal :=
  vendor t 0x0701 w q runSign s

end Sys2Proof.Machine
end

