-- ==== Sys2Proof/Machine/Firmware.lean ====
section
/-! DEFINITION. Firmware and image packages: their lengths, checks and measurements (R231 to R235, R249, R452, R455, R458). -/

namespace Sys2Proof.Machine

/-- The public points of the roots that a life-cycle state accepts for a use: 0 images, 1 firmware, 2 debug certificates
(R233, R400, R452, Table 17-1). -/
def rootsOf (use : Nat) (lc : LcState) : List Bytes :=
  match lc with
  | .blank => [toBe 97 (Config.rootKey use 0).toNat]
  | .test => (List.range ((Config.testRoots use).toNat + 1)).map (fun i => toBe 97 (Config.rootKey use (1 + i)).toNat)
  | .production => [toBe 97 (Config.rootKey use 5).toNat]
  | .analysis | .scrapped => []

/-- Whether the last 96 bytes of an octet string sign the bytes before them under a root of a state. -/
def rootSigned (use : Nat) (lc : LcState) (b : Bytes) : Bool :=
  let m := b.take (b.length - 96)
  (rootsOf use lc).any (fun k => ecdsaCheck 0x21 k (sha384 m) (b.drop (b.length - 96)))

/-- The measurement of a package: the SHA-384 of all of it (R451). -/
def Slot.measure (s : Slot) : Bytes :=
  if s.shipped ≠ 0 then toBe 48 (Config.shippedDigest s.shipped).toNat else sha384 s.data

/-- The security version number of a package. -/
def Slot.svn (s : Slot) (fw : Bool) : Nat :=
  if s.shipped ≠ 0 then (Config.shippedSvn s.shipped).toNat else fld s.data (if fw then 12 else 16) 4

/-- The owner public key of an image package. -/
def Slot.ownerKey (s : Slot) : Bytes :=
  if s.shipped ≠ 0 then toBe 97 (Config.shippedKey s.shipped).toNat else slice s.data s.keyOff (fld s.data 32 2)

/-- Length of the owner signature by its algorithm (Table 5-11). -/
def ownerSigLen (alg : Nat) : Nat := if alg = 5 then 96 else 3309

/-- The maximum size of a component's package (Table 20-2). -/
def maxPackage (comp : Nat) : Nat := if comp = 1 then 1048576 else if comp = 2 then 8388608 else 4194304 + 163840

/-- The total length of a package once its header is there (R231, R455). -/
def packageLen (comp : Nat) (b : Bytes) : Option Nat :=
  if comp = 3 then
    if b.length < 128 then none
    else some (128 + 32 * fld b 22 2 + 4100 * fld b 20 2 + fld b 32 2 + ownerSigLen (fld b 30 1) + 96)
  else if b.length < 64 then none else some (160 + fld b 16 4)

/-- Whether the dispatch entry at an offset keeps R235. -/
def entryGood (s : Slot) (owner : Bool) (off : Nat) : Bool :=
  let b := slice s.data off 32
  let op := fld b 0 2
  let exec := fun (e : Nat) => e % 4 == 0 && decide (e < 4096 * s.pageCount) && bit (s.pageFlags (e / 4096)) 0
  (if owner then decide (0x0F00 ≤ op) && decide (op ≤ 0x0FFF) else (vendorBinds op).1 || (vendorBinds op).2) &&
  decide (fld b 2 1 < 12) && decide (fld b 3 1 ≤ 4) && exec (fld b 4 4) && exec (fld b 8 4) &&
  (List.range (min 4 (fld b 3 1))).all (fun i =>
    let o := fld b (16 + 4 * i) 1
    (o == 255 || (decide (o ≤ 60) && o % 4 == 0)) && decide (fld b (17 + 4 * i) 1 < 8))

/-- Whether a list has no repeats. -/
def noRepeat : List Nat → Bool
  | [] => true
  | a :: l => !l.contains a && noRepeat l

/-- Step 1 of R249: structure, reserved fields and field ranges, dispatch entries, `FEAT_REQ`. -/
def Slot.imageForm (s : Slot) (image : Nat) : Bool :=
  let f := fld s.data
  let owner := f 5 1 == 2
  let pages := s.pageCount
  let flags := (List.range pages).map s.pageFlags
  s.data.take 4 == [0x50, 0x58, 0x49, 0x4D] && f 4 1 == 1 && (f 5 1 == 1 || f 5 1 == 2) &&
  f 6 2 == 0 && f 25 1 == 0 && f 31 1 == 0 && allZero (slice s.data 34 14) && allZero (slice s.data 96 32) &&
  f 8 4 == image && (if owner then decide (0x100 ≤ image) && decide (image ≤ 0xFFFFFFFE) else image == 1 || image == 2) &&
  decide (1 ≤ pages) && decide (pages ≤ 1024) && decide (1 ≤ s.entryCount) && decide (s.entryCount ≤ 256) &&
  decide (16 ≤ f 24 1) && decide (f 24 1 ≤ 64) && f 24 1 % 4 == 0 && decide (f 26 2 ≤ 256) && decide (f 28 2 < 512) &&
  ((f 30 1 == 5 && f 32 2 == 97) || (f 30 1 == 7 && f 32 2 == 1952)) &&
  packageLen 3 s.data == some s.data.length &&
  flags.all (fun v => decide (v < 16) && (!bit v 2 || bit v 0)) && decide (flags.countP (fun v => bit v 2) ≤ 16) &&
  (List.range s.entryCount).all (fun i => entryGood s owner (128 + 32 * i)) &&
  noRepeat ((List.range s.entryCount).map (fun i => fld s.data (128 + 32 * i) 2))

/-- Step 2 of R249: the digest of the pages, the owner signature and the vendor countersignature. -/
def Slot.imageSigned (s : Slot) (lc : LcState) : Bool :=
  let alg := fld s.data 30 1
  let n := s.data.length - 96 - ownerSigLen alg
  let m := s.data.take n
  let sig := slice s.data n (ownerSigLen alg)
  let pages := (s.data.drop s.flagsOff).take (4 * s.pageCount) ++ (s.data.drop s.pagesOff).take (4096 * s.pageCount)
  slice s.data 48 48 == sha384 pages &&
  (if alg = 5 then ecdsaCheck 0x21 s.ownerKey (sha384 m) sig else mldsaVerify 0x30 s.ownerKey sig (mldsaMu s.ownerKey m)) &&
  rootSigned 0 lc s.data

/-- The slot in force of a component. -/
def Component.force (c : Component) : Option Slot := c.inForce.map c.slot

/-- Whether a shipped package verifies under the roots of a state: under those of PRODUCTION it does, being part of what the
vendor ships; the other roots are the module's own (R1, Table 17-1). -/
def shippedGood (p : Nat) (lc : LcState) : Bool := lc == .production || Config.shippedVerifies p (lcCode lc) == 1

/-- The pinned owner key (R234): that of the first version activated, which for a shipped image is its own. -/
def Component.pin (c : Component) : Option Bytes :=
  c.pinned.orElse (fun _ => match c.force with
    | some s => if s.shipped = 0 then none else some s.ownerKey
    | none => none)

/-- The SVN floor of an image (R234), which covers a shipped version in force. -/
def Component.floor (c : Component) : Nat :=
  match c.force with
  | some s => if s.shipped = 0 then c.svnFloor else max c.svnFloor (s.svn false)
  | none => c.svnFloor

/-- The checks of R249 on an image slot: 0, or the status of the first failure. -/
def Store.imageStatus (st : Store) (lc : LcState) (image i : Nat) : Nat :=
  let c := st.component 3 image
  let s := c.slot i
  let form := s.shipped ≠ 0 ∨ s.imageForm image
  let signed := if s.shipped ≠ 0 then shippedGood s.shipped lc else s.imageSigned lc
  if s.st = .empty ∨ ¬ form then stBadFormat
  else if ¬ signed then stBlockAuth
  else if c.inForce = some i then (if c.pinned.any (fun k => k != s.ownerKey) ∨ s.svn false < c.svnFloor then stBlockAuth else 0)
  else if c.pin.any (fun k => k != s.ownerKey) ∨ s.svn false < c.floor then stBlockAuth
  else 0

/-- Step 1 of R458 on a firmware slot. -/
def Slot.fwForm (s : Slot) (comp : Nat) : Bool :=
  let f := fld s.data
  s.data.take 4 == [0x50, 0x58, 0x46, 0x57] && f 4 1 == 1 && f 5 1 == comp && f 6 2 == 0 && f 16 4 % 64 == 0 &&
  allZero (slice s.data 20 44) && packageLen comp s.data == some s.data.length

/-- Steps 1 and 2 of R458 on a firmware slot, under the roots of a state. -/
def Slot.fwVerify (s : Slot) (lc : LcState) (comp : Nat) : Nat :=
  if s.shipped ≠ 0 then (if shippedGood s.shipped lc then 0 else stBlockAuth)
  else if s.st = .empty ∨ ¬ s.fwForm comp then stBadFormat
  else if rootSigned 1 lc s.data then 0 else stBlockAuth

/-- The checks of R458 on a firmware slot: 0, or the status of the first failure. -/
def Store.fwStatus (st : Store) (lc : LcState) (comp i : Nat) : Nat :=
  let c := st.component comp 0
  let v := (c.slot i).fwVerify lc comp
  if v ≠ 0 then v else if (c.slot i).svn true < c.svnFloor then stBlockAuth else 0

/-- The activation checks of a component's slot (R249, R458). -/
def Store.slotStatus (st : Store) (lc : LcState) (comp image i : Nat) : Nat :=
  if comp = 3 then st.imageStatus lc image i else st.fwStatus lc comp i

/-- `DETAIL` of events 0x2010 and 0x2011 (Table 20-9). -/
def slotDetail (comp i status image : Nat) (m : Bytes) : Bytes :=
  [byte comp, byte i] ++ toLe 2 status ++ toLe 4 image ++ m.take 8

end Sys2Proof.Machine
end

