-- ==== Sys2Proof/Machine/CfgCheck.lean ====
section
/-! DEFINITION. Validation of a configuration set, and the limits of a compartment's entry (R46, R131, R132, R155, R238,
R251, R300, R357, R431, R466). -/

namespace Sys2Proof.Machine

/-- A fault of a section: its offset, and the code of R466. -/
abbrev CfgFault := Nat × Nat

/-- A range rule at an offset. -/
def inRange (ok : Bool) (off : Nat) : List CfgFault := if ok then [] else [(off, stBadParam)]

/-- Reserved bytes, each reported where it stands. -/
def reservedAt (c : CfgSet) (sec off n : Nat) : List CfgFault :=
  ((List.range n).filter (fun i => c.fld sec (off + i) 1 != 0)).map (fun i => (off + i, stReserved))

/-- Whether an owner image has an active version (R251). -/
def Store.imageActive (st : Store) (image : Nat) : Bool :=
  decide (0x100 ≤ image) && decide (image ≤ 0xFFFFFFFE) &&
    (match Tbl.find? st.images image with | some c => c.inForce.isSome | none => false)

/-- The `PINNED` pages of an image's version in force (R238). -/
def Store.pinnedPages (st : Store) (image : Nat) : Nat :=
  match (Tbl.find? st.images image).bind Component.force with
  | some s => (List.range s.pageCount).countP (fun p => bit (s.pageFlags p) 3)
  | none => 0

/-- The fields of an entry of Table 6-3 against the limits of Table 6-4, `IMAGES` and `OWNER_IMAGE`; the entry stands at an
offset of section 1. -/
def entryFaults (st : Store) (c : CfgSet) (o : Nat) : List CfgFault :=
  let f := fun (off len : Nat) => c.fld 1 (o + off) len
  inRange (decide (1 ≤ f 2 1) && decide (f 2 1 < 8)) (o + 2) ++ reservedAt c 1 (o + 3) 1 ++
  inRange (if bit (f 2 1) 2 then st.imageActive (f 4 4) else f 4 4 == 0) (o + 4) ++
  inRange (decide (f 8 2 ≤ 1024)) (o + 8) ++
  inRange (decide (f 8 2 ≤ f 10 2) && decide (f 10 2 ≤ 1024) && f 10 2 != 0) (o + 10) ++
  inRange (decide (f 12 1 ≤ 255)) (o + 12) ++ inRange (decide (f 12 1 ≤ f 13 1) && f 13 1 != 0) (o + 13) ++
  inRange (decide (1 ≤ f 14 1) && decide (f 14 1 ≤ 8)) (o + 14) ++ reservedAt c 1 (o + 15) 1 ++ reservedAt c 1 (o + 36) 4

/-- The running sums of Table 6-4, and the images bound so far with their pinned pages. -/
structure CfgSums where
  core    : Nat := 0
  orrery  : Nat := 0
  mboxes  : Nat := 0
  slots   : Nat := 0
  ledger  : Nat := 0
  entries : Nat := 0
  units   : Nat := 0
  images  : List Nat := []
  pinned  : Nat := 0
  deriving DecidableEq, Repr

/-- The sums with an entry's fields added, and the faults of those that the entry first carries over their limits. -/
def CfgSums.add (s : CfgSums) (st : Store) (c : CfgSet) (n : Nat) : CfgSums × List CfgFault :=
  let o := 40 * n
  let f := fun (off len : Nat) => c.fld 1 (o + off) len
  let new_ := (c.imagesOf n).filter (fun i => !s.images.contains i)
  let pinned := s.pinned + new_.foldl (fun a i => a + st.pinnedPages i) 0
  let adds := fun (old add lim off : Nat) => inRange (decide (lim < old) || decide (old + add ≤ lim)) (o + off)
  let ks := s.slots + f 16 4
  ({ core := s.core + f 8 2, orrery := s.orrery + f 12 1, mboxes := s.mboxes + f 14 1, slots := ks + f 20 4,
     ledger := s.ledger + f 24 4, entries := s.entries + f 28 4, units := s.units + f 32 4,
     images := s.images ++ new_, pinned := pinned },
   inRange (decide (384 < s.pinned) || decide (pinned ≤ 384)) (o + 2) ++
   adds s.core (f 8 2) 1024 8 ++ adds s.orrery (f 12 1) 256 12 ++ adds s.mboxes (f 14 1) 4095 14 ++
   adds s.slots (f 16 4) 258048 16 ++ adds ks (f 20 4) 258048 20 ++ adds s.ledger (f 24 4) 983040 24 ++
   adds s.entries (f 28 4) 131072 28 ++ adds s.units (f 32 4) 65536 32)

/-- The compartments whose entry holds a non-zero byte. -/
def CfgSet.compNumbers (c : CfgSet) : List Nat :=
  (List.range 1024).filter (fun n => c.cells.any (fun k => k.1 / 65536 == 1 && k.1 % 65536 / 40 == n))

/-- The fault that comes first in ascending offset. -/
def firstFault (l : List CfgFault) : Option CfgFault :=
  l.foldl (fun (m : Option CfgFault) f => match m with
    | some g => if f.1 < g.1 then some f else some g
    | none => some f) none

/-- Section 0x01. -/
def compFaults (st : Store) (c : CfgSet) : List CfgFault :=
  (c.compNumbers.foldl (fun (a : CfgSums × List CfgFault) n =>
    let o := 40 * n
    if c.images n = 0 then
      (a.1, a.2 ++ ((List.range 40).filter (fun i => c.fld 1 (o + i) 1 != 0)).map (fun i => (o + i, stBadParam)))
    else
      let r := a.1.add st c n
      (r.1, a.2 ++ inRange (c.fld 1 o 2 == n) o ++ entryFaults st c o ++ r.2)) ({}, [])).2

/-- Section 0x02 (Table 20-8). -/
def mboxFaults (c : CfgSet) : List CfgFault :=
  let nums := (List.range 4096).filter (fun k => k == 0 || c.cells.any (fun e => e.1 / 65536 == 2 && e.1 % 65536 / 8 == k))
  (nums.foldl (fun (a : List (Nat × Nat × Nat) × List CfgFault) k =>
    let o := 8 * k
    let f := fun (off len : Nat) => c.fld 2 (o + off) len
    let flags := inRange (decide (f 0 1 < 2)) o ++ reservedAt c 2 (o + 7) 1
    if k = 0 then
      (a.1 ++ [(0, 0, 1024)], a.2 ++ inRange (f 0 1 == 1) 0 ++
        ((List.range 7).filter (fun i => f (1 + i) 1 != 0)).map (fun i => (1 + i, stBadParam)))
    else if f 0 1 % 2 = 0 then (a.1, a.2 ++ flags)
    else
      let comp := f 4 2
      let earlier := a.1.countP (fun e => e.2.2 == comp)
      (a.1 ++ [(f 1 1, f 2 2, comp)], a.2 ++ flags ++
        inRange (!a.1.any (fun e => e.1 == f 1 1 && e.2.1 == f 2 2)) (o + 1) ++ inRange (decide (f 2 2 < 4096)) (o + 2) ++
        inRange (decide (comp < 1024) && c.images comp != 0 && decide (earlier < c.comp comp 14 1)) (o + 4) ++
        inRange (decide (f 6 1 < 8)) (o + 6))) ([], [])).2

/-- Whether the images that a set binds to a compartment bind an opcode. -/
def Store.bindsOp (st : Store) (c : CfgSet) (n op : Nat) : Bool :=
  (c.imagesOf n).any (fun img => match (Tbl.find? st.images img).bind Component.force with
    | some s => (s.entry? img op).isSome
    | none => false)

/-- Section 0x04. -/
def dispFaults (st : Store) (c : CfgSet) : List CfgFault :=
  let nums := (List.range 4096).filter (fun k => c.cells.any (fun e => e.1 / 65536 == 4 && e.1 % 65536 / 8 == k))
  nums.flatMap (fun k =>
    let o := 8 * k
    let f := fun (off len : Nat) => c.fld 4 (o + off) len
    let used := f 4 1 == 1
    inRange (!used || (decide (f 0 2 < 1024) && c.images (f 0 2) != 0)) o ++
    inRange (!used || st.bindsOp c (f 0 2) (f 2 2)) (o + 2) ++ inRange (decide (f 4 1 < 2)) (o + 4) ++
    reservedAt c 4 (o + 5) 3)

/-- The M range of a class (Table 7-2). -/
def quorumRange (cls : Nat) : Nat × Nat :=
  match cls with
  | 5 => (2, 3)
  | 6 => (2, 2)
  | 8 => (1, 4)
  | _ => (2, 8)

/-- A 16-bit two's complement value. -/
def signed16 (v : Nat) : Int := if v < 32768 then v else v - 65536

/-- The weakest response of a class in PRODUCTION (Table 15-3). -/
def weakest (cls : Nat) : Nat := if 1 ≤ cls ∧ cls ≤ 3 then 1 else 0

/-- One class entry of section 0x07 (Table 15-4, R357). -/
def alarmFaults (c : CfgSet) (prod : Bool) (cls : Nat) : List CfgFault :=
  let o := 32 * cls
  let f := fun (off len : Nat) => c.fld 7 (o + off) len
  if cls = 0 ∨ 12 ≤ cls then
    ((List.range 32).filter (fun i => f i 1 != 0)).map (fun i => (o + i, stReserved))
  else
    let backup := [1, 3, 4, 5, 9, 10, 11].contains cls
    let nib := cls == 4 || cls == 5
    let temp := cls == 9
    let cell := cls == 10 || cls == 11
    let lo := signed16 (f 8 2)
    let hi := signed16 (f 10 2)
    let tg := (List.range 8).map (fun i => f (16 + 2 * i) 2)
    let comps := tg.filter (fun t => t != 0xFFFF)
    inRange (decide (f 0 1 < 4) && (!prod || decide (weakest cls ≤ f 0 1))) o ++
    inRange (if backup then decide (1 ≤ f 1 1) && decide (f 1 1 ≤ 8) else f 1 1 == 0) (o + 1) ++
    inRange (f 2 2 != 0) (o + 2) ++ inRange (if nib then decide (f 4 1 < 16) else f 4 1 == 0) (o + 4) ++
    inRange (if cls = 5 then decide (f 5 1 < 16) else f 5 1 == 0) (o + 5) ++ reservedAt c 7 (o + 6) 2 ++
    inRange (if temp then decide (-440 ≤ lo) && decide (lo ≤ 1200)
      else if cell then decide (2000 ≤ f 8 2) && decide (f 8 2 ≤ 3000) else f 8 2 == 0) (o + 8) ++
    inRange (if temp then decide (lo < hi) && decide (hi ≤ 1200) else f 10 2 == 0) (o + 10) ++
    reservedAt c 7 (o + 12) 4 ++
    (if f 0 1 = 2 then
      inRange (!comps.isEmpty) (o + 16) ++
      (tg.zipIdx).flatMap (fun (t : Nat × Nat) =>
        inRange (t.1 == 0xFFFF || decide (t.1 < 1024) || (t.1 == 0xFFFE && t.2 == 0 && comps.length == 1)) (o + 16 + 2 * t.2))
     else (tg.zipIdx).flatMap (fun (t : Nat × Nat) => inRange (t.1 == 0xFFFF) (o + 16 + 2 * t.2)))

/-- What Table 18-3 permits to a kind of section 0x08: policies and states. -/
def kindPermits (k : Nat) : List Nat × List Nat :=
  match k with
  | 0 => ([2], [1, 2])
  | 1 => ([1], [1, 2])
  | 2 => ([1], [2])
  | 3 => ([1], [1])
  | 4 => ([1], [1, 2])
  | _ => ([1], [1, 3])

/-- Section 0x08 (Table 18-7, R431). -/
def powerFaults (c : CfgSet) : List CfgFault :=
  let f := fun (off len : Nat) => c.fld 8 off len
  inRange (decide (f 0 1 < 2)) 0 ++ inRange (decide (f 1 1 < 2)) 1 ++ inRange (f 2 2 != 0) 2 ++
  inRange (decide (f 4 4 ≤ 3600000)) 4 ++ inRange (decide (4 ≤ f 8 1) && decide (f 8 1 ≤ 16)) 8 ++ reservedAt c 8 9 3 ++
  inRange (decide (10 ≤ f 12 4) && decide (f 12 4 ≤ 1000000)) 12 ++
  (List.range 6).flatMap (fun k =>
    let o := 16 + 8 * k
    inRange ((kindPermits k).1.contains (f o 1)) o ++ inRange ((kindPermits k).2.contains (f (o + 1) 1)) (o + 1) ++
    inRange (decide (f (o + 2) 1 < 2)) (o + 2) ++ reservedAt c 8 (o + 3) 1 ++ inRange (decide (f (o + 4) 4 ≤ 1000000)) (o + 4))

/-- The faults of a section of a set, in the life-cycle state PRODUCTION or another (R466). -/
def secFaults (st : Store) (c : CfgSet) (prod : Bool) (sec : Nat) : List CfgFault :=
  match sec with
  | 1 => compFaults st c
  | 2 => mboxFaults c
  | 3 => inRange (decide (c.fld 3 0 2 + 255 * c.fld 3 2 2 ≤ 2048)) 2 ++ reservedAt c 3 4 12
  | 4 => dispFaults st c
  | 5 => (List.range 8).flatMap (fun i =>
      let m := c.fld 5 i 1
      inRange (decide ((quorumRange (i + 1)).1 ≤ m) && decide (m ≤ (quorumRange (i + 1)).2)) i) ++ reservedAt c 5 8 8
  | 6 => inRange (decide (1 ≤ c.fld 6 0 2) && decide (c.fld 6 0 2 ≤ 256)) 0 ++ reservedAt c 6 2 14
  | 7 => (List.range 16).flatMap (alarmFaults c prod)
  | _ => powerFaults c

/-- The first fault of a set: its section, offset and code (R466). -/
def Store.cfgFault (st : Store) (c : CfgSet) (prod : Bool) : Option (Nat × Nat × Nat) :=
  [1, 2, 3, 4, 5, 6, 7, 8].findSome? (fun sec => (firstFault (secFaults st c prod sec)).map (fun f => (sec, f.1, f.2)))

/-- Whether a set keeps the sums of Table 6-4 (R132). -/
def Store.sumsOk (st : Store) (c : CfgSet) : Bool :=
  ((c.compNumbers.filter (fun n => c.images n != 0)).foldl (fun (a : CfgSums × List CfgFault) n =>
    let r := a.1.add st c n
    (r.1, a.2 ++ r.2.filter (fun f => f.1 % 40 != 2))) ({}, [])).2.isEmpty

end Sys2Proof.Machine
end

