-- ==== Sys2Proof/Machine/LifeCycle.lean ====
section
/-! DEFINITION. Life cycle, debug rights and the TAP (R388 to R407). -/

namespace Sys2Proof.Machine

/-- The state of a `TARGET` code (R392). -/
def lcOf (code : Nat) : Option LcState :=
  match code with
  | 1 => some .test
  | 2 => some .production
  | 3 => some .analysis
  | 4 => some .scrapped
  | _ => none

/-- The OTP digest slot of a transition, and whether an admin command of it needs the Life cycle quorum and whether the TAP
may ask for it (Table 17-2); none for a pair that does not exist. -/
def lcPair (from_ to_ : LcState) : Option (Nat × Bool × Bool) :=
  match from_, to_ with
  | .blank, .test => some (0, false, true)
  | .test, .production => some (1, false, true)
  | .production, .analysis => some (2, true, false)
  | .blank, .scrapped | .test, .scrapped | .analysis, .scrapped => some (3, false, true)
  | .production, .scrapped => some (3, true, true)
  | _, _ => none

/-- Whether a firmware component has a slot that verifies under a production root (Table 17-2). -/
def Component.production (c : Component) (comp : Nat) : Bool :=
  c.slot0.fwVerify .production comp == 0 || c.slot1.fwVerify .production comp == 0

/-- Check 3 of R393: the pair, and the precondition of the transition to PRODUCTION. -/
def State.lcAllowed (s : State) (to_ : LcState) : Bool :=
  (lcPair s.lc to_).isSome && s.life.journal.isNone &&
  (to_ != .production || (s.nvm.comp1.production 1 && s.nvm.comp2.production 2))

/-- Checks 5 and 6 of R393: at most four failures in a power cycle, and the token's digest (R391, R394). -/
def tokenGood (slot : Nat) (token : Bytes) : Bool :=
  sha384 token == toBe 48 (Config.tokenDigest slot).toNat

/-- The failure of a token (R394): counted, and recorded. -/
def State.tokenFailed (s : State) (target path : Nat) : State :=
  let n := s.life.tokFails + 1
  ({ s with life := { s.life with tokFails := n } }).event 0x5004 sevEvid 3
    [byte (lcCode s.lc), byte target, byte path, byte (min 255 n)]

/-- `J_INTENT` is blown (R396, R397): the record, and the security disable of every compartment. A transition already begun
goes on alone (R405). -/
def State.beginTransition (s : State) (to_ : LcState) (path : Nat) (officers : Bytes) : State :=
  if s.life.journal.isSome ∨ (lcPair s.lc to_).isNone then s else
    let s := s.event 0x5001 sevEvid 3 ([byte (lcCode s.lc), byte (lcCode to_), byte path, 0] ++ officers)
    let s := { s with life := { s.life with journal := some (s.lc, to_, path, false) } }
    s.abortWhere (fun _ _ r => r.space != adminSpace) stZeroized

/-- A firmware component without the slots that do not verify under a production root (Table 17-3). -/
def Component.keepProduction (c : Component) (comp : Nat) : Component :=
  let keep := fun (x : Slot) => if x.fwVerify .production comp = 0 then x else {}
  { c with slot0 := keep c.slot0, slot1 := keep c.slot1
           trial := match c.trial with
             | some i => if (c.slot i).fwVerify .production comp = 0 then some i else none
             | none => none }

/-- What a transition erases of a store (Table 17-3, R395): nothing from BLANK to TEST; otherwise every compartment, key,
officer, approval, set and image, with the default sets left; and firmware slots. -/
def Store.wipe (st : Store) (from_ to_ : LcState) : Store :=
  if to_ = .test then st else
    let fw := fun (comp : Nat) (c : Component) =>
      match to_ with
      | .scrapped => ({} : Component)
      | .production => if from_ = .test then c.keepProduction comp else c
      | _ => c
    { cfgA := CfgSet.default, cfgB := CfgSet.default, comp1 := fw 1 st.comp1, comp2 := fw 2 st.comp2,
      admReplay := st.admReplay }

/-- A twin without its part of the wear table (R434). -/
def TwinSt.unworn (x : TwinSt) : TwinSt :=
  { x with
    units := []
    clusters := x.clusters.map (fun (c : Nat × Cluster) => (c.1, { c.2 with repairs := [], banks := [], lost := [], held := [] })) }

/-- The erasure of a transition (R395, R397): the stores, the Module Root Key, debug rights, and for SCRAPPED the trim area with
the wear table (R434), the OTP trim field and the storage key's fuse group. -/
def State.eraseFor (s : State) (from_ to_ : LcState) : State :=
  if to_ = .test then s else
    let s := s.updStores (fun st => st.wipe from_ to_)
    let s := { s with tamper := { s.tamper with mrk := none, mrkLost := false } }
    let s := if to_ = .scrapped then ({ s with wear := {} }).updBoth TwinSt.unworn else s
    if to_ = .production ∨ to_ = .scrapped then
      let gone := to_ = .scrapped
      { s with life := { s.life with ports := 0, access := 0, islands := [], halted := []
                                     trimBlown := s.life.trimBlown || gone, keyBlown := s.life.keyBlown || gone } }
    else s

/-- Whether the reply of a command that made a transition is still to be released (R397). -/
def State.wipeReplyDue (s : State) : Bool :=
  let waits := fun (x : TwinSt) (q : Nat) => (Tbl.find? x.reqs q).any (fun r => r.fin.any (fun e => e.hold == .wiped))
  s.rreqs.any (fun (e : Nat × RReq) => !s.sw.discards.contains e.1 && (waits s.twinA e.1 || waits s.twinB e.1))

/-- `J_WIPED` and `J_STATE` are blown (R396 to R398): the erasure where it is not done, the records where the storage key is
still there, `LIFECYCLE`, and LOCK cleared for ANALYSIS and SCRAPPED. The self-reset is due 10 ms later, or after the reply where one is
still to be released (R397). -/
def State.completeTransition (s : State) (byBoot : Bool) : State :=
  match s.life.journal with
  | none => s
  | some (from_, to_, path, wiped) =>
    let s := if wiped then s else s.eraseFor from_ to_
    let d := [byte (lcCode from_), byte (lcCode to_), byte (b2n byBoot)]
    let s := if to_ = .scrapped then s else (s.event 0x5002 sevEvid 3 d).event 0x5003 sevEvid 3 d
    let unlocks := to_ = .analysis ∨ to_ = .scrapped
    let due := if byBoot ∨ (path = 0 ∧ to_ ≠ .scrapped ∧ s.wipeReplyDue) then s.life.selfReset else some (s.now + 40000000)
    { s.setSticky attnLifecycle with
      life := { s.life with fused := to_ :: s.life.fused, journal := none, selfReset := due }
      tamper := { s.tamper with lock := if unlocks then false else s.tamper.lock }
      boot := { s.boot with ready := if to_ = .scrapped then false else s.boot.ready } }

/-- `LC_WIPE_COMPLETE` (R397): the erasure of a transition ends. -/
def execLcWipeComplete (t : Nat) (s : State) : Host.Outcome State Fault Refusal :=
  ev t (fun s => if s.boot.up then s.completeTransition false else s) s

/-- Islands that a debug certificate of a PRODUCTION recovery boot does not open (Table 17-6). -/
def withheld : List Nat := [198, 200, 404, 406, 420, 421, 426, 427]

/-- Step 1 of R401: length, magic, version and reserved fields. -/
def certForm (b : Bytes) : Bool :=
  b.length == 192 && b.take 4 == [0x50, 0x58, 0x44, 0x43] && fld b 4 1 == 1 && decide (fld b 5 1 < 8) &&
  fld b 6 2 == 0 && fld b 21 3 == 0 && fld b 28 4 == 0 && decide (fld b 24 2 < 16) && decide (fld b 26 2 < 8) &&
  decide (1 ≤ fld b 20 1) && decide (fld b 20 1 ≤ 16) && fld b 32 64 / 2 ^ 428 == 0

/-- Whether a certificate names the module's state; in PRODUCTION the boot must be an opened recovery boot (R401). -/
def State.certState (s : State) (b : Bytes) : Bool :=
  match s.lc with
  | .blank => bit (fld b 5 1) 0
  | .test => bit (fld b 5 1) 1
  | .production => bit (fld b 5 1) 2 && s.life.recovery && s.life.opened
  | _ => false

/-- The checks of R401: 0, or the status of the first failure. -/
def State.certStatus (s : State) (b : Bytes) : Nat :=
  if ¬ certForm b then stBadFormat
  else if ¬ (rootsOf 2 s.lc).any (fun k => ecdsaCheck 0x21 k (sha384 (b.take 96)) (b.drop 96)) then stBlockAuth
  else if fld b 8 8 ≠ Config.serial.toNat ∨ s.pcycle < fld b 16 4 ∨ fld b 16 4 + fld b 20 1 ≤ s.pcycle ∨
      ¬ s.certState b then stLifecycle
  else 0

/-- The rights that a certificate is granted in a state: ports, access, islands (R401, Table 17-6). -/
def certRights (lc : LcState) (b : Bytes) : Nat × Nat × List Nat :=
  let isl := (List.range 428).filter (fun i => bit (fld b 32 64) i)
  if lc = .production then (fld b 24 2 % 4, fld b 26 2, isl.filter (fun i => !withheld.contains i))
  else (fld b 24 2, fld b 26 2, isl)

/-- Debug rights granted (R401): they add to those in force; a load that grants anything is recorded. -/
def State.grant (s : State) (b : Bytes) (path : Nat) : State :=
  let r := certRights s.lc b
  let l := s.life
  let s := { s with life := { l with
    ports := l.ports ||| r.1, access := l.access ||| r.2.1
    islands := l.islands ++ r.2.2.filter (fun i => !l.islands.contains i) } }
  if r.1 = 0 ∧ r.2.1 = 0 ∧ r.2.2 = [] then s
  else s.event 0x5010 sevEvid 3
    (toLe 2 r.1 ++ toLe 2 r.2.1 ++ slice b 16 4 ++ [byte (fld b 20 1), byte path] ++ toLe 2 r.2.2.length)

/-- The rights in force (R401): in ANALYSIS every island and port is open without a certificate (Table 17-1). -/
def State.debugPorts (s : State) : Nat := if s.lc = .analysis then 15 else s.life.ports

/-- `DC_ACCESS` in force. -/
def State.debugRights (s : State) : Nat := if s.lc = .analysis then 7 else s.life.access

/-- Whether debug reaches an island. -/
def State.debugIsland (s : State) (isl : Nat) : Bool := if s.lc = .analysis then decide (isl < 428) else s.life.islands.contains isl

/-- An island bitmap as `DC_ISLANDS` lays it out (Table 17-4). -/
def islandMap (l : List Nat) : Bytes := toLe 64 (l.foldl (fun m i => m ||| 2 ^ i) 0)

/-- `last result` of `LC_STATUS` for a status (R404). -/
def tapCodeOf (status : Nat) : Nat :=
  if status = 0 then 0 else if status = stBadParam ∨ status = stBadFormat then 1
  else if status = stLifecycle then 2 else 3

/-- A TAP instruction selected (R403, R406): a pin instruction isolates the core logic, the module behaves as under PERST#,
and the first one of a power cycle is recorded. -/
def State.tapSelect (s : State) (i : TapInst) : State :=
  let was := s.isolated
  let s := { s with life := { s.life with tapInst := i } }
  if ¬ s.isolated then s else
    let s := if was ∨ ¬ s.boot.up then s else s.resetAll 1
    if s.life.scanRec then s else
      let code := match i with | .extest => Config.tapCode 0 | .clamp => Config.tapCode 1 | _ => Config.tapCode 2
      ({ s with life := { s.life with scanRec := true } }).event 0x5011 sevEvid 3 [byte code.toNat]

/-- A private instruction: its data register where it is permitted, and the bypass register elsewhere (R403). -/
def State.tapPrivate (s : State) (i : TapInst) (ok : Bool) (f : State → State) : State :=
  if ok then f (s.tapSelect i) else s.tapSelect .bypass

/-- Data shifted out of the TAP. -/
def State.tapOut (s : State) (b : Bytes) : State := { s with out := s.out ++ [.tap b] }

/-- A life-cycle request on the TAP at Update-DR: checks 1 to 3, 5 and 6 of R393. -/
def State.tapRequest (s : State) (target zeros_ : Nat) (token : Bytes) : Nat × State :=
  if zeros_ ≠ 0 ∨ token.length ≠ 32 ∨ ((lcOf target).isNone ∧ (target ≠ 0xE ∨ ¬ allZero token)) then (stBadParam, s)
  else match lcOf target with
    | none => (stLifecycle, s)
    | some to_ =>
      if to_ = s.lc ∨ s.life.journal.any (fun j => j.2.1 == to_) then (0, s)
      else if ¬ s.lcAllowed to_ then (stLifecycle, s)
      else match lcPair s.lc to_ with
        | none => (stLifecycle, s)
        | some (slot, _, tap) =>
          if ¬ tap ∨ 4 ≤ s.life.tokFails then (stLifecycle, s)
          else if tokenGood slot token then (0, s.beginTransition to_ 1 (List.replicate 12 0xFF))
          else (stLifecycle, s.tokenFailed target 1)

/-- `LC_REQ` (R404). -/
def execLcReq (t target zeros_ : Nat) (token : Bytes) (s : State) : Host.Outcome State Fault Refusal :=
  ev t (fun s =>
    let ok := match s.lc with
      | .blank | .test | .analysis => true
      | .production => target == 4
      | .scrapped => false
    s.tapPrivate .lcReq ok (fun s =>
      let r := s.tapRequest target zeros_ token
      { r.2 with life := { r.2.life with tapResult := tapCodeOf r.1 } })) s

/-- `last result` of `LC_STATUS` (R404): in progress while the transition that the TAP asked for runs. -/
def State.tapLast (s : State) : Nat :=
  if s.life.tapResult = 0 ∧ s.life.journal.any (fun j => j.2.2.1 == 1) then 0xFF else s.life.tapResult

/-- `LC_STATUS` (R403, R404). -/
def execLcStatus (t : Nat) (s : State) : Host.Outcome State Fault Refusal :=
  ev t (fun s => s.tapPrivate .lcStatus true (fun s =>
    s.tapOut (toLe 4 (lcCode s.lc * 2 ^ 28 + s.life.tokFails % 16 * 2 ^ 24 + s.tapLast * 2 ^ 16)))) s

/-- `DBG_CERT` (R404). -/
def execDbgCert (t : Nat) (cert : Bytes) (s : State) : Host.Outcome State Fault Refusal :=
  ev t (fun s =>
    let ok := match s.lc with
      | .blank | .test => true
      | .production => s.life.recovery && s.life.opened
      | _ => false
    s.tapPrivate .dbgCert ok (fun s =>
      let st := s.certStatus cert
      let s := if st = 0 then s.grant cert 1 else s
      { s with life := { s.life with tapResult := tapCodeOf st } })) s

/-- `DBG_STATUS` (R403). -/
def execDbgStatus (t : Nat) (s : State) : Host.Outcome State Fault Refusal :=
  ev t (fun s => s.tapPrivate .dbgStatus (s.lc != .scrapped) (fun s =>
    s.tapOut (toLe 4 (s.debugPorts * 2 ^ 16 + s.debugRights)))) s

/-- Whether the debug access port lets an act reach an island (Table 17-5). -/
def State.debugOpen (s : State) (island : Nat) (kind : DbgKind) : Bool :=
  bit s.debugPorts 0 && s.debugIsland island &&
  bit s.debugRights (match kind with | .halt | .step | .resume => 0 | .read _ => 1 | .write .. => 2)

/-- `DBG_ACCESS` (R402, R403, R419): while `TAP_DEBUG` is granted, an act that the rights permit reaches the island through its
gatekeeper. -/
def execDbgAccess (t island : Nat) (kind : DbgKind) (s : State) : Host.Outcome State Fault Refusal :=
  ev t (fun s => s.tapPrivate .dbgAccess (bit s.debugPorts 0) (fun s =>
    if s.debugOpen island kind then s.gatekeep island (.debug kind) else s)) s

/-- `BYPASS` (R406). -/
def execBypass (t : Nat) (s : State) : Host.Outcome State Fault Refusal := ev t (fun s => s.tapSelect .bypass) s

/-- `SAMPLE_PRELOAD` (R406): the pads keep their functions. -/
def execSamplePreload (t : Nat) (s : State) : Host.Outcome State Fault Refusal := ev t (fun s => s.tapSelect .sample) s

/-- `EXTEST` (R406). -/
def execExtest (t : Nat) (s : State) : Host.Outcome State Fault Refusal := ev t (fun s => s.tapSelect .extest) s

/-- `CLAMP` (R406). -/
def execClamp (t : Nat) (s : State) : Host.Outcome State Fault Refusal := ev t (fun s => s.tapSelect .clamp) s

/-- `HIGHZ` (R406). -/
def execHighz (t : Nat) (s : State) : Host.Outcome State Fault Refusal := ev t (fun s => s.tapSelect .highz) s

/-- `IDCODE` (R406). -/
def execIdcode (t : Nat) (s : State) : Host.Outcome State Fault Refusal :=
  ev t (fun s => (s.tapSelect .idcode).tapOut (toLe 4 Config.idcode.toNat)) s

/-- `TAP_RESET` (R406, R488): Test-Logic-Reset selects IDCODE. -/
def execTapReset (t : Nat) (s : State) : Host.Outcome State Fault Refusal := ev t (fun s => s.tapSelect .idcode) s

end Sys2Proof.Machine
end

