-- ==== Sys2Proof/Machine/Release.lean ====
section
/-! DEFINITION. From an end record to the reply: what the Relay writes once, the release rule, and the reply
(R52, R64 to R66, R82, R149, R151, R175, R324, R325, R332 to R335, R397). -/

namespace Sys2Proof.Machine

/-- The Module Root Key made anew (R128): of 64 bytes of randomness, the serial and the power-cycle count. -/
def State.newMrk (s : State) (rnd : Bytes) : State :=
  let mrk := hmac shaP512 (toBe 32 Config.mixSecret.toNat) (rnd ++ serialBytes ++ toLe 4 s.pcycle)
  { s with tamper := { s.tamper with mrk := some mrk, mrkLost := false } }

/-- Every compartment register fails authentication (R128, R362): one record for each compartment lost. -/
def State.loseComps (s : State) : State :=
  let lost := s.nvm.comps.filter (fun (e : Nat × Comp) => e.2.st != .undefined)
  let s := s.updStores (fun st => { st with comps := [], reserveUsed := 0 })
  lost.foldl (fun s (e : Nat × Comp) => s.event 0x3001 sevEvid 3 (toLe 2 e.1 ++ [0, 0] ++ toLe 4 e.2.gen)) s

/-- The commit of `UNLOCK` (R175, R362): LOCK is lifted, service resumes from the next epoch, and after a ZEROIZE-MODULE the
Module Root Key is made anew of the 64 bytes that the request drew. -/
def State.unlock (s : State) (rnd : Bytes) : State :=
  let s := { s with tamper := { s.tamper with lock := false, lockCause := 0, resumeAt := 4000 * (epochOf s.now + 1) } }
  if s.tamper.mrkLost then (s.newMrk rnd).loseComps else s

/-- A key marked as revoked in a store for every request but the revocation itself (R149). -/
def Store.markRevoked (st : Store) (c h q : Nat) : Store :=
  st.updComp c (fun x =>
    let x := { x with revs := Tbl.put x.revs h q }
    if h = 0 then { x with transport := none, oldTrans := x.oldTrans ++ x.transport.toList.map (fun k => (q + 1, k)) }
    else { x with keys := Tbl.upd x.keys h (fun k => { k with unloadAt := some (q + 1) }) })

/-- The effect point of a revocation in both twins (R103, R149): uses accepted before it that have not completed end
`KEY_REVOKED`, and later ones `KEY_NOT_FOUND`; an earlier one still on its way finds the handle among the revoked. DESIGN CHOICE:
a later `KEY_UNLOAD` of the key that is in service is among them, though one that arrives afterwards is answered `OK`
(assumption 195). -/
def State.revoke (s : State) (c h q : Nat) : State :=
  let s := s.updBoth (fun x => { x with store := x.store.markRevoked c h q })
  let names := fun (x : TwinSt) (p : Nat) (r : Req) => r.space == c && (r.allowed.contains h || x.names p r h)
  let s := s.abortWhere (fun x p r => decide (p < q) && names x p r) stRevoked
  s.abortWhere (fun x p r => decide (q < p) && names x p r) stKeyNotFound

/-- What an effect does outside the stores, once, when the first end record reaches the Relay (R82, R149, R151, R174, R196,
R250, R332, R396, R401). -/
def State.relayEffect (q stamp : Nat) (s : State) : Effect → State
  | .attnClear m => s.clearSticky (BitVec.ofNat 12 m)
  | .healthClear => s.clearSticky attnHealth
  | .unlock rnd => s.unlock rnd
  | .lcStart t o => match lcOf t with | some to_ => s.beginTransition to_ 0 o | none => s
  | .recoveryOpen => { s with life := { s.life with opened := true } }
  | .dbgGrant cert path => s.grant cert path
  | .slotActivate c image slot _ _ =>
    if c ≠ 3 then s
    else ((s.updStores (fun st => st.setComponent 3 image ((st.component 3 image).placed slot (4000 * (epochOf s.now + 1))))
      ).updBoth (fun x => x.dropVersion image slot)).loadPinned
  | .compState c .zeroizing => s.abortWhere (fun _ _ r => r.space == c) stZeroized
  | .compCreate c gen _ _ _ =>
    (s.updStores (fun st => { st with starts := Tbl.put st.starts c (gen, 4000 * epochOf stamp) })).loadPinned
  | .ledgerPut c h l => if l.revoked then s.revoke c h q else s
  | _ => s

/-- A record that an end record asks for, with its origin: the twin whose end record the Relay writes it from (R371), and
the Relay for a life-cycle record (R407). -/
def EvReq.from_ (e : EvReq) (w : Twin) : EvReq :=
  if e.origin ≠ 0 then e
  else { e with origin := if e.id / 4096 = 5 then 3 else twinCode w }

/-- A record of an end record written by the Relay; that of a token's failure advances the count and carries it (R394). -/
def State.noteOf (w : Twin) (s : State) (v : EvReq) : State :=
  if v.id = 0x5004 then
    let n := s.life.tokFails + 1
    ({ s with life := { s.life with tokFails := n } }).note
      ({ v with detail := v.detail.take 3 ++ [byte (min 255 n)] ++ v.detail.drop 4 }.from_ w)
  else s.note (v.from_ w)

/-- The commit effects of an end record written by the Relay (R332). -/
def State.relayWrite (s : State) (w : Twin) (q : Nat) (r : Req) (e : EndRec) : State :=
  let fx := (e.effects.filter Effect.inNvm).map Effect.forNvm
  let undo := undoEffects e.stamp s.nvm fx
  let told := (Tbl.find? s.rreqs q).any (fun rr => rr.noted)
  let s := { s with nvm := r.countDcl (applyEffects e.stamp s.nvm fx)
                    rreqs := Tbl.upd s.rreqs q (fun rr => { rr with undo := undo, noted := true }) }
  let s := s.fillDraws w q r.hdr.id r.hdr.comp e
  let evs := if told then [] else e.evs.filter (fun v => v.id / 256 != 0x81)
  let s := evs.foldl (State.noteOf w) s
  e.effects.foldl (State.relayEffect q e.stamp) s

/-- Whether an end record begins a transition to a state other than the one for which `J_INTENT` is blown (R405). -/
def State.forestalled (s : State) (e : EndRec) : Bool :=
  e.effects.any (fun f => match f with
    | .lcStart t _ => s.life.journal.any (fun j => lcOf t != some j.2.1)
    | _ => false)

/-- Whether the evidence queue has room for the records of an end record (R380). Those of a draw, which every other record waits
for, are taken in any case. -/
def State.roomFor (s : State) (q : Nat) (e : EndRec) : Bool :=
  (Tbl.find? s.alm.draws q).isSome ||
  decide (s.alm.ev.queue.length + s.alm.waiting.length + e.evs.countP (fun v => v.sev == sevEvid) ≤ 1024) ||
  (s.alm.ev.queue.isEmpty && s.alm.waiting.isEmpty)

/-- `END_RECORD_AT_RELAY` (R332): the first end record of a request to reach the Relay. A commit whose evidence records find no
room in the queue waits, at rank 2 (R380). A transition that the TAP forestalled ends as check 3 of R393 (R405). -/
def execEndRecordAtRelay (t : Nat) (w : Twin) (q : Nat) (s : State) : Host.Outcome State Fault Refusal :=
  ev t (fun s =>
    match Tbl.find? s.rreqs q, Tbl.find? (s.twin w).reqs q with
    | some rr, some r =>
      match r.fin with
      | some e =>
        if rr.first.isSome ∨ ¬ r.applied ∨ s.failStop then s
        else if ¬ s.roomFor q e then s.updTwin w (fun x => x.updReq q (fun r => { r with precMark := true }))
        else if s.forestalled e then s.failReq q stLifecycle
        else ({ s with rreqs := Tbl.put s.rreqs q { rr with first := some w } }).relayWrite w q r e
      | none => s
    | _, _ => s) s

/-- Whether an end record carries the active's time-out verdict (R190 to R193): the twins decide an expiry at acceptance
alike. -/
def Req.expiry (r : Req) (q : Nat) : Bool :=
  match r.fin with
  | some e => [stExpired, stPrecedence, stRng].contains e.status && (r.hdr.deadline == 0 || decide (q < r.hdr.deadline))
  | none => false

/-- Whether a request's digest is compared with the other twin's (R333, R350, Table 14-1). -/
def State.mustCompare (s : State) (w : Twin) (rr : RReq) : Bool :=
  match (s.twin (otherTwin w)).role with
  | .healthy | .resync | .active => rr.to (otherTwin w)
  | _ => false

/-- The digests of a request compared as soon as a twin has both (R331, R345): equal, or a mismatch that starts a
re-execution, for which its flow successors and dependants wait at rank 2 (R194). The active does not compare an expiry before its verdict is sent (R190). -/
def TwinSt.compareReq (x : TwinSt) (act : Bool) (q : Nat) : TwinSt :=
  match Tbl.find? x.reqs q with
  | some r =>
    match r.fin, r.peerDig with
    | some e, some d =>
      if r.compared ∨ r.mismatch ∨ (act ∧ r.expiry q ∧ r.sent.isNone) then x
      else if d.2 = e.digest then x.updReq q (fun r => { r with compared := true, log := none })
      else
        let behind := fun (p : Nat × Req) => decide (q < p.1) && p.2.fin.isNone && !p.2.begun &&
          (r.holds p.2 || p.2.preds.contains q)
        let x := { x with reqs := x.reqs.map (fun (p : Nat × Req) => (p.1, if behind p then { p.2 with precMark := true } else p.2)) }
        { x.updReq q (fun r => { r with mismatch := true, precMark := true, reexec := none, reexecOn := none, rechunks := [] }) with
          ctr := { x.ctr with reexecs := satAdd 32 x.ctr.reexecs 1 } }
    | _, _ => x
  | none => x

/-- A twin with a mismatch to resolve is woken (Table 18-5). -/
def State.wakeMismatch (s : State) (w : Twin) : State :=
  if (s.twin w).reqs.any (fun (p : Nat × Req) => p.2.mismatch && p.2.reexec.isNone) then s.wakeTwin w else s

/-- Whether what a committed request's reply waits for has come (R151, R397, R469). A transition to SCRAPPED posts no
reply. -/
def State.holdOver (s : State) : Hold → Bool
  | .none => true
  | .swap e => !s.nvm.swap.any (fun p => p.1 == e)
  | .zeroized c => (s.nvm.comp c).st == .zeroized || (Tbl.find? s.nvm.comps c).isNone
  | .wiped => s.life.journal.isNone && s.lc != .scrapped
  | .snapshot _ => true
  | .selftest _ => true

/-- The reply to a released request (R64, R65, R77, R334), with its completion stamp. `RESULT_INLINE` of a reply without a
result is 1 (assumption 174). -/
def replyOf (w : Twin) (q stamp : Nat) (compared : Bool) (r : Req) (e : EndRec) : Reply :=
  let small := e.status == stTooSmall
  { id := r.hdr.id, status := if e.status = stOk ∧ ¬ compared then stUnconfirmed else e.status, rlen := e.rlen,
    accept := q, complete := e.replay.getD stamp, isInline := !small && decide (e.result.length ≤ 24),
    result := if !small ∧ e.result.length ≤ 24 then e.result else [], orig := e.orig, by_ := twinCode w }

/-- The result's write to the reply buffer, when it goes there (R65). -/
def replyPayload (r : Req) (e : EndRec) : Option (Nat × Bytes) :=
  if 24 < e.result.length ∧ e.status ≠ stTooSmall then some (r.hdr.rptr, e.result) else none

/-- A released request leaves both twins. Effects that the standby still held back stand (R190), and those that a returning
twin has not received go with the next batch (R349). -/
def State.retireReq (s : State) (w : Twin) (q : Nat) (e : EndRec) (toOther : Bool) : State :=
  let o := otherTwin w
  let unsent : Bool := match Tbl.find? (s.twin w).reqs q with | some r => r.sent.isNone | none => false
  let joined := (s.twin o).role == .resync && (s.twin o).resyncEj.isSome
  let s := s.updTwin w (fun x =>
    let x := (x.keepFailed q e.status).notify q e.status
    { x with reqs := Tbl.del x.reqs q
             fxOut := if joined ∧ ¬ toOther ∧ unsent then x.fxOut ++ [(q, e.status, e.effects)] else x.fxOut })
  if joined ∧ ¬ toOther then s
  else s.updTwin o (fun x =>
    let x := ((x.applyFin q).keepFailed q e.status).notify q e.status
    ({ x with reqs := Tbl.del x.reqs q }).sweep)

/-- The reply of a request passed to the output selector and written (R52, R333). -/
def State.release (s : State) (w : Twin) (q : Nat) (rr : RReq) (r : Req) (e : EndRec) : State :=
  let c := s.stampOf 415
  let s := s.stamped 415
  let s := s.retireReq w q e (rr.to (otherTwin w))
  let s := if e.hold = .wiped then { s with life := { s.life with selfReset := some (s.now + 40000000) } } else s
  s.leaveRelay q (fun rr s => s.writeReply rr.fn rr.idx (replyOf w q c r.compared r e) (replyPayload r e))

/-- `RESULT_RELEASE` (R333): the conditions of the rule, and with them what the reply waits for. In SCRAPPED there is none
(R389). -/
def execResultRelease (t q : Nat) (s : State) : Host.Outcome State Fault Refusal :=
  ev t (fun s =>
    match s.active with
    | none => s
    | some w =>
      let s := (s.updTwin w (fun x => x.compareReq true q)).wakeMismatch w
      match Tbl.find? s.rreqs q, Tbl.find? (s.twin w).reqs q with
      | some rr, some r =>
        match r.fin with
        | some e =>
          if r.applied ∧ rr.first.isSome ∧ ¬ (s.twin w).giveUp ∧ ¬ s.failStop ∧ s.egress = some w ∧ ¬ r.mismatch ∧ s.lc ≠ .scrapped ∧
              (r.compared ∨ ¬ s.mustCompare w rr) ∧ s.holdOver e.hold then
            s.release w q rr r e
          else s
        | none => s
      | _, _ => s) s

end Sys2Proof.Machine
end

