-- ==== Sys2Proof/Machine/Admin.lean ====
section
/-! DEFINITION. How Zenith serves an admin command: when it runs, quorums, and the commands on configuration sets, firmware
slots, records, attestation, life cycle and debug (R84 to R86, R155 to R163, R384 to R387, R392 to R401, R455 to R470). -/

namespace Sys2Proof.Machine

/-- Whether Zenith may run a request (R84, R162): its payload is there, its predecessors and order are met, and it has not
begun. -/
def State.admReady (s : State) (w : Twin) (op q : Nat) (r : Req) : Bool :=
  r.hdr.opcode == op && r.forZenith && r.fin.isNone && r.complete && r.awaits == .none && !r.begun && r.matched.isNone &&
  (Tbl.find? r.tasks 0).any (fun k => k.dep == 0) && !(s.twin w).ordered (s.isActive w) q r

/-- An admin command run in a twin: its end record, or what it leaves instead. One that a check ends has no effect but its
replay entry, where the status enters the table (R75). -/
def State.runAdmin (s : State) (op : Nat) (w : Twin) (q : Nat) (cmd : VEnv → VM EndRec) : State :=
  if ¬ s.executes w ∨ ¬ s.awake (twinBase w + 198) then s else
  let s := s.updTwin w (fun x => x.settleRoot (s.isActive w) s.now q)
  match Tbl.find? (s.twin w).reqs q with
  | none => s
  | some r =>
    let e : VEnv := { w := w, q := q, r := r, p := r.payload }
    if ¬ s.admReady w op q r then s
    else
      let s := s.updTwin w (fun x => x.keepLog q)
      let ends := fun (s : State) (f : EndRec) =>
        ((s.updTwin w (fun x => x.updReq q (fun r => { r with begun := true }))).finish w q f).serve w
      match (cmd e).run s with
      | .ok (f, s) => ends s f
      | .error (.status n s) => ends s { status := n, commits := commitsAt n }
      | .error .wait => s
      | .error (.stopped s) => s.rngStopped w q 0 r
      | .error (.halt s) => s

/-- An admin command as an event. -/
def admin (t op : Nat) (w : Twin) (q : Nat) (cmd : VEnv → VM EndRec) (s : State) : Host.Outcome State Fault Refusal :=
  ev t (fun s => s.runAdmin op w q cmd) s

/-- What the Relay supplies for a request, the same bytes to both twins (R329). -/
def VEnv.given (e : VEnv) (f : State → Bytes) : VM Bytes := fun s =>
  match Tbl.find? s.rreqs e.q with
  | none => .ok (f s, s)
  | some rr =>
    match rr.given with
    | some b => .ok (b, s)
    | none =>
      let b := f s
      .ok (b, { s with rreqs := Tbl.put s.rreqs e.q { rr with given := some b } })

/-- The first check of an admin command: `STATE_CHANGE` where Table 4-9 asks for it, length, fields, reserved bytes. -/
def VEnv.admShape (e : VEnv) (sc ok : Bool) (reserved : List (Nat × Nat)) : VM Unit := do
  need (!sc || e.r.hdr.stateChange) stBadParam
  e.shape ok true reserved

/-- An evidence record that a command asks for, made now. -/
def evidence (id now : Nat) (d : Bytes) : EvReq :=
  { id := id, sev := sevEvid, origin := 0, stamp := now, detail := fixLen 16 d }

/-- The action digest of a command (R160). -/
def VEnv.action (e : VEnv) : Bytes := sha384 (toLe 2 e.r.hdr.opcode ++ toLe 8 e.r.hdr.param ++ e.p)

/-- A scope whose officers count for a command, with the role that counts (R156). -/
structure QScope where
  scope : Nat
  comp  : Nat
  role  : Nat
  deriving DecidableEq, Repr

/-- The module's officers as a scope. -/
def msoScope : QScope := { scope := 0, comp := 0, role := 0 }

/-- Whether an approval comes from an officer of a scope. -/
def Store.counts (st : Store) (g : QScope) (a : Approval) : Bool :=
  a.scope == g.scope && (g.scope == 0 || a.comp == g.comp) &&
  (Tbl.find? (st.officers a.scope a.comp) a.officer).any (fun o => o.role == g.role)

/-- The first approval of each officer, in the order of their ids. -/
def oldestEach : List (Nat × Approval) → List (Nat × Approval)
  | [] => []
  | a :: l => a :: (oldestEach l).filter (fun b => b.2.officer != a.2.officer)

/-- M approvals of distinct officers, the oldest first, with a card approval among them where the class asks for one
(R155, R161). -/
def pickQuorum (m : Nat) (card : Bool) (l : List (Nat × Approval)) : Option (List (Nat × Approval)) :=
  let each := oldestEach l
  if each.length < m then none
  else if ¬ card ∨ (each.take m).any (fun a => a.2.port.isSome) then some (each.take m)
  else match l.find? (fun (a : Nat × Approval) => a.2.port.isSome) with
    | some c => some ((each.filter (fun a => a.2.officer != c.2.officer)).take (m - 1) ++ [c])
    | none => none

/-- The quorum check (R85, R155, R156): the approvals that the command consumes. An approval has expired by the command's
acceptance stamp, alike in both twins (R329; assumption 199). DESIGN CHOICE where the officers of both scopes reach M: those of
the scope listed first serve, the module's before a compartment's (assumption 195). -/
def VEnv.quorum (e : VEnv) (cls : Nat) (scopes : List QScope) : VM (List (Nat × Approval)) := do
  let x ← e.x
  let st := x.store
  let l := st.approvals.filter (fun (a : Nat × Approval) =>
    a.2.cls == cls && a.2.digest == e.action && decide (e.q ≤ a.2.expiry))
  let m := st.activeSet.quorum cls
  match scopes.findSome? (fun g => pickQuorum m (cls == 7) (l.filter (fun (a : Nat × Approval) => st.counts g a.2))) with
  | some r => pure r
  | none => vfail (if l.any (fun (a : Nat × Approval) => !scopes.any (fun g => st.counts g a.2)) then stRole else stQuorum)

/-- The effects that consume approvals. -/
def consume (l : List (Nat × Approval)) : List Effect := l.map (fun (a : Nat × Approval) => Effect.approvalDel a.1)

/-- Officer indices as a record names them: 12 bytes, 0xFF for the unused. -/
def officerBytes (l : List (Nat × Approval)) : Bytes :=
  (l.map (fun (a : Nat × Approval) => byte a.2.officer) ++ List.replicate 12 0xFF).take 12

/-- Whether a command that needs a compartment, an image or a customer key is refused in this boot (R389, R399). -/
def State.lcDenied (s : State) : Bool := s.life.recovery || s.lc == .blank || s.lc == .analysis || s.lc == .scrapped

/-- `ADM_NOP`. -/
def runAdmNop (e : VEnv) : VM EndRec := do
  e.admShape false (e.len == 0 && e.r.hdr.param == 0) []
  pure (done [] [] [])

/-- `ADM_NOP` (Table 4-9). -/
def execAdmNop (t : Nat) (w : Twin) (q : Nat) (s : State) : Host.Outcome State Fault Refusal := admin t 0x0100 w q runAdmNop s

/-- The status block of Table 4-10: each count that differs between the twins is the lower one. -/
def State.statusBlock (s : State) : Bytes :=
  let low := fun (f : TwinSt → Twin → Nat) => min (f s.twinA .a) (f s.twinB .b)
  toLe 4 s.modState ++ toLe 2 s.attention ++
  toLe 2 (s.nvm.comps.countP (fun c => c.2.st == .active || c.2.st == .suspended)) ++ toLe 4 s.pcycle ++
  toLe 2 (s.mbxs.countP (fun m => m.2.state == .enabled)) ++
  toLe 2 (low (fun x w => x.freeSpares w .core)) ++ toLe 2 (low (fun x w => x.freeSpares w .engine)) ++
  toLe 2 (low (fun x _ => x.ent.actives + x.ent.spares)) ++ toLe 4 s.evidenceFree

/-- `ADM_STATUS`. -/
def runAdmStatus (e : VEnv) : VM EndRec := do
  e.admShape false (e.len == 0 && e.r.hdr.param == 0) []
  let b ← e.given State.statusBlock
  pure (done b [] [])

/-- `ADM_STATUS` (R86). -/
def execAdmStatus (t : Nat) (w : Twin) (q : Nat) (s : State) : Host.Outcome State Fault Refusal :=
  admin t 0x0101 w q runAdmStatus s

/-- `ATTN_ACK`: the word as it stands once the bits are cleared. -/
def runAttnAck (e : VEnv) : VM EndRec := do
  let m := e.r.hdr.param
  e.admShape false (e.len == 0 && decide (m < 65536)) []
  let b ← e.given (fun s => toLe 2 s.attention)
  let a := leNat b
  let bits' := (BitVec.ofNat 12 a) &&& ~~~(BitVec.ofNat 12 m &&& 0b011000010101#12)
  let seq := (a / 4096 + (if bits' = BitVec.ofNat 12 a then 0 else 1)) % 16
  pure (done (toLe 2 (seq * 4096 + bits'.toNat)) [.attnClear m] [])

/-- `ATTN_ACK` (R82). -/
def execAttnAck (t : Nat) (w : Twin) (q : Nat) (s : State) : Host.Outcome State Fault Refusal := admin t 0x0102 w q runAttnAck s

/-- Whether an earlier holder was in service when the command was accepted, as the Relay found it (R455, R467, assumption
104). -/
def VEnv.behind (e : VEnv) : VM Bool := fun s => .ok ((Tbl.find? s.rreqs e.q).any (fun rr => rr.behind), s)

/-- The shadow set is free for a command (R467): no earlier holder when it was accepted, and no committed swap. The Relay tells
both twins alike, with the epoch in which the command is served (R329). -/
def VEnv.shadowFree (e : VEnv) : VM Nat := do
  let held ← e.behind
  let g ← e.given (fun s => byte (b2n (s.nvm.swap.isSome || s.twinA.store.swap.isSome || s.twinB.store.swap.isSome)) ::
    toLe 8 (epochOf s.now))
  need (!held && fld g 0 1 == 0) stBusy
  pure (fld g 1 8)

/-- `CFG_SHADOW_WRITE`. -/
def runCfgShadowWrite (e : VEnv) : VM EndRec := do
  let sec := e.f 0 1
  let off := e.f 4 4
  let data := e.from_ 8
  e.admShape true (decide (8 ≤ e.len) && e.r.hdr.param == 0) [(1, 3)]
  need (if sec = 0 then off == 0 && data.isEmpty else decide (sec ≤ 8) && decide (off + data.length ≤ secSize sec)) stBadParam
  let _ ← e.shadowFree
  pure (done [] [if sec = 0 then .cfgCopy else .cfgWrite sec off data] [])

/-- `CFG_SHADOW_WRITE` (R465, R467). -/
def execCfgShadowWrite (t : Nat) (w : Twin) (q : Nat) (s : State) : Host.Outcome State Fault Refusal :=
  admin t 0x0110 w q runCfgShadowWrite s

/-- `CFG_SHADOW_VALIDATE`. -/
def runCfgShadowValidate (e : VEnv) : VM EndRec := do
  e.admShape true (e.len == 0 && e.r.hdr.param == 0) []
  let x ← e.x
  let _ ← e.shadowFree
  let s ← vstate
  let now ← vnow
  let c := x.store.shadowSet
  match x.store.cfgFault c (s.lc == .production) with
  | some (sec, off, code) =>
    pure (done ([1, byte sec, 0, 0] ++ toLe 4 off ++ toLe 2 code ++ zeros 54) [.cfgValidated none] [])
  | none =>
    let d := c.digest
    pure (done (zeros 16 ++ d) [.cfgValidated (some d)] [evidence 0x2001 now (zeros 8 ++ d.take 8)])

/-- `CFG_SHADOW_VALIDATE` (R466). -/
def execCfgShadowValidate (t : Nat) (w : Twin) (q : Nat) (s : State) : Host.Outcome State Fault Refusal :=
  admin t 0x0111 w q runCfgShadowValidate s

/-- `CFG_SWAP`. -/
def runCfgSwap (e : VEnv) : VM EndRec := do
  let ep := e.r.hdr.param
  e.admShape true (e.len == 48) []
  let x ← e.x
  let commit ← e.shadowFree
  let now ← vnow
  need (x.store.validated == some e.p) stBadParam
  need (decide (commit + 20 ≤ ep) && decide (ep ≤ epochOf e.q + 1000000000)) stBadParam
  let l ← e.quorum 1 [msoScope]
  pure { done (toLe 8 ep) (.cfgSwap ep e.p :: consume l) [evidence 0x2002 now (toLe 8 ep ++ e.p.take 8)] with hold := .swap ep }

/-- `CFG_SWAP` (R467, R468). -/
def execCfgSwap (t : Nat) (w : Twin) (q : Nat) (s : State) : Host.Outcome State Fault Refusal := admin t 0x0112 w q runCfgSwap s

/-- `CFG_READ`. -/
def runCfgRead (e : VEnv) : VM EndRec := do
  let sec := e.f 1 1
  let off := e.f 4 4
  let n := e.f 8 4
  e.admShape false (e.len == 12 && e.r.hdr.param == 0) [(2, 2)]
  need (decide (e.f 0 1 < 2) && decide (1 ≤ sec) && decide (sec ≤ 8) && decide (1 ≤ n) && decide (n ≤ 65536) &&
    decide (off + n ≤ secSize sec)) stBadParam
  let x ← e.x
  pure (done ((if e.f 0 1 = 0 then x.store.cfgA else x.store.cfgB).rd sec off n) [] [])

/-- `CFG_READ` (R465). -/
def execCfgRead (t : Nat) (w : Twin) (q : Nat) (s : State) : Host.Outcome State Fault Refusal := admin t 0x0113 w q runCfgRead s

/-- Whether a component, slot and image identifier name a slot (R455, R457, Table 10-1). -/
def slotNamed (comp slot image : Nat) (retire : Bool) : Bool :=
  decide (1 ≤ comp) && decide (comp ≤ 3) && (decide (slot < 2) || (retire && slot == 0xFF && comp == 3)) &&
  (if comp = 3 then image == 1 || image == 2 || (decide (0x100 ≤ image) && decide (image ≤ 0xFFFFFFFE)) else image == 0)

/-- Owner images that hold a version in a slot (R456). -/
def Store.ownersHeld (st : Store) : List Nat :=
  (st.images.filter (fun (c : Nat × Component) =>
    decide (0x100 ≤ c.1) && (c.2.slot0.st != .empty || c.2.slot1.st != .empty))).map Prod.fst

/-- Whether a slot of an image is the version by which a request other than one is served: an earlier request finishes on the
old version, which stays in its slot (R250). -/
def State.slotUsed (s : State) (image slot q : Nat) : Bool :=
  s.rreqs.any (fun (e : Nat × RReq) => e.1 != q && e.2.space != adminSpace &&
    (s.nvm.dispatch e.2.space e.2.hdr.opcode e.1).any (fun d => d.1 == image) &&
    (s.nvm.component 3 image).forceAt e.1 == some slot)

/-- `FW_SLOT_WRITE`: the write that brings a slot to its package's length has the checks run (R455). -/
def runFwSlotWrite (e : VEnv) : VM EndRec := do
  let comp := e.f 0 1
  let slot := e.f 1 1
  let image := e.f 4 4
  let off := e.f 8 4
  let data := e.from_ 12
  e.admShape true (decide (13 ≤ e.len) && e.r.hdr.param == 0) [(2, 2)]
  need (slotNamed comp slot image false && off % 64 == 0 && decide (data.length ≤ 1048576) &&
    decide (off + data.length ≤ maxPackage comp)) stBadParam
  let x ← e.x
  let s ← vstate
  let st := x.store
  let c := st.component comp image
  let held ← e.behind
  let g ← e.given (fun s => [byte (b2n (comp == 3 && s.slotUsed image slot e.q))])
  need (c.inForce != some slot && c.forceAt e.q != some slot && !held && fld g 0 1 == 0) stBusy
  need (!(comp == 3 && decide (0x100 ≤ image)) || st.ownersHeld.contains image || decide (st.ownersHeld.length < 32)) stBadParam
  let all := patch (if off = 0 then [] else (c.slot slot).data) off data
  if packageLen comp all = some all.length then
    let st' := st.setComponent comp image (c.setSlot slot { data := all, st := .written })
    let v := st'.slotStatus s.lc comp image slot
    pure (done [] [.slotWrite comp image slot off data (some (v == 0))]
      [evidence 0x2010 s.now (slotDetail comp slot v image (sha384 all))])
  else pure (done [] [.slotWrite comp image slot off data none] [])

/-- `FW_SLOT_WRITE` (R250, R455, R456). -/
def execFwSlotWrite (t : Nat) (w : Twin) (q : Nat) (s : State) : Host.Outcome State Fault Refusal :=
  admin t 0x0120 w q runFwSlotWrite s

/-- Whether a set binds an image to any compartment. -/
def CfgSet.bindsImage (c : CfgSet) (image : Nat) : Bool := c.compNumbers.any (fun n => (c.imagesOf n).contains image)

/-- `FW_SLOT_ACTIVATE`. -/
def runFwSlotActivate (e : VEnv) : VM EndRec := do
  let comp := e.f 0 1
  let slot := e.f 1 1
  let image := e.f 4 4
  e.admShape true (e.len == 8 && e.r.hdr.param == 0) [(2, 2)]
  need (slotNamed comp slot image true) stBadParam
  let s ← vstate
  need (!(comp == 3 && s.lcDenied)) stLifecycle
  let x ← e.x
  let st := x.store
  let c := st.component comp image
  if slot = 0xFF then do
    need (!st.cfgA.bindsImage image && !st.cfgB.bindsImage image) stBusy
    let l ← e.quorum 2 [msoScope]
    pure (done (zeros 48) (.slotRetire image c.floor c.pin :: consume l) [evidence 0x2011 s.now (slotDetail comp slot 0 image (zeros 8))])
  else do
    let m := (c.slot slot).measure
    if c.inForce = some slot then pure (done m [] [])
    else do
      let v := st.slotStatus s.lc comp image slot
      need (v == 0) v
      let l ← e.quorum 2 [msoScope]
      let pin := if comp = 3 then some (c.slot slot).ownerKey else none
      pure (done m (.slotActivate comp image slot ((c.slot slot).svn (comp != 3)) pin :: consume l)
        [evidence 0x2011 s.now (slotDetail comp slot 0 image m)])

/-- `FW_SLOT_ACTIVATE` (R249 to R251, R457, R458). -/
def execFwSlotActivate (t : Nat) (w : Twin) (q : Nat) (s : State) : Host.Outcome State Fault Refusal :=
  admin t 0x0121 w q runFwSlotActivate s

/-- The device identity private key of a life-cycle state (R460). -/
def deviceKey (lc : LcState) : Nat :=
  beNat (kdf108 7 9 (toBe 48 Config.deviceSecret.toNat) [0x50, 0x58, 0x49, 0x44] (byte (lcCode lc) :: serialBytes) 64) %
    (p384.n - 1) + 1

/-- A signature by the device identity key (R387, R461). -/
def VEnv.deviceSign (e : VEnv) (b : Bytes) : VM Bytes := do
  let s ← vstate
  let rnd ← e.draw 48
  pure (ecdsaSign 0x21 (deviceKey s.lc) (sha384 b) rnd)

/-- `ALM_READ`. -/
def runAlmRead (e : VEnv) : VM EndRec := do
  let p := e.r.hdr.param
  let n := bits p 38 32
  e.admShape false (e.len == 0 && decide (p < 2 ^ 41) && !bit p 39 && decide (1 ≤ n) && decide (n ≤ 64)) []
  let b ← e.given (fun s =>
    let evid := bit p 40
    let r := s.almRead evid (p % 2 ^ 32) n
    toLe 4 (s.oldest evid) ++ toLe 4 (s.reg evid).next ++ toLe 4 r.2.1 ++ [byte r.2.2.length, byte (b2n r.1), 0, 0] ++
      r.2.2.flatten)
  pure (done b [] [])

/-- `ALM_READ` (R384). -/
def execAlmRead (t : Nat) (w : Twin) (q : Nat) (s : State) : Host.Outcome State Fault Refusal := admin t 0x0A01 w q runAlmRead s

/-- An export without its signature; empty where the range is refused (R386, Table 16-6). -/
def State.exportBody (s : State) (evid : Bool) (first last q : Nat) (action : Bytes) : Bytes :=
  let o := s.oldest evid
  let first := if s.older evid first then o else first
  let off := fun (k : Nat) => (k + 2 ^ 32 - o) % 2 ^ 32
  let n := off last + 1 - off first
  if off (s.reg evid).next ≤ off last ∨ off last < off first ∨ 65536 < n then []
  else
    let pre := match Tbl.find? (s.reg evid).recs (seqPrev first) with
      | some r => if first = 0 then regionSeed evid else r.chain
      | none => regionSeed evid
    [0x50, 0x58, 0x41, 0x58, 1, byte (b2n evid), 0, 0] ++ serialBytes ++ toLe 4 s.pcycle ++ zeros 4 ++ toLe 8 q ++
    toLe 4 first ++ toLe 4 last ++ toLe 4 n ++ toLe 4 o ++ toLe 4 (s.reg evid).next ++ zeros 4 ++ fixLen 16 pre ++
    toLe 8 s.opSeconds ++ action ++ (s.almRead evid first n).2.2.flatten

/-- `ALM_EXPORT`. -/
def runAlmExport (e : VEnv) : VM EndRec := do
  e.admShape false (e.len == 12 && e.r.hdr.param == 0 && decide (e.f 0 1 < 2)) [(1, 3)]
  let b ← e.given (fun s => s.exportBody (e.f 0 1 == 1) (e.f 4 4) (e.f 8 4) e.q e.action)
  need (!b.isEmpty) stBadParam
  let x ← e.x
  let l ← e.quorum 8 (msoScope :: x.store.comps.map (fun c => { scope := 1, comp := c.1, role := 3 }))
  let sig ← e.deviceSign b
  let now ← vnow
  let v : EvReq := { evidence 0x0004 now ([byte (e.f 0 1), 0, 0, 0] ++ slice b 32 8) with sev := sevInfo }
  pure (done (b ++ sig) (consume l) [v])

/-- `ALM_EXPORT` (R386, R387). -/
def execAlmExport (t : Nat) (w : Twin) (q : Nat) (s : State) : Host.Outcome State Fault Refusal :=
  admin t 0x0A02 w q runAlmExport s

/-- The image entries of a report (Table 20-5). -/
def Store.imageEntries (st : Store) : List Bytes :=
  st.images.filterMap (fun (c : Nat × Component) => match c.2.inForce with
    | some i =>
      let x := c.2.slot i
      some (toLe 4 c.1 ++ toLe 4 (x.version false) ++ toLe 4 (x.svn false) ++
        [byte i, byte (b2n ((c.2.slot (1 - i)).st == .pendingAct)), 0, 0] ++ x.measure)
    | none => none)

/-- The declassification entries of a report: of every compartment, or of one (Table 20-6, R462). -/
def Store.dclEntries (st : Store) (only : Option Nat) : List Bytes :=
  (st.comps.filter (fun (c : Nat × Comp) => only.all (fun o => o == c.1))).flatMap (fun c =>
    (c.2.dclTotals.filter (fun d => d.2 != 0)).map (fun d => toLe 2 c.1 ++ [0, 0] ++ toLe 4 d.1 ++ toLe 8 d.2))

/-- An attestation report without its signature (Table 20-4). -/
def State.attestBody (s : State) (cert : Bool) (only : Option Nat) (q : Nat) (nonce : Bytes) : Bytes :=
  let lc := lcCode s.lc
  let c := if cert then (toBe 2048 (Config.deviceCert lc).toNat).take (min 2048 (Config.deviceCertLen lc).toNat) else []
  let rf := s.nvm.comp1.slot s.boot.relaySlot
  let zf := s.nvm.comp2.slot s.boot.zenSlot
  let imgs := s.nvm.imageEntries
  let dcl := s.nvm.dclEntries only
  [0x50, 0x58, 0x41, 0x52, 1, byte lc] ++
  toLe 2 (b2n s.life.recovery + 2 * b2n s.tamper.lock + 4 * b2n s.boot.trialBoot + 8 * b2n cert) ++ serialBytes ++
  toLe 4 s.pcycle ++ toLe 4 c.length ++ toLe 8 q ++ toLe 8 s.opSeconds ++ nonce ++ rf.measure ++ zf.measure ++
  s.nvm.activeSet.digest ++ (s.nvm.validated.getD (zeros 48)) ++ toLe 4 (rf.version true) ++ toLe 4 (zf.version true) ++
  toLe 4 imgs.length ++ toLe 4 dcl.length ++ toLe 4 s.alm.ev.next ++ toLe 4 s.alm.gen.next ++
  ecEnc p384 (ecMul p384 (deviceKey s.lc) (ecG p384)) ++ zeros 7 ++ imgs.flatten ++ dcl.flatten ++ c

/-- `ATTEST_REPORT`. -/
def runAttestReport (e : VEnv) : VM EndRec := do
  let p := e.r.hdr.param
  e.admShape false (e.len == 32 && decide (p < 2)) []
  let b ← e.given (fun s => s.attestBody (bit p 0) (if e.r.space = adminSpace then none else some e.r.space) e.q e.p)
  let sig ← e.deviceSign b
  pure (done (b ++ sig) [] [])

/-- `ATTEST_REPORT` (R461, R462). -/
def execAttestReport (t : Nat) (w : Twin) (q : Nat) (s : State) : Host.Outcome State Fault Refusal :=
  admin t 0x0A00 w q runAttestReport s

/-- `LC_TRANSITION` to a state: checks 2 to 6 of R393, against what was supplied. The state in force and the target of a
transition already begun complete under check 2 (R405). The quorum comes before the token limit and the token, as in R393,
where R85 has the quorum last (assumption 178). -/
def VEnv.transition (e : VEnv) (target : Nat) (to_ : LcState) (g : Bytes) : VM EndRec := do
  let now ← vnow
  if fld g 4 1 = 1 then pure (done [byte target, 0, 0, 0] [] [])
  else
    match lcPair ((lcOf (fld g 0 1)).getD .blank) to_ with
    | none => vfail stLifecycle
    | some (slot, asks, _) => do
      need (fld g 2 1 == 1) stLifecycle
      let l ← if asks then e.quorum 7 [msoScope] else pure []
      need (decide (fld g 1 1 < 4)) stLifecycle
      if tokenGood slot (e.b 8 32) then
        pure { done [byte target, 0, 0, 0] (.lcStart target (officerBytes l) :: consume l) [] with hold := .wiped }
      else
        pure { status := stLifecycle, evs := [evidence 0x5004 now [byte (fld g 0 1), byte target, 0, byte (fld g 1 1 + 1)]] }

/-- `LC_TRANSITION`. -/
def runLcTransition (e : VEnv) : VM EndRec := do
  let target := e.f 0 1
  e.admShape true (e.len == 40 && e.r.hdr.param == 0) []
  need (allZero (e.b 1 7)) stBadParam
  need ((lcOf target).isSome || (target == 0xE && allZero (e.b 8 32))) stBadParam
  let g ← e.given (fun s =>
    [byte (lcCode s.lc), byte (min 255 s.life.tokFails), byte (b2n ((lcOf target).any s.lcAllowed)), byte (b2n s.life.recovery),
      byte (b2n (lcCode s.lc == target || s.life.journal.any (fun j => lcCode j.2.1 == target)))])
  match lcOf target with
  | some to_ => e.transition target to_ g
  | none => do
    need (fld g 3 1 == 1) stLifecycle
    let l ← e.quorum 7 [msoScope]
    let now ← vnow
    pure (done [2, 0, 0, 0] (.recoveryOpen :: consume l) [evidence 0x5005 now (officerBytes l)])

/-- `LC_TRANSITION` (R392, R393, R399). -/
def execLcTransition (t : Nat) (w : Twin) (q : Nat) (s : State) : Host.Outcome State Fault Refusal :=
  admin t 0x0160 w q runLcTransition s

/-- `DEBUG_CERT_LOAD`: in ANALYSIS every right, without a certificate examined. -/
def runDebugCertLoad (e : VEnv) : VM EndRec := do
  e.admShape true (e.r.hdr.param == 0) []
  let s ← vstate
  if s.lc = .analysis then pure (done (toLe 2 15 ++ toLe 2 7 ++ zeros 4 ++ islandMap (List.range 428)) [] [])
  else do
    let v := s.certStatus e.p
    need (v == 0) v
    let r := certRights s.lc e.p
    pure (done (toLe 2 r.1 ++ toLe 2 r.2.1 ++ zeros 4 ++ islandMap r.2.2) [.dbgGrant e.p 0] [])

/-- `DEBUG_CERT_LOAD` (R401). -/
def execDebugCertLoad (t : Nat) (w : Twin) (q : Nat) (s : State) : Host.Outcome State Fault Refusal :=
  admin t 0x0161 w q runDebugCertLoad s

end Sys2Proof.Machine
end

