-- ==== Sys2Proof/Machine/Health.lean ====
section
/-! DEFINITION. Health reports (R352, R353, R495). -/

namespace Sys2Proof.Machine

/-- `ROLE` of Table 14-9. -/
def TwinRole.code : TwinRole → Nat
  | .booting => 0
  | .active => 1
  | .healthy => 2
  | .degraded => 3
  | .resync => 4
  | .offline => 5

/-- The generation of the seed in force at an epoch (Table 13-6). -/
def Entropy.seedGeneration (e : Entropy) (epoch : Nat) : Nat :=
  match (e.seeds.filter (fun (x : Nat × Nat × Bytes) => decide (x.1 ≤ epoch))).getLast? with
  | some x => x.2.1
  | none => 0

/-- The first 8 bytes of a twin section (Table 14-9). -/
def TwinSt.sectionHead (x : TwinSt) (w : Twin) : Bytes :=
  [byte (twinCode w), byte x.role.code] ++ toLe 2 x.cause ++ toLe 2 x.causeIsl ++ [0, 0]

/-- An engine record (Table 14-10). -/
def TwinSt.engineRecord (x : TwinSt) (isl : Nat) : Bytes :=
  let c : EngCtr := Tbl.getD x.engCtr isl {}
  toLe 6 c.ops ++ toLe 6 c.blocks ++ toLe 2 c.cmpFail ++ toLe 2 c.rerun ++ toLe 4 c.keyMiss ++ toLe 4 c.reseed ++
  toLe 2 isl ++ [byte (x.unit isl).role.code] ++ zeros 5

/-- Samples that a source has taken: one every 62.5 ns, and 1,024 in the start-up test (R307). -/
def NSource.samplesAt (c : NSource) (now : Nat) : Nat :=
  match c.role with
  | .active _ | .spare => min (1024 + (now - c.base) / 250) (2 ^ 48 - 1)
  | _ => c.samples

/-- A source record (Table 14-11). -/
def Entropy.sourceRecord (e : Entropy) (now n : Nat) : Bytes :=
  let c : NSource := Tbl.getD e.sources n {}
  toLe 6 (c.samplesAt now) ++ toLe 2 c.rctFail ++ toLe 2 c.aptFail ++ [byte n] ++
  (match c.role with
    | .active g => [1, byte g]
    | .spare => [2, 0xFF]
    | .quarantined => [3, 0xFF]
    | .retired => [4, 0xFF]) ++ zeros 3

/-- The rest of the fixed part of a twin section (Table 14-9). -/
def TwinSt.sectionFixed (x : TwinSt) (w : Twin) (vcore epoch temp : Nat) : Bytes :=
  let c := x.ctr
  toLe 8 c.commits ++ toLe 4 c.digestLate ++ toLe 4 c.reexecs ++ toLe 4 c.eccCorr ++ toLe 4 c.eccUnc ++ toLe 4 c.scrubs ++
  toLe 4 c.watchdog ++ toLe 4 c.preempts ++ toLe 4 c.capHeld ++ toLe 4 c.dlExp ++ toLe 4 c.dlPrec ++
  toLe 2 (x.countRole w .core .active) ++ toLe 2 (x.freeSpares w .core) ++ toLe 2 (x.countRole w .engine .active) ++
  toLe 2 (x.freeSpares w .engine) ++ [byte x.ent.actives, byte x.ent.spares, 0, 0] ++
  toLe 4 (x.ent.seedGeneration epoch) ++ toLe 6 x.ent.blocksN ++ [0, 0] ++ toLe 4 x.ent.taintedN ++ toLe 4 x.ent.holdsN ++
  toLe 2 x.ent.postponed ++ [0, 0] ++ toLe 4 x.ent.slotWaits ++ toLe 2 temp ++ toLe 2 vcore ++ toLe 4 c.engRetired ++
  zeros 24

/-- A twin's section of a report (R353); of a standby that is not HEALTHY, its first 8 bytes alone (R352). -/
def State.healthSection (s : State) (w : Twin) (epoch temp : Nat) : Bytes :=
  let x := s.twin w
  if ¬ s.isActive w ∧ x.role ≠ .healthy then fixLen 2240 (x.sectionHead w)
  else
    x.sectionHead w ++ x.sectionFixed w (600 + 5 * (match w with | .a => s.power.vidA | .b => s.power.vidB)) epoch temp ++
    ((List.range 16).flatMap (fun k => (enginesOf w k).flatMap x.engineRecord)) ++
    ((List.range 32).flatMap (x.ent.sourceRecord s.now)) ++
    ((List.range 16).flatMap (fun k => toLe 4 (Tbl.getD x.clusters k ({} : Cluster)).holdRefused))

/-- The header of a report of a snapshot epoch, with its reason (Table 14-8). -/
def State.healthHead (s : State) (epoch reason : Nat) : Bytes :=
  let h := s.health
  [0x50, 0x58, 0x48, 0x52, 1, byte reason, 0, 0] ++ toLe 4 4544 ++ toLe 4 (h.seq + 1) ++ toLe 8 (4000 * epoch) ++
  toLe 4 s.pcycle ++ toLe 4 s.modState ++ toLe 2 s.attention ++ toLe 2 h.switchovers ++ toLe 4 h.mismatches ++
  toLe 4 h.degradations ++ toLe 4 h.resyncs ++ toLe 8 h.lastSwitch ++ toLe 2 h.lastCause ++ toLe 2 h.lastIsl ++ zeros 4

/-- The epochs that a report of a reason may be taken at: multiples of 10 for `HEALTH_NOW`, else of 100 (R495). -/
def reportStep (reason : Nat) : Nat := if reason = 2 then 10 else 100

/-- Whether a request waits for a snapshot epoch. -/
def TwinSt.awaitsReport (x : TwinSt) (e : Nat) : Bool :=
  x.reqs.any (fun (r : Nat × Req) => r.2.fin.isNone && r.2.awaits == .snapshot e)

/-- A report assembled by a twin (R352): the active's becomes the latest, and a scheduled or role-change one sets
`HEALTH_REPORT_READY`; the twin's requests that wait for it receive it. -/
def State.reportDone (s : State) (w : Twin) (reason named : Nat) (b : Bytes) : State :=
  let s := if s.isActive w then { s with health := { s.health with latest := some b } } else s
  if reason = 2 then s.deliverIn w (.snapshot named) b else if s.isActive w then s.setSticky attnHealth else s

/-- One report that is due, taken at an epoch (R352): each twin takes its section, and its next batch carries it. Where the
standby is not HEALTHY the active fills its section and the report is whole. A named epoch that no request waits for any
more is no report. The temperatures of the two dies are what their sensors give (Table 14-8, assumption 57). -/
def State.takeReport (s : State) (d : Nat × Nat) : State :=
  if d.2 = 2 ∧ ¬ s.twinA.awaitsReport d.1 ∧ ¬ s.twinB.awaitsReport d.1 then s
  else
    let v := s.fresh
    let s := v.2
    let ep := epochOf s.now
    let head := s.healthHead ep d.2
    let a := s.healthSection .a ep (v.1.toNat % 65536)
    let b := s.healthSection .b ep (v.1.toNat / 65536 % 65536)
    let n := s.health.seq + 1
    let s := { s with health := { s.health with seq := n } }
    match s.active, s.healthyStandby with
    | some w, none => s.reportDone w d.2 d.1 (head ++ a ++ b)
    | _, _ => { s with health := { s.health with snaps := s.health.snaps ++
        [{ seq := n, epoch := ep, reason := d.2, named := d.1, head := head, secA := a, secB := b }] } }

/-- `HEALTH_REPORT_SNAPSHOT` (R352): at an epoch, the reports that are due and whose rule names this epoch, each of which wakes
Zenith (R415); from isolation to promotion there is no twin to take them (R495). -/
def execHealthReportSnapshot (t : Nat) (s : State) : Host.Outcome State Fault Refusal :=
  ev t (fun s => onlyIf (s.active.isSome && !s.failStop && s.now % 4000 == 0) (fun s =>
    let cur := epochOf s.now
    let sched := cur / 100000 * 100000
    let l := (if s.health.schedAt < sched then [(sched, 1)] else []) ++ s.health.due
    let now_ := fun (d : Nat × Nat) => decide (d.1 ≤ cur) && cur % reportStep d.2 == 0
    let s := { s with health := { s.health with
      schedAt := max s.health.schedAt sched, due := l.filter (fun d => !now_ d) } }
    let s := if l.any now_ then (s.wakeZenith .a).wakeZenith .b else s
    (l.filter now_).foldl State.takeReport s) s) s

/-- The health counters changed. -/
def State.updHealth (s : State) (f : Health → Health) : State := { s with health := f s.health }

/-- The sections that a twin's batch carries (R331). -/
def Health.sections (h : Health) (w : Twin) : List (Nat × Bytes) :=
  (h.snaps.filter (fun p => !p.sent.contains w)).map (fun p => (p.seq, match w with | .a => p.secA | .b => p.secB))

/-- The sections of a twin have gone in its batch. -/
def Health.sentBy (h : Health) (w : Twin) : Health :=
  { h with snaps := h.snaps.map (fun p => { p with sent := if p.sent.contains w then p.sent else p.sent ++ [w] }) }

/-- The other twin's section arrives in a twin, which assembles the report (R352). -/
def State.sectionIn (s : State) (w : Twin) (sec : Nat × Bytes) : State :=
  match s.health.snaps.find? (fun p => p.seq == sec.1 && !p.done.contains w) with
  | none => s
  | some p =>
    let l := s.health.snaps.map (fun o => if o.seq = sec.1 then { o with done := o.done ++ [w], out := o.out || s.isActive w } else o)
    let s := { s with health := { s.health with snaps := l.filter (fun o => decide (o.done.length < 2)) } }
    s.reportDone w p.reason p.named (p.head ++ (match w with | .a => p.secA ++ sec.2 | .b => sec.2 ++ p.secB))

/-- With no HEALTHY standby left, the reports that no active has assembled move to the next epoch that their rule names (R495),
and their numbers are given again (Table 14-8). -/
def State.moveReports (s : State) (w : Twin) : State :=
  if ¬ s.isActive w ∨ s.healthyStandby.isSome then s
  else
    let moved := s.health.snaps.filter (fun p => !p.out)
    { s with health := { s.health with
      snaps := [], seq := s.health.seq - moved.length
      due := s.health.due ++ moved.map (fun p => (p.named, p.reason)) } }

/-- What `HEALTH_NOW` does in a twin: the report where it has been taken, else the snapshot epoch is named and awaited. -/
def VEnv.healthNow (e : VEnv) (g : Bytes) : VM EndRec :=
  match g with
  | _ :: b => pure (done b [] [])
  | [] =>
    let ep := ceilDiv (e.q + 80000) 40000 * 10
    vhalt (fun s =>
      let s := s.updTwin e.w (fun x => x.updReq e.q (fun r => { r with awaits := .snapshot ep, begun := true }))
      if s.health.due.contains (ep, 2) then s
      else { s with health := { s.health with due := s.health.due ++ [(ep, 2)] } })

/-- `HEALTH_NOW`. -/
def runHealthNow (e : VEnv) : VM EndRec := do
  e.admShape false (e.len == 0 && e.r.hdr.param == 0) []
  let g ← e.given (fun _ => [])
  e.healthNow g

/-- `HEALTH_NOW` (R352). -/
def execHealthNow (t : Nat) (w : Twin) (q : Nat) (s : State) : Host.Outcome State Fault Refusal :=
  admin t 0x0104 w q runHealthNow s

/-- `HEALTH_GET`: with no report yet in the power cycle it acts as `HEALTH_NOW`. -/
def runHealthGet (e : VEnv) : VM EndRec := do
  e.admShape false (e.len == 0 && e.r.hdr.param == 0) []
  let g ← e.given (fun s => match s.health.latest with | some b => 1 :: b | none => [])
  if fld g 0 1 = 1 then pure (done (g.drop 1) [.healthClear] []) else e.healthNow g

/-- `HEALTH_GET` (R352). -/
def execHealthGet (t : Nat) (w : Twin) (q : Nat) (s : State) : Host.Outcome State Fault Refusal :=
  admin t 0x0103 w q runHealthGet s

end Sys2Proof.Machine
end

