-- ==== Sys2Proof/Machine/Entropy.lean ====
section
/-! DEFINITION. The entropy block: noise sources and their tests, conditioned blocks, masking generators and epoch seeds
(R305 to R319). -/

namespace Sys2Proof.Machine

/-- A twin with its entropy block changed. -/
def TwinSt.updEnt (x : TwinSt) (f : Entropy → Entropy) : TwinSt := { x with ent := f x.ent }

/-- The island of a twin's entropy block (Table 1-6). -/
def entropyIsland (w : Twin) : Nat := twinBase w + 199

/-- The key of a noise source's history in the wear table (R434). -/
def noiseKey (w : Twin) (src : Nat) : Nat := 64 * (twinCode w - 1) + src

/-- The end of the newest window that a source has passed strictly before a stamp (R307). -/
def NSource.lastPass (c : NSource) (now : Nat) : Nat := c.base + (now - 1 - c.base) / 256000 * 256000

/-- The record of a failing source (R315). -/
def State.sourceEvent (s : State) (w : Twin) (src test count pass : Nat) : State :=
  s.eventU (0x8000 + src) (twinCode w) ([byte test, byte src, 0, 0] ++ toLe 4 count ++ toLe 8 pass)

/-- A source's quarantine entered in the wear table, once in a power cycle (R434). -/
def State.noteQuarantine (s : State) (w : Twin) (src : Nat) : State :=
  let l := Tbl.getD s.wear.quarant (noiseKey w src) []
  if l.contains s.pcycle then s
  else { s with wear := { s.wear with quarant := Tbl.put s.wear.quarant (noiseKey w src) (l ++ [s.pcycle]) } }

/-- A source quarantined in three of its last eight power cycles is retired at power-up (R436). -/
def State.retireSource (s : State) (w : Twin) (src : Nat) : State :=
  let k := noiseKey w src
  let l := (Tbl.getD s.wear.quarant k []).filter (fun p => decide (s.pcycle ≤ p + 8) && decide (p < s.pcycle))
  if s.wear.noiseOut.contains k ∨ l.length < 3 then s
  else
    let s := { s with wear := { s.wear with noiseOut := s.wear.noiseOut ++ [k] } }
    s.wearEvent (entropyIsland w) 0x22 0x06 src 0 0 (8 - s.wear.noiseOut.countP (fun n => n / 64 == k / 64))

/-- The roles at the end of the start-up test (R314). -/
def startRoles (now : Nat) (out : List Nat) (fails : List (Nat × Nat × Nat)) : Tbl NSource :=
  let bad := fails.map Prod.fst
  let good := (List.range 32).filter (fun i => !out.contains i && !bad.contains i)
  (List.range 32).map (fun i =>
    let rank := (good.takeWhile (fun j => j != i)).length
    let role : NRole := if out.contains i then .retired else if bad.contains i then .quarantined
      else if rank < 24 then .active (rank / 8) else .spare
    let by_ := fun (test : Nat) => fails.countP (fun f => f.1 == i && f.2.1 == test)
    (i, { role := role, base := now, samples := 1024, rctFail := by_ 1, aptFail := by_ 2 }))

/-- Whether a test has reached its cutoff (Table 13-1): a run of 121 identical samples, or 847 occurrences in a window of
1,024. -/
def cutoffReached (test count : Nat) : Bool :=
  (test == 1 && decide (121 ≤ count)) || (test == 2 && decide (847 ≤ count) && decide (count ≤ 1024))

/-- `ENTROPY_STARTUP_TEST_END` (R314): `fails` lists source, the test that failed (1 RCT, 2 APT) and count. A standby left with fewer than 12 sources is
degraded; before roles are assigned, `BOOT_COMPLETE` settles it. -/
def execEntropyStartupTestEnd (t : Nat) (w : Twin) (fails : List (Nat × Nat × Nat)) (s : State) :
    Host.Outcome State Fault Refusal :=
  ev t (fun s => onlyIf (s.boot.up && (s.twin w).ent.sources.isEmpty) (fun s =>
    let s := (List.range 32).foldl (fun s i => s.retireSource w i) s
    let out := (List.range 32).filter (fun i => s.wear.noiseOut.contains (noiseKey w i))
    let fails := fails.filter (fun f => decide (f.1 < 32) && !out.contains f.1 && cutoffReached f.2.1 f.2.2)
    let s := s.updTwin w (fun x => x.updEnt (fun e => { e with sources := startRoles s.now out fails }))
    let s := fails.foldl (fun s f => (s.sourceEvent w f.1 3 f.2.2 0).noteQuarantine w f.1) s
    if (s.twin w).role = .healthy ∧ (s.twin w).ent.actives < 12 then s.cause w 0x09 (entropyIsland w) else s) s) s

/-- What a failing active source leaves in its entropy block (R309, R315): blocks and masking generators that hold a bit which
the source took after its last pass. -/
def Entropy.taint (e : Entropy) (group src pass : Nat) : Entropy :=
  let bad := fun (srcs : List Nat) (st : Nat) => srcs.contains src && decide (pass < st)
  { e with
    blocks := e.blocks.filter (fun b => !bad b.srcs b.stamp)
    taintedN := satAdd 32 e.taintedN (e.blocks.countP (fun b => bad b.srcs b.stamp))
    masks := e.masks.map (fun (m : Nat × MaskGen) =>
      (m.1, if m.2.inst && bad m.2.srcs m.2.last then { m.2 with tainted := true } else m.2))
    joinWait := if 0 < e.spares then e.joinWait ++ [group] else e.joinWait }

/-- `NOISE_SOURCE_FAIL` (R307, R315): test 1 is the repetition count test, 2 the adaptive proportion test. -/
def execNoiseSourceFail (t : Nat) (w : Twin) (src test count : Nat) (s : State) : Host.Outcome State Fault Refusal :=
  ev t (fun s =>
    match Tbl.find? (s.twin w).ent.sources src with
    | none => s
    | some c =>
      if c.role = .quarantined ∨ c.role = .retired ∨ ¬ cutoffReached test count then s
      else
        let pass := c.lastPass s.now
        let out : NSource := { c with role := .quarantined, samples := c.samplesAt s.now
                                      rctFail := satAdd 16 c.rctFail (b2n (test == 1))
                                      aptFail := satAdd 16 c.aptFail (b2n (test == 2)) }
        let s := s.updTwin w (fun x => x.updEnt (fun e => { e with sources := Tbl.put e.sources src out }))
        let s := match c.role with
          | .active g => s.updTwin w (fun x => x.updEnt (fun e => e.taint g src pass))
          | _ => s
        let s := (s.sourceEvent w src test count pass).noteQuarantine w src
        if ((s.twin w).role = .healthy ∨ (s.twin w).role = .resync) ∧ (s.twin w).ent.actives < 12 then
          s.cause w 0x09 (entropyIsland w)
        else s) s

/-- `SPARE_SOURCE_JOIN` (R315): the lowest-numbered spare joins the group that waits; with none left the group goes on
without. -/
def execSpareSourceJoin (t : Nat) (w : Twin) (group : Nat) (s : State) : Host.Outcome State Fault Refusal :=
  ev t (fun s => s.updTwin w (fun x => x.updEnt (fun e =>
    if ¬ e.joinWait.contains group then e
    else
      let e := { e with joinWait := e.joinWait.erase group }
      match List.find? (fun (c : Nat × NSource) => c.2.role == .spare) e.sources with
      | some (i, c) => { e with sources := Tbl.put e.sources i { c with role := .active group } }
      | none => e))) s

/-- Whether a block is confirmed (R309): every window that holds one of its bits has passed by now. -/
def Entropy.confirmed (e : Entropy) (now : Nat) (b : CBlock) : Bool :=
  match e.sources.head? with
  | some c => decide (b.stamp ≤ c.2.base + (now - c.2.base) / 256000 * 256000)
  | none => false

/-- The oldest confirmed block taken from an entropy block. -/
def Entropy.take (e : Entropy) (now : Nat) : Option (CBlock × Entropy) :=
  match e.blocks.find? (fun b => e.confirmed now b) with
  | some b => some (b, { e with blocks := e.blocks.erase b })
  | none => none

/-- `MASKING_RESEED` (R310 to R312, R315): a masking generator takes the oldest block, confirmed or not; its first one
instantiates it. -/
def execMaskingReseed (t : Nat) (w : Twin) (island dp : Nat) (s : State) : Host.Outcome State Fault Refusal :=
  ev t (fun s => onlyIf (isEngine island && islandTwin island == some w && decide (dp < 2))
    (fun s => s.updTwin w (fun x => x.reseedMask w island dp s.pcycle s.now)) s) s

/-- The seed generator instantiated from two confirmed blocks (Table 13-2, Table 13-3). -/
def Entropy.instSeed (e : Entropy) (w : Twin) (now pcycle : Nat) : Option Entropy :=
  if e.seedInst then some e
  else match e.take now with
    | none => none
    | some (a, e) => match e.take now with
      | none => none
      | some (b, e) =>
        some { e with seedInst := true, seedAt := now, seedReqs := 0, seedGen := drbgInst 32 a.data b.data (localPers w 1 (entropyIsland w) 0 pcycle) }

/-- An epoch seed (R312, R318): the generator reseeds from a confirmed block and makes one request of 32 bytes. Nothing while
no block is there. -/
def Entropy.makeSeed (e : Entropy) (w : Twin) (now pcycle : Nat) : Option (Bytes × Entropy) :=
  match e.instSeed w now pcycle with
  | none => none
  | some e => match e.take now with
    | none => none
    | some (b, e) =>
      let o := drbgGen (drbgReseed e.seedGen b.data) 32
      some (o.1, { e with seedGen := o.2, seedAt := now, seedReqs := 1 })

/-- What the seed generator does as blocks come (Table 13-2, Table 13-3): it is instantiated from the first two confirmed
blocks, and reseeds from a confirmed one after 2^20 requests or 100 ms. -/
def Entropy.tendSeed (e : Entropy) (w : Twin) (now pcycle : Nat) : Entropy :=
  if ¬ e.seedInst then (e.instSeed w now pcycle).getD e
  else if e.seedAt + 400000000 ≤ now ∨ 2 ^ 20 ≤ e.seedReqs then
    match e.take now with
    | some (b, e) => { e with seedGen := drbgReseed e.seedGen b.data, seedAt := now, seedReqs := 0 }
    | none => e
  else e

/-- The active sources of a group, in ascending number (R308). -/
def Entropy.groupSrcs (e : Entropy) (group : Nat) : List Nat :=
  (e.sources.filter (fun c => c.2.role == .active group)).map Prod.fst

/-- `CONDITIONED_BLOCK` (R308): the SHA-256 of the 256 bytes that hold 2,048 raw bits of a group with active sources. -/
def execConditionedBlock (t : Nat) (w : Twin) (group : Nat) (raw : Bytes) (s : State) : Host.Outcome State Fault Refusal :=
  ev t (fun s => s.updTwin w (fun x => x.updEnt (fun e =>
    if raw.length = 256 ∧ e.groupSrcs group ≠ [] then
      let b : CBlock := { group := group, srcs := e.groupSrcs group, data := sha256 raw, stamp := s.now }
      let e := { e with blocks := e.blocks ++ [b], blocksN := satAdd 48 e.blocksN 1 }
      e.tendSeed w s.now s.pcycle
    else e))) s

/-- Whether a twin takes part in what epoch seeds do: it executes, or its role is not assigned yet. -/
def State.seeded (s : State) (w : Twin) : Bool := s.executes w || (s.twin w).role == .booting

/-- The twin that makes the seeds: the active one; before roles are assigned, the one that is to be active (R9, R318). -/
def State.seedTwin (s : State) : Twin :=
  match s.active with
  | some w => w
  | none => if s.twinA.role = .booting then .a else .b

/-- The twin that takes the seeds that the other one makes: a healthy standby, or the other twin before roles are assigned. -/
def State.seedPeer (s : State) : Option Twin :=
  let o := otherTwin s.seedTwin
  if (s.twin o).role = .healthy ∨ (s.twin o).role = .booting then some o else none

/-- A proposal made by a twin for an epoch: its generation follows the newest in force. It travels to the other twin in a
digest batch; with none to take it there is no acknowledgment to wait for (R318). -/
def State.propose (s : State) (w : Twin) (e : Nat) : State :=
  match (s.twin w).ent.makeSeed w s.now s.pcycle with
  | none => s
  | some (seed, ent) =>
    let gen := (match (s.twin w).ent.seeds.getLast? with | some g => g.2.1 | none => 0) + 1
    s.updTwin w (fun x => { x with ent := { ent with proposal := some (gen, e, seed, s.seedPeer.isNone), nextEpoch := e } })

/-- `SEED_PROPOSAL` (R318): the first seed; then a renewal when its epoch lies 50 ahead. A scheduled one whose moment has
passed gives way to the next (assumption 53). -/
def execSeedProposal (t : Nat) (s : State) : Host.Outcome State Fault Refusal :=
  ev t (fun s =>
    let w := s.seedTwin
    let e := (s.twin w).ent
    let cur := epochOf s.now
    if ¬ s.boot.up ∨ s.failStop ∨ s.sw.switching ∨ e.proposal.isSome ∨ e.actives < 12 then s
    else if e.seeds.isEmpty then s.propose w cur
    else if e.stopped ∧ ¬ e.resuming then s
    else
      let next := if cur + 50 ≤ e.nextEpoch then e.nextEpoch
        else if e.nextEpoch % 10000 = 0 then ceilDiv (cur + 50) 10000 * 10000 else ceilDiv (cur + 50) 100 * 100
      if cur + 50 < next then s.updTwin w (fun x => x.updEnt (fun e => { e with nextEpoch := next }))
      else s.propose w next) s

/-- `SEED_ACK` (R318): the other twin's entropy block forms its acknowledgment of the proposal that it holds. -/
def execSeedAck (t : Nat) (s : State) : Host.Outcome State Fault Refusal :=
  ev t (fun s =>
    match s.seedPeer with
    | some w => s.updTwin w (fun x => x.updEnt (fun e =>
        { e with proposal := e.proposal.map (fun p => (p.1, p.2.1, p.2.2.1, true)) }))
    | none => s) s

/-- The epoch of the next renewal after one at an epoch (R318). -/
def afterSeed (gen e : Nat) : Nat := if gen = 1 then ceilDiv (e + 50) 10000 * 10000 else (e / 10000 + 1) * 10000

/-- A seed in force (R317 to R319): tasks that waited for the first one go on; a resumption is recorded. -/
def State.takeSeed (s : State) (w : Twin) (gen e : Nat) (seed : Bytes) : State :=
  let resumed := (s.twin w).ent.stopped
  let one := fun (s : State) (w : Twin) => if s.seeded w then s.updTwin w (fun x => x.updEnt (fun o =>
      { o with seeds := o.seeds ++ [(e, gen, seed)], proposal := none, nextEpoch := afterSeed gen e
               stopped := false, resuming := false })) else s
  let s := one (one s .a) .b
  let s := if resumed then s.eventU 0x8021 (twinCode w) [] else s
  (((s.wakeZenith .a).wakeZenith .b).serve .a).serve .b

/-- `SEED_RENEWAL_EFFECT` (R318): at E an acknowledged seed takes effect in both twins; one that the standby to which
it was proposed has not acknowledged is postponed to E + 100, with the record of event 0x8022, though that standby is out of
service by then. The first seed takes effect as soon as the other twin's acknowledgment is there, or without it when that twin
has gone (assumption 186). -/
def execSeedRenewalEffect (t : Nat) (s : State) : Host.Outcome State Fault Refusal :=
  ev t (fun s =>
    let w := s.seedTwin
    match (s.twin w).ent.proposal with
    | none => s
    | some (gen, e, seed, ack) =>
      if epochOf s.now < e ∨ s.failStop ∨ s.sw.switching then s
      else if ack ∨ (gen = 1 ∧ s.seedPeer.isNone) then s.takeSeed w gen (if gen = 1 then epochOf s.now else e) seed
      else if gen = 1 then s
      else
        let s := s.updBoth (fun x => x.updEnt (fun o => { o with proposal := none }))
        let s := s.updTwin w (fun x => x.updEnt (fun o =>
          { o with nextEpoch := e + 100, postponed := satAdd 16 o.postponed 1 }))
        s.eventU 0x8022 (twinCode w) []) s

/-- The requests of a twin that wait for randomness and have no deadline end at once when random service stops (R193). -/
def State.endRngWaits (s : State) (w : Twin) : State :=
  if ¬ s.executes w then s
  else (((s.twin w).reqs.filter (fun (p : Nat × Req) => !p.2.rngWait.isEmpty && p.2.fin.isNone && p.2.hdr.deadline == 0)).map
    Prod.fst).foldl (fun s q => s.endWith w q stRng) s

/-- `RNG_SERVICE_STOP` (R317): with fewer than 12 active sources in the active twin, random service stops in both twins. -/
def State.stopRandom (s : State) : State :=
  match s.active with
  | none => s
  | some w =>
    let e := (s.twin w).ent
    if e.sources.isEmpty ∨ 12 ≤ e.actives ∨ e.stopped then s
    else
      let s := s.updBoth (fun x => x.updEnt (fun o => { o with stopped := true, resuming := false, proposal := none }))
      ((((s.event 0x8020 sevEvid (twinCode w) []).serve .a).serve .b).endRngWaits .a).endRngWaits .b

/-- `RNG_SERVICE_STOP`. -/
def execRngServiceStop (t : Nat) (s : State) : Host.Outcome State Fault Refusal := ev t State.stopRandom s

end Sys2Proof.Machine
end

