-- ==== Sys2Proof/Machine/MacData.lean ====
section
/-! DEFINITION. MAC commands, data encryption and AES-SIV (R73, R74, R112 to R115, R278, R279). -/

namespace Sys2Proof.Machine

/-- The key algorithms of a MAC algorithm (Table 5-10). -/
def macKeys (code : Nat) : List Nat :=
  match code with
  | 1 => [3, 4, 5]
  | 2 | 3 => [1, 2]
  | 4 | 5 => [1]
  | 6 | 7 => [8, 9]
  | 8 => [9]
  | 9 | 10 => [10]
  | _ => []

/-- The MAC lengths of a MAC algorithm (Table 5-10). -/
def macLens (code : Nat) : Nat × Nat :=
  match code with
  | 1 => (4, 16)
  | 2 | 3 | 4 | 5 => (4, 8)
  | 6 => (8, 32)
  | 7 => (8, 48)
  | 8 => (8, 64)
  | _ => (4, 64)

/-- Whether a key may compute a MAC algorithm or PRF: its algorithm, and the restriction of its HM block (R112). -/
def macKeyOk (code : Nat) (k : KeyRec) : Bool := (macKeys code).contains k.alg && (k.macRes == 0 || k.macRes == code)

/-- Whether a MAC length is one of the algorithm's. -/
def macLenOk (code len : Nat) : Bool := decide ((macLens code).1 ≤ len) && decide (len ≤ (macLens code).2)

/-- A MAC of the length asked. -/
def macTag (code : Nat) (k : KeyRec) (m : Bytes) (len : Nat) : Bytes := (macAlg code k.alg k.material m len).take len

/-- `MAC_GENERATE`. -/
def runMacGenerate (e : VEnv) : VM (Nat × Bytes) := do
  let code := e.f 4 1
  let n := e.f 5 1
  e.shape (decide (8 ≤ e.len)) (e.r.hdr.param == 0) [(6, 2)]
  need (decide (1 ≤ code) && decide (code ≤ 10) && macLenOk code n) stBadParam
  let k ← e.key 0 (e.f 0 4) (macKeyOk code)
  pure (0, macTag code k (e.from_ 8) n)

/-- `MAC_GENERATE` (R113). -/
def execMacGenerate (t : Nat) (w : Twin) (q : Nat) (s : State) : Host.Outcome State Fault Refusal :=
  vendor t 0x0400 w q runMacGenerate s

/-- `MAC_VERIFY`. -/
def runMacVerify (e : VEnv) : VM (Nat × Bytes) := do
  let code := e.f 4 1
  let n := e.f 5 1
  e.shape (decide (8 + n ≤ e.len)) (e.r.hdr.param == 0) [(6, 2)]
  need (decide (1 ≤ code) && decide (code ≤ 10) && macLenOk code n) stBadParam
  let k ← e.key 0 (e.f 0 4) (macKeyOk code)
  pure (if macTag code k (e.from_ (8 + n)) n = e.b 8 n then 0 else stVerify, [])

/-- `MAC_VERIFY` (R113). -/
def execMacVerify (t : Nat) (w : Twin) (q : Nat) (s : State) : Host.Outcome State Fault Refusal :=
  vendor t 0x0401 w q runMacVerify s

/-- Counter mode as the images run it: the low 32 bits of the block count (R114, R270). -/
def ctr32 (alg : Nat) (key iv m : Bytes) : Bytes :=
  xctrRun (blkE alg key) 32 (fixLen (blkLen alg) iv) (pieces (blkLen alg) m)

/-- Encryption in a mode of R114, over whole blocks for ECB and CBC. -/
def modeE (mode alg : Nat) (key iv m : Bytes) : Bytes :=
  if mode = 1 then ecb (blkE alg key) (blkLen alg) m
  else if mode = 2 then cbcE alg key iv m else ctr32 alg key iv m

/-- Decryption in a mode of R114. -/
def modeD (mode alg : Nat) (key iv m : Bytes) : Bytes :=
  if mode = 1 then ecb (blkD alg key) (blkLen alg) m
  else if mode = 2 then cbcD alg key iv m else ctr32 alg key iv m

/-- Steps 1 and 2 of the data commands (R114). -/
def dataKey (e : VEnv) (enc : Bool) : VM KeyRec := do
  let mode := e.f 4 1
  let pad := e.f 5 1
  let src := e.f 6 1
  e.shape (decide (24 ≤ e.len)) (e.r.hdr.param == 0) [(7, 1)]
  need (!(mode == 1 || src == 1) || allZero (e.b 8 16)) stReserved
  need (decide (1 ≤ mode) && decide (mode ≤ 3) && decide (pad ≤ 1) && decide (src ≤ 1)) stBadParam
  need (!(pad == 1 && mode == 3) && !(src == 1 && (mode != 3 || !enc)) && !(src == 1 && !e.r.hdr.stateChange)) stBadParam
  let k ← e.keyThen 0 (e.f 0 4) (fun k => isAes k.alg || (isTdea k.alg && src == 0))
    (fun k => need (!isTdea k.alg || allZero (e.b 16 8)) stReserved)
  if src = 1 then do
    let st := e.r.keyStatus.getD 1 0
    need (st == 0) st
  else pure ()
  pure k

/-- `DATA_ENCRYPT`. DESIGN CHOICE: data in ECB or CBC that is not whole blocks, to which R114 gives no status, is answered
`BAD_PARAMETER` after step 2 of R91, where the key's algorithm is known (assumption 195). -/
def runDataEncrypt (e : VEnv) : VM (Nat × Bytes) := do
  let k ← dataKey e true
  let mode := e.f 4 1
  let n := blkLen k.alg
  let m := e.from_ 24
  need (mode == 3 || e.f 5 1 == 1 || m.length % n == 0) stBadParam
  if e.f 6 1 = 1 then
    let iv := toBe 12 e.r.nonce ++ zeros 4
    pure (0, iv ++ ctr32 k.alg k.material iv m)
  else
    pure (0, modeE mode k.alg k.material (e.b 8 16) (if e.f 5 1 = 1 then pad2 n m else m))

/-- `DATA_ENCRYPT` (R114). -/
def execDataEncrypt (t : Nat) (w : Twin) (q : Nat) (s : State) : Host.Outcome State Fault Refusal :=
  vendor t 0x0500 w q runDataEncrypt s

/-- The data of a decryption: whole blocks in ECB and CBC, and conforming padding (R114; assumption 195 for the status of data
that is not whole blocks). -/
def dataOut (mode pad alg : Nat) (key iv m : Bytes) : VM (Nat × Bytes) := do
  need (mode == 3 || m.length % blkLen alg == 0) (if pad = 1 then stBadFormat else stBadParam)
  let d := modeD mode alg key iv m
  if pad = 1 then
    match unpad2 (blkLen alg) d with
    | some d => pure (0, d)
    | none => vfail stBadFormat
  else pure (0, d)

/-- `DATA_DECRYPT`. -/
def runDataDecrypt (e : VEnv) : VM (Nat × Bytes) := do
  let k ← dataKey e false
  dataOut (e.f 4 1) (e.f 5 1) k.alg k.material (e.b 8 16) (e.from_ 24)

/-- `DATA_DECRYPT` (R114). -/
def execDataDecrypt (t : Nat) (w : Twin) (q : Nat) (s : State) : Host.Outcome State Fault Refusal :=
  vendor t 0x0501 w q runDataDecrypt s

/-- The components of S2V before the text: associated data, chain block, nonce (R115, R278). -/
def sivParts (e : VEnv) (chain : Option Bytes) : List Bytes :=
  let al := e.f 4 2
  let nl := e.f 6 1
  (if al = 0 then [] else [e.b 24 al]) ++
  (match chain with
   | some c => [fixLen 16 c ++ toLe 2 e.r.hdr.segIndex ++ [byte (b2n e.r.hdr.segLast)]]
   | none => []) ++
  (if nl = 0 then [] else [e.b 8 nl])

/-- Step 1 and the key of the AES-SIV commands, and the stream a segment continues (R73, R115). -/
def sivStart (e : VEnv) (open_ : Bool) : VM (KeyRec × Stream) := do
  let al := e.f 4 2
  let nl := e.f 6 1
  let text := e.len - 24 - al
  e.shape (decide (24 + (if al ≤ 4096 then al else 0) ≤ e.len)) (e.r.hdr.param == 0) [(7, 1)]
  need (decide (16 < nl) || allZero (e.b (8 + nl) (16 - nl))) stReserved
  need (decide (al ≤ 4096) && decide (nl ≤ 16) && (!open_ || decide (16 ≤ text)) &&
    decide (text ≤ 262144 + (if open_ then 16 else 0))) stBadParam
  let x ← e.x
  let fl : Flow := Tbl.getD x.store.flows (flowKey e.r.space e.r.hdr.flow) {}
  let st := fl.stream.at_ e.q
  let k ← e.key 0 (e.f 0 4) (fun k => k.alg == 6 || k.alg == 7)
  pure (k, st)

/-- The chain value that a segment continues from (R278). -/
def chainIn (e : VEnv) (st : Stream) : Option Bytes :=
  if e.r.hdr.segmented then some (if e.r.hdr.segFirst then zeros 16 else st.chain) else none

/-- What a segment leaves of its stream: the next index and chain value, closed by the last segment, or failed (R73, R278,
R279). -/
def segAfter (e : VEnv) (st : Stream) (ok : Bool) (v : Bytes) : VM Unit :=
  if ¬ e.r.hdr.segmented then pure ()
  else if ok then
    e.stage (.streamPut e.r.space e.r.hdr.flow
      { isOpen := !e.r.hdr.segLast, failed := false, next := e.r.hdr.segIndex + 1, last := e.q, chain := v })
  else e.stage (.streamPut e.r.space e.r.hdr.flow { st with isOpen := false, failed := true, last := e.q })

/-- `SIV_SEAL`. -/
def runSivSeal (e : VEnv) : VM (Nat × Bytes) := do
  let (k, st) ← sivStart e false
  let out := sivSealB k.material (sivParts e (chainIn e st)) (e.from_ (24 + e.f 4 2))
  segAfter e st true (out.take 16)
  pure (0, out)

/-- `SIV_SEAL` (R115, R278). -/
def execSivSeal (t : Nat) (w : Twin) (q : Nat) (s : State) : Host.Outcome State Fault Refusal :=
  vendor t 0x0502 w q runSivSeal s

/-- `SIV_OPEN`. -/
def runSivOpen (e : VEnv) : VM (Nat × Bytes) := do
  let (k, st) ← sivStart e true
  let c := e.from_ (24 + e.f 4 2)
  match sivOpenB k.material (sivParts e (chainIn e st)) c with
  | some m => do
    segAfter e st true (c.take 16)
    pure (0, m)
  | none => do
    segAfter e st false []
    pure (stTag, [])

/-- `SIV_OPEN` (R74, R115, R278, R279). -/
def execSivOpen (t : Nat) (w : Twin) (q : Nat) (s : State) : Host.Outcome State Fault Refusal :=
  vendor t 0x0503 w q runSivOpen s

end Sys2Proof.Machine
end

