-- ==== Sys2Proof/Machine/KeyBlocks.lean ====
section
/-! DEFINITION. X9.143 key blocks (R105 to R107) and PX key blocks (R145, R147). -/

namespace Sys2Proof.Machine

/-- The value of an upper-case hexadecimal character. -/
def hexVal (b : Byte) : Option Nat :=
  let n := b.toNat
  if 48 ≤ n ∧ n ≤ 57 then some (n - 48) else if 65 ≤ n ∧ n ≤ 70 then some (n - 55) else none

/-- The octets that hexadecimal text spells. -/
def unhex : Bytes → Option Bytes
  | [] => some []
  | [_] => none
  | a :: b :: l =>
    match hexVal a, hexVal b, unhex l with
    | some x, some y, some r => some (byte (16 * x + y) :: r)
    | _, _, _ => none

/-- A hexadecimal digit. -/
def hexDigit (n : Nat) : Byte := byte (if n < 10 then 48 + n else 55 + n)

/-- Octets as upper-case hexadecimal text. -/
def hexOf (b : Bytes) : Bytes := (nibbles b).map hexDigit

/-- The value of decimal text. -/
def decVal (b : Bytes) : Option Nat :=
  b.foldl (fun o c => match o with
    | some v => if 48 ≤ c.toNat ∧ c.toNat ≤ 57 then some (10 * v + (c.toNat - 48)) else none
    | none => none) (some 0)

/-- Decimal text of `n` digits. -/
def decOf : Nat → Nat → Bytes
  | 0, _ => []
  | n + 1, v => decOf n (v / 10) ++ [byte (48 + v % 10)]

/-- One row of Table 5-5: key usage, algorithm letter, mode, usage bits, and whether several forms share the mask. -/
structure FormRow where
  usage : Bytes
  alg   : Byte
  mode  : Byte
  mask  : Nat
  multi : Bool := false
  deriving DecidableEq, Repr

/-- Rows of one key usage: the algorithm letters and the modes with their masks. -/
def formRows (usage algs : String) (multi : Bool) (modes : List (String × Nat)) : List FormRow :=
  (ascii algs).flatMap (fun a => modes.map (fun m =>
    { usage := ascii usage, alg := a, mode := (ascii m.1).headD 0, mask := m.2, multi := multi }))

/-- Table 5-5, without the export-only row of B1. -/
def formTable : List FormRow :=
  formRows "P0" "TA" false [("B", 0x3), ("D", 0x1), ("E", 0x2)] ++
  formRows "V0" "TA" true [("C", 0x4), ("G", 0x4), ("V", 0x4), ("N", 0x4)] ++
  formRows "M1" "T" true [("C", 0x18), ("G", 0x8), ("V", 0x10)] ++
  formRows "M3" "T" true [("C", 0x18), ("G", 0x8), ("V", 0x10)] ++
  formRows "M6" "A" false [("C", 0x18), ("G", 0x8), ("V", 0x10)] ++
  formRows "M7" "H" false [("C", 0x18), ("G", 0x8), ("V", 0x10)] ++
  formRows "D0" "TA" false [("B", 0x60), ("E", 0x20), ("D", 0x40), ("X", 0x200)] ++
  formRows "K1" "TA" false [("B", 0x180), ("D", 0x80), ("E", 0x100)] ++
  formRows "B0" "TA" false [("X", 0x400)]

/-- The X9.143 letter of an algorithm; none for the others. -/
def algLetter (alg : Nat) : Option Byte :=
  if isTdea alg then some 0x54 else if isAes alg then some 0x41 else if alg = 8 ∨ alg = 9 then some 0x48 else none

/-- The form in which a key leaves: its recorded one, or the first row of its mask (R107). -/
def exportForm (k : KeyRec) : Option FormRow :=
  match algLetter k.alg with
  | none => none
  | some a =>
    match formTable.find? (fun r => r.alg == a && r.usage ++ [r.mode] == k.form && r.mask == k.usage) with
    | some r => some r
    | none => formTable.find? (fun r => r.alg == a && r.mask == k.usage)

/-- Whether an export form is zero, or one of Table 5-5 that matches a key (R147). -/
def formOk (form : Bytes) (alg usage : Nat) : Bool :=
  allZero form || (match algLetter alg with
    | some a => formTable.any (fun r => r.alg == a && r.usage ++ [r.mode] == form && r.mask == usage)
    | none => false)

/-- The rank of an algorithm in the strength order (R98). -/
def strength (alg : Nat) : Nat := if alg ≤ 5 then alg else if alg = 6 ∨ alg = 7 then 6 else 5

/-- A parsed key block header (R105). -/
structure KbHeader where
  isD   : Bool
  row   : FormRow
  expt  : Bool
  kc    : Option Bytes := none
  kp    : Option Bytes := none
  hm    : Option Nat := none
  /-- Length of the header with its optional blocks. -/
  len   : Nat
  deriving DecidableEq, Repr

/-- The MAC algorithm that an X9.143 hash identifier maps to (R105). -/
def hmCode (b : Bytes) : Option Nat :=
  if b = ascii "21" then some 6 else if b = ascii "22" then some 7 else if b = ascii "23" then some 8 else none

/-- Optional blocks of a header: identifier, length in two hexadecimal digits, data (R105). -/
def optBlocks : Nat → Bytes → Option (List (Bytes × Bytes) × Nat)
  | 0, _ => some ([], 0)
  | n + 1, b =>
    match (unhex (slice b 2 2)).map leNat with
    | some l =>
      if l < 4 ∨ b.length < l then none
      else match optBlocks n (b.drop l) with
        | some (r, m) => some ((b.take 2, (b.take l).drop 4) :: r, l + m)
        | none => none
    | none => none

/-- The optional blocks that are accepted (R105). -/
def optIds : List Bytes := ["KC", "KP", "HM", "IK", "PB", "TS"].map ascii

/-- The data of an optional block. -/
def optOf (l : List (Bytes × Bytes)) (id : String) : Option Bytes :=
  (l.find? (fun o => o.1 == ascii id)).map Prod.snd

/-- A check value block: an algorithm identifier of two characters, then the value in hexadecimal; none where it is not
well formed, or longer than the five bytes of a check value (R99; assumption 182). -/
def kcvBlock (d : Option Bytes) : Option (Option Bytes) :=
  match d with
  | none => some none
  | some b => match unhex b with
    | some (_ :: v) => if v.isEmpty ∨ 5 < v.length then none else some (some v)
    | _ => none

/-- The header of a key block: step 1 of R106. -/
def parseHeader (p : Bytes) : Option KbHeader :=
  let ver := p.headD 0
  let isD := ver == 0x44
  let bs := if isD then 16 else 8
  if p.length < 16 ∨ 4096 < p.length ∨ ¬ (isD ∨ ver = 0x42) ∨ decVal (slice p 1 4) ≠ some p.length ∨
      slice p 14 2 ≠ ascii "00" then none
  else
    match formTable.find? (fun r => r.usage == slice p 5 2 && r.alg == p.getD 7 0 && r.mode == p.getD 8 0),
      decVal (slice p 12 2) with
    | some row, some n =>
      match optBlocks n (p.drop 16) with
      | none => none
      | some (ol, m) =>
        let ex := p.getD 11 0
        let hm := optOf ol "HM"
        let body := p.length - 16 - m
        if ¬ [0x45, 0x4E, 0x53].contains ex ∨ ol.any (fun o => !optIds.contains o.1) ∨
            (hm.isSome ∧ (hm.bind hmCode).isNone) ∨ (hm.isSome ≠ decide (row.alg = 0x48)) ∨
            body ≤ 2 * bs ∨ (body - 2 * bs) % (2 * bs) ≠ 0 then none
        else match kcvBlock (optOf ol "KC"), kcvBlock (optOf ol "KP") with
          | some kc, some kp =>
            some { isD := isD, row := row, expt := ex == 0x45, kc := kc, kp := kp, hm := hm.bind hmCode, len := 16 + m }
          | _, _ => none
    | _, _ => none

/-- Derivation data and keys of X9.143 under a KBPK: purpose 0 encryption, 1 MAC; the standard's algorithm
indicator is the code of Table 5-3 less one (assumption 16). -/
def kbKey (alg : Nat) (kbpk : Bytes) (purpose : Nat) : Bytes :=
  let n := kbpk.length
  ((List.range (ceilDiv n (blkLen alg))).flatMap (fun i =>
    cmac alg kbpk ([byte (i + 1), 0, byte purpose, 0] ++ toBe 2 (alg - 1) ++ toBe 2 (8 * n)))).take n

/-- The MAC of a key block over its header and clear key data. -/
def kbMac (alg : Nat) (kbpk header clear : Bytes) : Bytes := cmac alg (kbKey alg kbpk 1) (header ++ clear)

/-- The key data of a block under a KBPK: the clear data when the MAC verifies (step 3 of R106). Text that is no
hexadecimal fails as a wrong MAC does (assumption 47). -/
def kbOpen (alg : Nat) (kbpk p : Bytes) (hlen : Nat) : Option Bytes :=
  let n := blkLen alg
  match unhex (p.drop hlen) with
  | none => none
  | some raw =>
    let mac := raw.drop (raw.length - n)
    let clear := cbcD alg (kbKey alg kbpk 0) mac (raw.take (raw.length - n))
    if kbMac alg kbpk (p.take hlen) clear = mac then some clear else none

/-- The key and algorithm code of decrypted key data (step 4 of R106). -/
def kbKeyOf (letter : Byte) (clear : Bytes) : Option (Nat × Bytes) :=
  let bitsN := beNat (slice clear 0 2)
  let n := bitsN / 8
  if bitsN % 8 ≠ 0 ∨ clear.length < 2 + n then none
  else
    let code := if letter = 0x54 then (match n with | 16 => 1 | 24 => 2 | _ => 0)
      else if letter = 0x41 then (match n with | 16 => 3 | 24 => 4 | 32 => 5 | _ => 0)
      else (match n with | 32 => 8 | 64 => 9 | _ => 0)
    if code = 0 then none else some (code, slice clear 2 n)

/-- An optional block. -/
def optBlock (id : String) (d : Bytes) : Bytes := ascii id ++ hexOf [byte (4 + d.length)] ++ d

/-- A check value block of a key (R105, assumption 16): three bytes under the legacy method, five under CMAC. -/
def kcvOpt (id : String) (alg : Nat) (kcv : Bytes) : Bytes :=
  if isTdea alg then optBlock id (ascii "00" ++ hexOf (kcv.take 3)) else optBlock id (ascii "01" ++ hexOf (kcv.take 5))

/-- An exported key block (R105): header, optional blocks padded to whole blocks, key data with its length and random
padding, and the MAC. The random text and padding are replicated randomness (R94): one consumer call for the text of PB, and
then one for the key data (assumption 181). -/
def VEnv.kbSeal (e : VEnv) (kbpk : KeyRec) (row : FormRow) (expt : Byte) (opts : List Bytes) (key : Bytes) : VM Bytes := do
  let n := blkLen kbpk.alg
  let ol := opts.flatten
  let short := (n - ol.length % n) % n
  let pad := if short = 0 then 0 else if short < 4 then short + n else short
  let rnd ← if 4 < pad then e.draw (ceilDiv (pad - 4) 2) else pure []
  let opts := if pad = 0 then opts else opts ++ [optBlock "PB" ((hexOf rnd).take (pad - 4))]
  let ol := opts.flatten
  let fillN := (n - (2 + key.length) % n) % n
  let fill ← if fillN = 0 then pure [] else e.draw fillN
  let clear := toBe 2 (8 * key.length) ++ key ++ fill
  let total := 16 + ol.length + 2 * clear.length + 2 * n
  let head := [if isAes kbpk.alg then 0x44 else 0x42] ++ decOf 4 total ++ row.usage ++ [row.alg, row.mode] ++
    ascii "00" ++ [expt] ++ decOf 2 opts.length ++ ascii "00" ++ ol
  let mac := kbMac kbpk.alg kbpk.material head clear
  pure (head ++ hexOf (cbcE kbpk.alg (kbKey kbpk.alg kbpk.material 0) mac clear ++ mac))

/-- The optional blocks of an export: KP, KC or HM (R105). -/
def exportOpts (kbpk k : KeyRec) : List Bytes :=
  let hm := if k.macRes ≠ 0 then k.macRes else if k.alg = 8 then 6 else 8
  [kcvOpt "KP" kbpk.alg kbpk.kcv,
   if k.alg = 8 ∨ k.alg = 9 then optBlock "HM" (decOf 2 (hm + 15)) else kcvOpt "KC" k.alg k.kcv]

/-- `KFLAGS` (Table 5-6). -/
def KeyRec.kflags (k : KeyRec) : Byte := byte (b2n k.exportable + 2 * b2n k.nonceEn + 4 * b2n k.exhausted)

/-- The header of a PX key block (Table 6-6). -/
def pxHeader (c h : Nat) (k : KeyRec) : Bytes :=
  [1, byte k.alg, k.kflags, byte k.macRes] ++ toLe 2 c ++ toLe 2 (72 + k.material.length) ++ toLe 4 k.gen ++ toLe 4 h ++
  toLe 4 k.usage ++ toLe 8 k.useCount ++ toLe 8 k.useLimit ++ toLe 12 k.nonce ++ fixLen 5 k.kcv ++ fixLen 3 k.form

/-- A PX key block (R145). -/
def pxSeal (pxk : Bytes) (c h : Nat) (k : KeyRec) : Bytes :=
  let head := pxHeader c h k
  head ++ sivSealB pxk [head] k.material

/-- The algorithms of Table 5-3. -/
def isAlg (alg : Nat) : Bool := isSym alg || isAsym alg

/-- The layout of a PX key block (step 1 of R147). -/
def pxForm (p : Bytes) : Bool :=
  let alg := fld p 1 1
  let h := fld p 12 4
  let cls := handleClass h
  decide (72 ≤ p.length) && fld p 0 1 == 1 && isAlg alg && decide (fld p 2 1 < 8) &&
  fld p 6 2 == p.length &&
  p.length == 72 + materialLen alg cls && decide (fld p 16 4 < 65536) &&
  (fld p 3 1 == 0 || (macKeys (fld p 3 1)).contains alg) &&
  formOk (slice p 53 3) alg (fld p 16 4)

/-- The key record of an authentic PX key block, with the counters of its ledger entry (R144, R147). -/
def pxKey (p m : Bytes) (l : Option Ledger) : KeyRec :=
  let lg := l.getD {}
  let fl := fld p 2 1
  { alg := fld p 1 1, usage := fld p 16 4, exportable := bit fl 0, nonceEn := bit fl 1,
    exhausted := bit fl 2 || lg.exhausted, macRes := fld p 3 1, useCount := max (fld p 20 8) lg.useMark,
    useLimit := fld p 28 8, nonce := if bit fl 1 then max (fld p 36 12) lg.nonceMark else fld p 36 12,
    form := slice p 53 3, kcv := slice p 48 5, material := m, gen := fld p 8 4 }

end Sys2Proof.Machine
end

