-- ==== Sys2Proof/Machine/KeyCmds.lean ====
section
/-! DEFINITION. The key management commands of the vendor images (R97 to R107, R140, R143 to R149). -/

namespace Sys2Proof.Machine

/-- The handle that a management command names in `PARAM`, whose high half must be 0 (Table 5-4). -/
def VEnv.named (e : VEnv) : Nat := e.r.hdr.param % 2 ^ 32

/-- Whether `PARAM` [63:32] is 0. -/
def VEnv.namedOk (e : VEnv) : Bool := decide (e.r.hdr.param < 2 ^ 32)

/-- The attributes of a new symmetric key from payload fields, as step 1 of R91 checks them (R97). -/
def symAttr (usage alg nonce expt limit top : Nat) : VM KeyAttr := do
  need (decide (usage < 65536)) stReserved
  need (isSym alg && decide (nonce ≤ 1) && decide (expt ≤ 1) && decide (usage < top)) stBadParam
  pure { usage := usage, alg := alg, expt := expt == 1, nonceEn := nonce == 1, limit := limit }

/-- The result of `KEY_GENERATE`: the handle and the key check value. -/
def handleKcv (h alg : Nat) (m : Bytes) : Bytes := toLe 4 h ++ fixLen 5 (kcvOf alg 0 m) ++ zeros 3

/-- `KEY_GENERATE`. The key is one consumer call, drawn once the quota has been passed (R91, R94). -/
def runKeyGenerate (e : VEnv) : VM (Nat × Bytes) := do
  e.shape (e.len == 16) (e.r.hdr.param == 0) [(7, 1)]
  let a ← symAttr (e.f 0 4) (e.f 4 1) (e.f 5 1) (e.f 6 1) (e.f 8 8) 0x1000
  e.prepay 1 (extSlots (symLen a.alg)) (b2n a.ledger)
  let m ← e.draw (symLen a.alg)
  let h ← e.newKey a 0 m id
  pure (0, handleKcv h a.alg m)

/-- `KEY_GENERATE` (R99). -/
def execKeyGenerate (t : Nat) (w : Twin) (q : Nat) (s : State) : Host.Outcome State Fault Refusal :=
  vendor t 0x0200 w q runKeyGenerate s

/-- Whether a key may serve as the KBPK of a block version (R105). -/
def kbpkFits (isD : Bool) (k : KeyRec) : Bool := if isD then isAes k.alg else isTdea k.alg

/-- `KEY_IMPORT`, in the order of R106. -/
def runKeyImport (e : VEnv) : VM (Nat × Bytes) := do
  need (decide (16 ≤ e.len) && decide (e.len ≤ 4096)) stBadFormat
  e.shape true e.namedOk []
  match parseHeader e.p with
  | none => vfail stBadFormat
  | some h => do
    let kb ← e.key 0 e.named (kbpkFits h.isD)
    match kbOpen kb.alg kb.material e.p h.len with
    | none => vfail stBlockAuth
    | some clear =>
      match kbKeyOf h.row.alg clear with
      | none => vfail stBadFormat
      | some (alg, m) => do
        need (h.hm != some 8 || alg == 9) stBadFormat
        need (h.kc.all (fun v => (kcvOf alg 0 m).take v.length == v) && h.kp.all (fun v => kb.kcv.take v.length == v))
          stBlockAuth
        need (decide (strength alg ≤ strength kb.alg)) stKeyUsage
        let form := if h.row.multi then h.row.usage ++ [h.row.mode] else zeros 3
        let hd ← e.newKey { usage := h.row.mask, alg := alg, expt := h.expt } 0 m
          (fun k => { k with form := form, macRes := h.hm.getD 0 })
        pure (0, toLe 4 hd)

/-- `KEY_IMPORT` (R106). -/
def execKeyImport (t : Nat) (w : Twin) (q : Nat) (s : State) : Host.Outcome State Fault Refusal :=
  vendor t 0x0201 w q runKeyImport s

/-- `KEY_EXPORT` (R104, R105, R107). -/
def runKeyExport (e : VEnv) : VM (Nat × Bytes) := do
  e.shape (e.len == 4) e.namedOk []
  let kb ← e.key 0 e.named (fun k => isTdea k.alg || isAes k.alg)
  let fits := fun (k : KeyRec) => handleClass (e.f 0 4) == 0 && k.exportable && (exportForm k).isSome &&
    decide (strength k.alg ≤ strength kb.alg)
  let k ← e.key 1 (e.f 0 4) fits
  match exportForm k with
  | none => vfail stKeyUsage
  | some row => do
    let out ← e.kbSeal kb row 0x45 (exportOpts kb k) k.material
    pure (0, out)

/-- `KEY_EXPORT`. -/
def execKeyExport (t : Nat) (w : Twin) (q : Nat) (s : State) : Host.Outcome State Fault Refusal :=
  vendor t 0x0202 w q runKeyExport s

/-- The inverse of a modulo m, by the extended Euclidean algorithm with fuel. -/
def invMod : Nat → Int → Int → Int → Int → Int
  | 0, _, _, u, _ => u
  | n + 1, a, b, u, v => if b = 0 then u else invMod n b (a % b) v (u - a / b * v)

/-- The material of an RSA private key from its primes (Table 6-5). -/
def rsaMaterial (len p q : Nat) : Bytes :=
  let inv := fun (a m : Nat) => (invMod (8 * len) a m 1 0 % (m : Int)).toNat
  let h := len / 2
  toBe len (p * q) ++ toLe 4 65537 ++ toBe h p ++ toBe h q ++ toBe h (inv 65537 (p - 1)) ++ toBe h (inv 65537 (q - 1)) ++
  toBe h (inv q p)

/-- The private material of a new key pair (R102): a scalar or seed in one consumer call; for RSA the primes come from the
request's stream in a way that the spec does not state (assumption 48). -/
def VEnv.pairMaterial (e : VEnv) (alg : Nat) : VM Bytes := do
  if isEcc alg then do
    let rnd ← e.draw (if alg = 0x20 then 40 else 56)
    let n := if alg = 0x20 then 32 else 48
    let d := ecScalar alg rnd
    pure (toBe n d ++ (ecEnc (curveOf alg) (ecMul (curveOf alg) d (ecG (curveOf alg)))).drop 1)
  else if alg = 0x22 then do
    let seed ← e.draw 32
    pure (seed ++ edPub seed)
  else do
    let rnd ← e.draw 64
    pure (rsaMaterial (rsaLen alg) (Config.rsaPrime (8 * rsaLen alg) 0 rnd).toNat (Config.rsaPrime (8 * rsaLen alg) 1 rnd).toNat)

/-- The usages of a new key pair (R102). -/
def pairUsageOk (usage alg : Nat) : Bool :=
  ((usage == 0x1000 || usage == 0x8000) && (isRsa alg || isEcc alg || alg == 0x22)) || (usage == 0x4000 && isEcc alg)

/-- `KEY_PAIR_GENERATE` (R102): the private half first; each half takes a slot. -/
def runKeyPairGenerate (e : VEnv) : VM (Nat × Bytes) := do
  let usage := e.f 0 4
  let alg := e.f 4 1
  e.shape (e.len == 8) (e.r.hdr.param == 0) [(5, 3)]
  need (decide (usage < 65536)) stReserved
  need (pairUsageOk usage alg) stBadParam
  e.prepay 2 (extSlots (materialLen alg 2) + extSlots (materialLen alg 1)) 0
  let m ← e.pairMaterial alg
  let pub := publicPart alg 2 m
  let hs ← e.newKey { usage := usage, alg := alg } 2 m id
  let hp ← e.newKey { usage := 0x2000, alg := alg } 1 pub id
  pure (0, toLe 4 hs ++ toLe 4 hp ++ pubEncoding alg 1 pub)

/-- `KEY_PAIR_GENERATE`. -/
def execKeyPairGenerate (t : Nat) (w : Twin) (q : Nat) (s : State) : Host.Outcome State Fault Refusal :=
  vendor t 0x0203 w q runKeyPairGenerate s

/-- The length of a public key encoding (R100). -/
def pubEncLen (alg : Nat) : Nat := if isEcc alg then materialLen alg 1 + 1 else materialLen alg 1

/-- The validation of R101. -/
def pubValid (alg : Nat) (b : Bytes) : Bool :=
  if isRsa alg then
    let n := beNat (b.take (rsaLen alg))
    let ex := leNat (b.drop (rsaLen alg))
    n % 2 == 1 && decide (2 ^ (8 * rsaLen alg - 1) ≤ n) && noSmallFactor n && ex % 2 == 1 && decide (65537 ≤ ex)
  else if isEcc alg then (ecDec (curveOf alg) b).isSome
  else if alg = 0x22 then edValid b
  else true

/-- `PUBKEY_IMPORT` (R101). -/
def runPubkeyImport (e : VEnv) : VM (Nat × Bytes) := do
  let alg := e.f 0 1
  let usage := e.f 4 4
  let enc := e.from_ 8
  e.shape (decide (8 ≤ e.len) && (!isAsym alg || decide (0x30 ≤ alg) || e.len == 8 + pubEncLen alg)) (e.r.hdr.param == 0)
    [(1, 3)]
  need (decide (usage < 65536)) stReserved
  need (isAsym alg && usage &&& 0xDFFF == 0) stBadParam
  need (enc.length == pubEncLen alg && pubValid alg enc) stBadFormat
  let h ← e.newKey { usage := usage, alg := alg } 1 (if isEcc alg then enc.drop 1 else enc) id
  pure (0, toLe 4 h)

/-- `PUBKEY_IMPORT`. -/
def execPubkeyImport (t : Nat) (w : Twin) (q : Nat) (s : State) : Host.Outcome State Fault Refusal :=
  vendor t 0x0204 w q runPubkeyImport s

/-- `KEY_LOAD`, in the order of R147. -/
def runKeyLoad (e : VEnv) : VM (Nat × Bytes) := do
  e.shape true (e.r.hdr.param == 0) []
  let p := e.p
  let h := fld p 12 4
  need (pxForm p) stBadFormat
  let x ← e.x
  let c := x.store.comp e.r.space
  need (fld p 4 2 == e.r.space && fld p 8 4 == c.gen) stBlockAuth
  match sivOpenB c.pxk [p.take 56] (p.drop 56) with
  | none => vfail stBlockAuth
  | some m => do
    let l := Tbl.find? c.ledger h
    need (!l.any (fun l => l.revoked)) stRevoked
    if (x.store.key? e.r.space h e.q).isSome then pure (0, toLe 4 h)
    else
      match x.quota e.q 1 (extSlots m.length) 0 with
      | none => vfail stQuota
      | some x => do
        e.put x
        e.stage (.keyPut e.r.space h { pxKey p m l with born := e.q })
        pure (0, toLe 4 h)

/-- `KEY_LOAD` (R103, R147). -/
def execKeyLoad (t : Nat) (w : Twin) (q : Nat) (s : State) : Host.Outcome State Fault Refusal :=
  vendor t 0x0205 w q runKeyLoad s

/-- The outcome of the declaration of the key that a management command names (R496). -/
def VEnv.mgmtStatus (e : VEnv) : Nat := e.r.keyStatus.getD 0 stKeyNotFound

/-- The key that a management command names: an exhausted one passes (R142, R496). -/
def VEnv.mgmtKey (e : VEnv) : VM KeyRec := do
  need (e.mgmtStatus == 0 || e.mgmtStatus == stExhausted) e.mgmtStatus
  let x ← e.x
  match x.store.key? e.r.space e.named e.q with
  | none => vfail stKeyNotFound
  | some k => pure k

/-- `KEY_UNLOAD` (R103, R148). -/
def runKeyUnload (e : VEnv) : VM (Nat × Bytes) := do
  e.shape (e.len == 0) e.namedOk []
  need (e.named != 0) stBadParam
  let x ← e.x
  if e.mgmtStatus ≠ stKeyNotFound ∧ (x.store.key? e.r.space e.named e.q).isSome then e.stage (.keyUnload e.r.space e.named e.q) else pure ()
  pure (0, [])

/-- `KEY_UNLOAD`. -/
def execKeyUnload (t : Nat) (w : Twin) (q : Nat) (s : State) : Host.Outcome State Fault Refusal :=
  vendor t 0x0206 w q runKeyUnload s

/-- A record about a key of the request's compartment (Table 16-8). -/
def VEnv.keyRecord (e : VEnv) (id b2 now : Nat) : EvReq :=
  { id := id, sev := sevEvid, origin := 0, stamp := now,
    detail := toLe 2 e.r.space ++ [byte b2, 0] ++ toLe 4 e.named ++ toLe 8 e.r.hdr.id }

/-- The ledger step of a revocation (R143): the key's entry, one of `LEDGER`, one of the reserve; none where there is
neither. -/
def TwinSt.revokeEntry (x : TwinSt) (q : Nat) (r : Req) (h : Nat) : Option (TwinSt × Bool) :=
  if (Tbl.find? (x.store.comp r.space).ledger h).isSome then some (x, false)
  else match x.quota q 0 0 1 with
    | some x => some (x, false)
    | none => if x.reserveRoom q r then some ({ x with resTaken := x.resTaken ++ [q] }, true) else none

/-- `KEY_REVOKE` (R103, R143, R149). -/
def runKeyRevoke (e : VEnv) : VM (Nat × Bytes) := do
  e.shape (e.len == 0) e.namedOk []
  let _ ← e.mgmtKey
  let x ← e.x
  let now ← vnow
  let h := e.named
  match x.revokeEntry e.q e.r h with
  | none => vhalt (fun s => s.finish e.w e.q { status := stQuota, evs := [e.keyRecord 0x3005 0 now] })
  | some (x, res) => do
    e.put x
    e.stage (.ledgerPut e.r.space h { revoked := true, reserve := res })
    e.stage (if h = 0 then .transportDel e.r.space else .keyErase e.r.space h)
    e.stageEv (e.keyRecord 0x3004 (b2n (h == 0)) now)
    pure (0, [])

/-- `KEY_REVOKE`. -/
def execKeyRevoke (t : Nat) (w : Twin) (q : Nat) (s : State) : Host.Outcome State Fault Refusal :=
  vendor t 0x0207 w q runKeyRevoke s

/-- A key with its counters as the requests accepted before this one leave them (R125, R146): the request waits for the
assignments that those still have open. -/
def VEnv.asAccepted (e : VEnv) (h : Nat) (k : KeyRec) : VM KeyRec := do
  let x ← e.x
  if x.claimWaits e.q e.r.space h then vwait
  else
    let r := (Tbl.find? x.reqs e.q).getD e.r
    let s := (Tbl.find? r.snaps h).getD k
    pure { k with useCount := s.useCount, nonce := s.nonce, exhausted := s.exhausted }

/-- The key that a management command reports (R146). -/
def VEnv.keyAsAccepted (e : VEnv) : VM KeyRec := do
  let k ← e.mgmtKey
  e.asAccepted e.named k

/-- `KEY_INFO` (Table 5-6). -/
def runKeyInfo (e : VEnv) : VM (Nat × Bytes) := do
  e.shape (e.len == 0) e.namedOk []
  let k ← e.keyAsAccepted
  pure (0, toLe 4 e.named ++ [byte k.alg, k.kflags, byte k.macRes, 0] ++ toLe 4 k.usage ++ toLe 8 k.useCount ++
    toLe 8 k.useLimit ++ toLe 12 (if k.nonceEn then k.nonce else 0) ++ fixLen 5 k.kcv ++ fixLen 3 k.form)

/-- `KEY_INFO`. -/
def execKeyInfo (t : Nat) (w : Twin) (q : Nat) (s : State) : Host.Outcome State Fault Refusal :=
  vendor t 0x0208 w q runKeyInfo s

/-- `KEY_SAVE` (R145, R146). -/
def runKeySave (e : VEnv) : VM (Nat × Bytes) := do
  e.shape (e.len == 0) e.namedOk []
  need (e.named != 0) stKeyNotFound
  let k ← e.keyAsAccepted
  let x ← e.x
  pure (0, pxSeal (x.store.comp e.r.space).pxk e.r.space e.named k)

/-- `KEY_SAVE`. -/
def execKeySave (t : Nat) (w : Twin) (q : Nat) (s : State) : Host.Outcome State Fault Refusal :=
  vendor t 0x0209 w q runKeySave s

end Sys2Proof.Machine
end

