-- ==== Sys2Proof/Machine/Officers.lean ====
section
/-! DEFINITION. Compartment commands, officers and remote approvals (R126 to R133, R150 to R165). -/

namespace Sys2Proof.Machine

/-- The scopes whose approvals count for a command on a compartment: its Administrators, and the module's officers. -/
def compScopes (c : Nat) : List QScope := [msoScope, { scope := 1, comp := c, role := 2 }]

/-- `COMP_CREATE`: the checks of R130 in their order. The Compartment Master Key is one consumer call of 32 bytes, wrapped
under the Module Root Key (R126). -/
def runCompCreate (e : VEnv) : VM EndRec := do
  let c := e.f 0 2
  let entry := e.p
  e.admShape true (e.len == 40 && e.r.hdr.param == 0 && decide (c < 1024)) []
  let s ← vstate
  let x ← e.x
  let st := x.store
  let one : CfgSet := CfgSet.wr {} 1 (40 * c) entry
  match firstFault (entryFaults st one (40 * c)) with
  | some f => vfail f.2
  | none => do
    need (!s.lcDenied) stLifecycle
    let old := st.comp c
    need (old.st != .zeroizing) stBusy
    need (old.st == .undefined || old.st == .zeroized) stBadParam
    let _ ← e.shadowFree
    need (st.sumsOk (st.cfgA.wr 1 (40 * c) entry) && st.sumsOk (st.cfgB.wr 1 (40 * c) entry)) stBadParam
    let l ← e.quorum 3 [msoScope]
    let cmk ← e.draw 32
    let gen := old.gen + 1
    let wrapped := sivSealB (s.tamper.mrk.getD []) [serialBytes ++ toLe 2 c ++ toLe 4 gen] cmk
    let d := (st.activeSet.wr 1 (40 * c) entry).digest
    pure (done (toLe 4 gen) (.compCreate c gen cmk wrapped entry :: consume l)
      [evidence 0x2005 s.now (toLe 2 c ++ [0, 0] ++ toLe 4 gen ++ d.take 8)])

/-- `COMP_CREATE` (R130, R131). -/
def execCompCreate (t : Nat) (w : Twin) (q : Nat) (s : State) : Host.Outcome State Fault Refusal :=
  admin t 0x0130 w q runCompCreate s

/-- The steps that the other three compartment commands share (R130): the compartment and its state. -/
def VEnv.compOf (e : VEnv) : VM (Nat × Comp) := do
  let c := e.r.hdr.param
  e.admShape true (e.len == 0 && decide (c < 1024)) []
  let s ← vstate
  need (!s.lcDenied) stLifecycle
  let x ← e.x
  pure (c, x.store.comp c)

/-- `COMP_SUSPEND` (Table 6-2a). -/
def runCompSuspend (e : VEnv) : VM EndRec := do
  let (c, k) ← e.compOf
  match k.st with
  | .active => do
    let l ← e.quorum 3 (compScopes c)
    pure (done [] (.compState c .suspended :: consume l) [])
  | .suspended => pure (done [] [] [])
  | _ => vfail stBadParam

/-- `COMP_SUSPEND` (R130, R150). -/
def execCompSuspend (t : Nat) (w : Twin) (q : Nat) (s : State) : Host.Outcome State Fault Refusal :=
  admin t 0x0131 w q runCompSuspend s

/-- `COMP_RESUME` (Table 6-2a). -/
def runCompResume (e : VEnv) : VM EndRec := do
  let (c, k) ← e.compOf
  match k.st with
  | .suspended => do
    let l ← e.quorum 3 (compScopes c)
    pure (done [] (.compState c .active :: consume l) [])
  | .active => pure (done [] [] [])
  | _ => vfail stBadParam

/-- `COMP_RESUME` (R130, R150). -/
def execCompResume (t : Nat) (w : Twin) (q : Nat) (s : State) : Host.Outcome State Fault Refusal :=
  admin t 0x0132 w q runCompResume s

/-- The approvals of a compartment's officers, withdrawn by its zeroization (R163). -/
def Store.compApprovals (st : Store) (c : Nat) : List (Nat × Approval) :=
  st.approvals.filter (fun (a : Nat × Approval) => a.2.scope == 1 && a.2.comp == c)

/-- `COMP_ZEROIZE` (Table 6-2a). -/
def runCompZeroize (e : VEnv) : VM EndRec := do
  let (c, k) ← e.compOf
  match k.st with
  | .active | .suspended => do
    let l ← e.quorum 3 (compScopes c)
    let x ← e.x
    pure { done [] (.compState c .zeroizing :: consume (l ++ x.store.compApprovals c)) [] with hold := .zeroized c }
  | .zeroizing | .zeroized => pure (done [] [] [])
  | .undefined => vfail stBadParam

/-- `COMP_ZEROIZE` (R130, R151). -/
def execCompZeroize (t : Nat) (w : Twin) (q : Nat) (s : State) : Host.Outcome State Fault Refusal :=
  admin t 0x0133 w q runCompZeroize s

/-- The action classes that a role may approve (Table 7-1, Table 7-2). -/
def roleClasses (role : Nat) : List Nat :=
  match role with
  | 0 => [1, 2, 3, 4, 6, 7, 8]
  | 1 => [5]
  | 2 => [3, 4]
  | 3 => [8]
  | _ => []

/-- The length of an officer's public key encoding. -/
def officerKeyLen (alg : Nat) : Nat := if alg = 0x21 then 97 else 1952

/-- Whether a list can spare an officer of a role (R157): enough others are left for every class the role may approve. -/
def Store.spares (st : Store) (l : Tbl Officer) (role : Nat) : Bool :=
  (roleClasses role).all (fun cls => decide (st.activeSet.quorum cls + 1 ≤ l.countP (fun o => o.2.role == role)))

/-- The approvals of one officer in the pool. -/
def Store.approvalsOf (st : Store) (scope c i : Nat) : List (Nat × Approval) :=
  st.approvals.filter (fun (a : Nat × Approval) => a.2.scope == scope && (scope == 0 || a.2.comp == c) && a.2.officer == i)

/-- The scopes whose approvals count for an Officers action (Table 7-2). -/
def officerScopes (scope c : Nat) : List QScope := if scope = 0 then [msoScope] else compScopes c

/-- The port whose card has given a serial since it was inserted (R158). -/
def State.identPort (s : State) (serial : Bytes) : Nat :=
  if s.port0.pres ∧ s.port0.ident = some serial then 0
  else if s.port1.pres ∧ s.port1.ident = some serial then 1 else 255

/-- `OFFICER_ENROL` of a new officer: index, quorum or bootstrap, and the records (R158, R159). -/
def VEnv.enrolNew (e : VEnv) (scope c : Nat) (o : Officer) (l : Tbl Officer) : VM EndRec := do
  need (!l.any (fun k => k.2.serial == o.serial || k.2.pub == o.pub)) stBadParam
  match (List.range 16).find? (fun i => (Tbl.find? l i).isNone) with
  | none => vfail stBadParam
  | some i => do
    let now ← vnow
    let v := evidence 0x4002 now ([byte scope, byte o.role] ++ toLe 2 c ++ [byte i, 0xFF, 0, 0] ++ o.serial.take 8)
    if scope = 0 ∧ l.length < 2 then do
      let g ← e.given (fun s => [byte (s.identPort o.serial)])
      need (decide (fld g 0 1 < 2)) stQuorum
      pure (done [byte i] [.officerPut scope c i o]
        [evidence 0x4001 now ([byte i] ++ g ++ [byte o.alg] ++ zeros 5 ++ o.serial.take 8), v])
    else do
      let ap ← e.quorum 4 (officerScopes scope c)
      pure (done [byte i] (.officerPut scope c i o :: consume ap) [v])

/-- `OFFICER_ENROL` (R157 to R159). -/
def runOfficerEnrol (e : VEnv) : VM EndRec := do
  let scope := e.f 0 1
  let role := e.f 1 1
  let c := e.f 2 2
  let alg := e.f 4 1
  e.admShape true (decide (24 ≤ e.len) && e.r.hdr.param == 0) [(5, 3)]
  need (decide (scope < 2) && decide (role < 4) && ((role == 0) == (scope == 0)) && decide (c < 1024) &&
    (scope == 1 || c == 0) && (alg == 0x30 || (alg == 0x21 && e.len == 24 + officerKeyLen alg))) stBadParam
  let x ← e.x
  let st := x.store
  let k := st.comp c
  need (scope == 0 || k.st == .active || k.st == .suspended) stBadParam
  let pub := e.from_ 24
  need (if alg = 0x30 then pub.length == officerKeyLen alg else (ecDec p384 pub).isSome) stBadFormat
  let o : Officer := { role := role, serial := e.b 8 16, alg := alg, pub := pub }
  let l := st.officers scope c
  match List.find? (fun (a : Nat × Officer) => a.2.serial == o.serial && a.2.pub == o.pub) l with
  | none => e.enrolNew scope c o l
  | some (i, old) =>
    if old.role = role then pure (done [byte i] [] [])
    else do
      need (st.spares l old.role) stBadParam
      let ap ← e.quorum 4 (officerScopes scope c)
      let now ← vnow
      pure (done [byte i] (.officerPut scope c i o :: consume (ap ++ st.approvalsOf scope c i))
        [evidence 0x4002 now ([byte scope, byte role] ++ toLe 2 c ++ [byte i, byte old.role, 0, 0] ++ o.serial.take 8)])

/-- `OFFICER_ENROL`. -/
def execOfficerEnrol (t : Nat) (w : Twin) (q : Nat) (s : State) : Host.Outcome State Fault Refusal :=
  admin t 0x0140 w q runOfficerEnrol s

/-- `OFFICER_REMOVE` (R157, R159). DESIGN CHOICE: of module scope the compartment field is not looked at, and the record carries
it (assumption 195). -/
def runOfficerRemove (e : VEnv) : VM EndRec := do
  let p := e.r.hdr.param
  let i := bits p 3 0
  let scope := bits p 8 8
  let c := bits p 25 16
  e.admShape true (e.len == 0 && p == i + 256 * scope + 65536 * c) []
  let x ← e.x
  let st := x.store
  let l := st.officers scope c
  match Tbl.find? l i with
  | none => vfail stBadParam
  | some o => do
    need (st.spares l o.role) stBadParam
    let ap ← e.quorum 4 (officerScopes scope c)
    let own := (st.approvalsOf scope c i).filter (fun (a : Nat × Approval) => !ap.any (fun b => b.1 == a.1))
    let now ← vnow
    pure (done [] (.officerDel scope c i :: consume (ap ++ own))
      [evidence 0x4003 now ([byte scope, byte o.role] ++ toLe 2 c ++ [byte i, byte own.length, 0, 0] ++ o.serial.take 8)])

/-- `OFFICER_REMOVE`. -/
def execOfficerRemove (t : Nat) (w : Twin) (q : Nat) (s : State) : Host.Outcome State Fault Refusal :=
  admin t 0x0141 w q runOfficerRemove s

/-- Whether a role counts for a class (Table 7-2). -/
def roleCounts (role cls : Nat) : Bool := (roleClasses role).contains cls

/-- Whether a class takes card approvals only (Table 7-2). -/
def cardsOnly (cls : Nat) : Bool := cls == 5 || cls == 6

/-- An officer's signature over an octet string (R164, R169). -/
def Officer.signed (o : Officer) (m sig : Bytes) : Bool :=
  if o.alg = 0x21 then sig.length == 96 && ecdsaCheck 0x21 o.pub (sha384 m) sig
  else sig.length == 3309 && mldsaVerify 0x30 o.pub sig (mldsaMu o.pub m)

/-- The approvals that the pool holds for a command: those not expired at its acceptance (R161, assumption 199). -/
def Store.pool (st : Store) (q : Nat) : Nat := st.approvals.countP (fun (a : Nat × Approval) => decide (q ≤ a.2.expiry))

/-- `APPROVAL_SUBMIT`, in the order of R165. -/
def runApprovalSubmit (e : VEnv) : VM EndRec := do
  let scope := e.f 1 1
  let c := e.f 2 2
  let i := e.f 4 1
  let cls := e.f 5 1
  let sa := e.f 6 1
  let sl := e.f 80 2
  let m := e.b 0 88
  e.admShape true (decide (88 ≤ e.len) && e.len == 88 + sl && e.r.hdr.param == 0) []
  need (allZero (e.b 7 1) && allZero (e.b 20 4) && allZero (e.b 82 6) && e.f 0 1 == 1 && decide (scope < 2) &&
    (scope == 1 || c == 0) && ((sa == 5 && sl == 96) || (sa == 7 && sl == 3309))) stBadParam
  let x ← e.x
  let st := x.store
  let s ← vstate
  match Tbl.find? (st.officers scope c) i with
  | none => vfail stApproval
  | some o => do
    need ((o.alg == 0x21) == (sa == 5)) stApproval
    need (roleCounts o.role cls && !cardsOnly cls) stRole
    need (e.f 8 8 == Config.serial.toNat && e.f 16 4 == s.pcycle && decide (e.q < e.f 24 8)) stApproval
    need (o.signed m (e.from_ 88)) stApproval
    let h := sha256 m
    need (!st.remoteSeen.contains h) stApproval
    need (decide (st.pool e.q < 64)) stBusy
    let a : Approval := { scope := scope, comp := c, cls := cls, officer := i, digest := e.b 32 48, expiry := e.f 24 8 }
    pure (done (toLe 4 st.nextApp) [.approvalAdd st.nextApp a (some h)] [])

/-- `APPROVAL_SUBMIT` (R164, R165). -/
def execApprovalSubmit (t : Nat) (w : Twin) (q : Nat) (s : State) : Host.Outcome State Fault Refusal :=
  admin t 0x0142 w q runApprovalSubmit s

/-- Whether an admin request accepted up to a stamp is still in service. -/
def State.adminSince (s : State) (q : Nat) : Bool := s.rreqs.any (fun e => decide (e.1 ≤ q) && e.2.space == adminSpace)

/-- `APPROVAL_EXPIRY` (R163): an approval whose time has passed leaves the pool, once no command accepted before then can still
count it (assumption 199). -/
def execApprovalExpiry (t id : Nat) (s : State) : Host.Outcome State Fault Refusal :=
  ev t (fun s => s.withdrawApprovals (fun a => decide (a.expiry < s.now) && !s.adminSince a.expiry &&
    (Tbl.find? s.twinA.store.approvals id == some a || Tbl.find? s.twinB.store.approvals id == some a))) s

end Sys2Proof.Machine
end

