-- ==== Sys2Proof/Machine/CardLine.lean ====
section
/-! DEFINITION. The T=1 line of an officer card port (R166, R168, Table 7-4): activation, the answer to reset, PPS,
S(IFS request), blocks, retransmission and S(RESYNCH request). -/

namespace Sys2Proof.Machine

/-- An officer card port. -/
def State.port (s : State) (p : Nat) : Port := if p = 0 then s.port0 else s.port1

/-- The state with a port replaced; there are two (R166). -/
def State.setPort (s : State) (p : Nat) (x : Port) : State :=
  if p = 0 then { s with port0 := x } else if p = 1 then { s with port1 := x } else s

/-- The state with a port changed. -/
def State.updPort (s : State) (p : Nat) (f : Port → Port) : State := s.setPort p (f (s.port p))

/-- Units in a number of CLK cycles of 3.125 MHz (Table 7-4). -/
def cardClk (n : Nat) : Nat := 1280 * n

/-- The longest dialogue, 10 s (Table 7-4). -/
def cardLongest : Nat := 40000000000

/-- When the answer to reset must have begun: RST rises 40,000 CLK cycles after CLK starts, and 40,000 more pass (Table 7-4,
assumption 184). -/
def CardDlg.atrDue (d : CardDlg) : Nat := d.start + cardClk 80000

/-- When RST rises in a dialogue (Table 7-4). -/
def CardDlg.rstUp (d : CardDlg) : Nat := d.start + cardClk 40000

/-- The XOR of bytes: LRC, TCK and PCK. -/
def lrcOf (b : Bytes) : BitVec 8 := b.foldl (· ^^^ ·) 0

/-- A block of T=1: NAD 0, PCB, LEN, INF and LRC. -/
def t1Block (pcb : Nat) (inf : Bytes) : Bytes :=
  let b := byte 0 :: byte pcb :: byte inf.length :: inf
  b ++ [lrcOf b]

/-- Whether bytes are a whole block without error (Table 7-4: LRC). -/
def t1Good (b : Bytes) : Bool :=
  decide (4 ≤ b.length) && fld b 0 1 == 0 && decide (fld b 2 1 ≤ 254) && b.length == fld b 2 1 + 4 && lrcOf b == 0

/-- Block waiting time (Table 7-4): 11 etu and 2^BWI · 960 · 372 CLK cycles, times the extension granted. -/
def CardLine.bwt (l : CardLine) : Nat := l.wtx * cardClk (11 * l.fi / l.di + 2 ^ l.bwi * 960 * 372)

/-- Character waiting time (Table 7-4): 11 + 2^CWI etu. -/
def CardLine.cwt (l : CardLine) : Nat := cardClk ((11 + 2 ^ l.cwi) * l.fi / l.di)

/-- The initial waiting time of the default Fi and Di, within which a card answers a PPS and its characters follow. -/
def initialWait : Nat := cardClk (9600 * 372)

/-- What an answer to reset says (ISO/IEC 7816-3). -/
structure AtrInfo where
  ta1  : Option Nat := none
  t1   : Bool := false
  crc  : Bool := false
  ifsc : Option Nat := none
  tb   : Option Nat := none
  /-- The bytes after the interface bytes. -/
  left : Bytes := []
  deriving DecidableEq, Repr

/-- The interface bytes of level `i` on, `y` being the indicator and `t1` telling that the level is T=1's. The first bytes
for T=1 from level 3 on give IFSC, the waiting times and the error detection code. -/
def atrScan : Nat → Nat → Nat → Bool → AtrInfo → Bytes → AtrInfo
  | 0, _, _, _, a, b => { a with t1 := false, left := b }
  | n + 1, i, y, t1, a, b =>
    let nTa := b2n (bit y 4)
    let nTb := b2n (bit y 5)
    let nTc := b2n (bit y 6)
    let own := decide (3 ≤ i) && t1
    let a := if i = 1 ∧ nTa = 1 then { a with ta1 := some (fld b 0 1) } else a
    let a := if own ∧ nTa = 1 ∧ a.ifsc.isNone then { a with ifsc := some (fld b 0 1) } else a
    let a := if own ∧ nTb = 1 ∧ a.tb.isNone then { a with tb := some (fld b nTa 1) } else a
    let a := if own ∧ nTc = 1 then { a with crc := a.crc || bit (fld b (nTa + nTb) 1) 0 } else a
    let skip := nTa + nTb + nTc
    if ¬ bit y 7 then { a with left := b.drop skip }
    else
      let td := fld b skip 1
      let is1 := td % 16 == 1
      atrScan n (i + 1) td is1 { a with t1 := a.t1 || is1 } (b.drop (skip + 1))

/-- An answer to reset that offers T=1 with LRC, and whose length and check character hold (Table 7-4); none where the card
is deactivated with `APPROVAL_INVALID`. -/
def atrRead (b : Bytes) : Option AtrInfo :=
  let a := atrScan 8 1 (fld b 1 1) false {} (b.drop 2)
  if (fld b 0 1 = 0x3B ∨ fld b 0 1 = 0x3F) ∧ a.t1 ∧ ¬ a.crc ∧ a.left.length = fld b 1 1 % 16 + 1 ∧ lrcOf (b.drop 1) = 0 then
    some a
  else none

/-- Fi and Di of a TA1 that a PPS requests (Table 7-4). -/
def ta1Rate (v : Nat) : Option (Nat × Nat) :=
  let fi := if v / 16 = 0 ∨ v / 16 = 1 then 372 else if v / 16 = 9 then 512 else 0
  let di := if v % 16 = 1 then 1 else if v % 16 = 2 then 2 else if v % 16 = 3 then 4 else if v % 16 = 4 then 8 else 0
  if fi = 0 ∨ di = 0 then none else some (fi, di)

/-- The PPS for T=1 and the values of TA1. -/
def ppsFor (ta1 : Nat) : Bytes := let b := [0xFF, 0x11, byte ta1]; b ++ [lrcOf b]

/-- S(IFS request) with IFSD 254 (Table 7-4). -/
def ifsRequest : Bytes := t1Block 0xC1 [0xFE]

/-- S(RESYNCH request). -/
def resynchRequest : Bytes := t1Block 0xC0 []

/-- Bytes go to a card, and its line waits for what follows. -/
def State.cardSend (s : State) (p : Nat) (d : CardDlg) (l : CardLine) (b : Bytes) : State :=
  let s := s.updPort p (fun x => { x with dlg := some { d with line := { l with sent := b, sentAt := s.now } } })
  { s with out := s.out ++ [.card p b] }

/-- The next I-block of the command APDU: as much of it as the card takes, chained where more follows. -/
def State.cardNextI (s : State) (p : Nat) (d : CardDlg) (l : CardLine) : State :=
  let b := t1Block (64 * b2n l.ns + 32 * b2n (decide (l.ifsc < l.rest.length))) (l.rest.take l.ifsc)
  s.cardSend p d { l with owed := true, rest := l.rest.drop l.ifsc, lastI := b, wtx := 1 } b

/-- A command APDU goes to the card (R168). -/
def State.sendApdu (s : State) (p : Nat) (d : CardDlg) (b : Bytes) : State :=
  s.cardNextI p { d with apdu := b, held := none } { d.line with rest := b, rx := [] }

/-- A fresh line after the answer to reset: S(IFS request) goes first (Table 7-4). -/
def State.cardIfs (s : State) (p : Nat) (d : CardDlg) (l : CardLine) : State :=
  s.cardSend p d { l with stage := .ifs, ns := false, nr := false, owed := false, ifsc := l.ifsc0, rx := [], wtx := 1 }
    ifsRequest

/-- A block that did not come, or came with an error: two retransmissions, then one S(RESYNCH request), then the end; none
where the card is deactivated with `CARD_TIMEOUT` (Table 7-4). An S-request is sent again, and otherwise an R-block asks for
the block. -/
def State.cardRetry (s : State) (p : Nat) (d : CardDlg) : Option State :=
  let l := { d.line with wtx := 1 }
  if l.sent = resynchRequest then none
  else if l.tries < 2 then
    some (s.cardSend p d { l with tries := l.tries + 1 }
      (if l.stage = .ifs then ifsRequest else t1Block (0x81 + 16 * b2n l.nr) []))
  else if l.resynch then none
  else some (s.cardSend p d { l with resynch := true } resynchRequest)

/-- The card asks for the module's block again: a retransmission as well. -/
def State.cardAgain (s : State) (p : Nat) (d : CardDlg) : Option State :=
  let l := d.line
  if l.tries < 2 then some (s.cardSend p d { l with tries := l.tries + 1, wtx := 1 } (if l.owed then l.lastI else l.sent))
  else s.cardRetry p d

/-- What a transmission of a card leads to. -/
inductive CardNext where
  /-- The line goes on. -/
  | goes (s : State)
  /-- A response APDU is whole, or the line is ready for the first command APDU (none). -/
  | whole (s : State) (resp : Option Bytes)
  /-- The card is deactivated, with a status. -/
  | ends (status : Nat)

/-- A retransmission, or the end. -/
def CardNext.ofRetry : Option State → CardNext
  | some s => .goes s
  | none => .ends stCardTimeout

/-- An I-block of the card: it acknowledges the module's; a chained one is answered with an R-block. -/
def State.cardIBlock (s : State) (p : Nat) (d : CardDlg) (pcb : Nat) (inf : Bytes) : CardNext :=
  let l := d.line
  if l.stage ≠ .blocks ∨ l.sent = resynchRequest ∨ l.rest ≠ [] ∨ bit pcb 6 ≠ l.nr then .ofRetry (s.cardRetry p d)
  else
    let l := { l with ns := l.ns != l.owed, owed := false, nr := !l.nr, rx := l.rx ++ inf, tries := 0, resynch := false,
                      wtx := 1 }
    if bit pcb 5 then .goes (s.cardSend p d l (t1Block (0x80 + 16 * b2n l.nr) []))
    else .whole (s.updPort p (fun x => { x with dlg := some { d with line := l } })) (some l.rx)

/-- An R-block of the card: it acknowledges a chained I-block, or asks for a block again. -/
def State.cardRBlock (s : State) (p : Nat) (d : CardDlg) (pcb : Nat) : CardNext :=
  let l := d.line
  if l.stage ≠ .blocks ∨ l.sent = resynchRequest then .ofRetry (s.cardRetry p d)
  else if l.owed ∧ bit pcb 4 ≠ l.ns then
    if l.rest = [] then .ofRetry (s.cardRetry p d)
    else .goes (s.cardNextI p d { l with ns := !l.ns, tries := 0, resynch := false })
  else .ofRetry (s.cardAgain p d)

/-- An S-block of the card: the answers to S(IFS request) and S(RESYNCH request), and the card's own requests for IFSC and for
waiting time, which are answered in kind. -/
def State.cardSBlock (s : State) (p : Nat) (d : CardDlg) (pcb : Nat) (inf : Bytes) : CardNext :=
  let l := d.line
  let v := fld inf 0 1
  if pcb = 0xE1 ∧ l.stage = .ifs ∧ l.sent = ifsRequest ∧ inf = [0xFE] then
    let d := { d with line := { l with stage := .blocks, tries := 0 } }
    if d.apdu = [] then .whole (s.updPort p (fun x => { x with dlg := some d })) none
    else .goes (s.sendApdu p d d.apdu)
  else if pcb = 0xE0 ∧ l.sent = resynchRequest ∧ inf = [] then .goes (s.cardIfs p d { l with tries := 0 })
  else if pcb = 0xC1 ∧ l.stage = .blocks ∧ inf.length = 1 ∧ 1 ≤ v ∧ v ≤ 254 then
    .goes (s.cardSend p d { l with ifsc := v, tries := 0 } (t1Block 0xE1 inf))
  else if pcb = 0xC3 ∧ l.stage = .blocks ∧ inf.length = 1 then
    .goes (s.cardSend p d { l with wtx := max 1 v, tries := 0 } (t1Block 0xE3 inf))
  else .ofRetry (s.cardRetry p d)

/-- A transmission of a card in a dialogue (R166, Table 7-4). One that breaks its waiting time is a block in error. DESIGN CHOICE: a
card that offers T=0 first and T=1 later, with no TA1 to request, is sent no PPS (assumption 195). -/
def State.cardLine (s : State) (p : Nat) (d : CardDlg) (b : Bytes) : CardNext :=
  let l := d.line
  if d.start + cardLongest ≤ s.now then .ends stCardTimeout
  else match l.stage with
    | .atr =>
      if d.atrDue + b.length * initialWait < s.now then .ends stCardTimeout
      else match atrRead b with
        | none => .ends stApproval
        | some a =>
          let l := { l with ifsc0 := a.ifsc.getD 32, bwi := (a.tb.getD 0x4D) / 16, cwi := (a.tb.getD 0x4D) % 16 }
          match a.ta1.bind (fun v => (ta1Rate v).map (fun _ => v)) with
          | some v => .goes (s.cardSend p d { l with stage := .pps } (ppsFor v))
          | none => .goes (s.cardIfs p d l)
    | .pps =>
      if l.sentAt + b.length * initialWait < s.now then .ends stCardTimeout
      else if b = l.sent then
        let (fi, di) := (ta1Rate (fld l.sent 2 1)).getD (372, 1)
        .goes (s.cardIfs p d { l with fi := fi, di := di })
      else if b = [0xFF, 0x01, 0xFE] then .goes (s.cardIfs p d l)
      else .ends stApproval
    | _ =>
      if d.held.isSome then .goes s
      else if ¬ t1Good b ∨ l.sentAt + l.bwt + b.length * l.cwt < s.now then .ofRetry (s.cardRetry p d)
      else
        let pcb := fld b 1 1
        let inf := slice b 3 (fld b 2 1)
        if ¬ bit pcb 7 then s.cardIBlock p d pcb inf
        else if ¬ bit pcb 6 then s.cardRBlock p d pcb
        else s.cardSBlock p d pcb inf

/-- A timer of a card dialogue as it stands now (Table 7-4): the whole dialogue's, the answer to reset's, the PPS answer's or
a block's. -/
def State.cardTimer (s : State) (p : Nat) (d : CardDlg) : CardNext :=
  let l := d.line
  if d.start + cardLongest ≤ s.now then .ends stCardTimeout
  else if d.held.isSome then .goes s
  else match l.stage with
    | .atr => if d.atrDue ≤ s.now then .ends stCardTimeout else .goes s
    | .pps => if l.sentAt + initialWait ≤ s.now then .ends stCardTimeout else .goes s
    | _ => if l.sentAt + l.bwt ≤ s.now then .ofRetry (s.cardRetry p d) else .goes s

end Sys2Proof.Machine
end

