-- ==== Sys2Proof/Machine/Pin.lean ====
section
/-! DEFINITION. PIN blocks and the PIN commands (R108 to R111). -/

namespace Sys2Proof.Machine

/-- Whether a code names a PIN block format (Table 5-7). -/
def isPinFormat (f : Nat) : Bool := f == 0 || f == 1 || f == 3 || f == 4

/-- Whether a format needs a PAN (R109). -/
def pinNeedsPan (f : Nat) : Bool := f != 1

/-- Whether an algorithm is one that a format's block needs (R108). -/
def pinAlg (f : Nat) (k : KeyRec) : Bool := if f = 4 then isAes k.alg else isTdea k.alg

/-- The length of a format's block. -/
def pinLen (f : Nat) : Nat := if f = 4 then 16 else 8

/-- The permitted translations (Table 5-8). -/
def pinPair (src dst : Nat) : Bool :=
  match src, dst with
  | 0, 0 | 0, 3 | 0, 4 | 1, 0 | 1, 1 | 1, 3 | 1, 4 | 3, 0 | 3, 3 | 3, 4 | 4, 4 => true
  | _, _ => false

/-- The PAN's length against the formats of a request (R109). -/
def panLenOk (n : Nat) (formats : List Nat) : Bool :=
  if formats.any pinNeedsPan then decide (12 ≤ n) && decide (n ≤ 19) else n == 0

/-- Whether the PAN field must be zero, and is not (R109). -/
def panReserved (e : VEnv) (off : Nat) (formats : List Nat) : Bool :=
  formats.any pinNeedsPan || allZero (e.b off 10)

/-- Whether a PAN field is well formed: decimal digits, then 0xF (R109). -/
def panOk (b : Bytes) (n : Nat) : Bool :=
  ((nibbles b).take n).all (fun d => decide (d < 10)) && ((nibbles b).drop n).all (fun d => d == 15)

/-- The PAN's digits, the leftmost of twelve padded with zeros: with 12 digits, one of the 12 rightmost without the check
digit is missing (assumption 46). -/
def panDigits12 (b : Bytes) (n : Nat) : List Nat :=
  let d := (nibbles b).take (n - 1)
  List.replicate (12 - d.length) 0 ++ d.drop (d.length - 12)

/-- The 8-byte PAN field of formats 0 and 3. -/
def panBlock8 (b : Bytes) (n : Nat) : Bytes := packNibbles ([0, 0, 0, 0] ++ panDigits12 b n)

/-- The 16-byte PAN field of format 4. -/
def panBlock16 (b : Bytes) (n : Nat) : Bytes :=
  packNibbles ((n - 12) :: ((nibbles b).take n ++ List.replicate 31 0).take 31)

/-- The plain PIN field checked against its format: the digits of the PIN (R108). -/
def pinOf (f : Nat) (field : Bytes) : Option (List Nat) :=
  let d := nibbles field
  let n := d.getD 1 0
  let pin := (d.drop 2).take n
  let fill := (d.drop (2 + n)).take (14 - n)
  if d.headD 0 = f ∧ 4 ≤ n ∧ n ≤ 12 ∧ pin.all (fun v => decide (v < 10)) ∧
      fill.all (fun v => match f with
        | 0 => v == 15
        | 1 => true
        | 3 => decide (10 ≤ v)
        | _ => v == 10) then some pin else none

/-- A presented PIN block decrypted and checked: the digits of the PIN, or none (R108). -/
def pinRead (f alg : Nat) (key pan : Bytes) (n : Nat) (block : Bytes) : Option (List Nat) :=
  if f = 4 then pinOf 4 (aesD key (xorB (aesD key block) (panBlock16 pan n)))
  else
    let x := blkD alg key block
    pinOf f (if f = 1 then x else xorB x (panBlock8 pan n))

/-- The fill nibbles of a format 3 block, one consumer call each try (R108). -/
def VEnv.fill3 (e : VEnv) : Nat → Nat → VM (List Nat)
  | _, 0 => pure []
  | 0, _ => vfail stImage
  | k + 1, n + 1 => do
    let b ← e.draw 1
    let v := fld b 0 1
    if v < 252 then do
      let l ← e.fill3 k n
      pure ((10 + v % 6) :: l)
    else e.fill3 k (n + 1)

/-- A PIN block made for a format (R108). -/
def VEnv.pinMake (e : VEnv) (f alg : Nat) (key pan : Bytes) (n : Nat) (pin : List Nat) : VM Bytes := do
  let k := 14 - pin.length
  let head := [f, pin.length] ++ pin
  if f = 4 then do
    let rnd ← e.draw 8
    let field := packNibbles (head ++ List.replicate k 10) ++ rnd
    pure (aesE key (xorB (aesE key field) (panBlock16 pan n)))
  else if f = 1 then do
    let rnd ← e.draw (ceilDiv k 2)
    pure (blkE alg key (packNibbles (head ++ (nibbles rnd).take k)))
  else do
    let fill ← if f = 3 then e.fill3 (2 ^ 20) k else pure (List.replicate k 15)
    pure (blkE alg key (xorB (packNibbles (head ++ fill)) (panBlock8 pan n)))

/-- The second half of a 16-byte block field is 0 for an 8-byte block (R110). -/
def VEnv.halfZero (e : VEnv) (off f : Nat) : Bool := f == 4 || !isPinFormat f || allZero (e.b (off + 8) 8)

/-- `PIN_TRANSLATE`. -/
def runPinTranslate (e : VEnv) : VM (Nat × Bytes) := do
  let sf := e.f 8 1
  let df := e.f 9 1
  let n := e.f 10 1
  e.shape (e.len == 40) (e.r.hdr.param == 0) [(11, 1), (22, 2)]
  need (panReserved e 12 [sf, df] && e.halfZero 24 sf) stReserved
  need (pinPair sf df && panLenOk n [sf, df]) stBadParam
  let src ← e.key 0 (e.f 0 4) (pinAlg sf)
  let dst ← e.key 1 (e.f 4 4) (pinAlg df)
  need (!(pinNeedsPan sf || pinNeedsPan df) || panOk (e.b 12 10) n) stBadFormat
  match pinRead sf src.alg src.material (e.b 12 10) n (e.b 24 (pinLen sf)) with
  | none => vfail stBadFormat
  | some pin => do
    let out ← e.pinMake df dst.alg dst.material (e.b 12 10) n pin
    pure (0, out)

/-- `PIN_TRANSLATE` (R109). -/
def execPinTranslate (t : Nat) (w : Twin) (q : Nat) (s : State) : Host.Outcome State Fault Refusal :=
  vendor t 0x0300 w q runPinTranslate s

/-- The digits of the encrypted validation data (R111). -/
def naturalDigits (k : KeyRec) (val : Bytes) : List Nat :=
  nibbles (if isAes k.alg then (aesE k.material (val ++ zeros 8)).take 8 else blkE k.alg k.material val)

/-- The decimalisation table's rule (R111). -/
def decTableOk (l : List Nat) : Bool := l.all (fun v => decide (v < 10)) && l.take 10 == List.range 10

/-- The common part of the offset method: the PIN and its natural PIN (R111). DESIGN CHOICE: an offset field with a nibble other
than 0xF after its digits, to which the spec gives no status, is answered `BAD_FORMAT` (assumption 195). -/
def offsetPins (e : VEnv) (gen : Bool) : VM (List Nat × List Nat) := do
  let f := e.f 8 1
  let n := e.f 9 1
  let ol := e.f 10 1
  let tab := nibbles (e.b 48 8)
  e.shape (e.len == 64) (e.r.hdr.param == 0) [(11, 1), (22, 2), (62, 2)]
  need (panReserved e 12 [f] && e.halfZero 24 f && (!gen || (ol == 0 && allZero (e.b 56 6)))) stReserved
  need (isPinFormat f && panLenOk n [f] && (gen || (decide (4 ≤ ol) && decide (ol ≤ 12))) && decTableOk tab) stBadParam
  let pk ← e.key 0 (e.f 0 4) (pinAlg f)
  let vk ← e.key 1 (e.f 4 4) (fun k => isTdea k.alg || isAes k.alg)
  need (!pinNeedsPan f || panOk (e.b 12 10) n) stBadFormat
  let off := nibbles (e.b 56 6)
  need (gen || ((off.take ol).all (fun v => decide (v < 10)) && (off.drop ol).all (fun v => v == 15))) stBadFormat
  match pinRead f pk.alg pk.material (e.b 12 10) n (e.b 24 (pinLen f)) with
  | none => vfail stBadFormat
  | some pin =>
    pure (pin, ((naturalDigits vk (e.b 40 8)).take pin.length).map (fun d => tab.getD d 0))

/-- `PIN_VERIFY_OFFSET`. -/
def runPinVerifyOffset (e : VEnv) : VM (Nat × Bytes) := do
  let (pin, nat_) ← offsetPins e false
  let off := (nibbles (e.b 56 6)).take pin.length
  let same := e.f 10 1 == pin.length && List.zipWith (fun a b => (a + b) % 10) nat_ off == pin
  pure (if same then 0 else stVerify, [])

/-- `PIN_VERIFY_OFFSET` (R111). -/
def execPinVerifyOffset (t : Nat) (w : Twin) (q : Nat) (s : State) : Host.Outcome State Fault Refusal :=
  vendor t 0x0301 w q runPinVerifyOffset s

/-- `PIN_OFFSET_GENERATE`. -/
def runPinOffsetGenerate (e : VEnv) : VM (Nat × Bytes) := do
  let (pin, nat_) ← offsetPins e true
  let off := List.zipWith (fun a b => (a + 10 - b) % 10) pin nat_
  pure (0, packNibbles ((off ++ List.replicate 12 15).take 12))

/-- `PIN_OFFSET_GENERATE` (R110, R111). -/
def execPinOffsetGenerate (t : Nat) (w : Twin) (q : Nat) (s : State) : Host.Outcome State Fault Refusal :=
  vendor t 0x0302 w q runPinOffsetGenerate s

/-- `PIN_VERIFY_REFERENCE`. -/
def runPinVerifyReference (e : VEnv) : VM (Nat × Bytes) := do
  let cf := e.f 8 1
  let rf := e.f 9 1
  let n := e.f 10 1
  e.shape (e.len == 56) (e.r.hdr.param == 0) [(11, 1), (22, 2)]
  need (panReserved e 12 [cf, rf] && e.halfZero 24 cf && e.halfZero 40 rf) stReserved
  need (isPinFormat cf && isPinFormat rf && panLenOk n [cf, rf]) stBadParam
  let ck ← e.key 0 (e.f 0 4) (pinAlg cf)
  let rk ← e.key 1 (e.f 4 4) (pinAlg rf)
  need (!(pinNeedsPan cf || pinNeedsPan rf) || panOk (e.b 12 10) n) stBadFormat
  match pinRead cf ck.alg ck.material (e.b 12 10) n (e.b 24 (pinLen cf)),
    pinRead rf rk.alg rk.material (e.b 12 10) n (e.b 40 (pinLen rf)) with
  | some a, some b => pure (if a = b then 0 else stVerify, [])
  | _, _ => vfail stBadFormat

/-- `PIN_VERIFY_REFERENCE` (R111). -/
def execPinVerifyReference (t : Nat) (w : Twin) (q : Nat) (s : State) : Host.Outcome State Fault Refusal :=
  vendor t 0x0303 w q runPinVerifyReference s

end Sys2Proof.Machine
end

