-- ==== Sys2Proof/Machine/Derive.lean ====
section
/-! DEFINITION. Key derivation, DUKPT and key agreement (R116, R117, R120). The spec names ANSI X9.24-3 for DUKPT; its
derivation data and key variants are those of that standard (assumption 49). -/

namespace Sys2Proof.Machine

/-- The PRFs of R116. -/
def isPrf (code : Nat) : Bool := code == 1 || (decide (6 ≤ code) && decide (code ≤ 10))

/-- `KDF_DERIVE`. -/
def runKdfDerive (e : VEnv) : VM (Nat × Bytes) := do
  let ll := e.f 20 2
  let cl := e.f 22 2
  e.shape (e.len == 24 + ll + cl && decide (ll ≤ 256) && decide (cl ≤ 256)) (e.r.hdr.param == 0) []
  let a ← symAttr (e.f 8 4) (e.f 5 1) (e.f 7 1) (e.f 6 1) (e.f 12 8) 0x1000
  need (isPrf (e.f 4 1)) stBadParam
  let k ← e.key 0 (e.f 0 4) (fun k => macKeyOk (e.f 4 1) k && (!a.expt || k.exportable))
  let m := kdf108 (e.f 4 1) k.alg k.material (e.b 24 ll) (e.b (24 + ll) cl) (symLen a.alg)
  let h ← e.newKey a 0 m id
  pure (0, handleKcv h a.alg m)

/-- `KDF_DERIVE` (R116). -/
def execKdfDerive (t : Nat) (w : Twin) (q : Nat) (s : State) : Host.Outcome State Fault Refusal :=
  vendor t 0x0600 w q runKdfDerive s

/-- A key of AES DUKPT derived under another: the usage, the type as an algorithm code, and the last 8 bytes of the
derivation data. -/
def dukptAes (key : Bytes) (usage alg : Nat) (tail : Bytes) : Bytes :=
  let n := symLen alg
  ((List.range (ceilDiv n 16)).flatMap (fun i =>
    aesE key ([1, byte (i + 1)] ++ toBe 2 usage ++ toBe 2 (alg - 1) ++ toBe 2 (8 * n) ++ fixLen 8 tail))).take n

/-- The initial key of AES DUKPT for an initial key ID. -/
def aesIk (alg : Nat) (bdk id : Bytes) : Bytes := dukptAes bdk 0x8001 alg id

/-- The derivation key of a transaction counter: one step for each one bit, from the highest. -/
def aesStep (alg : Nat) (id : Bytes) (ctr : Nat) : Nat → Nat → Bytes → Bytes
  | 0, _, key => key
  | i + 1, acc, key =>
    if bit ctr i then
      let acc := acc + 2 ^ i
      aesStep alg id ctr i acc (dukptAes key 0x8000 alg (id.drop 4 ++ toBe 4 acc))
    else aesStep alg id ctr i acc key

/-- A working key of AES DUKPT. -/
def aesWorking (alg : Nat) (bdk ksn : Bytes) (usage wk : Nat) : Bytes :=
  let id := ksn.take 8
  let ctr := beNat (ksn.drop 8)
  dukptAes (aesStep alg id ctr 32 0 (aesIk alg bdk id)) usage wk (id.drop 4 ++ toBe 4 ctr)

/-- A key with the bytes of a mask folded in, over its whole length. -/
def keyMask (key mask : Bytes) : Bytes :=
  xorB key ((List.replicate (ceilDiv key.length mask.length) mask).flatten.take key.length)

/-- The mask of the second half in TDEA DUKPT. -/
def dukptC0 : Bytes := [0xC0, 0xC0, 0xC0, 0xC0, 0, 0, 0, 0]

/-- A TDEA KSN with its 21 counter bits cleared. -/
def ksnBase (ksn : Bytes) : Bytes := toBe 10 (beNat ksn / 2 ^ 21 * 2 ^ 21)

/-- The initial key of TDEA DUKPT. -/
def tdeaIk (bdk ksn : Bytes) : Bytes :=
  let id := (ksnBase ksn).take 8
  tdeaE bdk id ++ tdeaE (keyMask bdk dukptC0) id

/-- One half of the non-reversible key generation. -/
def tdeaHalf (key data : Bytes) : Bytes :=
  let r := key.drop 8
  xorB (desE1 (key.take 8) (xorB data r)) r

/-- The transaction key of TDEA DUKPT: one step for each one bit of the counter, from the highest. -/
def tdeaStep (ctr : Nat) : Nat → Nat → Bytes → Bytes
  | 0, _, key => key
  | i + 1, acc, key =>
    if bit ctr i then
      let acc := acc + 2 ^ i
      let data := toBe 8 acc
      tdeaStep ctr i acc (tdeaHalf (keyMask key dukptC0) data ++ tdeaHalf key data)
    else tdeaStep ctr i acc key

/-- The transaction key of a KSN. -/
def tdeaTxn (bdk ksn : Bytes) : Bytes :=
  tdeaStep (beNat ksn % 2 ^ 21) 21 (beNat (ksnBase ksn) % 2 ^ 64) (tdeaIk bdk ksn)

/-- A variant of a transaction key. -/
def tdeaVariant (key mask : Bytes) : Bytes := keyMask key mask

/-- What a working key of a transaction is for. -/
inductive DukptUse where
  | pin
  | mac
  | data
  deriving DecidableEq, Repr

/-- The working key of a transaction for a use. -/
def dukptWorking (aes : Bool) (use : DukptUse) (alg : Nat) (bdk ksn : Bytes) (wk : Nat) : Bytes :=
  if aes then aesWorking alg bdk ksn (match use with | .pin => 0x1000 | .mac => 0x2001 | .data => 0x3001) wk
  else
    let k := tdeaTxn bdk ksn
    match use with
    | .pin => tdeaVariant k [0, 0, 0, 0, 0, 0, 0, 0xFF]
    | .mac => tdeaVariant k [0, 0, 0, 0, 0, 0, 0xFF, 0]
    | .data =>
      let v := tdeaVariant k [0, 0, 0, 0, 0, 0xFF, 0, 0]
      tdeaE v (v.take 8) ++ tdeaE v (v.drop 8)

/-- `KIND` names AES DUKPT. -/
def VEnv.dukptAes? (e : VEnv) : Bool := e.f 4 1 == 1

/-- The KSN of a DUKPT command. -/
def VEnv.ksn (e : VEnv) : Bytes := if e.dukptAes? then e.b 8 12 else e.b 8 10

/-- The transaction counter of a KSN. -/
def VEnv.ksnCtr (e : VEnv) : Nat := if e.dukptAes? then beNat (e.b 16 4) else beNat (e.b 8 10) % 2 ^ 21

/-- The KSN's rule (R117). -/
def VEnv.ksnOk (e : VEnv) : Bool :=
  e.ksnCtr != 0 && decide (popCount 32 e.ksnCtr ≤ (if e.dukptAes? then 16 else 10))

/-- Step 1 of R91 on the common header. -/
def VEnv.dukptHead (e : VEnv) : VM Unit := do
  need (allZero (e.b 6 2) && (e.dukptAes? || allZero (e.b 18 2))) stReserved
  need (e.dukptAes? || e.f 4 1 == 2) stBadParam
  need (if e.dukptAes? then decide (3 ≤ e.f 5 1) && decide (e.f 5 1 ≤ 5) else e.f 5 1 == 0) stBadParam

/-- The BDK of a DUKPT command. -/
def VEnv.bdk (e : VEnv) : VM KeyRec := e.key 0 (e.f 0 4) (fun k => if e.dukptAes? then isAes k.alg else isTdea k.alg)

/-- The algorithm of the working keys. -/
def VEnv.wkAlg (e : VEnv) : Nat := if e.dukptAes? then e.f 5 1 else 1

/-- The working key of the KSN. -/
def VEnv.working (e : VEnv) (use : DukptUse) (k : KeyRec) : Bytes :=
  dukptWorking e.dukptAes? use k.alg k.material e.ksn e.wkAlg

/-- `DUKPT_PIN_TRANSLATE`. -/
def runDukptPinTranslate (e : VEnv) : VM (Nat × Bytes) := do
  let sf := e.f 24 1
  let df := e.f 25 1
  let n := e.f 26 1
  e.shape (e.len == 56) (e.r.hdr.param == 0) [(27, 1), (38, 2)]
  need (panReserved e 28 [sf, df] && e.halfZero 40 sf) stReserved
  e.dukptHead
  need ((if e.dukptAes? then sf == 4 else sf != 4) && pinPair sf df && panLenOk n [sf, df]) stBadParam
  let bdk ← e.bdk
  let dst ← e.key 1 (e.f 20 4) (pinAlg df)
  need e.ksnOk stBadFormat
  need (!(pinNeedsPan sf || pinNeedsPan df) || panOk (e.b 28 10) n) stBadFormat
  match pinRead sf e.wkAlg (e.working .pin bdk) (e.b 28 10) n (e.b 40 (pinLen sf)) with
  | none => vfail stBadFormat
  | some pin => do
    let out ← e.pinMake df dst.alg dst.material (e.b 28 10) n pin
    pure (0, out)

/-- `DUKPT_PIN_TRANSLATE` (R117). -/
def execDukptPinTranslate (t : Nat) (w : Twin) (q : Nat) (s : State) : Host.Outcome State Fault Refusal :=
  vendor t 0x0601 w q runDukptPinTranslate s

/-- `DUKPT_MAC_VERIFY`. -/
def runDukptMacVerify (e : VEnv) : VM (Nat × Bytes) := do
  let code := e.f 20 1
  let n := e.f 21 1
  e.shape (decide (24 + n ≤ e.len)) (e.r.hdr.param == 0) [(22, 2)]
  e.dukptHead
  need ((if e.dukptAes? then code == 1 else code == 4 || code == 5) && macLenOk code n) stBadParam
  let bdk ← e.bdk
  need e.ksnOk stBadFormat
  let tag := (macAlg code e.wkAlg (e.working .mac bdk) (e.from_ (24 + n)) n).take n
  pure (if tag = e.b 24 n then 0 else stVerify, [])

/-- `DUKPT_MAC_VERIFY` (R113, R117). -/
def execDukptMacVerify (t : Nat) (w : Twin) (q : Nat) (s : State) : Host.Outcome State Fault Refusal :=
  vendor t 0x0602 w q runDukptMacVerify s

/-- `DUKPT_DATA_DECRYPT`. -/
def runDukptDataDecrypt (e : VEnv) : VM (Nat × Bytes) := do
  let mode := e.f 20 1
  let pad := e.f 21 1
  e.shape (decide (40 ≤ e.len)) (e.r.hdr.param == 0) [(22, 2)]
  need ((mode != 1 || allZero (e.b 24 16)) && (e.dukptAes? || allZero (e.b 32 8))) stReserved
  e.dukptHead
  need ((mode == 1 || mode == 2) && decide (pad ≤ 1)) stBadParam
  let bdk ← e.bdk
  need e.ksnOk stBadFormat
  dataOut mode pad e.wkAlg (e.working .data bdk) (e.b 24 16) (e.from_ 40)

/-- `DUKPT_DATA_DECRYPT` (R114, R117). -/
def execDukptDataDecrypt (t : Nat) (w : Twin) (q : Nat) (s : State) : Host.Outcome State Fault Refusal :=
  vendor t 0x0603 w q runDukptDataDecrypt s

/-- `DUKPT_IK_EXPORT`: the block of usage B1, whose KBPK must be as strong as the initial key (R98, R105, R117). -/
def runDukptIkExport (e : VEnv) : VM (Nat × Bytes) := do
  e.shape (e.len == 24) (e.r.hdr.param == 0) []
  e.dukptHead
  let bdk ← e.bdk
  let alg := if e.dukptAes? then bdk.alg else 1
  let kb ← e.key 1 (e.f 20 4) (fun k => (isTdea k.alg || isAes k.alg) && decide (strength alg ≤ strength k.alg))
  need (e.ksnCtr == 0) stBadFormat
  let ik := if e.dukptAes? then aesIk alg bdk.material (e.b 8 8) else tdeaIk bdk.material (e.b 8 10)
  let kcv := kcvOf alg 0 ik
  let row : FormRow := { usage := ascii "B1", alg := if e.dukptAes? then 0x41 else 0x54, mode := 0x58, mask := 0 }
  let out ← e.kbSeal kb row 0x45 ([kcvOpt "KP" kb.alg kb.kcv, kcvOpt "KC" alg kcv] ++
    (if e.dukptAes? then [optBlock "IK" (hexOf (e.b 8 8))] else [])) ik
  pure (0, out)

/-- `DUKPT_IK_EXPORT` (R117). -/
def execDukptIkExport (t : Nat) (w : Twin) (q : Nat) (s : State) : Host.Outcome State Fault Refusal :=
  vendor t 0x0604 w q runDukptIkExport s

/-- `ECDH_DERIVE`: extraction by HMAC-SHA-384 keyed by the salt, expansion by the KDF of R116 (R120). -/
def runEcdhDerive (e : VEnv) : VM (Nat × Bytes) := do
  let pl := e.f 20 2
  let il := e.f 22 2
  e.shape (e.len == 56 + pl + il && (pl == 65 || pl == 97) && decide (il ≤ 256)) (e.r.hdr.param == 0) [(7, 1)]
  let a ← symAttr (e.f 8 4) (e.f 4 1) (e.f 6 1) (e.f 5 1) (e.f 12 8) 0x1000
  let k ← e.key 0 (e.f 0 4) (fun k => isEcc k.alg && handleClass (e.f 0 4) == 2)
  need (pl == if k.alg = 0x20 then 65 else 97) stBadParam
  match ecDec (curveOf k.alg) (e.b 56 pl) with
  | none => vfail stBadFormat
  | some p => do
    let c := curveOf k.alg
    let z := ecdhZ k.alg (beNat (k.material.take c.len)) p
    let salt := if allZero (e.b 24 32) then zeros 48 else e.b 24 32
    let m := kdf108 7 9 (hmac shaP384 salt z) [] (e.b (56 + pl) il) (symLen a.alg)
    let h ← e.newKey a 0 m id
    pure (0, handleKcv h a.alg m)

/-- `ECDH_DERIVE` (R120). -/
def execEcdhDerive (t : Nat) (w : Twin) (q : Nat) (s : State) : Host.Outcome State Fault Refusal :=
  vendor t 0x0702 w q runEcdhDerive s

end Sys2Proof.Machine
end

