-- ==== Sys2Proof/Machine/Cards.lean ====
section
/-! DEFINITION. The officer card ports, card approvals and component entry (R166 to R173). -/

namespace Sys2Proof.Machine

/-- A command APDU of Table 7-5: CLA, INS, P1, P2, then the length and the data where data is sent (assumption 50). -/
def apdu (head data : Bytes) : Bytes := head ++ (if data.isEmpty then [] else byte data.length :: data)

/-- SELECT. -/
def apduSelect : Bytes := apdu [0x00, 0xA4, 0x04, 0x00] [0xF0, 0x56, 0x4F, 0x4D, 0x50, 0x58, 0x39, 0x4F, 0x46]

/-- GET IDENTITY. -/
def apduIdentity : Bytes := apdu [0x80, 0x10, 0x00, 0x00] []

/-- SIGN CHALLENGE. -/
def apduSign (challenge : Bytes) : Bytes := apdu [0x80, 0x12, 0x00, 0x00] challenge

/-- GET COMPONENT, with P1 the component's number and the module's ephemeral point as data. -/
def apduComponent (n : Nat) (point : Bytes) : Bytes := apdu [0x80, 0x14, byte n, 0x00] point

/-- A dialogue at its end: the card is deactivated and both twins form their end records (R166, R167). -/
def State.endDialogue (s : State) (p q : Nat) (f : TwinSt → EndRec) : State :=
  let s := s.updPort p (fun x => { x with dlg := none, active := false })
  let one := fun (s : State) (w : Twin) => if s.executes w then s.finish w q (f (s.twin w)) else s
  one (one s .a) .b

/-- A dialogue that fails: the status enters the replay table where R75 says so. A twin that the entry has not reached yet ends
the command alike (R167, R329). -/
def State.failDialogue (s : State) (p q status : Nat) : State :=
  { s with rreqs := Tbl.upd s.rreqs q (fun rr => { rr with dlgEnd := some status }) }.endDialogue p q (fun _ => { status := status, commits := commitsAt status })

/-- Whether every twin that the request was broadcast to has begun it, so that all take the card's response (R166). -/
def State.dlgReady (s : State) (q : Nat) : Bool :=
  let sent := fun (w : Twin) => (Tbl.find? s.rreqs q).any (fun rr => match w with | .a => rr.toA | .b => rr.toB)
  [Twin.a, Twin.b].all (fun w => !(s.executes w && sent w) ||
    (Tbl.find? (s.twin w).reqs q).any (fun r => r.begun || r.fin.isSome))

/-- What a request asks of the officer whose card is in the port: scope, class and compartment (R169, R172). -/
def Req.asks (r : Req) : Nat × Nat × Nat :=
  let p := r.payload
  if r.hdr.opcode = 0x0144 then (1, 5, fld p 2 2)
  else if fld p 1 1 = 1 then (0, 0, 0) else (fld p 2 1, fld p 3 1, fld p 4 2)

/-- The officer with a card serial in a list (R169). -/
def serialOf (l : Tbl Officer) (serial : Bytes) : Option (Nat × Officer) :=
  List.find? (fun (a : Nat × Officer) => a.2.serial == serial) l

/-- The result of a `CARD_EXCHANGE` (Table 7-7). -/
def exchangeResult (id : Nat) (o : Option (Nat × Officer)) (serial : Bytes) : Bytes :=
  toLe 4 id ++ (match o with | some (i, o) => [byte i, byte o.role] | none => [0xFF, 0xFF]) ++ [0, 0] ++ serial

/-- A response APDU's data where the status word is 90 00 (R168). -/
def apduData (resp : Bytes) : Option Bytes :=
  if resp.drop (resp.length - 2) = [0x90, 0x00] then some (resp.take (resp.length - 2)) else none

/-- GET IDENTITY's response: the serial, the key's algorithm and the key, of the length its algorithm gives (R168). -/
def identityOf (d : Bytes) : Option (Bytes × Nat × Bytes) :=
  let alg := fld d 16 1
  if (alg = 0x21 ∨ alg = 0x30) ∧ d.length = 17 + officerKeyLen alg then some (d.take 16, alg, d.drop 17) else none

/-- The dialogue after GET IDENTITY (R169, R170, R172): IDENTIFY ends; the other purposes check the officer and go on to
SIGN CHALLENGE. -/
def State.identified (s : State) (p : Nat) (d : CardDlg) (r : Req) (st : Store) (serial : Bytes) (alg : Nat) (pub : Bytes) :
    State :=
  let (scope, cls, c) := r.asks
  let o := serialOf (st.officers scope c) serial
  if cls = 0 ∧ r.hdr.opcode = 0x0143 ∧ fld r.payload 1 1 = 1 then
    (s.updPort p (fun x => { x with ident := some serial })).endDialogue p d.q
      (fun x => done (exchangeResult 0 (serialOf (x.store.officers 0 0) serial) serial) [] [])
  else match o with
    | none => s.failDialogue p d.q stApproval
    | some (_, o) =>
      if o.alg ≠ alg ∨ o.pub ≠ pub then s.failDialogue p d.q stApproval
      else if ¬ roleCounts o.role cls then s.failDialogue p d.q stRole
      else if r.hdr.opcode = 0x0144 ∧ 1 < fld r.payload 6 1 ∧ (st.comp c).cset.any (fun k => k.custodians.contains serial) then
        s.failDialogue p d.q stRole
      else s.sendApdu p { d with stage := .sign, serial := serial, alg := alg, pub := pub } (apduSign d.challenge)

/-- A card approval (R163, R170): it stands for 300 s from its creation. -/
def State.approve (s : State) (p : Nat) (d : CardDlg) (r : Req) : State :=
  let (scope, cls, c) := r.asks
  s.endDialogue p d.q (fun x =>
    let st := x.store
    match serialOf (st.officers scope c) d.serial with
    | none => { status := stApproval, commits := commitsAt stApproval }
    | some (i, o) =>
      if 64 ≤ st.pool d.q then { status := stBusy }
      else
        let a : Approval := { scope := scope, comp := c, cls := cls, officer := i, digest := slice r.payload 8 48,
                              expiry := s.now + 1200000000000 - 1, port := some p }
        done (exchangeResult st.nextApp (some (i, o)) d.serial) [.approvalAdd st.nextApp a none] [])

/-- The transfer key of a component (R172, R120): the two-step derivation of Z with a zero salt and the challenge as info,
64 bytes for AES-SIV (assumption 51). -/
def transferKey (eph : Nat) (point : Nat × Nat) (challenge : Bytes) : Bytes :=
  kdf108 7 9 (hmac shaP384 (zeros 48) (ecdhZ 0x21 eph point)) [] challenge 64

/-- A component set in progress: it is discarded when 600 s have passed since its last component before the next is accepted
(R173, assumption 199). -/
def Comp.setAt (k : Comp) (now : Nat) : Option CompSet :=
  k.cset.filter (fun s => decide (now < s.last + 2400000000000))

/-- The set that a component joins (R173): number 1 opens one, and a later number continues the set in progress. -/
def Comp.setFor (k : Comp) (now alg count number : Nat) : Option CompSet :=
  if number = 1 then some { alg := alg, count := count, acc := zeros (symLen alg) }
  else (k.setAt now).filter (fun s => s.nextNum == number && s.alg == alg && s.count == count)

/-- The end record of a component that was opened (R171, R173): its check value, and with the last one the transport key. A
set that was discarded during the dialogue takes no component. -/
def Store.enterComponent (st : Store) (q : Nat) (r : Req) (serial : Bytes) (now : Nat) (m : Bytes) : EndRec :=
  let p := r.payload
  let c := fld p 2 2
  let alg := fld p 4 1
  let count := fld p 5 1
  let number := fld p 6 1
  match (st.comp c).setFor q alg count number with
  | none => { status := stBadParam, commits := commitsAt stBadParam }
  | some old =>
    let acc := xorB old.acc m
    if number < count then
      let new : CompSet := { old with nextNum := number + 1, acc := acc, custodians := old.custodians ++ [serial], last := now }
      done (kcvOf alg 0 m ++ zeros 5) [.csetPut c (some new)] []
    else
      let key : KeyRec := { alg := alg, usage := 0x180, kcv := kcvOf alg 0 acc, material := acc, gen := (st.comp c).gen,
                             born := q }
      done (kcvOf alg 0 m ++ kcvOf alg 0 acc) [.csetPut c none, .transportPut c key] []

/-- GET COMPONENT's response (R168, R172): the card's point, and the component opened under the transfer key. -/
def componentOf (d : CardDlg) (alg : Nat) (b : Bytes) : Option Bytes :=
  if ¬ [129, 137, 145].contains b.length then none
  else match ecDec p384 (b.take 97) with
    | none => none
    | some pt =>
      match sivOpenB (transferKey d.eph pt d.challenge) [d.challenge] (b.drop 97) with
      | some m => if m.length = symLen alg then some m else none
      | none => none

/-- A response APDU in a dialogue (R168 to R173). -/
def State.cardResponse (s : State) (p : Nat) (d : CardDlg) (r : Req) (st : Store) (resp : Bytes) : State :=
  match apduData resp with
  | none => s.failDialogue p d.q stApproval
  | some b =>
    match d.stage with
    | .select =>
      if b ≠ [] then s.failDialogue p d.q stApproval
      else s.sendApdu p { d with stage := .identity } apduIdentity
    | .identity =>
      match identityOf b with
      | some (serial, alg, pub) => s.identified p d r st serial alg pub
      | none => s.failDialogue p d.q stApproval
    | .sign =>
      let o : Officer := { alg := d.alg, pub := d.pub }
      if ¬ o.signed d.challenge b then s.failDialogue p d.q stApproval
      else if r.hdr.opcode = 0x0143 then s.approve p d r
      else s.sendApdu p { d with stage := .component } (apduComponent (fld r.payload 6 1) (ecEnc p384 (ecMul p384 d.eph (ecG p384))))
    | .component =>
      match componentOf d (fld r.payload 4 1) b with
      | none => s.failDialogue p d.q stApproval
      | some m => s.endDialogue p d.q (fun x =>
          match serialOf (x.store.officers 1 (fld r.payload 2 2)) d.serial with
          | some _ => x.store.enterComponent d.q r d.serial s.now m
          | none => { status := stApproval, commits := commitsAt stApproval })

/-- A whole response APDU goes to both twins; it waits where one of them has not begun the command (R166). -/
def State.cardDeliver (s : State) (p : Nat) (d : CardDlg) (resp : Bytes) : State :=
  match s.active with
  | none => s
  | some w =>
    match Tbl.find? (s.twin w).reqs d.q with
    | none => s
    | some r =>
      if s.dlgReady d.q then s.cardResponse p d r (s.twin w).store resp
      else s.updPort p (fun x => { x with dlg := some { d with held := some resp } })

/-- What a port does after a transmission or a timer: the line goes on, a response is delivered, or the card is deactivated. -/
def State.cardNext (s : State) (p q : Nat) : CardNext → State
  | .goes s => s
  | .ends status => s.failDialogue p q status
  | .whole s resp =>
    match (s.port p).dlg, resp with
    | some d, some b => s.cardDeliver p d b
    | some d, none => s.sendApdu p d apduSelect
    | none, _ => s

/-- `CARD_APDU_RESPONSE` (R166 to R173): what the card sends on its line, an answer to reset, a PPS answer or a block
(assumption 52). -/
def execCardApduResponse (t port : Nat) (resp : Bytes) (s : State) : Host.Outcome State Fault Refusal :=
  ev t (fun s => match (s.port port).dlg with
    | some d => onlyIf ((s.port port).pres && decide (port < 2)) (fun s => s.cardNext port d.q (s.cardLine port d resp)) s
    | none => s) s

/-- `CARD_TIMEOUT` (R166): a timer of the dialogue expires. -/
def execCardTimeout (t port : Nat) (s : State) : Host.Outcome State Fault Refusal :=
  ev t (fun s => match (s.port port).dlg with
    | some d => onlyIf (decide (port < 2)) (fun s => s.cardNext port d.q (s.cardTimer port d)) s
    | none => s) s

/-- Whether a port serves another request (R167). -/
def Port.serves (p : Port) (q : Nat) : Bool := p.dlg.any (fun d => d.q != q)

/-- The card pads must be up before a command's dialogue begins: held pads, or their island not yet in Run, are woken by the
command first, which is a wake event (R420). -/
def VEnv.cardPads (e : VEnv) : VM Unit := do
  let s ← vstate
  let first := (Tbl.find? s.rreqs e.q).any (fun rr => rr.given.isNone)
  if first ∧ (s.power.padHold.isSome ∨ ¬ s.awake 422) then vhalt (fun s => s.wakeDom 422) else pure ()

/-- A dialogue begun for a request in one twin: the first twin's run has the Relay decide whether the port is free, and
activates the card; the other twin finds what was decided, and takes a response that waits for it (R166, R167). -/
def VEnv.dialogue (e : VEnv) (p : Nat) (d : CardDlg) : VM EndRec := do
  let s ← vstate
  let first := (Tbl.find? s.rreqs e.q).any (fun rr => rr.given.isNone)
  let g ← e.given (fun s => [byte (b2n ((s.port p).serves e.q))])
  need (fld g 0 1 == 0) stBusy
  match (Tbl.find? s.rreqs e.q).bind (fun rr => rr.dlgEnd) with
  | some st => vfail st
  | none => vhalt (fun s =>
    let s := s.updTwin e.w (fun x => x.updReq e.q (fun r => { r with begun := true }))
    if first then
      (s.updPort p (fun x => { x with active := true, dlg := some { d with q := e.q, start := s.now } })).wakeDom 422
    else match (s.port p).dlg with
      | some d => match d.held with
        | some b => if d.q = e.q then s.cardDeliver p d b else s
        | none => s
      | none => s)

/-- The challenge of R169, from its replicated bytes and the point that component entry adds. -/
def challengeOf (pcycle q : Nat) (rnd : Bytes) (scope cls c : Nat) (action point : Bytes) : Bytes :=
  sha384 ([0x50, 0x58, 0x39, 0x41] ++ serialBytes ++ toLe 4 pcycle ++ toLe 8 q ++ rnd ++ [byte scope, byte cls] ++
    toLe 2 c ++ action ++ point)

/-- `CARD_EXCHANGE`. -/
def runCardExchange (e : VEnv) : VM EndRec := do
  let port := e.f 0 1
  let purpose := e.f 1 1
  let scope := e.f 2 1
  let cls := e.f 3 1
  let c := e.f 4 2
  e.admShape false (e.len == 56 && e.r.hdr.param == 0) [(6, 2)]
  need (decide (port < 2) && (purpose == 1 || purpose == 2)) stBadParam
  need (if purpose = 1 then allZero (e.b 2 54)
    else decide (scope < 2) && decide (c < 1024) && (scope == 1 || c == 0)) stBadParam
  e.cardPads
  if purpose = 1 then e.dialogue port {}
  else do
    let rnd ← e.draw 32
    let s ← vstate
    e.dialogue port { challenge := challengeOf s.pcycle e.q rnd scope cls c (e.b 8 48) [] }

/-- `CARD_EXCHANGE` (R166 to R170). -/
def execCardExchange (t : Nat) (w : Twin) (q : Nat) (s : State) : Host.Outcome State Fault Refusal :=
  admin t 0x0143 w q runCardExchange s

/-- `COMPONENT_ENTER`: the checks before the dialogue. -/
def runComponentEnter (e : VEnv) : VM EndRec := do
  let port := e.f 0 1
  let c := e.f 2 2
  let alg := e.f 4 1
  let count := e.f 5 1
  let number := e.f 6 1
  e.admShape true (e.len == 8 && e.r.hdr.param == 0) [(7, 1)]
  let x ← e.x
  let st := x.store
  need (decide (port < 2) && e.f 1 1 == 0 && decide (c < 1024) && decide (1 ≤ alg) && decide (alg ≤ 5) &&
    decide (st.activeSet.quorum 5 ≤ count) && decide (count ≤ 3) && decide (1 ≤ number) && decide (number ≤ count)) stBadParam
  let s ← vstate
  need (!s.lcDenied) stLifecycle
  let k := st.comp c
  need ((k.st == .active || k.st == .suspended) && (k.setFor e.q alg count number).isSome) stBadParam
  e.cardPads
  let rnd ← e.draw 32
  let d ← e.draw 56
  let eph := ecScalar 0x21 d
  let point := ecEnc p384 (ecMul p384 eph (ecG p384))
  e.dialogue port { challenge := challengeOf s.pcycle e.q rnd 1 5 c e.action point, eph := eph }

/-- `COMPONENT_ENTER` (R171 to R173). -/
def execComponentEnter (t : Nat) (w : Twin) (q : Nat) (s : State) : Host.Outcome State Fault Refusal :=
  admin t 0x0144 w q runComponentEnter s

/-- `CARD_INSERTED` (R167). -/
def execCardInserted (t port : Nat) (s : State) : Host.Outcome State Fault Refusal :=
  ev t (fun s => onlyIf (decide (port < 2) && !(s.port port).pres) (fun s =>
    let s := (s.updPort port (fun x => { x with pres := true, ident := none })).wakeDom 422
    onlyIf s.boot.up (fun s => s.event 0x4010 sevEvid 3 [byte port]) s) s) s

/-- `CARD_REMOVED` (R163, R167): approvals of the card are withdrawn, and the command that it served ends `CARD_TIMEOUT`. -/
def execCardRemoved (t port : Nat) (s : State) : Host.Outcome State Fault Refusal :=
  ev t (fun s => onlyIf (decide (port < 2) && (s.port port).pres) (fun s =>
    let held := (match s.active with | some w => (s.twin w).store | none => s.twinA.store).approvals
    let n := held.countP (fun a => a.2.port == some port)
    let dlg := (s.port port).dlg
    let s := (s.setPort port { (s.port port) with pres := false, active := false, ident := none }).withdrawApprovals
      (fun a => a.port == some port)
    let s := s.wakeDom 422
    let s := onlyIf s.boot.up (fun s => s.event 0x4011 sevEvid 3 [byte port, byte n, byte (b2n dlg.isSome)]) s
    match dlg with
    | some d => s.failDialogue port d.q stCardTimeout
    | none => s) s) s

/-- `COMPONENT_SET_EXPIRY` (R173): no further component within 600 s, and none accepted in time still in service. -/
def execComponentSetExpiry (t c : Nat) (s : State) : Host.Outcome State Fault Refusal :=
  ev t (fun s => s.updStores (fun st =>
    if (st.comp c).cset.any (fun k => decide (k.last + 2400000000000 ≤ s.now) &&
        !s.adminSince (k.last + 2399999999999)) then
      st.updComp c (fun x => { x with cset := none })
    else st)) s

end Sys2Proof.Machine
end

