-- ==== Sys2Proof/Machine/Swap.lean ====
section
/-! DEFINITION. The moment at which a committed configuration swap takes effect (R40, R358, R469, R470, R495). -/

namespace Sys2Proof.Machine

/-- The shadow becomes the active set and the former active set the shadow, still validated (R469). -/
def Store.swapSets (st : Store) (e : Nat) : Store :=
  { st with activeB := !st.activeB, oldSets := st.oldSets ++ [(4000 * e, st.activeSet)],
            validated := some st.activeSet.digest, swap := none }

/-- The mailboxes whose function or index a swap changes (R40). -/
def movedMbx (old new_ : CfgSet) : List MboxEnt :=
  old.mboxes.filter (fun m => !new_.mboxes.any (fun n => n.num == m.num && n.fn == m.fn && n.idx == m.idx))

/-- A committed swap takes effect (R469): at its epoch, at a promotion that comes after it (R343, R495), or at a boot
(R470). -/
def State.swapNow (s : State) (stamp : Nat) (byBoot : Bool) : State :=
  match s.nvm.swap with
  | none => s
  | some (e, _) =>
    let old := s.nvm.activeSet
    let s := s.updStores (fun st => st.swapSets e)
    let new_ := s.nvm.activeSet
    let s := { s with tamper := { s.tamper with retained := new_.rd 7 0 512 } }
    let s := if byBoot then s else
      (movedMbx old new_).foldl (fun s m => s.disableMbx m.fn m.idx)
        (s.updBoth (fun x => { x with unbindAt := some e })).loadPinned
    (s.setSticky attnSwapped).note
      { id := 0x2003, sev := sevEvid, origin := 3, stamp := stamp,
        detail := fixLen 16 (toLe 8 e ++ [byte (b2n s.nvm.activeB), byte (b2n byBoot)]) }

/-- Whether the twins have not exchanged the batch of an epoch that both were to close (R331, R495). -/
def State.unexchanged (s : State) (e : Nat) : Bool :=
  s.twinA.exchanges && s.twinB.exchanges && (decide (s.twinA.lastBatch < e) || decide (s.twinB.lastBatch < e))

/-- `CFG_SWAP_EFFECT` (R31, R469, R495): at the discipline pulse of E, with E's exact stamp. Later it takes effect where the
twins could not exchange the batch of E, with the stamp of that moment; between isolation and promotion it waits for the
promotion, and with main power off for the boot. -/
def execCfgSwapEffect (t : Nat) (s : State) : Host.Outcome State Fault Refusal :=
  ev t (fun s =>
    match s.nvm.swap with
    | some (e, _) =>
      if s.boot.up ∧ ¬ (s.active = none ∧ s.sw.switching) ∧ (s.now = 4000 * e ∨ (4000 * e < s.now ∧ s.unexchanged e)) then
        s.swapNow s.now false else s
    | none => s) s

end Sys2Proof.Machine
end

