-- ==== Sys2Proof/Machine/Tamper.lean ====
section
/-! DEFINITION. Tamper monitors, responses with main power on and on backup power, zeroization, and the lifting of LOCK
(R151, R174, R175, R354 to R369). -/

namespace Sys2Proof.Machine

/-- Whether a class has a monitor (Table 15-1). -/
def monitorExists (cls mon : Nat) : Bool :=
  match cls with
  | 1 => decide (mon ≤ 35)
  | 2 => decide (mon ≤ 101) || (decide (128 ≤ mon) && decide (mon ≤ 229))
  | 3 => decide (mon ≤ 7)
  | 4 | 5 => decide (mon ≤ 3)
  | 6 => decide (mon ≤ 9)
  | 7 => decide (mon ≤ 5)
  | 8 => decide (mon ≤ 2)
  | 9 => decide (mon ≤ 16)
  | 0xA | 0xB => mon == 0
  | _ => false

/-- Whether a monitor is sampled on backup power (Table 15-1). -/
def onBackup (cls mon : Nat) : Bool := [1, 3, 4, 5, 0xA, 0xB].contains cls || (cls == 9 && mon == 0)

/-- `ORIGIN` of a monitor's records: its twin, or Nightwatch (Table 15-1, Table 16-1; assumption 54 for the rails and
clocks of a twin). -/
def monitorOrigin (cls mon : Nat) : Nat :=
  match cls with
  | 2 => if mon < 128 then 1 else 2
  | 6 => if mon < 4 then 1 + mon % 2 else 4
  | 7 => if mon = 4 ∨ mon = 5 then mon - 3 else 4
  | 8 => if mon = 1 ∨ mon = 2 then mon else 4
  | 9 => if mon = 0 then 4 else if mon ≤ 8 then 1 else 2
  | _ => 4

/-- The entry of a class in an alarm section (Table 15-4). -/
def classEntry (sec : Bytes) (cls : Nat) : Bytes := slice sec (32 * cls) 32

/-- The active alarm section. -/
def State.alarms (s : State) : Bytes := s.nvm.activeSet.rd 7 0 512

/-- Whether an entry has a monitor sampled (R357). -/
def monitored (e : Bytes) (cls mon : Nat) : Bool := (cls != 4 && cls != 5) || bit (fld e 4 1) mon

/-- Whether a monitor is a Skyglow sensor that has been retired, and is no longer sampled (R447). -/
def State.sensorOut (s : State) (cls mon : Nat) : Bool :=
  let k := if cls = 1 then some mon else if cls = 2 then some (1024 * (1 + mon / 128) + mon % 128) else none
  k.any (fun k => (Tbl.getD s.wear.sensors k ((0, false) : Nat × Bool)).2)

/-- Whether an enclosure input is in its open state (R357, R477): it reads 1 when its switch is open; a normally open input
(`POLARITY` 1) is in its open state when the switch is closed. -/
def encOpen (e : Bytes) (mon reading : Nat) : Bool := bit reading 0 != bit (fld e 5 1) mon

/-- Whether a reading meets a class's condition (Table 15-1): the classes with thresholds compare it, and an enclosure input's
level has the meaning that `POLARITY` gives it. The condition of the other classes is no reading. -/
def readingTrue (e : Bytes) (cls mon reading : Nat) : Option Bool :=
  match cls with
  | 5 => some (encOpen e mon reading)
  | 9 => some (decide (signed16 reading < signed16 (fld e 8 2)) || decide (signed16 (fld e 10 2) < signed16 reading))
  | 0xA | 0xB => some (decide (reading < fld e 8 2))
  | _ => none

/-- The die of a `MERIDIAN` monitor (Table 15-1). -/
def meridianDie (mon : Nat) : Option Twin := match mon with | 1 => some .a | 2 => some .b | _ => none

/-- Whether an island has raised the clock alarm of R26 in the last sample period: the last pulse found its counter more than 4
units off. -/
def State.clockAlarm (s : State) (isl : Nat) : Bool :=
  (match islandTwin isl with
   | some w => Tbl.find? (s.twin w).offs (isl % 206)
   | none => Tbl.find? s.offs isl).any (fun (o : Int × Nat × Nat) =>
     decide (4 < o.1.natAbs) && decide (s.now < o.2.1 + 4000))

/-- Whether a monitor's condition is true by the reading of its sample; for `MERIDIAN` the reading is the island that raised the
alarm (Tables 15-1, 15-6). A condition that is no reading is the sender's. -/
def State.condition (s : State) (e : Bytes) (cls mon reading : Nat) : Option Bool :=
  if cls = 8 then some (s.clockAlarm reading && islandTwin reading == meridianDie mon) else readingTrue e cls mon reading

/-- `TREADING` of Table 15-6. -/
def treading (cls mon reading : Nat) : Nat :=
  match cls with
  | 9 | 0xA | 0xB | 8 => reading
  | 7 => if 3 ≤ mon then reading else 0
  | _ => 0

/-- The response of a class in the life-cycle state, and `TRESP` bit 7 (R359, R365). -/
def State.responseOf (s : State) (e : Bytes) (backup : Bool) : Nat × Bool :=
  let r := fld e 0 1 % 4
  if s.lc = .analysis ∨ s.lc = .scrapped then (0, r != 0)
  else if backup ∧ r = 2 then (3, true) else (r, false)

/-- The detail of a qualification (Table 15-6). -/
def tamperDetail (r : Nat × Bool) (cls mon filter reading window : Nat) : Bytes :=
  [byte (r.1 + 128 * b2n r.2), byte cls] ++ toLe 2 mon ++ toLe 2 filter ++ toLe 2 (treading cls mon reading) ++ toLe 4 filter ++
  toLe 4 window

/-- The detail of a response record: the response and up to seven targets (R369). -/
def responseDetail (r : Nat) (targets : List Nat) : Bytes :=
  fixLen 16 ([byte r, 0] ++ ((targets.take 7).flatMap (toLe 2)) ++ List.replicate 14 0xFF)

/-- The target compartments of an entry (Table 15-4). -/
def targetsOf (e : Bytes) : List Nat :=
  ((List.range 8).map (fun i => fld e (16 + 2 * i) 2)).filter (fun c => c != 0xFFFF)

/-- The union of two lists of targets; 0xFFFE stands for every created compartment (R360). -/
def targetUnion (a b : List Nat) : List Nat :=
  if a.contains 0xFFFE ∨ b.contains 0xFFFE then [0xFFFE]
  else (List.range 1024).filter (fun c => a.contains c || b.contains c)

/-- Two responses together: the strongest, and the union of their targets (R360). -/
def joinResponse (a : Option (Nat × List Nat)) (r : Nat) (targets : List Nat) : Nat × List Nat :=
  match a with
  | some (q, l) => (max q r, targetUnion l targets)
  | none => (r, targets)

/-- The key of a monitor. -/
def monKey (cls mon : Nat) : Nat := 256 * cls + mon

/-- A monitor changed. -/
def State.setMonitor (s : State) (cls mon : Nat) (m : Monitor) : State :=
  { s with tamper := { s.tamper with monitors := Tbl.put s.tamper.monitors (monKey cls mon) m } }

/-- Whether the monitors are sampled at the periods of main power (R364). -/
def State.mainSampling (s : State) : Bool := s.boot.mainOn && s.boot.up

/-- `ALARM_QUALIFY` (R355, R356, R361, R369): the count of samples `n` reaches the class's filter; the record is made and the
response signalled. -/
def execAlarmQualify (t cls mon n reading : Nat) (s : State) : Host.Outcome State Fault Refusal :=
  ev t (fun s =>
    let e := classEntry s.alarms cls
    let m : Monitor := Tbl.getD s.tamper.monitors (monKey cls mon) {}
    let filter := fld e 2 2
    onlyIf (s.mainSampling && monitorExists cls mon && monitored e cls mon && !s.sensorOut cls mon &&
      s.condition e cls mon reading != some false && !m.asserted &&
      decide (filter ≤ n)) (fun s =>
      let r := s.responseOf e false
      let s := s.setMonitor cls mon { trues := n, falses := 0, asserted := true, resp := r.1 }
      let s := s.event (0x7000 + 256 * cls + mon) sevEvid (monitorOrigin cls mon) (tamperDetail r cls mon filter reading 0)
      { s with tamper := { s.tamper with
        pendResp := some (joinResponse s.tamper.pendResp r.1 (if r.1 = 2 then targetsOf e else [])) } }) s) s

/-- Whether a sample shows a monitor's condition false (R355): for `MERIDIAN` no island of the die has raised the alarm. -/
def State.conditionOff (s : State) (e : Bytes) (cls mon reading : Nat) : Bool :=
  if cls = 8 then (List.range 428).all (fun i => islandTwin i != meridianDie mon || !s.clockAlarm i)
  else readingTrue e cls mon reading != some true

/-- `ALARM_DEASSERT` (R355, R447): the condition has been false for the filter's length. -/
def execAlarmDeassert (t cls mon : Nat) (falses : FalseRun) (s : State) : Host.Outcome State Fault Refusal :=
  ev t (fun s =>
    let m : Monitor := Tbl.getD s.tamper.monitors (monKey cls mon) {}
    let e := classEntry s.alarms cls
    onlyIf (m.asserted && s.mainSampling && monitored e cls mon && !s.sensorOut cls mon &&
      s.conditionOff e cls mon falses.reading && decide (fld e 2 2 ≤ falses.n))
      (fun s => s.setMonitor cls mon { m with asserted := false, trues := 0, falses := falses.n }) s) s

/-- The compartments that a list of targets names and that are ACTIVE or SUSPENDED (R361). -/
def State.liveTargets (s : State) (targets : List Nat) : List Nat :=
  (s.nvm.comps.filter (fun (c : Nat × Comp) =>
    (targets.contains 0xFFFE || targets.contains c.1) && (c.2.st == .active || c.2.st == .suspended))).map Prod.fst

/-- A compartment set ZEROIZING with its journal (R151, R361). -/
def Comp.zeroize (c : Comp) (now : Nat) : Comp := { c with st := .zeroizing, journal := some now, suspendAt := none }

/-- What a compartment loses of its keys (R151, Table 6-7): the master key, the key block key and every key record. -/
def Comp.loseKeys (c : Comp) : Comp := { c with cmk := [], pxk := [], keys := [] }

/-- A compartment in a twin whose record and extension slots are erased: every key, the transport key and the draw registers
(R138, R151). -/
def Comp.loseSlots (c : Comp) : Comp := { c.loseKeys with transport := none, oldTrans := [], draws := [] }

/-- Zeroization of some compartments begun in every store (R151, R361). -/
def State.zeroizeComps (s : State) (l : List Nat) : State :=
  s.updStores (fun st => l.foldl (fun (st : Store) c => st.updComp c (fun x => x.zeroize s.now)) st)

/-- The Module Root Key erased, with every key and component set in both twins (R362, Table 15-5). -/
def State.zeroizeModule (s : State) : State :=
  let s := { s with tamper := { s.tamper with mrk := none, mrkLost := true } }
  s.updStores (fun st => { st with comps := st.comps.map (fun (c : Nat × Comp) =>
    (c.1, { c.2.loseKeys with cset := none, transport := none, oldTrans := [] })) })

/-- The record of a zeroizing response once every target is ZEROIZED (R369, Table 15-5). -/
def State.finishResponse (s : State) : State :=
  match s.tamper.progress with
  | none => s
  | some (r, targets) =>
    if s.nvm.comps.any (fun (c : Nat × Comp) =>
      (targets.contains 0xFFFE || targets.contains c.1) && c.2.st == .zeroizing) then s
    else
      ({ s with tamper := { s.tamper with progress := none } }).event (if r = 3 then 0x7F02 else 0x7F01) sevEvid 3
        (responseDetail r targets)

/-- A zeroizing response at its effect point (R360, R361). -/
def State.beginZeroize (s : State) (r : Nat) (targets : List Nat) : State :=
  let s := s.zeroizeComps (s.liveTargets targets)
  let s := if r = 3 then s.zeroizeModule else s
  let s := { s with tamper := { s.tamper with progress := some (joinResponse s.tamper.progress r targets) } }
  s.finishResponse

/-- `TAMPER_RESPONSE_EFFECT` (R360, R361): the response signalled takes effect in every twin that executes. -/
def execTamperResponseEffect (t : Nat) (s : State) : Host.Outcome State Fault Refusal :=
  ev t (fun s =>
    match s.tamper.pendResp with
    | none => s
    | some (r, targets) =>
      if ¬ s.mainSampling then s
      else
        let s := ({ s with tamper := { s.tamper with pendResp := none } }).setSticky attnTamper
        let s := (((s.wakeTwin .a).wakeTwin .b).wakeZenith .a).wakeZenith .b
        let s := if 1 ≤ r then s.lockNow 1 stTamper 3 else s
        if r = 3 then s.beginZeroize 3 [0xFFFE] else if r = 2 then s.beginZeroize 2 targets else s) s

/-- What a backup window leaves of one monitor: the run of equal samples, whether it is asserted, and the samples at which it
qualified. -/
structure WindowRun where
  run      : Nat
  asserted : Bool
  hits     : List Nat
  deriving DecidableEq, Repr

/-- One sample of a window (R355, R364): a run that opposes the asserted state and reaches the filter turns it. -/
def WindowRun.sample (filter : Nat) (x : WindowRun × Nat) (v : Bool) : WindowRun × Nat :=
  let (w, i) := x
  if v = w.asserted then ({ w with run := 0 }, i + 1)
  else if w.run + 1 < filter then ({ w with run := w.run + 1 }, i + 1)
  else ({ run := 0, asserted := v, hits := if v then w.hits ++ [i] else w.hits }, i + 1)

/-- A record kept by Nightwatch: no stamp, and the count of the power cycle that preceded (R30, R366). -/
def State.retain (s : State) (id : Nat) (detail : Bytes) : State :=
  let r : AlmRec :=
      { id := id, sev := sevEvid, origin := 4, pcycle := s.pcycle, ops := s.opSeconds,
        first := 2 ^ 64 - 1, last := 2 ^ 64 - 1, detail := fixLen 16 detail }
  { s with tamper := s.tamper.keep r }

/-- Whether main power is on, the Relay held in reset or not (R364). -/
def State.powered (s : State) : Bool := s.boot.mainOn || s.boot.railsBack

/-- A monitor's samples in a window: the monitor after it, and its qualifications, each with the sample, the response and the
record's detail (R355). The samples of an enclosure input are its levels (R477). -/
def State.windowMon (s : State) (x : MonSample) : Monitor × List (Nat × Nat × Nat × Bytes) :=
  let e := classEntry s.tamper.retained x.cls
  let m : Monitor := Tbl.getD s.tamper.monitors (monKey x.cls x.mon) {}
  let filter := fld e 1 1
  if ¬ onBackup x.cls x.mon ∨ ¬ monitorExists x.cls x.mon ∨ ¬ monitored e x.cls x.mon ∨ s.sensorOut x.cls x.mon ∨ filter = 0 then (m, [])
  else
    let hits := (x.hits.take 8).map (fun v =>
      if x.cls = 5 then encOpen e x.mon (b2n v) else v && readingTrue e x.cls x.mon x.reading != some false)
    let w := (hits.foldl (WindowRun.sample filter) ({ run := 0, asserted := m.asserted, hits := [] }, 0)).1
    let r := s.responseOf e true
    ({ m with asserted := w.asserted, trues := 0, falses := 0, resp := if w.hits.isEmpty then m.resp else r.1 },
     w.hits.map (fun i => (i, 0x7000 + 256 * x.cls + x.mon, r.1,
       tamperDetail r x.cls x.mon filter x.reading (if s.powered then 0 else s.tamper.windows))))

/-- The response to a window's qualifications (R365). -/
def State.backupResponse (s : State) (r : Nat) : State :=
  let s := if 1 ≤ r ∧ ¬ s.tamper.lock then (s.enterLock 1).retain 0x7F00 (responseDetail 1 []) else s
  if r = 3 then
    ({ s with tamper := { s.tamper with mrk := none } }).retain 0x7F02 (responseDetail 3 [0xFFFE])
  else s

/-- `BACKUP_WINDOW` (R364 to R366): the qualifications of a window in the order of their samples, then the strongest
response. Windows are counted from the loss of main power (Table 15-6); the window says whether the rails are back. -/
def execBackupWindow (t : Nat) (window : Window) (s : State) : Host.Outcome State Fault Refusal :=
  ev t (fun s => onlyIf (!s.mainSampling) (fun s =>
    let s := if s.boot.mainOn then s else { s with boot := { s.boot with railsBack := window.rails } }
    let s := if s.powered then s else { s with tamper := { s.tamper with windows := s.tamper.windows + 1 } }
    let rs := window.samples.map (fun x => (x, s.windowMon x))
    let s1 := rs.foldl (fun s x => if onBackup x.1.cls x.1.mon ∧ monitorExists x.1.cls x.1.mon then
      s.setMonitor x.1.cls x.1.mon x.2.1 else s) s
    let qs := (List.range 8).flatMap (fun i => (rs.flatMap (fun x => x.2.2)).filter (fun q => q.1 == i))
    let s2 := qs.foldl (fun s q => s.retain q.2.1 q.2.2.2) s1
    s2.backupResponse (qs.foldl (fun n q => max n q.2.2.1) 0)) s) s

/-- The cause of a zeroization's records (Table 16-8): a tamper response in progress that names it, or the command. -/
def State.zeroCause (s : State) (c : Nat) : Nat :=
  if s.tamper.progress.any (fun p => p.2.contains 0xFFFE || p.2.contains c) then 2 else 1

/-- The detail of records 0x3002 and 0x3003. -/
def zeroDetail (c cause gen : Nat) : Bytes := toLe 2 c ++ [byte cause, 0] ++ toLe 4 gen

/-- The wrapped Compartment Master Key erased, and the keys of the compartment with it (R151, Table 6-7). -/
def State.eraseCmk (s : State) (c cause : Nat) : State :=
  let k := s.nvm.comp c
  if k.st ≠ .zeroizing ∨ k.wrapped = [] then s
  else
    let s := (s.updStores (fun st => st.updComp c (fun x => { x.loseKeys with wrapped := [] }))).updBoth (fun x =>
      { x with store := x.store.updComp c Comp.loseSlots })
    s.event 0x3002 sevEvid 3 (zeroDetail c cause k.gen)

/-- `CMK_ERASED` (R151). -/
def execCmkErased (t c : Nat) (s : State) : Host.Outcome State Fault Refusal :=
  ev t (fun s => onlyIf s.boot.up (fun s => s.eraseCmk c (s.zeroCause c)) s) s

/-- A compartment's records and what it leaves in a store's tables erased: the CMK generation alone survives (R151,
R152). -/
def Store.clearComp (st : Store) (c : Nat) : Store :=
  { (st.forget c).updComp c (fun x => { st := .zeroized, gen := x.gen }) with
    reserveUsed := st.reserveUsed - (st.comp c).ledger.countP (fun (l : Nat × Ledger) => l.2.reserve) }

/-- Erasure of a compartment's remaining state completes (R151). -/
def State.clearComp (s : State) (c cause : Nat) : State :=
  let k := s.nvm.comp c
  if k.st ≠ .zeroizing ∨ k.wrapped ≠ [] then s
  else
    let s := (s.updStores (fun st => st.clearComp c)).event 0x3003 sevEvid 3 (zeroDetail c cause k.gen)
    s.finishResponse

/-- `COMP_ZEROIZED` (R151). -/
def execCompZeroized (t c : Nat) (s : State) : Host.Outcome State Fault Refusal :=
  ev t (fun s => onlyIf s.boot.up (fun s => s.clearComp c (s.zeroCause c)) s) s

/-- Whether an alarm whose response is LOCK or stronger is asserted (R174). -/
def State.lockAsserted (s : State) : Bool :=
  s.tamper.monitors.any (fun (m : Nat × Monitor) => m.2.asserted && decide (1 ≤ (classEntry s.alarms (m.1 / 256)).headD 0))

/-- The two card approvals that `UNLOCK` needs (R174): one of each port, of different officers. -/
def unlockPair (l : List (Nat × Approval)) : Option ((Nat × Approval) × (Nat × Approval)) :=
  let at_ := fun (p : Nat) => l.filter (fun (a : Nat × Approval) => a.2.port == some p)
  ((at_ 0).flatMap (fun a => (at_ 1).map (fun b => (a, b)))).find? (fun x => x.1.2.officer != x.2.2.officer)

/-- `UNLOCK`. -/
def runUnlock (e : VEnv) : VM EndRec := do
  e.admShape true (e.len == 0 && e.r.hdr.param == 0) []
  let g ← e.given (fun s => [byte (b2n (s.lockAsserted || s.alm.full)), byte (b2n (s.port0.pres && s.port1.pres)),
    byte (b2n s.tamper.mrkLost)])
  need (fld g 0 1 == 0) stLocked
  let x ← e.x
  let now ← vnow
  let l := x.store.approvals.filter (fun (a : Nat × Approval) =>
    a.2.cls == 6 && a.2.digest == e.action && decide (e.q ≤ a.2.expiry) && x.store.counts msoScope a.2)
  need (fld g 1 1 == 1) stQuorum
  match unlockPair l with
  | none => vfail stQuorum
  | some (a, b) => do
    let rnd ← if fld g 2 1 = 1 then e.draw 64 else pure []
    pure (done [] [.unlock rnd, .approvalDel a.1, .approvalDel b.1] [evidence 0x4020 now [byte a.2.officer, byte b.2.officer]])

/-- `UNLOCK` (R174, R175). -/
def execUnlock (t : Nat) (w : Twin) (q : Nat) (s : State) : Host.Outcome State Fault Refusal := admin t 0x0150 w q runUnlock s

end Sys2Proof.Machine
end

