-- ==== Sys2Proof/Machine/Boot.lean ====
section
/-! DEFINITION. Reset, loss of main power, and boot (R9, R22, R23, R126, R128, R151, R363 to R368, R373, R397, R399,
R450 to R459, R469 to R471, R483, R488). -/

namespace Sys2Proof.Machine

/-- A twin after a Relay reset: what the wear table keeps, the repairs, and its departures in operating time (R281, R347, R434). -/
def TwinSt.atReset (x : TwinSt) (w : Twin) : TwinSt :=
  let y := x.idle.untestAll w
  { units := y.units.map (fun (u : Nat × UnitRec) => (u.1, { u.2 with fails := [] }))
    clusters := x.clusters.map (fun (c : Nat × Cluster) =>
      (c.1, { repairs := c.2.repairs, banks := c.2.banks, lost := c.2.lost ++ c.2.held }))
    departs := x.departs }

/-- The draw groups at a reset (R324, R325): those known are written, and the reservations of the requests that the reset ends are
void, with a status that the spec does not state (assumption 203). -/
def State.saveDraws (s : State) : State :=
  if s.alm.draws.all (fun (d : Nat × (Nat × Nat × Option (List EvReq))) => d.2.2.2.isSome) then s.writeDraws
  else
    let v := s.fresh
    (v.2.voidDraws false (fun _ => true) (v.1.toNat % 65536)).writeDraws

/-- What the Almanac's queues leave at a reset (R368, R379, R380; assumption 55): the draw groups are written, tamper records go to
the retained buffer, and every other evidence record is appended; without the storage key nothing is (R397). -/
def State.saveRecords (s : State) : State :=
  let s := if s.life.keyBlown then s else s.saveDraws
  let q := s.alm.ev.queue ++ s.alm.waiting
  let tam := fun (e : EvReq) => e.id / 4096 == 7
  let s := { s with alm := { s.alm with draws := [], dropped := 0, waiting := [], gen := { s.alm.gen with queue := [], lastWr := none }
                                        ev := { s.alm.ev with queue := q.filter (fun e => !tam e && !s.life.keyBlown), lastWr := none } } }
  let s := s.drainEvidence
  (q.filter tam).foldl (fun s e => { s with tamper := s.tamper.keep (s.recOf e) }) s

/-- A response signalled, or in progress, when the Relay is reset (R368): LOCK holds, the erasure of the Module Root Key is
made by Nightwatch, and a ZEROIZE-COMPARTMENT is left to boot. -/
def State.responseAtReset (s : State) : State :=
  let s := match s.tamper.pendResp with
    | none => s
    | some (r, targets) =>
      let was := s.tamper.lock
      let s := if 1 ≤ r then s.enterLock 1 else s
      let s := if 1 ≤ r ∧ ¬ was then s.retain 0x7F00 (responseDetail 1 []) else s
      let s := { s with tamper := { s.tamper with pendResp := none, mrk := if r = 3 then none else s.tamper.mrk } }
      if 2 ≤ r then { s with tamper := { s.tamper with progress := some (joinResponse s.tamper.progress r targets) } } else s
  match s.tamper.progress with
  | some (3, _) => ({ s with tamper := { s.tamper with progress := none } }).retain 0x7F02 (responseDetail 3 [0xFFFE])
  | _ => s

/-- The journal of a transition that a reset interrupts (R396, R397): whether its erasure had ended, with `J_WIPED` blown and
`J_STATE` not, is open (assumption 202). -/
def State.journalAtReset (s : State) : State :=
  match s.life.journal with
  | some (from_, to_, path, false) =>
    let v := s.fresh
    if v.1.getLsbD 0 then
      let s := v.2.eraseFor from_ to_
      { s with life := { s.life with journal := some (from_, to_, path, true) } }
    else v.2
  | _ => s

/-- A card port after a Relay reset. -/
def Port.atReset (p : Port) : Port := { pres := p.pres }

/-- NVM after a Relay reset: the approvals, flows, fences and replay entries are volatile, and what earlier requests still
needed of old versions is no longer needed (R32, R76, R163, R250). -/
def Store.atReset (st : Store) : Store :=
  { st with
    approvals := [], nextApp := 1, remoteSeen := [], withdrawn := [], starts := [], flows := [], discarded := [], admReplay := [], oldSets := []
    comp1 := { st.comp1 with history := [] }, comp2 := { st.comp2 with history := [] }
    images := st.images.map (fun (i : Nat × Component) => (i.1, { i.2 with history := [], switchAt := none })) }

/-- What a Relay reset does (R22, R57, R364, R368, R401, R459): Meridian stands, everything volatile on the Relay and both
twins is gone, and what NVM and Nightwatch hold stays. The retired copies of the Relay's voted functions serve again
(assumption 173). -/
def State.resetRelay (s : State) : State :=
  let failed := s.boot.up && s.boot.trialBoot && !s.boot.ready
  let s := s.saveRecords.responseAtReset.journalAtReset
  let l := s.life
  let d := s.alm
  { s with
    alm := { d with opsBase := s.opSeconds }
    now := 0, stamps := [], offs := [], fns := [], mbxs := [], ptm := {}, win := {}, ingress := [], rreqs := [],
    payStore := []
    twinA := s.twinA.atReset .a, twinB := s.twinB.atReset .b
    active := none, egress := none, sw := {}, tmr := {}, failStop := false, health := {}, sticky := 0, stickyAt := [],
    lastLane := 7, linkUp := true, wear := { s.wear with lanes := [] }
    nvm := s.nvm.atReset
    tamper := { s.tamper with resumeAt := 0, windows := 0 }
    port0 := s.port0.atReset, port1 := s.port1.atReset
    life := { fused := l.fused, journal := l.journal, tokFails := l.tokFails, trimBlown := l.trimBlown, keyBlown := l.keyBlown }
    power := { vnwVaux := s.power.vnwVaux }
    boot := { mainOn := s.boot.mainOn, trialFail := s.boot.trialFail || failed }
    resetN := false }

/-- `RESET_N_ASSERT` (R22, R476, R488): a self-reset in progress then ends with the pin's release. -/
def execResetNAssert (t : Nat) (s : State) : Host.Outcome State Fault Refusal :=
  ev t (fun s => if s.boot.up then s.resetRelay else { s with boot := { s.boot with selfHeld := false } }) s

/-- `MAIN_POWER_LOSS` (R364, R368, R483): the Relay is reset as RESET_N resets it, and backup sampling starts. -/
def execMainPowerLoss (t : Nat) (s : State) : Host.Outcome State Fault Refusal :=
  ev t (fun s => onlyIf s.powered (fun s =>
    let s := s.resetRelay
    { s with boot := { s.boot with mainOn := false, railsBack := false }, tamper := { s.tamper with retained := s.alarms } }) s) s

/-- The power-cycle count advances; it stays at its last value, with a `LIFECYCLE` attention (R23). DESIGN CHOICE: the spec does
not say whether the attention is recorded once or at each restart that finds the count there; the model records it at each
(assumption 195). -/
def State.countCycle (s : State) : State :=
  let s := { s with pcycle := min (s.pcycle + 1) 0xFFFFFFFF }
  if s.pcycle = 0xFFFFFFFF then s.setSticky attnLifecycle else s

/-- The slot that boot tries first: a trial slot when one is marked, else the slot in force (R452, R458). -/
def Component.bootSlot (c : Component) : Nat := c.trial.getD (c.inForce.getD 0)

/-- The slot that boots: the one tried first or else the other one; none when neither verifies (R452). -/
def Store.verified (st : Store) (lc : LcState) (comp : Nat) : Option Nat :=
  let i := (st.component comp 0).bootSlot
  if st.fwStatus lc comp i = 0 then some i else if st.fwStatus lc comp (1 - i) = 0 then some (1 - i) else none

/-- Whether a boot runs a component from its trial slot, and so is a trial boot (R459). -/
def Store.tries (st : Store) (lc : LcState) (comp : Nat) : Bool :=
  (st.component comp 0).trial.any (fun i => st.verified lc comp == some i)

/-- The state whose firmware roots boot accepts: ANALYSIS, which has none of its own and still runs, takes those of
PRODUCTION (Table 17-1; assumption 56). -/
def firmwareLc (lc : LcState) : LcState := if lc = LcState.analysis then LcState.production else lc

/-- A trial that failed (R459): the mark and the pending state go. -/
def Component.dropTrial (c : Component) : Component :=
  match c.trial with
  | some i => { c.setSlot i { (c.slot i) with st := .unverified } with trial := none }
  | none => c

/-- The boot after a failed trial returns to the previous slot (R459). -/
def State.endTrial (s : State) (comp : Nat) : State :=
  match (s.nvm.component comp 0).trial with
  | some i =>
    ({ s with nvm := s.nvm.setComponent comp 0 (s.nvm.component comp 0).dropTrial }).event 0x2013 sevEvid 3
      [byte comp, byte i]
  | none => s

/-- The record of a boot from the other slot (R452). -/
def State.noteFallback (s : State) (comp i origin : Nat) : State :=
  if i = (s.nvm.component comp 0).bootSlot then s else s.event 0x1005 sevEvid origin [byte comp, byte i]

/-- The detail of a firmware measurement (Table 20-9). -/
def fwDetail (comp i : Nat) (x : Slot) : Bytes := [byte comp, byte i, 0, 0] ++ toLe 4 (x.version true) ++ x.measure.take 8

/-- The retained buffer appended to the evidence region, entry by entry, and cleared (R367). -/
def State.appendRetained (s : State) : State :=
  let b := s.tamper.buffer
  let n := s.tamper.overflow
  let s := { s with tamper := { s.tamper with buffer := [], overflow := 0 } }
  let s := b.foldl (fun s r => s.appendEv r false) s
  let s := if n = 0 then s else (s.stamped 418).appendEv (s.recOf
    { id := 0x7F11, sev := sevEvid, origin := 4, stamp := s.stampOf 418, detail := fixLen 16 (toLe 4 n) }) false
  if b.isEmpty ∧ n = 0 then s else s.setSticky attnTamper

/-- Boot ROM of the Relay (R452): the slot that verifies runs and is measured (R451); with none the Relay stays in ROM. -/
def State.relayRom (s : State) : State :=
  match s.nvm.verified (firmwareLc s.lc) 1 with
  | none => { s with boot := { s.boot with inRom := true } }
  | some i =>
    let s := (s.noteFallback 1 i 3).event 0x1001 sevEvid 3 (fwDetail 1 i (s.nvm.comp1.slot i))
    { s with boot := { s.boot with relaySlot := i } }

/-- A pending swap at boot: completed, or cancelled where the module boots into LOCK (R470). -/
def State.swapAtBoot (s : State) : State := if s.tamper.lock then s.cancelSwap else s.swapNow s.now true

/-- The count of operating seconds as the Relay leaves reset (R373): at power-up it resumes at the recorded value plus 64, and that
is recorded; the seconds that the Relay was held in reset with main power on count too, though no stamp of the module tells how
many there were (assumption 136). -/
def State.resumeSeconds (s : State) : State :=
  let v := s.fresh
  let base := (if s.boot.mainOn then s.alm.opsBase else s.alm.opsNvm + 64) + v.1.toNat % 2 ^ 40
  { v.2 with alm := { v.2.alm with opsBase := base, opsNvm := if s.boot.mainOn then s.alm.opsNvm else base } }

/-- The end of the erasure of a transition that boot ROM completes, when it makes one (R397, R450): within 3 s, or 8 s for
SCRAPPED (assumption 201). -/
def State.erasureEnd (s : State) : Nat × State :=
  match s.life.journal with
  | some (_, to_, _, false) =>
    let v := s.fresh
    (if to_ = .test then 0 else v.1.toNat % ((if to_ = .scrapped then 32000000000 else 12000000000) + 1), v.2)
  | _ => (0, s)

/-- What the Relay's firmware does first (R367, R375, R450): a pending merge is written, and the retained buffer appended. -/
def State.startAlmanac (s : State) : State :=
  if ¬ s.almRuns then s
  else
    let wr := fun (g : AlmReg) => if g.pend then { g with pend := false, lastWr := some s.now } else g
    ({ s with alm := { s.alm with ev := wr s.alm.ev, gen := wr s.alm.gen } }).appendRetained.drainEvidence

/-- The Relay leaves reset (R450): the power-cycle count, the journal and a pending swap, the end of a failed trial, the
Relay's firmware and what it does to the Almanac, and physical function 0 with the MSI-X table size of the active set (R46). -/
def State.leaveReset (recovery : Bool) (s : State) : State :=
  let s := s.resumeSeconds
  let (from_, s) := s.erasureEnd
  let s := { s with
    resetN := true
    boot := { up := true, mainOn := true, trialFail := s.boot.trialFail, from_ := from_, released := from_ + 100000000 }
    life := { s.life with tokFails := 0, recovery := recovery && s.lc == LcState.production } }
  let s := (s.countCycle.completeTransition true).swapAtBoot
  let s := if s.boot.trialFail then (s.endTrial 1).endTrial 2 else s
  let s := { s with boot := { s.boot with
    trialFail := false, trialBoot := s.nvm.tries (firmwareLc s.lc) 1 || s.nvm.tries (firmwareLc s.lc) 2 } }
  let s := if s.lc = .scrapped then s else s.relayRom.startAlmanac
  (s.updFn 0 (fun f => { f with vecSize := s.vectors 0 })).enterMod .active

/-- `RESET_N_RELEASE` (R22, R23, R367, R373, R394, R397, R399, R450, R459, R470). -/
def execResetNRelease (t : Nat) (recovery : Bool) (s : State) : Host.Outcome State Fault Refusal :=
  ev t (onlyIf (!s.resetN && !s.boot.selfHeld) (State.leaveReset recovery)) s

/-- A module that boots: the Relay firmware runs, and `READY` is still 0. -/
def State.booting (s : State) : Bool :=
  s.boot.up && !s.boot.inRom && !s.boot.ready && !s.failStop && s.lc != .scrapped

/-- A twin whose boot failed (R453): DEGRADED with cause 0x0C; with both, the module fails stop. -/
def State.bootFailed (s : State) (w : Twin) : State :=
  if (s.twin w).role ≠ .booting then s
  else
    let s := s.degrade w 0x0C (twinBase w + 198)
    if (s.twin (otherTwin w)).role = .booting then s else s.doFailStop 0x0C

/-- `TWIN_BOOT_TIMEOUT` (R453): 400 ms after the release of the twins, which comes 25 ms after the Relay leaves reset or its
erasure ends (Table 20-1; assumption 201). -/
def execTwinBootTimeout (t : Nat) (w : Twin) (s : State) : Host.Outcome State Fault Refusal :=
  ev t (fun s => onlyIf (s.booting && decide (s.boot.released + 1600000000 ≤ s.now)) (fun s => s.bootFailed w) s) s

/-- `TRIAL_BOOT_TIMEOUT` (R459): a trial boot that has not reached `READY` within 2 s fails. -/
def execTrialBootTimeout (t : Nat) (s : State) : Host.Outcome State Fault Refusal :=
  ev t (fun s => onlyIf (s.boot.up && s.boot.trialBoot && !s.boot.ready && decide (s.boot.from_ + 8000000000 ≤ s.now))
    (fun s => { s with boot := { s.boot with trialFail := true } }) s) s

/-- A transport key as boot loads it from the register, with its ledger entry (R139, R142, R144). -/
def KeyRec.withLedger (k : KeyRec) (l : Option Ledger) : KeyRec :=
  let g := l.getD {}
  { k with exhausted := k.exhausted || g.exhausted, useCount := max k.useCount g.useMark, nonce := max k.nonce g.nonceMark }

/-- The Compartment Master Key unwrapped under the Module Root Key (R126); nothing where it does not authenticate. -/
def Comp.unwrap (k : Comp) (mrk : Option Bytes) (c : Nat) : Bytes :=
  if k.wrapped.isEmpty then []
  else (mrk.bind (fun m => sivOpenB m [serialBytes ++ toLe 2 c ++ toLe 4 k.gen] k.wrapped)).getD []

/-- A compartment as a twin holds it after boot (R126, R127, R137, R139, R144): its register, with the Compartment Master Key
unwrapped, the PX key block key derived, and the handle counter at the next multiple of 4,096; in a recovery boot without its
master key and transport key (R399). -/
def Comp.atBoot (recovery : Bool) (mrk : Option Bytes) (c : Nat) (k : Comp) : Comp :=
  let cmk := if recovery then [] else k.unwrap mrk c
  { k with
    handleCtr := k.handleRec / 4096 * 4096 + 4096, keys := [], oldTrans := [], replay := [], cset := none, suspendAt := none
    fresh := false, revs := []
    cmk := cmk
    pxk := if cmk.isEmpty then [] else pxKeyOf cmk c k.gen
    transport := if recovery then none else k.transport.map (fun t => t.withLedger (Tbl.find? k.ledger 0)) }

/-- A store as a twin holds it after boot: images that failed, and every image in a recovery boot, are not loaded (R399,
R454). -/
def Store.atBoot (st : Store) (recovery : Bool) (mrk : Option Bytes) (bad : List Nat) : Store :=
  { st with
    comps := st.comps.map (fun (c : Nat × Comp) => (c.1, c.2.atBoot recovery mrk c.1))
    images := st.images.map (fun (i : Nat × Component) =>
      (i.1, if recovery ∨ bad.contains i.1 then { i.2 with inForce := none } else i.2)) }

/-- The measurement of an image in force, and the record of one that fails its checks (R451, R454). -/
def State.measureImage (s : State) (i : Nat) : State :=
  let c := s.nvm.component 3 i
  match c.inForce with
  | none => s
  | some k =>
    let s := s.event 0x1003 sevEvid 3 (toLe 4 i ++ toLe 4 ((c.slot k).version false) ++ (c.slot k).measure.take 8)
    let v := s.nvm.imageStatus s.lc i k
    if v = 0 ∨ s.life.recovery then s
    else { s with boot := { s.boot with badImages := s.boot.badImages ++ [i] } }.event 0x1006 sevEvid 3
      (toLe 4 i ++ toLe 2 v)

/-- The Module Root Key at a boot in TEST or PRODUCTION: made anew where there is none (R128, R390). No request stands behind
it from which R320 would derive its 64 bytes of replicated randomness: they are a free value (assumption 200). -/
def State.bootMrk (s : State) : State :=
  if s.life.recovery ∨ s.tamper.mrk.isSome ∨ ¬ (s.lc = .test ∨ s.lc = .production) then s
  else (s.fresh.2.newMrk (toLe 64 s.fresh.1.toNat)).loseComps

/-- Zeroizations that a reset interrupted, finished by boot firmware (R151, R368). -/
def State.bootZeroize (s : State) : State :=
  let s := match s.tamper.progress with
    | some (2, targets) => s.zeroizeComps (s.liveTargets targets)
    | _ => s
  let l := (s.nvm.comps.filter (fun (c : Nat × Comp) => c.2.st == .zeroizing)).map Prod.fst
  (l.foldl (fun s c => (s.eraseCmk c 3).clearComp c 3) s).finishResponse

/-- The store of each twin that has booted, and the image cache's pinned pages. -/
def State.loadTwins (s : State) : State :=
  let st := s.nvm.atBoot s.life.recovery s.tamper.mrk s.boot.badImages
  let pages := if s.life.recovery then [] else st.pinnedList
  s.updBoth (fun x => if x.role = .booting then
    { x with store := st, cache := (List.range 4).flatMap (fun k => pages.map (fun p => (k, p.1, p.2))) } else x)

/-- The roles of R9: Twin A is active when it has booted. -/
def State.assignRoles (s : State) : State :=
  let w := if s.twinA.role = .booting then Twin.a else Twin.b
  let s := s.updTwin w (fun x => { x with role := .active })
  let s := s.updTwin (otherTwin w) (fun x => if x.role = .booting then { x with role := .healthy } else x)
  { s with active := some w, egress := some w }

/-- A trial that succeeds (R459): the floor is raised to the slot's number, and the slot is in force. -/
def Component.passTrial (c : Component) (ran : Nat) : Component :=
  if c.trial = some ran then
    { c.setSlot ran { (c.slot ran) with st := .ready } with
      inForce := some ran, trial := none, svnFloor := max c.svnFloor ((c.slot ran).svn true) }
  else c

/-- The configuration set that boot loads (R469): where the one of the pointer fails its integrity check in NVM, the other set
if that passes and is validated, else the default set (assumption 140). -/
def State.loadSet (s : State) (badA badB : Bool) : State :=
  let st := s.nvm
  let bad := if st.activeB then badB else badA
  let spare := !(if st.activeB then badA else badB) && st.validated.isSome
  let load := fun (s : State) (st : Store) (n : Nat) =>
    let s := { s with nvm := st }
    { s with tamper := { s.tamper with retained := s.alarms } }.event 0x2014 sevEvid 3 [byte n]
  if ¬ bad then s
  else if spare then load s { st with activeB := !st.activeB, validated := none } (b2n (!st.activeB))
  else load s { st.setActive CfgSet.default with validated := none } 0xFF

/-- The records of a boot (R451, R471). -/
def State.measureAll (s : State) (zen : Nat) (badA badB : Bool) : State :=
  let one := fun (s : State) (w : Twin) => if (s.twin w).role = .booting then
    (s.noteFallback 2 zen (twinCode w)).event 0x1002 sevEvid (twinCode w) (fwDetail 2 zen (s.nvm.comp2.slot zen)) else s
  let s := one (one s .a) .b
  let s := ((s.nvm.images.map Prod.fst).foldl State.measureImage s).loadSet badA badB
  s.event 0x1004 sevEvid 3 ([byte (b2n s.nvm.activeB)] ++ zeros 7 ++ s.nvm.activeSet.digest.take 8)

/-- What the entropy blocks owe when roles are assigned (R314, R317): too few sources stop random service in the active
twin, and degrade the standby. -/
def State.checkNoise (s : State) : State :=
  let s := s.stopRandom
  match s.healthyStandby with
  | some w => if ¬ (s.twin w).ent.sources.isEmpty ∧ (s.twin w).ent.actives < 12 then s.degrade w 0x09 (entropyIsland w) else s
  | none => s

/-- `READY` becomes 1. A trial that has failed already, because 2 s have passed, stays one (R459). -/
def State.becomeReady (s : State) (zen : Nat) (badA badB : Bool) : State :=
  let s := ((s.measureAll zen badA badB).bootMrk.bootZeroize.loadTwins.assignRoles).checkNoise
  let s := s.event 0x1007 sevEvid 3 (toLe 2 (s.now / 4000000) ++ [byte (match s.active with | some w => twinCode w | none => 0)])
  let s := s.drainEvidence
  let s := if s.boot.trialFail then s
    else s.updStores (fun st => { st with comp1 := st.comp1.passTrial s.boot.relaySlot, comp2 := st.comp2.passTrial zen })
  { s with boot := { s.boot with ready := true, zenSlot := zen } }

/-- `BOOT_COMPLETE` (R9, R450 to R454, R459, R469): each twin's Zenith ROM has checked its firmware; roles are assigned. Nothing
of the boot takes place before the erasure of a pending transition ends. Its operand says which of the sets A and B fail their integrity check. -/
def execBootComplete (boot : BootEnd) (s : State) : Host.Outcome State Fault Refusal :=
  ev boot.t (fun s =>
    if ¬ s.booting ∨ s.now < s.boot.from_ ∨ ¬ (s.twinA.role = .booting ∨ s.twinB.role = .booting) then s
    else match s.nvm.verified (firmwareLc s.lc) 2 with
      | none => (s.bootFailed .a).bootFailed .b
      | some zen => s.becomeReady zen boot.badA boot.badB) s

/-- `LC_SELF_RESET` (R397): 10 ms after the reply, the module resets itself as RESET_N does; the second of two such events ends
that reset, and the module boots. Backup windows fall between them (R364). A fail-stop is not left in this way
(R351). -/
def execLcSelfReset (t : Nat) (s : State) : Host.Outcome State Fault Refusal :=
  ev t (fun s =>
    if s.boot.selfHeld then s.leaveReset false
    else if s.boot.up ∧ ¬ s.failStop ∧ s.life.selfReset.any (fun d => decide (d ≤ s.now)) then
      let s := s.resetRelay
      { s with boot := { s.boot with selfHeld := true } }
    else s) s

end Sys2Proof.Machine
end

