-- ==== Sys2Proof/Machine/Draws.lean ====
section
/-! DEFINITION. Random numbers, certified draws and tickets (R121 to R125, R323, R324, R382). -/

namespace Sys2Proof.Machine

/-- `RNG_GET`: one consumer call, whatever its length (assumption 179). -/
def runRngGet (e : VEnv) : VM (Nat × Bytes) := do
  let n := e.r.hdr.param
  e.shape (e.len == 0) (decide (1 ≤ n) && decide (n ≤ 65536)) []
  let b ← e.draw n
  pure (0, b)

/-- `RNG_GET` (R121). -/
def execRngGet (t : Nat) (w : Twin) (q : Nat) (s : State) : Host.Outcome State Fault Refusal :=
  vendor t 0x0800 w q runRngGet s

/-- The number at a place of the pool `low, low + 1, …` without the numbers removed, given ascending (R124). -/
def poolAt (v : Nat) : List Nat → Nat
  | [] => v
  | r :: l => if r ≤ v then poolAt (v + 1) l else v

/-- A number put into an ascending list. -/
def insertUp (v : Nat) : List Nat → List Nat
  | [] => [v]
  | r :: l => if v ≤ r then v :: r :: l else r :: insertUp v l

/-- The drawing of the numbers (R124): one consumer call of 4 bytes for each word, rejected words included. The numbers
in the order drawn, and the words consumed. -/
def VEnv.numbers (e : VEnv) (without : Bool) (low span : Nat) : Nat → Nat → List Nat → List Nat → Bytes →
    VM (List Nat × Bytes)
  | _, 0, _, got, used => pure (got.reverse, used)
  | 0, _, _, _, _ => vfail stImage
  | fuel + 1, left + 1, gone, got, used => do
    let r := if without then span - got.length else span
    let b ← e.draw 4
    let v := leNat b
    if v < 2 ^ 32 - 2 ^ 32 % r then
      let n := if without then poolAt (low + v % r) gone else low + v % r
      e.numbers without low span fuel left (insertUp n gone) (n :: got) (used ++ b)
    else e.numbers without low span fuel (left + 1) gone got (used ++ b)

/-- The first number of a request's reservation, when there is one, from the Relay or either twin (R323). -/
def State.reserved (s : State) (q : Nat) : Option Nat :=
  match Tbl.find? s.alm.draws q with
  | some d => some d.1
  | none =>
    let at_ := fun (x : TwinSt) => ((Tbl.find? x.reqs q).bind (fun (r : Req) => r.draw)).map Prod.fst
    (at_ s.twinA).orElse (fun _ => at_ s.twinB)

/-- The number after every open reservation. -/
def State.reserveNext (s : State) : Nat :=
  s.alm.draws.foldl (fun (m : Nat) (d : Nat × (Nat × Nat × Option (List EvReq))) => max m (d.2.1 + d.2.2.1)) s.alm.ev.next

/-- The groups of the requests whose end records are formed in a twin, though none has reached the Relay (R324, R325). -/
def State.fillFormed (s : State) (w : Twin) : State :=
  (s.alm.draws.map Prod.fst).foldl (fun s q => match Tbl.find? (s.twin w).reqs q with
    | some r => r.fin.elim s (fun e => s.fillDraws w q r.hdr.id r.hdr.comp e)
    | none => s) s

/-- A reservation that would pass position 130,815 (R382): the requests in service are aborted, the groups of those whose
commits stand are written and every other reservation is void, and every ordinary position still free is filled with
`EVIDENCE_PAD`; the last of them brings `EVIDENCE_FULL`. -/
def State.padEvidence (s : State) : State :=
  let s := s.abortWhere (fun _ _ r => r.space != adminSpace) stLocked
  let s := ((s.fillFormed .a).fillFormed .b).voidDraws false (fun _ => true) stLocked
  let s := s.writeDraws
  let first := s.alm.ev.next
  let n := 130816 - first
  (List.range n).foldl (fun s _ =>
    let pad := s.ownRec 0x0005 sevEvid (toLe 4 first ++ toLe 4 n)
    pad.2.appendEv pad.1 false) s

/-- The reservation of N consecutive numbers of the evidence region (R323), the same for both twins. -/
def VEnv.reserve (e : VEnv) (n : Nat) : VM Nat := do
  let s ← vstate
  match s.reserved e.q with
  | some f => pure f
  | none =>
    let s := if s.alm.draws.isEmpty then s.drainEvidence else s
    let first := s.reserveNext
    if 130816 < first + n then vhalt (fun _ => s.padEvidence)
    else do
      set ({ s with alm := { s.alm with draws := Tbl.put s.alm.draws e.q (first, n, none) } }.updBoth
        (fun x => x.updReq e.q (fun r => { r with draw := some (first, n) })))
      pure first

/-- The records of a committed draw, without origin and stamp (Table 13-7). -/
def drawGroup (e : VEnv) (n gen : Nat) (digest used : Bytes) (nums : List Nat) : List EvReq :=
  let rec_ := fun (id : Nat) (d : Bytes) => ({ id := id, sev := sevEvid, origin := 0, stamp := 0, detail := fixLen 16 d } : EvReq)
  [rec_ 0x8100 (e.b 0 8 ++ toLe 2 e.r.hdr.comp ++ e.b 16 3 ++ [byte n]),
   rec_ 0x8101 (toLe 8 e.r.hdr.id ++ toLe 4 used.length ++ toLe 4 gen),
   rec_ 0x8102 (e.b 8 8 ++ toLe 8 e.q),
   rec_ 0x8103 (digest.take 16), rec_ 0x8104 (digest.drop 16)] ++
  (pieces 16 (nums.flatMap (toLe 4))).map (rec_ 0x8105)

/-- `DRAW_CERTIFIED`: the life-cycle check runs before step 1 (R123); the reservation follows the checks and precedes the
draw (R323). A game without a register has no last number, and any `DRAW_NUMBER` exceeds it (assumption 180). -/
def runDrawCertified (e : VEnv) : VM (Nat × Bytes) := do
  let s ← vstate
  need (s.lc == .production) stLifecycle
  let low := e.f 8 4
  let high := e.f 12 4
  let picks := e.f 16 2
  let mode := e.f 18 1
  let game := e.f 0 4
  let span := high - low + 1
  let x ← e.x
  let reg := Tbl.find? (x.store.comp e.r.space).draws game
  e.shape (e.len == 56) (e.r.hdr.param == 0) [(19, 1)]
  need (decide (mode < 4)) stReserved
  need (reg.all (fun d => decide (d.last < e.f 4 4))) stBadParam
  need (decide (low < high) && decide (high - low ≤ 0xFFFFFFFE) && decide (1 ≤ picks) && decide (picks ≤ 256) &&
    !(bit mode 0 && decide (span < picks))) stBadParam
  let k ← e.key 0 (e.f 20 4) (fun k => k.alg == 0x21 && handleClass (e.f 20 4) == 2)
  if reg.isNone ∧ e.r.slotsTaken = 0 then
    match x.quota e.q 1 0 0 with
    | none => vfail stQuota
    | some x => e.put x
  else pure ()
  let n := 5 + ceilDiv picks 4
  let first ← e.reserve n
  let (drawn, used) ← e.numbers (bit mode 0) low span (2 ^ 20) picks [] [] []
  let nums := if bit mode 1 then drawn.foldl (fun l v => insertUp v l) [] else drawn
  let digest := sha256 used
  let body := e.b 0 8 ++ toLe 8 e.q ++ toLe 4 s.pcycle ++ toLe 4 first ++ digest ++ e.b 24 32 ++ e.b 8 8 ++ e.b 16 4 ++
    toLe 4 used.length ++ nums.flatMap (toLe 4)
  let sig ← e.sign 5 0 k body
  let y ← e.x
  let gen := (y.seedFor e.q).elim 0 Prod.fst
  e.stage (.drawPut e.r.space game { last := e.f 4 4, evSeq := first, pcycle := s.pcycle })
  let z ← e.x
  e.put (z.updReq e.q (fun r => { r with stagedEv := r.stagedEv ++ drawGroup e n gen digest used nums }))
  pure (0, body ++ sig)

/-- `DRAW_CERTIFIED` (R123, R124). -/
def execDrawCertified (t : Nat) (w : Twin) (q : Nat) (s : State) : Host.Outcome State Fault Refusal :=
  vendor t 0x0801 w q runDrawCertified s

/-- `DRAW_LAST`. -/
def runDrawLast (e : VEnv) : VM (Nat × Bytes) := do
  e.shape (e.len == 0) e.namedOk []
  let x ← e.x
  let d := Tbl.getD (x.store.comp e.r.space).draws e.named {}
  pure (0, toLe 4 d.last ++ toLe 4 d.evSeq ++ toLe 4 d.pcycle)

/-- `DRAW_LAST` (R122). -/
def execDrawLast (t : Nat) (w : Twin) (q : Nat) (s : State) : Host.Outcome State Fault Refusal :=
  vendor t 0x0802 w q runDrawLast s

/-- Steps 1 and 2 of the ticket commands (R125). -/
def ticketKey (e : VEnv) (head : Nat) (reserved : List (Nat × Nat)) : VM KeyRec := do
  let dl := e.f 4 2
  e.shape (e.len == head + dl && decide (1 ≤ dl) && decide (dl ≤ 1024)) (e.r.hdr.param == 0) reserved
  e.key 0 (e.f 0 4) (fun k => isAes k.alg && k.nonceEn)

/-- The validation code of a serial and its ticket data (R125). -/
def ticketCode (k : KeyRec) (serial data : Bytes) : Bytes := (cmac k.alg k.material (serial ++ data)).take 10

/-- `TICKET_ISSUE`. -/
def runTicketIssue (e : VEnv) : VM (Nat × Bytes) := do
  let k ← ticketKey e 8 [(6, 2)]
  let serial := toLe 12 e.r.nonce
  pure (0, serial ++ ticketCode k serial (e.from_ 8) ++ [0, 0])

/-- `TICKET_ISSUE` (R125). -/
def execTicketIssue (t : Nat) (w : Twin) (q : Nat) (s : State) : Host.Outcome State Fault Refusal :=
  vendor t 0x0900 w q runTicketIssue s

/-- `TICKET_VALIDATE`. -/
def runTicketValidate (e : VEnv) : VM (Nat × Bytes) := do
  let k ← ticketKey e 32 [(6, 2), (30, 2)]
  let k ← e.asAccepted (e.f 0 4) k
  let serial := e.b 8 12
  let n := leNat serial
  pure (if ticketCode k serial (e.from_ 32) = e.b 20 10 ∧ n ≠ 0 ∧ n ≤ k.nonce then 0 else stVerify, [])

/-- `TICKET_VALIDATE` (R125). -/
def execTicketValidate (t : Nat) (w : Twin) (q : Nat) (s : State) : Host.Outcome State Fault Refusal :=
  vendor t 0x0901 w q runTicketValidate s

end Sys2Proof.Machine
end

