-- ==== Sys2Proof/Machine/KaibasAlu.lean ====
section
/-! DEFINITION. Integer register, immediate, shift, wide and long-form instructions (Tables 9-9 to 9-11, 9-15). -/

namespace Sys2Proof.Machine

/-- The bit position that a shift takes from rs2[5:0] (Table 9-10). -/
def shamt (b : Word) : Nat := b.toNat % 64

/-- A Bool as a word. -/
def wordOf (b : Bool) : Word := BitVec.ofNat 64 (b2n b)

/-- The quotient of `div`, rounded toward zero; a divisor of 0 gives all ones (Table 9-10). -/
def divS (a b : Word) : Word := if b = 0 then BitVec.allOnes 64 else BitVec.ofInt 64 (a.toInt.tdiv b.toInt)

/-- The quotient of `divu`. -/
def divU (a b : Word) : Word := if b = 0 then BitVec.allOnes 64 else a / b

/-- The remainder of `rem`, with the sign of the dividend; a divisor of 0 gives rs1. -/
def remS (a b : Word) : Word := if b = 0 then a else BitVec.ofInt 64 (a.toInt.tmod b.toInt)

/-- The remainder of `remu`. -/
def remU (a b : Word) : Word := if b = 0 then a else a % b

/-- Leading zeros of a word's low `n` bits. -/
def leadingZeros : Nat → Word → Nat
  | 0, _ => 0
  | n + 1, v => if v.getLsbD n then 0 else 1 + leadingZeros n v

/-- Trailing zeros of a word, from bit `64 - n` on. -/
def trailingZeros : Nat → Word → Nat
  | 0, _ => 0
  | n + 1, v => if v.getLsbD (63 - n) then 0 else 1 + trailingZeros n v

/-- Byte reversal of a word. -/
def byteSwap (v : Word) : Word := BitVec.ofNat 64 (beNat (toLe 8 v.toNat))

/-- `ADD` (Table 9-10). -/
def execAdd (c : Cid) (rd rs1 rs2 : BitVec 5) (rsvd : Nat) (s : State) : Host.Outcome State Fault Refusal :=
  kRR c rd rs1 rs2 rsvd (fun a b => a + b) s

/-- `SUB` (Table 9-10). -/
def execSub (c : Cid) (rd rs1 rs2 : BitVec 5) (rsvd : Nat) (s : State) : Host.Outcome State Fault Refusal :=
  kRR c rd rs1 rs2 rsvd (fun a b => a - b) s

/-- `AND` (Table 9-10). -/
def execKAnd (c : Cid) (rd rs1 rs2 : BitVec 5) (rsvd : Nat) (s : State) : Host.Outcome State Fault Refusal :=
  kRR c rd rs1 rs2 rsvd (fun a b => a &&& b) s

/-- `OR` (Table 9-10). -/
def execKOr (c : Cid) (rd rs1 rs2 : BitVec 5) (rsvd : Nat) (s : State) : Host.Outcome State Fault Refusal :=
  kRR c rd rs1 rs2 rsvd (fun a b => a ||| b) s

/-- `XOR` (Table 9-10). -/
def execKXor (c : Cid) (rd rs1 rs2 : BitVec 5) (rsvd : Nat) (s : State) : Host.Outcome State Fault Refusal :=
  kRR c rd rs1 rs2 rsvd (fun a b => a ^^^ b) s

/-- `ANDN` (Table 9-10). -/
def execAndn (c : Cid) (rd rs1 rs2 : BitVec 5) (rsvd : Nat) (s : State) : Host.Outcome State Fault Refusal :=
  kRR c rd rs1 rs2 rsvd (fun a b => a &&& ~~~b) s

/-- `SLL` (Table 9-10). -/
def execSll (c : Cid) (rd rs1 rs2 : BitVec 5) (rsvd : Nat) (s : State) : Host.Outcome State Fault Refusal :=
  kRR c rd rs1 rs2 rsvd (fun a b => a <<< shamt b) s

/-- `SRL` (Table 9-10). -/
def execSrl (c : Cid) (rd rs1 rs2 : BitVec 5) (rsvd : Nat) (s : State) : Host.Outcome State Fault Refusal :=
  kRR c rd rs1 rs2 rsvd (fun a b => a >>> shamt b) s

/-- `SRA` (Table 9-10). -/
def execSra (c : Cid) (rd rs1 rs2 : BitVec 5) (rsvd : Nat) (s : State) : Host.Outcome State Fault Refusal :=
  kRR c rd rs1 rs2 rsvd (fun a b => a.sshiftRight (shamt b)) s

/-- `ROL` (Table 9-10). -/
def execRol (c : Cid) (rd rs1 rs2 : BitVec 5) (rsvd : Nat) (s : State) : Host.Outcome State Fault Refusal :=
  kRR c rd rs1 rs2 rsvd (fun a b => a.rotateLeft (shamt b)) s

/-- `ROR` (Table 9-10). -/
def execRor (c : Cid) (rd rs1 rs2 : BitVec 5) (rsvd : Nat) (s : State) : Host.Outcome State Fault Refusal :=
  kRR c rd rs1 rs2 rsvd (fun a b => a.rotateRight (shamt b)) s

/-- `SLT` (Table 9-10). -/
def execSlt (c : Cid) (rd rs1 rs2 : BitVec 5) (rsvd : Nat) (s : State) : Host.Outcome State Fault Refusal :=
  kRR c rd rs1 rs2 rsvd (fun a b => wordOf (a.slt b)) s

/-- `SLTU` (Table 9-10). -/
def execSltu (c : Cid) (rd rs1 rs2 : BitVec 5) (rsvd : Nat) (s : State) : Host.Outcome State Fault Refusal :=
  kRR c rd rs1 rs2 rsvd (fun a b => wordOf (a.ult b)) s

/-- `SEQ` (Table 9-10). -/
def execSeq (c : Cid) (rd rs1 rs2 : BitVec 5) (rsvd : Nat) (s : State) : Host.Outcome State Fault Refusal :=
  kRR c rd rs1 rs2 rsvd (fun a b => wordOf (a == b)) s

/-- `MIN` (Table 9-10). -/
def execKMin (c : Cid) (rd rs1 rs2 : BitVec 5) (rsvd : Nat) (s : State) : Host.Outcome State Fault Refusal :=
  kRR c rd rs1 rs2 rsvd (fun a b => if a.slt b then a else b) s

/-- `MAX` (Table 9-10). -/
def execKMax (c : Cid) (rd rs1 rs2 : BitVec 5) (rsvd : Nat) (s : State) : Host.Outcome State Fault Refusal :=
  kRR c rd rs1 rs2 rsvd (fun a b => if a.slt b then b else a) s

/-- `MINU` (Table 9-10). -/
def execMinu (c : Cid) (rd rs1 rs2 : BitVec 5) (rsvd : Nat) (s : State) : Host.Outcome State Fault Refusal :=
  kRR c rd rs1 rs2 rsvd (fun a b => if a.ult b then a else b) s

/-- `MAXU` (Table 9-10). -/
def execMaxu (c : Cid) (rd rs1 rs2 : BitVec 5) (rsvd : Nat) (s : State) : Host.Outcome State Fault Refusal :=
  kRR c rd rs1 rs2 rsvd (fun a b => if a.ult b then b else a) s

/-- `MUL` (Table 9-10). -/
def execMul (c : Cid) (rd rs1 rs2 : BitVec 5) (rsvd : Nat) (s : State) : Host.Outcome State Fault Refusal :=
  kRR c rd rs1 rs2 rsvd (fun a b => a * b) s

/-- `MULHU` (Table 9-10). -/
def execMulhu (c : Cid) (rd rs1 rs2 : BitVec 5) (rsvd : Nat) (s : State) : Host.Outcome State Fault Refusal :=
  kRR c rd rs1 rs2 rsvd (fun a b => BitVec.ofNat 64 (a.toNat * b.toNat / 2 ^ 64)) s

/-- `MULH` (Table 9-10). -/
def execMulh (c : Cid) (rd rs1 rs2 : BitVec 5) (rsvd : Nat) (s : State) : Host.Outcome State Fault Refusal :=
  kRR c rd rs1 rs2 rsvd (fun a b => BitVec.ofInt 64 (a.toInt * b.toInt / 2 ^ 64)) s

/-- `DIV` (Table 9-10). -/
def execDiv (c : Cid) (rd rs1 rs2 : BitVec 5) (rsvd : Nat) (s : State) : Host.Outcome State Fault Refusal :=
  kRR c rd rs1 rs2 rsvd (divS) s

/-- `DIVU` (Table 9-10). -/
def execDivu (c : Cid) (rd rs1 rs2 : BitVec 5) (rsvd : Nat) (s : State) : Host.Outcome State Fault Refusal :=
  kRR c rd rs1 rs2 rsvd (divU) s

/-- `REM` (Table 9-10). -/
def execKRem (c : Cid) (rd rs1 rs2 : BitVec 5) (rsvd : Nat) (s : State) : Host.Outcome State Fault Refusal :=
  kRR c rd rs1 rs2 rsvd (remS) s

/-- `REMU` (Table 9-10). -/
def execRemu (c : Cid) (rd rs1 rs2 : BitVec 5) (rsvd : Nat) (s : State) : Host.Outcome State Fault Refusal :=
  kRR c rd rs1 rs2 rsvd (remU) s

/-- `CSEL`: rs1 if rd is not 0, else rs2; it reads all three registers (Table 9-10, R213). -/
def execCsel (c : Cid) (rd rs1 rs2 : BitVec 5) (rsvd : Nat) (s : State) : Host.Outcome State Fault Refusal :=
  kev c 4 (noRsvd rsvd) (.yes []) (fun e =>
    let d := e.c.reg rd
    let a := e.c.reg rs1
    let b := e.c.reg rs2
    e.result rd (if d.1 ≠ 0 then a.1 else b.1) (d.2 || a.2 || b.2)) s

/-- `ADC`: the sum with carry; `C` is the carry out, and `CTAG` the result's tag (Table 9-10, R213). -/
def execAdc (c : Cid) (rd rs1 rs2 : BitVec 5) (rsvd : Nat) (s : State) : Host.Outcome State Fault Refusal :=
  kev c 4 (noRsvd rsvd) (.yes []) (fun e =>
    let a := e.c.reg rs1
    let b := e.c.reg rs2
    let r := addCarry a.1 b.1 e.c.carry
    let tag := a.2 || b.2 || e.c.carryTag
    .ok e.x ((e.c.setReg rd r.1 tag).setCarry r.2 tag)) s

/-- `SBB`: the difference with borrow; `C` is 1 on borrow (Table 9-10, R213). -/
def execSbb (c : Cid) (rd rs1 rs2 : BitVec 5) (rsvd : Nat) (s : State) : Host.Outcome State Fault Refusal :=
  kev c 4 (noRsvd rsvd) (.yes []) (fun e =>
    let a := e.c.reg rs1
    let b := e.c.reg rs2
    let r := subBorrow a.1 b.1 e.c.carry
    let tag := a.2 || b.2 || e.c.carryTag
    .ok e.x ((e.c.setReg rd r.1 tag).setCarry r.2 tag)) s

/-- `CLZ` (Table 9-10). -/
def execClz (c : Cid) (rd rs1 : BitVec 5) (rsvd : Nat) (s : State) : Host.Outcome State Fault Refusal :=
  kR c rd rs1 rsvd 4 (.yes []) (fun a => BitVec.ofNat 64 (leadingZeros 64 a)) s

/-- `CTZ` (Table 9-10). -/
def execCtz (c : Cid) (rd rs1 : BitVec 5) (rsvd : Nat) (s : State) : Host.Outcome State Fault Refusal :=
  kR c rd rs1 rsvd 4 (.yes []) (fun a => BitVec.ofNat 64 (trailingZeros 64 a)) s

/-- `POPC` (Table 9-10). -/
def execPopc (c : Cid) (rd rs1 : BitVec 5) (rsvd : Nat) (s : State) : Host.Outcome State Fault Refusal :=
  kR c rd rs1 rsvd 4 (.yes []) (fun a => BitVec.ofNat 64 (popCount 64 a.toNat)) s

/-- `BSWAP` (Table 9-10). -/
def execBswap (c : Cid) (rd rs1 : BitVec 5) (rsvd : Nat) (s : State) : Host.Outcome State Fault Refusal :=
  kR c rd rs1 rsvd 4 (.yes []) (byteSwap) s

/-- `MACC` (Table 9-11): an unsigned product into the accumulator, modulo 2^192. -/
def execMacc (c : Cid) (rs1 rs2 : BitVec 5) (rsvd : Nat) (s : State) : Host.Outcome State Fault Refusal :=
  kev c 4 (noRsvd rsvd) (.yes []) (fun e =>
    let a := e.c.reg rs1
    let b := e.c.reg rs2
    .ok e.x (e.c.accumulate (a.1.toNat * b.1.toNat) (a.2 || b.2))) s

/-- `MACC2` (Table 9-11): an unsigned product into the accumulator, modulo 2^192. -/
def execMacc2 (c : Cid) (rs1 rs2 : BitVec 5) (rsvd : Nat) (s : State) : Host.Outcome State Fault Refusal :=
  kev c 4 (noRsvd rsvd) (.yes []) (fun e =>
    let a := e.c.reg rs1
    let b := e.c.reg rs2
    .ok e.x (e.c.accumulate (2 * a.1.toNat * b.1.toNat) (a.2 || b.2))) s

/-- `ACCSH`: rd takes `acc0` with the accumulator's tag, and the accumulator shifts right 64 bits (Table 9-11). -/
def execAccsh (c : Cid) (rd : BitVec 5) (rsvd : Nat) (s : State) : Host.Outcome State Fault Refusal :=
  kev c 4 (noRsvd rsvd) (.yes []) (fun e =>
    let r := e.c.setReg rd (e.c.accWord 0) e.c.accTag
    .ok e.x { r with acc := e.c.acc >>> 64 }) s

/-- `ACCCLR`: the accumulator and its tag cleared (Table 9-11, R208). -/
def execAccclr (c : Cid) (rsvd : Nat) (s : State) : Host.Outcome State Fault Refusal :=
  kev c 4 (noRsvd rsvd) (.yes []) (fun e => .ok e.x { e.c with acc := 0, accTag := false }) s

/-- `ACCADD` (Table 9-11). -/
def execAccadd (c : Cid) (rs1 : BitVec 5) (rsvd : Nat) (s : State) : Host.Outcome State Fault Refusal :=
  kev c 4 (noRsvd rsvd) (.yes []) (fun e =>
    let a := e.c.reg rs1
    .ok e.x (e.c.accumulate a.1.toNat a.2)) s

/-- `ADDI` (Table 9-9). -/
def execAddi (c : Cid) (rd rs1 : BitVec 5) (imm : BitVec 16) (s : State) : Host.Outcome State Fault Refusal :=
  kR c rd rs1 0 4 (.yes []) (fun a => a + sext16 imm) s

/-- `ANDI` (Table 9-9). -/
def execAndi (c : Cid) (rd rs1 : BitVec 5) (imm : BitVec 16) (s : State) : Host.Outcome State Fault Refusal :=
  kR c rd rs1 0 4 (.yes []) (fun a => a &&& imm.setWidth 64) s

/-- `ORI` (Table 9-9). -/
def execOri (c : Cid) (rd rs1 : BitVec 5) (imm : BitVec 16) (s : State) : Host.Outcome State Fault Refusal :=
  kR c rd rs1 0 4 (.yes []) (fun a => a ||| imm.setWidth 64) s

/-- `XORI` (Table 9-9). -/
def execXori (c : Cid) (rd rs1 : BitVec 5) (imm : BitVec 16) (s : State) : Host.Outcome State Fault Refusal :=
  kR c rd rs1 0 4 (.yes []) (fun a => a ^^^ imm.setWidth 64) s

/-- `SLTI` (Table 9-9). -/
def execSlti (c : Cid) (rd rs1 : BitVec 5) (imm : BitVec 16) (s : State) : Host.Outcome State Fault Refusal :=
  kR c rd rs1 0 4 (.yes []) (fun a => wordOf (a.slt (sext16 imm))) s

/-- `SLTIU` (Table 9-9). -/
def execSltiu (c : Cid) (rd rs1 : BitVec 5) (imm : BitVec 16) (s : State) : Host.Outcome State Fault Refusal :=
  kR c rd rs1 0 4 (.yes []) (fun a => wordOf (a.ult (sext16 imm))) s

/-- `LUI`: the sign extension of the immediate times 2^16 (Table 9-9). -/
def execLui (c : Cid) (rd : BitVec 5) (imm : BitVec 16) (rsvd : Nat) (s : State) : Host.Outcome State Fault Refusal :=
  kev c 4 (noRsvd rsvd) (.yes []) (fun e => e.result rd (sext32 (imm.setWidth 32 <<< 16)) false) s

/-- `SLLI` (Table 9-9). -/
def execSlli (c : Cid) (rd rs1 : BitVec 5) (sh : BitVec 6) (rsvd : Nat) (s : State) : Host.Outcome State Fault Refusal :=
  kR c rd rs1 rsvd 4 (.yes []) (fun a => a <<< sh.toNat) s

/-- `SRLI` (Table 9-9). -/
def execSrli (c : Cid) (rd rs1 : BitVec 5) (sh : BitVec 6) (rsvd : Nat) (s : State) : Host.Outcome State Fault Refusal :=
  kR c rd rs1 rsvd 4 (.yes []) (fun a => a >>> sh.toNat) s

/-- `SRAI` (Table 9-9). -/
def execSrai (c : Cid) (rd rs1 : BitVec 5) (sh : BitVec 6) (rsvd : Nat) (s : State) : Host.Outcome State Fault Refusal :=
  kR c rd rs1 rsvd 4 (.yes []) (fun a => a.sshiftRight sh.toNat) s

/-- `RORI` (Table 9-9). -/
def execRori (c : Cid) (rd rs1 : BitVec 5) (sh : BitVec 6) (rsvd : Nat) (s : State) : Host.Outcome State Fault Refusal :=
  kR c rd rs1 rsvd 4 (.yes []) (fun a => a.rotateRight sh.toNat) s

/-- `LI`: the sign-extended 32-bit immediate (Table 9-15). -/
def execLi (c : Cid) (rd : BitVec 5) (imm : BitVec 32) (rsvd : Nat) (s : State) : Host.Outcome State Fault Refusal :=
  kev c 8 (noRsvd rsvd) .no (fun e => e.result rd (sext32 imm) false) s

/-- `LIH`: bits [63:32] of rd written, bits [31:0] unchanged (Table 9-15). -/
def execLih (c : Cid) (rd : BitVec 5) (imm : BitVec 32) (rsvd : Nat) (s : State) : Host.Outcome State Fault Refusal :=
  kev c 8 (noRsvd rsvd) .no (fun e =>
    let d := e.c.reg rd
    e.result rd (imm ++ d.1.setWidth 32) d.2) s

/-- `ADDL` (Table 9-15). -/
def execAddl (c : Cid) (rd rs1 : BitVec 5) (imm : BitVec 32) (rsvd : Nat) (s : State) : Host.Outcome State Fault Refusal :=
  kR c rd rs1 rsvd 8 .no (fun a => a + sext32 imm) s

/-- `ANDL` (Table 9-15). -/
def execAndl (c : Cid) (rd rs1 : BitVec 5) (imm : BitVec 32) (rsvd : Nat) (s : State) : Host.Outcome State Fault Refusal :=
  kR c rd rs1 rsvd 8 .no (fun a => a &&& sext32 imm) s

/-- `ORL` (Table 9-15). -/
def execOrl (c : Cid) (rd rs1 : BitVec 5) (imm : BitVec 32) (rsvd : Nat) (s : State) : Host.Outcome State Fault Refusal :=
  kR c rd rs1 rsvd 8 .no (fun a => a ||| sext32 imm) s

/-- `XORL` (Table 9-15). -/
def execXorl (c : Cid) (rd rs1 : BitVec 5) (imm : BitVec 32) (rsvd : Nat) (s : State) : Host.Outcome State Fault Refusal :=
  kR c rd rs1 rsvd 8 .no (fun a => a ^^^ sext32 imm) s

end Sys2Proof.Machine
end

