-- ==== Sys2Proof/Machine/KaibasCtl.lean ====
section
/-! DEFINITION. Control transfer: branches, jumps, calls and returns with the register windows (Table 9-13, R202 to
R206). -/

namespace Sys2Proof.Machine

/-- A branch or jump target: the instruction's own address plus four times the offset (R212). -/
def relTarget (c : Ctx) (off : Word) : BitVec 64 := c.pc + 4 * off

/-- A transfer to a target with the checks of R226: misalignment (which a branch's own target cannot have), then
access, where the target is checked at the transfer (R203, R204, R210). -/
def KEnv.goto (e : KEnv) (c : Ctx) (t : BitVec 64) : KRes :=
  if t.toNat % 4 ≠ 0 then .exc e.c 3 0 0 t.toNat else .jump e.x c t

/-- A conditional branch: a tagged comparand raises subcode 0x01 (Table 9-16). -/
def kBranch (c : Cid) (rs1 rs2 : BitVec 5) (off : BitVec 16) (p : Word → Word → Bool) (s : State) :
    Host.Outcome State Fault Refusal :=
  kev c 4 always .no (fun e =>
    let a := e.c.reg rs1
    let b := e.c.reg rs2
    if a.2 then .exc e.c 5 1 rs1.toNat 0
    else if b.2 then .exc e.c 5 1 rs2.toNat 0
    else if p a.1 b.1 then e.goto e.c (relTarget e.c (sext16 off)) else .ok e.x e.c) s

/-- `BEQ` (Table 9-13). -/
def execBeq (c : Cid) (rs1 rs2 : BitVec 5) (off : BitVec 16) (s : State) : Host.Outcome State Fault Refusal :=
  kBranch c rs1 rs2 off (fun a b => a == b) s

/-- `BNE` (Table 9-13). -/
def execBne (c : Cid) (rs1 rs2 : BitVec 5) (off : BitVec 16) (s : State) : Host.Outcome State Fault Refusal :=
  kBranch c rs1 rs2 off (fun a b => a != b) s

/-- `BLT` (Table 9-13). -/
def execBlt (c : Cid) (rs1 rs2 : BitVec 5) (off : BitVec 16) (s : State) : Host.Outcome State Fault Refusal :=
  kBranch c rs1 rs2 off (fun a b => a.slt b) s

/-- `BGE` (Table 9-13). -/
def execBge (c : Cid) (rs1 rs2 : BitVec 5) (off : BitVec 16) (s : State) : Host.Outcome State Fault Refusal :=
  kBranch c rs1 rs2 off (fun a b => !a.slt b) s

/-- `BLTU` (Table 9-13). -/
def execBltu (c : Cid) (rs1 rs2 : BitVec 5) (off : BitVec 16) (s : State) : Host.Outcome State Fault Refusal :=
  kBranch c rs1 rs2 off (fun a b => a.ult b) s

/-- `BGEU` (Table 9-13). -/
def execBgeu (c : Cid) (rs1 rs2 : BitVec 5) (off : BitVec 16) (s : State) : Host.Outcome State Fault Refusal :=
  kBranch c rs1 rs2 off (fun a b => !a.ult b) s

/-- `J` (Table 9-13). -/
def execJ (c : Cid) (off : BitVec 26) (s : State) : Host.Outcome State Fault Refusal :=
  kev c 4 always .no (fun e => e.goto e.c (relTarget e.c (off.signExtend 64))) s

/-- `JR`: a tagged target raises subcode 0x02 (Table 9-13, Table 9-16). -/
def execJr (c : Cid) (rs1 : BitVec 5) (rsvd : Nat) (s : State) : Host.Outcome State Fault Refusal :=
  kev c 4 (noRsvd rsvd) .no (fun e =>
    let a := e.c.reg rs1
    if a.2 then .exc e.c 5 2 rs1.toNat 0 else e.goto e.c a.1) s

/-- The save area of a spill or fill lies 8-byte aligned, wholly in local memory (R205). -/
def KEnv.saveArea (e : KEnv) (base : Nat) : Bool := decide (base % 8 = 0) && decide (base + 136 ≤ e.lmemSize)

/-- The window spill of R203: sixteen registers with their tags and the anchor, untagged, at the anchor of the next
window (R205). -/
def spillWindow (c : Ctx) (base : Nat) : Ctx :=
  let c := (List.range 16).foldl (fun c i =>
    let r := c.word (8 + 16 * c.wold + i)
    c.lput (base + 8 * i) (toLe 8 r.1.toNat) r.2) c
  c.lput (base + 128) (toLe 8 (c.anchor c.wold).toNat) false

/-- The window fill of R204: sixteen registers with their tags, and the anchor (R205). -/
def fillWindow (c : Ctx) (w base : Nat) : Ctx :=
  let src := c
  let c := (List.range 16).foldl (fun c i =>
    c.setWord (8 + 16 * w + i) (BitVec.ofNat 64 (leNat (src.lread (base + 8 * i) 8))) (src.ltag (base + 8 * i) 8)) c
  c.setAnchor w (BitVec.ofNat 64 (leNat (src.lread (base + 128) 8)))

/-- A call (R203): the checks in the order of R226, then the spill when 14 windows are resident, then the new window. -/
def kCall (e : KEnv) (t : BitVec 64) : KRes :=
  if t.toNat % 4 ≠ 0 then .exc e.c 3 0 0 t.toNat
  else if ¬ e.canFetch t.toNat then .exc e.c 4 0 0 t.toNat
  else if e.c.depth = 65535 then .exc e.c 7 0 0 0
  else
    let sp := (e.c.word 6).1
    let w := (e.c.cwp + 1) % 15
    let full := decide (e.c.windows = 14)
    let base := (e.c.anchor ((e.c.wold + 1) % 15)).toNat
    if full ∧ ¬ e.saveArea base then .exc e.c 7 0 0 base
    else
      let c := if full then spillWindow e.c base else e.c
      let c := if full then { c with sr := setBits c.sr 16 4 ((c.wold + 1) % 15) } else c
      let c := c.setAnchor w sp
      .jump e.x { c with lk := e.c.pc + 4, sr := setBits (setBits c.sr 20 4 w) 32 16 (e.c.depth + 1) } t

/-- `CALL` (R203): a tagged `sp` raises subcode 0x03. -/
def execCall (c : Cid) (off : BitVec 26) (s : State) : Host.Outcome State Fault Refusal :=
  kev c 4 always .no (fun e =>
    if (e.c.word 6).2 then .exc e.c 5 3 6 0 else kCall e (relTarget e.c (off.signExtend 64))) s

/-- `CALLR` (R203): then a tagged target raises subcode 0x02. -/
def execCallr (c : Cid) (rs1 : BitVec 5) (rsvd : Nat) (s : State) : Host.Outcome State Fault Refusal :=
  kev c 4 (noRsvd rsvd) .no (fun e =>
    if (e.c.word 6).2 then .exc e.c 5 3 6 0
    else if (e.c.reg rs1).2 then .exc e.c 5 2 rs1.toNat 0
    else kCall e (e.c.reg rs1).1) s

/-- `RET` (R204): the checks in the order of R226, the fill when one window is resident, then the window below. -/
def execRet (c : Cid) (rsvd : Nat) (s : State) : Host.Outcome State Fault Refusal :=
  kev c 4 (noRsvd rsvd) .no (fun e =>
    let t := e.c.lk
    if t.toNat % 4 ≠ 0 then .exc e.c 3 0 0 t.toNat
    else if ¬ e.canFetch t.toNat then .exc e.c 4 0 0 t.toNat
    else if e.c.depth = 0 then .exc e.c 7 0 0 0
    else
      let w := (e.c.cwp + 14) % 15
      let empty := decide (e.c.windows = 1)
      let base := (e.c.anchor e.c.cwp).toNat
      if empty ∧ (¬ e.saveArea base ∨ e.c.ltag (base + 128) 8) then .exc e.c 7 0 0 base
      else
        let c := if empty then fillWindow e.c w base else e.c
        let c := if empty then { c with sr := setBits c.sr 16 4 w } else c
        .jump e.x { c with sr := setBits (setBits c.sr 20 4 w) 32 16 (e.c.depth - 1) } t) s

/-- `REP` (R222, R223): the prefix is noted, and the following instruction runs under it. `rep` itself under `rep` is
an illegal repeat. -/
def execRep (c : Cid) (rsvd : Nat) (s : State) : Host.Outcome State Fault Refusal :=
  kev c 4 (noRsvd rsvd) .no (fun e => .ok e.x { e.c with rep := some e.c.pc }) s

end Sys2Proof.Machine
end

