-- ==== Sys2Proof/Machine/KaibasMem.lean ====
section
/-! DEFINITION. Loads, stores and the memory forms of the wide instructions (Tables 9-11, 9-12, 9-15, R214 to R216). -/

namespace Sys2Proof.Machine

/-- The address of a memory operand with its checks in the order of R226: a tagged base, then misalignment. -/
def KEnv.address (e : KEnv) (rs1 : BitVec 5) (off : Word) (n : Nat) (k : Nat → KRes) : KRes :=
  let b := e.c.reg rs1
  let a := (b.1 + off).toNat
  if b.2 then .exc e.c 5 3 rs1.toNat 0
  else if a % n ≠ 0 then .exc e.c 3 0 0 a
  else k a

/-- A load of `n` bytes, sign-extended from its top bit when `signed` (Table 9-12, R214). -/
def kLoad (e : KEnv) (rd rs1 : BitVec 5) (off : Word) (n : Nat) (signed : Bool) : KRes :=
  e.address rs1 off n (fun a =>
    match e.load a n with
    | some (v, tag) =>
      e.filled a <| e.result rd (if signed ∧ 2 ^ (8 * n - 1) ≤ v then BitVec.ofNat 64 (v + 2 ^ 64 - 2 ^ (8 * n)) else BitVec.ofNat 64 v) tag
    | none => .exc e.c 4 0 0 a)

/-- A store of the low `n` bytes of rt (Table 9-12, R215). -/
def kStore (e : KEnv) (rt rs1 : BitVec 5) (off : Word) (n : Nat) : KRes :=
  e.address rs1 off n (fun a =>
    let v := e.c.reg rt
    e.store a n (v.1.toNat % 2 ^ (8 * n)) v.2 rt.toNat)

/-- The repeat rule of a load: refused when rd is rs1, else rs1 advances by the access size (R222, R223). -/
def loadRep (rd rs1 : BitVec 5) (n : Nat) : RepKind := if rd = rs1 then .bad else .yes [(rs1, n)]

/-- `LD` (Table 9-12). -/
def execLd (c : Cid) (rd rs1 : BitVec 5) (imm : BitVec 16) (s : State) : Host.Outcome State Fault Refusal :=
  kev c 4 always (loadRep rd rs1 8) (fun e => kLoad e rd rs1 (sext16 imm) 8 false) s

/-- `LDW` (Table 9-12). -/
def execLdw (c : Cid) (rd rs1 : BitVec 5) (imm : BitVec 16) (s : State) : Host.Outcome State Fault Refusal :=
  kev c 4 always (loadRep rd rs1 4) (fun e => kLoad e rd rs1 (sext16 imm) 4 false) s

/-- `LDWS` (Table 9-12). -/
def execLdws (c : Cid) (rd rs1 : BitVec 5) (imm : BitVec 16) (s : State) : Host.Outcome State Fault Refusal :=
  kev c 4 always (loadRep rd rs1 4) (fun e => kLoad e rd rs1 (sext16 imm) 4 true) s

/-- `LDH` (Table 9-12). -/
def execLdh (c : Cid) (rd rs1 : BitVec 5) (imm : BitVec 16) (s : State) : Host.Outcome State Fault Refusal :=
  kev c 4 always (loadRep rd rs1 2) (fun e => kLoad e rd rs1 (sext16 imm) 2 false) s

/-- `LDHS` (Table 9-12). -/
def execLdhs (c : Cid) (rd rs1 : BitVec 5) (imm : BitVec 16) (s : State) : Host.Outcome State Fault Refusal :=
  kev c 4 always (loadRep rd rs1 2) (fun e => kLoad e rd rs1 (sext16 imm) 2 true) s

/-- `LDB` (Table 9-12). -/
def execLdb (c : Cid) (rd rs1 : BitVec 5) (imm : BitVec 16) (s : State) : Host.Outcome State Fault Refusal :=
  kev c 4 always (loadRep rd rs1 1) (fun e => kLoad e rd rs1 (sext16 imm) 1 false) s

/-- `LDBS` (Table 9-12). -/
def execLdbs (c : Cid) (rd rs1 : BitVec 5) (imm : BitVec 16) (s : State) : Host.Outcome State Fault Refusal :=
  kev c 4 always (loadRep rd rs1 1) (fun e => kLoad e rd rs1 (sext16 imm) 1 true) s

/-- `ST` (Table 9-12); the first operand is rt. -/
def execSt (c : Cid) (rd rs1 : BitVec 5) (imm : BitVec 16) (s : State) : Host.Outcome State Fault Refusal :=
  kev c 4 always (.yes [(rs1, 8)]) (fun e => kStore e rd rs1 (sext16 imm) 8) s

/-- `STW` (Table 9-12); the first operand is rt. -/
def execStw (c : Cid) (rd rs1 : BitVec 5) (imm : BitVec 16) (s : State) : Host.Outcome State Fault Refusal :=
  kev c 4 always (.yes [(rs1, 4)]) (fun e => kStore e rd rs1 (sext16 imm) 4) s

/-- `STH` (Table 9-12); the first operand is rt. -/
def execSth (c : Cid) (rd rs1 : BitVec 5) (imm : BitVec 16) (s : State) : Host.Outcome State Fault Refusal :=
  kev c 4 always (.yes [(rs1, 2)]) (fun e => kStore e rd rs1 (sext16 imm) 2) s

/-- `STB` (Table 9-12); the first operand is rt. -/
def execStb (c : Cid) (rd rs1 : BitVec 5) (imm : BitVec 16) (s : State) : Host.Outcome State Fault Refusal :=
  kev c 4 always (.yes [(rs1, 1)]) (fun e => kStore e rd rs1 (sext16 imm) 1) s

/-- `LDL` (Table 9-15). -/
def execLdl (c : Cid) (rd rs1 : BitVec 5) (imm : BitVec 32) (rsvd : Nat) (s : State) : Host.Outcome State Fault Refusal :=
  kev c 8 (noRsvd rsvd) .no (fun e => kLoad e rd rs1 (sext32 imm) 8 false) s

/-- `STL` (Table 9-15); the first operand is rt. -/
def execStl (c : Cid) (rd rs1 : BitVec 5) (imm : BitVec 32) (rsvd : Nat) (s : State) : Host.Outcome State Fault Refusal :=
  kev c 8 (noRsvd rsvd) .no (fun e => kStore e rd rs1 (sext32 imm) 8) s

/-- Two word addresses with their checks in the order of R226: tagged bases, then misalignment. DESIGN CHOICE: where both fail a
check, the exception names the first register (assumption 195). -/
def KEnv.address2 (e : KEnv) (rs1 rs2 : BitVec 5) (k : Nat → Nat → KRes) : KRes :=
  let a := e.c.reg rs1
  let b := e.c.reg rs2
  if a.2 then .exc e.c 5 3 rs1.toNat 0
  else if b.2 then .exc e.c 5 3 rs2.toNat 0
  else if a.1.toNat % 8 ≠ 0 then .exc e.c 3 0 0 a.1.toNat
  else if b.1.toNat % 8 ≠ 0 then .exc e.c 3 0 0 b.1.toNat
  else k a.1.toNat b.1.toNat

/-- `MACCM`: the product of two words of memory into the accumulator (Table 9-11, R213). -/
def execMaccm (c : Cid) (rs1 rs2 : BitVec 5) (rsvd : Nat) (s : State) : Host.Outcome State Fault Refusal :=
  kev c 4 (noRsvd rsvd) (if rs1 = rs2 then .bad else .yes [(rs1, 8), (rs2, -8)]) (fun e =>
    e.address2 rs1 rs2 (fun a b =>
      match e.load a 8, e.load b 8 with
      | some (v, t), some (u, r) => e.filled a (e.filled b (.ok e.x (e.c.accumulate (v * u) (t || r))))
      | none, _ => .exc e.c 4 0 0 a
      | some _, none => .exc e.c 4 0 0 b)) s

/-- `MMOV`: a word of memory moved with its tag (Table 9-11, R216). -/
def execMmov (c : Cid) (rs1 rs2 : BitVec 5) (rsvd : Nat) (s : State) : Host.Outcome State Fault Refusal :=
  kev c 4 (noRsvd rsvd) (if rs1 = rs2 then .bad else .yes [(rs1, 8), (rs2, 8)]) (fun e =>
    e.address2 rs1 rs2 (fun a b =>
      match e.load a 8 with
      | some (v, t) => match e.store b 8 v t 0 with
        | .ok x c => e.filled a (.ok x c)
        | r => r
      | none => .exc e.c 4 0 0 a)) s

end Sys2Proof.Machine
end

