-- ==== Sys2Proof/Machine/KaibasWords.lean ====
section
/-! DEFINITION. The words of Kaibas: which row a 32-bit word belongs to, and its fields (Tables 9-7 to 9-15, R212, Table 10-6).
A row's reserved field is 0 exactly when every reserved field of its word is. -/

namespace Sys2Proof.Machine

/-- The major opcode of a word (Table 9-7). -/
def opOf (w : BitVec 32) : Nat := bits w.toNat 31 26

/-- The word of `brk` (Table 9-14): every other field is reserved. -/
def brkWord : BitVec 32 := 0x08000008

/-- The field in bits [25:21]: rd, rt, or the first comparand of a branch (Table 9-7). -/
def wordRd (w : BitVec 32) : BitVec 5 := w.extractLsb' 21 5

/-- The field in bits [20:16]: rs1, or the second comparand of a branch. -/
def wordRs1 (w : BitVec 32) : BitVec 5 := w.extractLsb' 16 5

/-- The field in bits [15:11]: rs2. -/
def wordRs2 (w : BitVec 32) : BitVec 5 := w.extractLsb' 11 5

/-- The field in bits [15:0]. -/
def wordImm (w : BitVec 32) : BitVec 16 := w.extractLsb' 0 16

/-- Reserved fields of a word, each by its highest and lowest bit, as one number. -/
def rsvdOf (w : BitVec 32) (l : List (Nat × Nat)) : Nat := l.foldl (fun n f => n * 2 ^ (f.1 + 1 - f.2) + bits w.toNat f.1 f.2) 0

/-- Opcode 0x00, by fn (Table 9-10). -/
def intWord (c : Cid) (w : BitVec 32) : Option Instr :=
  let d := wordRd w
  let a := wordRs1 w
  let b := wordRs2 w
  let v := rsvdOf w [(10, 6)]
  let v1 := rsvdOf w [(15, 6)]
  match bits w.toNat 5 0 with
  | 0x00 => some (.add c d a b v)
  | 0x01 => some (.sub c d a b v)
  | 0x02 => some (.kAnd c d a b v)
  | 0x03 => some (.kOr c d a b v)
  | 0x04 => some (.kXor c d a b v)
  | 0x05 => some (.andn c d a b v)
  | 0x06 => some (.sll c d a b v)
  | 0x07 => some (.srl c d a b v)
  | 0x08 => some (.sra c d a b v)
  | 0x09 => some (.rol c d a b v)
  | 0x0A => some (.ror c d a b v)
  | 0x0B => some (.slt c d a b v)
  | 0x0C => some (.sltu c d a b v)
  | 0x0D => some (.seq c d a b v)
  | 0x0E => some (.kMin c d a b v)
  | 0x0F => some (.kMax c d a b v)
  | 0x10 => some (.minu c d a b v)
  | 0x11 => some (.maxu c d a b v)
  | 0x12 => some (.csel c d a b v)
  | 0x13 => some (.mul c d a b v)
  | 0x14 => some (.mulhu c d a b v)
  | 0x15 => some (.mulh c d a b v)
  | 0x16 => some (.div c d a b v)
  | 0x17 => some (.divu c d a b v)
  | 0x18 => some (.kRem c d a b v)
  | 0x19 => some (.remu c d a b v)
  | 0x1A => some (.clz c d a v1)
  | 0x1B => some (.ctz c d a v1)
  | 0x1C => some (.popc c d a v1)
  | 0x1D => some (.bswap c d a v1)
  | 0x1E => some (.adc c d a b v)
  | 0x1F => some (.sbb c d a b v)
  | _ => none

/-- Opcode 0x01, by fn (Table 9-11). -/
def wideWord (c : Cid) (w : BitVec 32) : Option Instr :=
  let a := wordRs1 w
  let b := wordRs2 w
  let v := rsvdOf w [(25, 21), (10, 6)]
  match bits w.toNat 5 0 with
  | 0x00 => some (.macc c a b v)
  | 0x01 => some (.macc2 c a b v)
  | 0x02 => some (.accsh c (wordRd w) (rsvdOf w [(20, 6)]))
  | 0x03 => some (.accclr c (rsvdOf w [(25, 6)]))
  | 0x04 => some (.accadd c a (rsvdOf w [(25, 21), (15, 6)]))
  | 0x05 => some (.maccm c a b v)
  | 0x06 => some (.mmov c a b v)
  | _ => none

/-- Opcode 0x02, by fn (Table 9-14). -/
def systemWord (c : Cid) (w : BitVec 32) : Option Instr :=
  let v := rsvdOf w [(25, 6)]
  let v1 := rsvdOf w [(25, 21), (15, 6)]
  match bits w.toNat 5 0 with
  | 0x01 => some (.wait c v)
  | 0x02 => some (.eng c (wordRs1 w) v1)
  | 0x03 => some (.orr c (wordRs1 w) v1)
  | 0x04 => some (.dcl c (wordRd w) (wordRs1 w) (rsvdOf w [(15, 6)]))
  | 0x05 => some (.fence c v)
  | 0x06 => some (.eret c v)
  | 0x07 => some (.halt c v)
  | 0x08 => some (.brk c w)
  | _ => none

/-- Opcode 0x05, by function (Table 10-6), executed at the stamp `t`. -/
def serviceWord (t : Nat) (c : Cid) (w : BitVec 32) : Option Instr :=
  let v := rsvdOf w [(25, 16)]
  match bits w.toNat 15 0 with
  | 0x0001 => some (.exit t c v)
  | 0x0002 => some (.child t c v)
  | 0x0010 => some (.payloadRead t c v)
  | 0x0011 => some (.resultWrite t c v)
  | 0x0012 => some (.rng t c v)
  | 0x0013 => some (.keyAttr t c v)
  | 0x0014 => some (.keyNew t c v)
  | 0x0015 => some (.keyPut t c v)
  | 0x0016 => some (.keyGet t c v)
  | 0x0020 => some (.sramAlloc t c v)
  | 0x0021 => some (.sramFree t c v)
  | _ => none

/-- Opcode 0x3F, by lop, with the second word (Table 9-15). -/
def longWord (c : Cid) (w imm : BitVec 32) : Option Instr :=
  let d := wordRd w
  let a := wordRs1 w
  let v := rsvdOf w [(11, 0)]
  match bits w.toNat 15 12 with
  | 0x0 => some (.li c d imm (rsvdOf w [(20, 16), (11, 0)]))
  | 0x1 => some (.lih c d imm (rsvdOf w [(20, 16), (11, 0)]))
  | 0x2 => some (.addl c d a imm v)
  | 0x3 => some (.andl c d a imm v)
  | 0x4 => some (.orl c d a imm v)
  | 0x5 => some (.xorl c d a imm v)
  | 0x6 => some (.ldl c d a imm v)
  | 0x7 => some (.stl c d a imm v)
  | _ => none

/-- The instruction that a word is, by its major opcode (Tables 9-8, 9-9, 9-12 and 9-13), in the context `c` at the stamp `t`;
`imm` is the word after it, which a long form alone reads. Nothing where the word is undefined (R212). -/
def kaibasWord (t : Nat) (c : Cid) (w imm : BitVec 32) : Option Instr :=
  let d := wordRd w
  let a := wordRs1 w
  let i := wordImm w
  let kind := bits w.toNat 15 14
  let sh : BitVec 6 := w.extractLsb' 0 6
  let vs := rsvdOf w [(13, 6)]
  match opOf w with
  | 0x00 => intWord c w
  | 0x01 => wideWord c w
  | 0x02 => systemWord c w
  | 0x03 => some (.mfs c d (w.extractLsb' 0 12) (rsvdOf w [(20, 12)]))
  | 0x04 => some (.mts c (w.extractLsb' 0 12) a (rsvdOf w [(25, 21), (15, 12)]))
  | 0x05 => serviceWord t c w
  | 0x08 => some (.addi c d a i)
  | 0x09 => some (.andi c d a i)
  | 0x0A => some (.ori c d a i)
  | 0x0B => some (.xori c d a i)
  | 0x0C => some (.slti c d a i)
  | 0x0D => some (.sltiu c d a i)
  | 0x0E => some (.lui c d i (rsvdOf w [(20, 16)]))
  | 0x0F => some (if kind = 0 then .slli c d a sh vs else if kind = 1 then .srli c d a sh vs
      else if kind = 2 then .srai c d a sh vs else .rori c d a sh vs)
  | 0x10 => some (.ld c d a i)
  | 0x11 => some (.ldw c d a i)
  | 0x12 => some (.ldws c d a i)
  | 0x13 => some (.ldh c d a i)
  | 0x14 => some (.ldhs c d a i)
  | 0x15 => some (.ldb c d a i)
  | 0x16 => some (.ldbs c d a i)
  | 0x18 => some (.st c d a i)
  | 0x19 => some (.stw c d a i)
  | 0x1A => some (.sth c d a i)
  | 0x1B => some (.stb c d a i)
  | 0x20 => some (.beq c d a i)
  | 0x21 => some (.bne c d a i)
  | 0x22 => some (.blt c d a i)
  | 0x23 => some (.bge c d a i)
  | 0x24 => some (.bltu c d a i)
  | 0x25 => some (.bgeu c d a i)
  | 0x28 => some (.j c (w.extractLsb' 0 26))
  | 0x29 => some (.call c (w.extractLsb' 0 26))
  | 0x2A =>
    match bits w.toNat 1 0 with
    | 0 => some (.jr c d (rsvdOf w [(20, 2)]))
    | 1 => some (.callr c d (rsvdOf w [(20, 2)]))
    | 2 => some (.ret c (rsvdOf w [(25, 2)]))
    | _ => none
  | 0x30 => some (.rep c (rsvdOf w [(25, 0)]))
  | 0x3F => longWord c w imm
  | _ => none

/-- A word of `brk`'s row: `brk` itself, or a word that no row has (R212). -/
def ownWord (w : BitVec 32) : Bool :=
  (kaibasWord 0 ⟨0, 0⟩ w 0).isNone || (opOf w == 2 && bits w.toNat 5 0 == 8)

end Sys2Proof.Machine
end

