-- ==== Sys2Proof/Machine/KaibasSys.lean ====
section
/-! DEFINITION. Special registers and system instructions (Tables 9-2 to 9-5, 9-14, 9-18 to 9-21, R207, R208, R218,
R227, R414, R415). -/

namespace Sys2Proof.Machine

/-- `feat0` (Table 9-18): on Zenith `SUP` reads 1 and `ENG` 0 (R229). -/
def feat0 (zenith : Bool) : Nat :=
  0x02 * 2 ^ 40 + 0x01 * 2 ^ 32 + b2n zenith * 2 ^ 16 + 0xFF80 - b2n zenith * 2 ^ 9

/-- `feat1` (Table 9-19). -/
def feat1 : Nat := 2 * 2 ^ 32 + 15 * 2 ^ 24 + 32 * 2 ^ 16 + 128

/-- `feat2` (Table 9-20). -/
def feat2 (e : KEnv) : Nat :=
  twinCode e.w * 2 ^ 22 +
  (if e.zenith then Config.zenithFeat2.toNat * 2 ^ 14
   else islandCluster e.cid.island * 2 ^ 18 + e.cid.island % 206 % 12 * 2 ^ 14) + e.cid.island

/-- `feat3` (Table 9-21). -/
def feat3 : Nat := 68 * 2 ^ 32 + 18 * 2 ^ 24 + 18 * 2 ^ 16 + 4 * 2 ^ 8 + 4

/-- `sr` as read: `DCLP` is the page of the current instruction, and `CTX` the context's number (Table 9-3). -/
def KEnv.srRead (e : KEnv) : BitVec 64 :=
  setBits (setBits e.c.sr 11 1 (b2n (e.dclPage e.c.pc.toNat))) 0 1 (e.cid.ctx % 2)

/-- A special register's value and tag; none for a number that is not a register here (R207). -/
def KEnv.special (e : KEnv) (n : Nat) : Option (Word × Bool) :=
  match n with
  | 0x000 => some (e.srRead, false)
  | 0x020 => some (BitVec.ofNat 64 (feat0 e.zenith), false)
  | 0x021 => some (BitVec.ofNat 64 feat1, false)
  | 0x022 => some (BitVec.ofNat 64 (feat2 e), false)
  | 0x023 => some (BitVec.ofNat 64 feat3, false)
  | 0x024 | 0x025 | 0x026 | 0x027 => some (0, false)
  | 0x030 => if e.zenith then some (e.x.pwm.setWidth 64, false) else none
  | _ => e.c.special n

/-- A register marked "handler" (Table 9-2). -/
def handlerOnly (n : Nat) : Bool := (decide (4 ≤ n) && decide (n ≤ 7)) || (decide (0x010 ≤ n) && decide (n ≤ 0x017))

/-- A register marked RO (Table 9-2). -/
def readOnly (n : Nat) : Bool := n == 0x00B || (decide (0x020 ≤ n) && decide (n ≤ 0x027))

/-- The registers that no tagged value may be written to (R208). -/
def untaggedOnly (n : Nat) : Bool := decide (n ≤ 7) || n == 0x030

/-- A special register written (R207, R208, Table 18-4a). -/
def KEnv.setSpecial (e : KEnv) (n : Nat) (v : Word) (tag : Bool) : TwinSt × Ctx :=
  if n = 0x030 then ({ e.x with pwm := v.setWidth 32 &&& 0x103 }, e.c) else (e.x, e.c.setSpecial n v tag)

/-- `MFS` (Table 9-9, R207). -/
def execMfs (c : Cid) (rd : BitVec 5) (n : BitVec 12) (rsvd : Nat) (s : State) : Host.Outcome State Fault Refusal :=
  kev c 4 (fun e => rsvd == 0 && (e.special n.toNat).isSome) .no (fun e =>
    if handlerOnly n.toNat ∧ ¬ e.c.exc then .exc e.c 9 0 0 0
    else match e.special n.toNat with
      | some (v, tag) => e.result rd v tag
      | none => .exc e.c 1 0 0 0) s

/-- `MTS` (Table 9-9, R207, R208): a tagged source raises subcode 0x05 where R208 says so. -/
def execMts (c : Cid) (n : BitVec 12) (rs1 : BitVec 5) (rsvd : Nat) (s : State) : Host.Outcome State Fault Refusal :=
  kev c 4 (fun e => rsvd == 0 && (e.special n.toNat).isSome && !readOnly n.toNat) .no (fun e =>
    let a := e.c.reg rs1
    if handlerOnly n.toNat ∧ ¬ e.c.exc then .exc e.c 9 0 0 0
    else if untaggedOnly n.toNat ∧ a.2 then .exc e.c 5 5 rs1.toNat 0
    else
      let r := e.setSpecial n.toNat a.1 a.2
      .ok r.1 r.2) s

/-- `WAIT`: goes on when the task's dependence counter is 0, and otherwise enters a wait, which a completion ends
(Table 9-14, R177). Another ready context of the core then executes. -/
def execWait (c : Cid) (rsvd : Nat) (s : State) : Host.Outcome State Fault Refusal :=
  ev s.now (fun s =>
    let s1 := kstep c 4 (noRsvd rsvd) .no (fun e =>
      match e.x.task? e.q e.i with
      | some k => if ¬ e.zenith ∧ k.dep ≠ 0 then .ok e.x { e.c with waiting := true } else .ok e.x e.c
      | none => .ok e.x e.c) s
    match islandTwin c.island with
    | some w => s1.updTwin w (fun x => x.recharge c.island s1.now)
    | none => s1) s

/-- `DCL`: rs1 untagged to rd, counted in `dclc` and in the request; only from a declassify-capable page (R218). -/
def execDcl (c : Cid) (rd rs1 : BitVec 5) (rsvd : Nat) (s : State) : Host.Outcome State Fault Refusal :=
  kev c 4 (noRsvd rsvd) .no (fun e =>
    if ¬ e.dclPage e.c.pc.toNat then .exc e.c 6 0 0 0
    else
      let r := { e.c with dclc := e.c.dclc + 1 }
      .ok (e.x.updReq e.q (fun r => { r with dcl := r.dcl + 1 })) (r.setReg rd (e.c.reg rs1).1 false)) s

/-- `FENCE`: in a model that runs each context's instructions in order, every earlier store is visible (R211). -/
def execFence (c : Cid) (rsvd : Nat) (s : State) : Host.Outcome State Fault Refusal :=
  kev c 4 (noRsvd rsvd) .no (fun e => .ok e.x e.c) s

/-- `ERET` (R227): outside a handler it is privileged; with `CWP` or `DEPTH` changed the task is aborted,
and the record carries `ecause` and `epc`. DESIGN CHOICE: a misaligned `epc` raises at the fetch of the target, after `EXC` is
cleared (assumption 195). -/
def execEret (c : Cid) (rsvd : Nat) (s : State) : Host.Outcome State Fault Refusal :=
  kev c 4 (noRsvd rsvd) .no (fun e =>
    if ¬ e.c.exc then .exc e.c 9 0 0 0
    else if e.c.cwp ≠ bits e.c.esr.toNat 23 20 ∨ e.c.depth ≠ bits e.c.esr.toNat 47 32 then
      .leave (fun s => s.killTask e (bits e.c.ecause.toNat 7 0) (bits e.c.ecause.toNat 15 8) (bits e.c.ecause.toNat 20 16)
        e.c.epc.toNat)
    else
      let r := e.c.setCarry (e.c.esr.getLsbD 7) (e.c.esr.getLsbD 6)
      .jump e.x { r with sr := setBits r.sr 31 1 0 } e.c.epc) s

/-- A wake event is pending for Zenith: an admin request waits for it (R415). -/
def TwinSt.zenithWork (x : TwinSt) : Bool := x.reqs.any (fun e => e.2.space == adminSpace && e.2.fin.isNone && !e.2.begun)

/-- `HALT` (Table 9-14, R226, R415): privileged on a transaction core; on Zenith with `ARM` 1 the entry to `HSTATE`
begins and `ARM` is cleared, unless a wake event is pending; with `ARM` 0 it is `nop`. -/
def execHalt (c : Cid) (rsvd : Nat) (s : State) : Host.Outcome State Fault Refusal :=
  ev s.now (fun s =>
    let s1 := kstep c 4 (noRsvd rsvd) .no (fun e =>
      if ¬ e.zenith then .exc e.c 9 0 0 0
      else if e.x.pwm.getLsbD 8 ∧ ¬ e.x.zenithWork then
        .ok { e.x with pwm := e.x.pwm &&& 0x003 } { e.c with waiting := true }
      else .ok e.x e.c) s
    match s.kenv? c with
    | some e =>
      if e.zenith ∧ (Tbl.getD (s1.twin e.w).ctxs (ctxKey c) ({} : Ctx)).waiting then
        s1.updDomain c.island (fun d => { d with st := if e.x.pwm &&& 3 = 1 then .nap else .doze })
      else s1
    | none => s1) s

/-- `BRK` (Table 9-14), and the words that no row has (assumption 188): an undefined one raises the undefined-instruction
exception, `svc` with an undefined function a service refusal (R212, R242), and `brk` the break exception. The words of other
rows are those rows' own (`kaibasWord`). -/
def execBrk (c : Cid) (word : BitVec 32) (s : State) : Host.Outcome State Fault Refusal :=
  if ownWord word then
    kev c 4 (fun _ => word == brkWord || (opOf word == 5 && bits word.toNat 25 16 == 0)) .no (fun e =>
      if word = brkWord then .exc e.c 10 0 0 0 else .exc e.c 8 0 0 (bits word.toNat 15 0)) s
  else ev s.now id s

end Sys2Proof.Machine
end

