-- ==== Sys2Proof/Machine/Twins.lean ====
section
/-! DEFINITION. The two twins: epoch batches and what they agree, deadline verdicts, the effect points of ordinary disables,
mismatches, switch-over, degradation and resynchronisation (R11, R24 to R26, R31, R139, R143, R180, R190, R195, R331,
R336 to R350). -/

namespace Sys2Proof.Machine

/-- The island that cause 0x0A names: the twin's link port (assumption 41). -/
def linkIsland (w : Twin) : Nat := twinBase w + 203

/-- The island that causes 0x06 and 0x07 name: Coachyard, which forms the end records (assumption 41). -/
def digestIsland (w : Twin) : Nat := twinBase w + 196

/-- Islands in rising order, for the tie rule of R28. -/
def rising (l : List Nat) : List Nat := l.mergeSort (fun a b => decide (a ≤ b))

/-- What a pulse finds of the islands of one die, by their numbers in it. An island that it does not name is found to agree
with it; a counter that stood ahead does not step back (R24). -/
def pulseOffs (w : Option Twin) (now : Nat) (old : Tbl (Int × Nat × Nat)) (offs : List (Nat × Int)) :
    Tbl (Int × Nat × Nat) :=
  let found := (offs.filter (fun o => islandTwin o.1 == w)).map (fun o => (if w.isSome then o.1 % 206 else o.1, o.2))
  (found.map Prod.fst ++ old.map Prod.fst).foldl (fun (t : Tbl (Int × Nat × Nat)) i =>
    let d := (found.find? (fun o => o.1 == i)).elim 0 Prod.snd
    let low := clockAt old now i
    if d = 0 ∧ low ≤ now then t else Tbl.put t i (d, now, low)) []

/-- `DISCIPLINE_PULSE` (R24 to R26, R28): each disciplined island's counter is found to differ from the pulse by so much; more
than 4 units raise a clock alarm, which the monitors of class 8 read and which is cause 0x05 in the island's twin, the lowest
island first. An island held after Sleep or Nap has one pulse more. -/
def execDisciplinePulse (t : Nat) (offs : List (Nat × Int)) (s : State) : Host.Outcome State Fault Refusal :=
  ev t (fun s =>
    if s.now % 4000 ≠ 0 ∨ ¬ s.boot.up then s else
      let offs := offs.filter (fun o => decide (o.1 < 426) && s.awake o.1)
      let far := rising ((offs.filter (fun o => decide (4 < o.2.natAbs))).map Prod.fst)
      let s := { s with
        offs := pulseOffs none s.now s.offs offs
        twinA := { s.twinA with offs := pulseOffs (some .a) s.now s.twinA.offs offs }
        twinB := { s.twinB with offs := pulseOffs (some .b) s.now s.twinB.offs offs }
        power := { s.power with domains := s.power.domains.map (fun (d : Nat × Domain) => (d.1, d.2.pulsed s.now)) } }
      far.foldl (fun s i => match islandTwin i with
        | some w => if s.executes w then s.cause w 0x05 i else s
        | none => s) s) s

/-- Two tables merged, entry by entry. -/
def mergeTbl {α : Type} (f : α → α → α) (a b : Tbl α) : Tbl α :=
  b.foldl (fun (t : Tbl α) (e : Nat × α) =>
    Tbl.put t e.1 (match Tbl.find? t e.1 with | some v => f v e.2 | none => e.2)) a

/-- Record slots, extension slots and ledger entries that a compartment's store holds (R138, R139, R143). The transport
key stands in the slots that no quota is offered. -/
def Comp.holding (c : Comp) : Nat × Nat × Nat :=
  let recs := c.keys.map Prod.snd
  (recs.length + c.draws.length, recs.foldl (fun n k => n + extSlots k.material.length) 0,
   c.ledger.countP (fun (e : Nat × Ledger) => !e.2.reserve))

/-- Whether what a request took is still its own: its effects do not stand in the store yet (R139). -/
def Req.holdsShare (r : Req) : Bool := !r.applied

/-- What a twin holds for a compartment at an epoch (R139, R143). -/
def TwinSt.holdingOf (x : TwinSt) (e c : Nat) (k : Comp) : Nat × Nat × Nat :=
  (x.reqs.filter (fun (p : Nat × Req) => p.2.space == c && p.2.holdsShare && decide (p.1 < 4000 * e))).foldl
    (fun (h : Nat × Nat × Nat) p => (h.1 + p.2.slotsTaken, h.2.1 + p.2.extTaken, h.2.2 + p.2.ledTaken)) k.holding

/-- Replay entries and result units that a twin holds for a compartment (R76). -/
def TwinSt.replayHolding (x : TwinSt) (e c : Nat) (k : Comp) : Nat × Nat :=
  (x.reqs.filter (fun (p : Nat × Req) => p.2.space == c && p.2.holdsShare && decide (p.1 < 4000 * e) &&
    (Tbl.find? x.repTaken (p.1 * 2048 + c)).isSome)).foldl
    (fun (h : Nat × Nat) p => (h.1 + 1, h.2 + p.2.resUnits))
    (k.replay.length, k.replay.foldl (fun n r => n + r.units) 0)

/-- Entries of the flow table that a twin holds: requests in service, open streams and fences (R69). -/
def TwinSt.flowsHeld (x : TwinSt) (act : Bool) : List Nat :=
  distinct ((x.store.flows.filter (fun (f : Nat × Flow) => f.2.fence || f.2.stream.isOpen)).map Prod.fst ++
    (x.reqs.filter (fun (p : Nat × Req) => p.2.hdr.flow != 0 && !p.2.resolved act)).map
      (fun (p : Nat × Req) => flowKey p.2.space p.2.hdr.flow))

/-- Entries of the revocation reserve that a twin holds (R143). -/
def TwinSt.reserveHeld (x : TwinSt) : Nat :=
  x.store.reserveUsed + x.resTaken.countP (fun q => match Tbl.find? x.reqs q with | some r => r.holdsShare | none => false)

/-- Acceptance stamps of the replay entries whose commit lies 30 s or more in the past and is not agreed so (R76). -/
def TwinSt.agedReplays (x : TwinSt) (now : Nat) : List Nat :=
  ((x.store.comps.flatMap (fun (e : Nat × Comp) => e.2.replay) ++ x.store.admReplay).filter (fun r =>
    r.agedAt.isNone && decide (r.commit + halfMinute ≤ now))).map (fun r => r.accept)

/-- The verdict that the active's batch gives on a request with its end record: an expiry's status, or 0 (R190). -/
def Req.verdictOf (r : Req) (q : Nat) (e : EndRec) : List (Nat × Nat) :=
  if r.expiry q then [(q, e.status)] else if r.hdr.deadline = 0 then [] else [(q, 0)]

/-- End records formed since the previous batch. -/
def TwinSt.unsent (x : TwinSt) : List (Nat × Req × EndRec) :=
  x.reqs.filterMap (fun (p : Nat × Req) =>
    match p.2.fin with
    | some e => if p.2.sent.isNone then some (p.1, p.2, e) else none
    | none => none)

/-- The batch that a twin closes (R331). -/
def TwinSt.batchOf (x : TwinSt) (act seeds : Bool) (now e : Nat) (alone : Nat → Bool) : Batch :=
  let new_ := x.unsent
  { epoch := e
    digests := new_.map (fun p => (p.1, p.2.2.digest))
    hold := x.store.comps.map (fun (c : Nat × Comp) => (c.1, x.holdingOf e c.1 c.2))
    flows := x.flowsHeld act
    reserve := x.reserveHeld
    aged := x.agedReplays now
    rep := x.store.comps.map (fun (c : Nat × Comp) => (c.1, x.replayHolding e c.1 c.2))
    verdicts := if act then new_.flatMap (fun p => p.2.1.verdictOf p.1 p.2.2) else []
    dispatched := (x.reqs.filter (fun (p : Nat × Req) => p.2.begun)).map Prod.fst
    seed := if seeds then x.ent.proposal.bind (fun p => if p.2.2.2 then none else some (p.1, p.2.1, p.2.2.1)) else none
    seedAck := if seeds then none else x.ent.proposal.bind (fun p => if p.2.2.2 then some p.2.1 else none)
    tests := x.testsOut
    reexec := x.reqs.filterMap (fun (p : Nat × Req) => if p.2.mismatch then p.2.reexec.map (fun b => (p.1, b)) else none)
    fx := x.fxOut ++ (new_.filter (fun p => p.2.1.applied && alone p.1)).map
      (fun p => (p.1, p.2.2.status, p.2.2.effects)) }

/-- Whether the commit that carried an effect is confirmed before an epoch (R195, assumption 42): its request has left, or
both digests went in earlier batches; alone, a commit needs no confirmation. -/
def TwinSt.confirmed (x : TwinSt) (solo : Bool) (e : Nat) (p : Effect → Bool) : Bool :=
  solo || x.reqs.all (fun (r : Nat × Req) =>
    match r.2.fin with
    | some f => !f.effects.any p ||
        (r.2.compared && r.2.sent.any (fun n => decide (n < e)) && r.2.peerDig.any (fun d => decide (d.1 < e)))
    | none => true)

/-- The effect points of the suspensions and unloads whose commits are confirmed: this epoch's batch (R148, R150,
R195). -/
def TwinSt.fixPoints (x : TwinSt) (solo : Bool) (e : Nat) : TwinSt :=
  let susp := fun (c : Nat) => x.confirmed solo e (fun f => match f with | .compState d .suspended => d == c | _ => false)
  let unl := fun (c h : Nat) => x.confirmed solo e (fun f => match f with | .keyUnload d g _ => d == c && g == h | _ => false)
  let one := fun (p : Nat × Comp) => (p.1, { p.2 with
    suspendAt := if p.2.suspendAt = some 0 ∧ susp p.1 then some e else p.2.suspendAt
    keys := p.2.keys.map (fun (k : Nat × KeyRec) =>
      (k.1, if k.2.unloadAt = some 0 ∧ unl p.1 k.1 then { k.2 with unloadAt := some (4000 * e) } else k.2)) })
  { x with store := { x.store with comps := x.store.comps.map one } }

/-- Whether a swap at an epoch removes the binding that serves a request accepted before it (R195, Table 8-4). -/
def TwinSt.unboundBy (x : TwinSt) (q : Nat) (r : Req) (e : Nat) : Bool :=
  decide (q < 4000 * e) && !r.forZenith &&
  (match x.entryOf q r, x.store.dispatch r.space r.hdr.opcode (4000 * e) with
   | some (i, _), some (j, _) => i != j
   | some _, none => true
   | none, _ => false)

/-- The exchange that decides an ordinary disable (R195): requests concerned that neither twin has dispatched end
`DISABLED`. -/
def TwinSt.cut (x : TwinSt) (act : Bool) (now e : Nat) (others : List Nat) : TwinSt :=
  let due := fun (c : Comp) => c.suspendAt.any (fun u => u != 0 && decide (u ≤ e))
  let susp := (x.store.comps.filter (fun (c : Nat × Comp) => due c.2)).map Prod.fst
  let unb := x.unbindAt.filter (fun u => decide (u ≤ e))
  let gone := x.reqs.filter (fun (p : Nat × Req) => p.2.fin.isNone && !p.2.begun && !others.contains p.1 &&
    p.2.space != adminSpace && (susp.contains p.2.space || unb.any (fun u => x.unboundBy p.1 p.2 u)))
  let x := gone.foldl (fun (x : TwinSt) (p : Nat × Req) => x.answer act now p.1 stDisabled) x
  { x with
    store := { x.store with comps := x.store.comps.map (fun (c : Nat × Comp) =>
      (c.1, if due c.2 then { c.2 with suspendAt := none } else c.2)) }
    unbindAt := if unb.isSome then none else x.unbindAt }

/-- What two batches of an epoch agree (R139, R143, R180, R76): of holdings the greater (assumption 43). -/
def agreeOf (own b : Batch) : Batch :=
  { epoch := b.epoch
    hold := mergeTbl (fun u v => (max u.1 v.1, max u.2.1 v.2.1, max u.2.2 v.2.2)) own.hold b.hold
    flows := distinct (own.flows ++ b.flows)
    reserve := max own.reserve b.reserve
    rep := mergeTbl (fun u v => (max u.1 v.1, max u.2 v.2)) own.rep b.rep }

/-- A twin takes over what was agreed at an epoch. What acceptances took, and what earlier batches agreed, is kept as far back as
a request in service or one from `low` on, the oldest still to arrive, can count it. -/
def TwinSt.agree (x : TwinSt) (own b : Batch) (low : Nat) : TwinSt :=
  let all := agreeOf own b :: x.agreed
  let recent := all.takeWhile (fun p => decide (low ≤ 4000 * p.epoch))
  let agreed := recent ++ (all.drop recent.length).take 1
  let first := (agreed.getLast?).elim 0 (fun p => p.epoch)
  let old := fun (r : Replay) =>
    if r.agedAt.isNone ∧ own.aged.contains r.accept ∧ b.aged.contains r.accept then { r with agedAt := some (4000 * b.epoch) }
    else r
  let from_ := x.reqs.foldl (fun (n : Nat) (p : Nat × Req) => if p.2.holdsShare then min n (p.2.base.getD 4 0) else n) first
  let keep := fun (q : Nat) => decide (4000 * from_ ≤ q) ||
    (match Tbl.find? x.reqs q with | some r => r.holdsShare | none => false)
  { x with
    agreed := agreed
    store := { x.store with
      admReplay := x.store.admReplay.map old
      comps := x.store.comps.map (fun (c : Nat × Comp) => (c.1, { c.2 with replay := c.2.replay.map old })) }
    taken := x.taken.filter (fun e => keep (e.1 / 2048))
    repTaken := x.repTaken.filter (fun e => keep (e.1 / 2048))
    flowTaken := x.flowTaken.filter (fun e => decide (4000 * first ≤ e.1))
    failed := x.failed.filter (fun e => decide (low ≤ e.2.2.2))
    resTaken := x.resTaken.filter keep }

/-- The oldest acceptance stamp of an entry still on its way to a twin. -/
def State.stillToCome (s : State) (w : Twin) : Nat :=
  (s.rreqs.filter (fun (e : Nat × RReq) => e.2.to w && (Tbl.find? (s.twin w).reqs e.1).isNone)).foldl
    (fun (n : Nat) (e : Nat × RReq) => min n e.1) s.now

/-- The end records of a batch marked as sent; an expiry of the active is compared with what the standby sends after its
verdict (R190). -/
def TwinSt.markSent (x : TwinSt) (act : Bool) (e : Nat) : TwinSt :=
  { x with reqs := x.reqs.map (fun (p : Nat × Req) => (p.1,
      if p.2.fin.isNone ∨ p.2.sent.isSome then p.2
      else if act ∧ p.2.expiry p.1 then { p.2 with sent := some e, digFrom := e, peerDig := none }
      else { p.2 with sent := some e })) }

/-- `EPOCH_BATCH` (R331): a twin closes its batch of the epoch and sends it; with no twin to exchange with, its own items are
agreed at once. The spares that have become free are given out (R439, R440). The epoch wakes Zenith (R415, R424); a twin whose
Zenith or link port debug has halted sends none (R402; assumption 40). -/
def execEpochBatch (t : Nat) (w : Twin) (s : State) : Host.Outcome State Fault Refusal :=
  ev t (fun s =>
    let e := epochOf s.now
    if ¬ (s.twin w).exchanges ∨ ¬ s.boot.up ∨ s.now % 4000 ≠ 0 ∨ e ≤ (s.twin w).lastBatch ∨
        s.debugHalted (twinBase w + 198) ∨ s.debugHalted (linkIsland w) then s else
      let s := s.wakeZenith w
      let o := s.twin (otherTwin w)
      let act := s.isActive w
      let alone := fun (q : Nat) => o.role == .resync &&
        (match Tbl.find? s.rreqs q with | some rr => !rr.to (otherTwin w) | none => false)
      (((s.updTwin w (fun x =>
        let x := ({ (x.tendSpares w).markCap w act s.now with lowCome := s.stillToCome w }.fixPoints (!o.exchanges) e).sweep
        let b := { x.batchOf act (s.seedTwin == w) s.now e alone with health := s.health.sections w }
        let x := { x.markSent act e with lastBatch := e, fxOut := [], testsOut := [] }
        if o.exchanges then { x with outBatch := x.outBatch ++ [b], sentBatch := x.sentBatch ++ [b] }
        else (x.agree b b (s.stillToCome w)).cut act s.now e [])).updHealth (fun h => h.sentBy w)).moveReports w)) s

/-- A verdict of the active arrives in the standby (R190): a commit held back stands, or an expiry discards it, taking back what a
commit without a `DEADLINE` has changed already (R247), and the request ends as in the active. -/
def TwinSt.verdict (x : TwinSt) (now q v : Nat) : TwinSt :=
  match Tbl.find? x.reqs q with
  | none => x
  | some r =>
    if r.secure then x
    else if v = 0 then (x.updReq q (fun r => { r with verdict := some 0 })).applyFin q
    else
      let x := x.dropTasks now q (fun _ => true) true
      let x := { x with store := applyEffects now x.store r.undo }
      let e := r.endRec false now q { status := v }
      let x := { x with ctr := { x.ctr with
        dlExp := satAdd 32 x.ctr.dlExp (b2n (v == stExpired && r.fin.all (fun (o : EndRec) => o.status != stExpired)))
        dlPrec := satAdd 32 x.ctr.dlPrec (b2n (v == stPrecedence && r.fin.all (fun (o : EndRec) => o.status != stPrecedence))) } }
      ((x.updReq q (fun r =>
        { r with fin := some e, applied := false, undo := [], verdict := some v, compared := false, mismatch := false
                 timedOut := none, staged := [], stagedEv := [], result := [], sent := none, peerDig := none
                 digFrom := 0 })).applyFin q).sweep

/-- The other twin's digest of a request arrives (R331). -/
def TwinSt.digestIn (x : TwinSt) (act : Bool) (e q : Nat) (d : Bytes) : TwinSt :=
  (x.updReq q (fun r => if r.digFrom < e then { r with peerDig := some (e, d) } else r)).compareReq act q

/-- Seed items of a batch (R318): the other twin keeps the proposal; the proposal of the twin that makes the seeds is
acknowledged in time when the acknowledgment arrives by E - 10, the first seed's at any time. -/
def TwinSt.seedIn (x : TwinSt) (maker : Bool) (now : Nat) (b : Batch) : TwinSt :=
  { x with ent := { x.ent with proposal :=
      if maker then x.ent.proposal.map (fun p =>
        (p.1, p.2.1, p.2.2.1, p.2.2.2 || (b.seedAck == some p.2.1 && (p.1 == 1 || decide (now + 40000 ≤ 4000 * p.2.1)))))
      else match b.seed with
        | some p => some (p.1, p.2.1, p.2.2, x.ent.proposal.any (fun o => o.2.1 == p.2.1 && o.2.2.2))
        | none => x.ent.proposal } }

/-- Effects of a request that only the active executes arrive in a returning twin (R349). -/
def TwinSt.foreignIn (x : TwinSt) (now : Nat) (f : Nat × Nat × List Effect) : TwinSt :=
  let x := { x with store := applyEffects now x.store f.2.2 }
  let x := x.notify f.1 f.2.1
  ({ x with reqs := Tbl.del x.reqs f.1 }).sweep

/-- The outcomes of the mismatches of which a batch has brought the second re-execution result (Table 14-5, R346): each is
resolved alone, and a twin that any of them names is acted on once. Where they name both, it is a relinquish and a degradation
in one epoch. While the active is giving up, the new active applies its own column at its promotion. -/
def State.resolveAll (s : State) (w : Twin) (l : List (Nat × Bool × Bool)) : State :=
  let l := l.filter (fun p => (Tbl.find? (s.twin w).reqs p.1).any (fun r => r.mismatch))
  let o := otherTwin w
  let comp := fun (q : Nat) => (Tbl.getD (s.twin w).reqs q {}).hdr.comp
  if (s.twin w).giveUp ∨ s.failStop then s
  else match l.find? (fun p => p.2.1 == p.2.2) with
    | some (q, own, _) => (s.mismatchEvent q (comp q) (if own then 1 else 4)).doFailStop 0x06
    | none =>
      let s := l.foldl (fun s p => if p.2.1 then s.settleMismatch w p.1 2 else s.settleMismatch o p.1 3) s
      let s := if l.any (fun p => p.2.1) then s.cause o 0x06 (digestIsland o) else s
      if l.any (fun p => !p.2.1) then s.giveUp w 0x06 (digestIsland w) else s

/-- A batch received by a twin (R331); a mismatch that it shows wakes the twin for its resolution (Table 18-5). -/
def State.receive (s : State) (w : Twin) (b : Batch) : State :=
  let act := s.isActive w
  let own := (((s.twin w).sentBatch.filter (fun o => decide (o.epoch ≤ b.epoch))).getLast?).getD {}
  let s := s.updTwin w (fun x =>
    let x := if act then x else b.verdicts.foldl (fun (x : TwinSt) v => x.verdict s.now v.1 v.2) x
    let x := b.digests.foldl (fun (x : TwinSt) d => x.digestIn act b.epoch d.1 d.2) x
    let x := (x.takeReexec w).cut act s.now b.epoch b.dispatched
    let x := b.fx.foldl (fun (x : TwinSt) f => x.foreignIn s.now f) (x.seedIn (s.seedTwin == w) s.now b)
    { x.agree own b (s.stillToCome w) with sentBatch := x.sentBatch.filter (fun o => decide (b.epoch < o.epoch)) })
  let s := s.wakeMismatch w
  let s := b.health.foldl (fun s p => s.sectionIn w p) s
  let s := b.tests.foldl (fun s p => s.deliverIn w (.selftest p.1) p.2) s
  if ¬ act then s
  else s.resolveAll w (own.reexec.filterMap (fun (p : Nat × Bool) =>
    (List.find? (fun (r : Nat × Bool) => r.1 == p.1) b.reexec).map (fun r => (p.1, p.2, r.2))))

/-- `BATCH_RECEIVED` (R331): a twin receives the other twin's oldest batch on its way. -/
def execBatchReceived (t : Nat) (w : Twin) (s : State) : Host.Outcome State Fault Refusal :=
  ev t (fun s =>
    match (s.twin (otherTwin w)).outBatch with
    | [] => s
    | b :: l =>
      if (s.twin w).exchanges then (s.updTwin (otherTwin w) (fun x => { x with outBatch := l })).receive w b else s) s

/-- `STANDBY_DIGEST_LATE` (R336): the bound of the rule passed without the standby's digest. -/
def execStandbyDigestLate (t q : Nat) (s : State) : Host.Outcome State Fault Refusal :=
  ev t (fun s =>
    match s.active with
    | none => s
    | some w =>
      match Tbl.find? s.rreqs q, Tbl.find? (s.twin w).reqs q with
      | some rr, some r =>
        match r.fin with
        | some e =>
          if r.peerDig.isNone ∧ ¬ r.compared ∧ s.mustCompare w rr ∧ ¬ s.failStop ∧ e.stamp + max 80000 (r.ran / 4) ≤ s.now then
            (s.updTwin w (fun x => { x with ctr := { x.ctr with digestLate := satAdd 32 x.ctr.digestLate 1 } })).cause
              (otherTwin w) 0x07 (digestIsland (otherTwin w))
          else s
        | none => s
      | _, _ => s) s

/-- `BATCHES_MISSING` (R338): no batch from a twin for three consecutive epochs. -/
def execBatchesMissing (t : Nat) (w : Twin) (s : State) : Host.Outcome State Fault Refusal :=
  ev t (fun s =>
    if (s.twin w).exchanges ∧ (s.twin w).role ≠ .booting ∧ (s.twin w).lastBatch + 3 ≤ epochOf s.now ∧ ¬ s.failStop then s.cause w 0x0A (linkIsland w)
    else s) s

/-- A unit retired for an uncorrectable error where the condition holds (R436). -/
def State.retireIf (s : State) (p : Bool) (isl : Nat) : State := if p then s.retire isl 0x03 0 else s

/-- `RELINQUISH` (R337): a cause of Table 14-4 detected in a twin; causes 0x07 and 0x09 are the standby's alone. An uncorrectable
error in a core's arrays retires the core (R436). -/
def execRelinquish (t : Nat) (w : Twin) (cause island : Nat) (s : State) : Host.Outcome State Fault Refusal :=
  ev t (fun s =>
    if cause = 0 ∨ 13 < cause ∨ ¬ (s.executes w ∨ (s.twin w).role = .booting) ∨ s.failStop ∨ ¬ s.boot.up ∨
        ((cause = 7 ∨ cause = 9) ∧ s.isActive w) then s
    else
      (s.updTwin w (fun x => { x with ctr := { x.ctr with
        eccUnc := satAdd 32 x.ctr.eccUnc (b2n (cause == 1)),
        watchdog := satAdd 32 x.ctr.watchdog (if cause = 3 then 4 else 0) } })).cause w cause island |>.retireIf
          (cause == 1 && isCore island && islandTwin island == some w) island) s

/-- A record of the switch-over, with its stamp of island 415 (R33, R339). -/
def State.switchEvent (s : State) (id : Nat) (detail : Bytes) : State :=
  let c := s.stampOf 415
  (s.stamped 415).note { id := id, sev := (Config.eventSev id).toNat, origin := 3, stamp := c, detail := fixLen 16 detail }

/-- `EGRESS_ISOLATION` (R339): the selector connects neither twin. -/
def execEgressIsolation (t : Nat) (s : State) : Host.Outcome State Fault Refusal :=
  ev t (fun s =>
    match s.active with
    | none => s
    | some w =>
      if (s.twin w).giveUp ∧ ¬ s.failStop then
        { s with egress := none, active := none,
                 sw := { s.sw with switching := true, old := some w, accepting := false } }.switchEvent 0x6002 []
      else s) s

/-- Whether a commit record of the new active stands at its promotion (R341): one held back for a verdict does when its stamp
precedes the deadline. -/
def Req.stands (r : Req) : Bool :=
  match r.fin with
  | some e => e.commits && (r.applied || decide (e.stamp < r.hdr.deadline))
  | none => false

/-- What an old active's first end record wrote in NVM for a request that the new active has not committed is taken back
(R341, assumption 44), the latest request's first. -/
def State.unwrite (s : State) (old : Twin) (rr : RReq) : State :=
  if rr.first = some old then { s with nvm := applyEffects s.now s.nvm rr.undo } else s

/-- The entry of a key that a discarded request's assignment exhausted stands, in the new active and in NVM, with its record
(R143). -/
def State.keepSure (s : State) (w : Twin) (r : Req) : State :=
  let s := { s with nvm := applyEffects s.now s.nvm (r.sure.map Effect.forNvm) }
  r.sureEv.foldl (fun s v => s.note (v.from_ w)) (s.updTwin w (fun x => { x with store := applyEffects s.now x.store r.sure }))

/-- Whether the commit of a request stands in the new active at its promotion (R341). -/
def State.standsIn (s : State) (w : Twin) (q : Nat) : Bool := (Tbl.find? (s.twin w).reqs q).any (fun r => r.stands)

/-- One accepted and unreleased request at a promotion (R70, R71, R341): its commit stands or nothing of it does, its flow is
fenced and its id kept. One to a compartment that has been made anew since leaves it neither (R152). -/
def State.discard (s : State) (w : Twin) (q : Nat) (rr : RReq) : State :=
  let s := s.dropDialogue q
  let s :=
    match Tbl.find? (s.twin w).reqs q with
    | some r =>
      let s := s.updTwin w (fun x => (x.dropTasks s.now q (fun _ => true) true).updReq q (fun r =>
        { r with relayFirst := rr.first, relayUndo := rr.undo }))
      if r.stands then
        let s := s.updTwin w (fun x => x.applyFin q)
        match r.fin with
        | some e =>
          let s := if rr.first.isNone then s.relayWrite w q r e else s
          if r.mismatch ∧ r.reexec.isSome then s.settleMismatch w q 2 else s
        | none => s
      else (s.keepSure w r).voidDraws true (fun p => p == q) stDiscarded
    | none => s.voidDraws true (fun p => p == q) stDiscarded
  let fk := flowKey rr.space rr.hdr.flow
  s.updTwin w (fun x =>
    let keep := match Tbl.find? x.reqs q with | some r => r.mismatch && r.reexec.isNone | none => false
    let fl : Flow := Tbl.getD x.store.flows fk {}
    let earlier := (Tbl.find? x.store.starts rr.space).any (fun g => decide (q < g.2))
    { x with
      reqs := if keep then x.reqs else Tbl.del x.reqs q
      store := if earlier then x.store else { x.store with
        flows := if rr.hdr.flow = 0 then x.store.flows else Tbl.put x.store.flows fk { fl with fence := true }
        discarded := Tbl.put x.store.discarded (discKey rr.space rr.hdr.id) s.now } })

/-- The renewals of a new active (R318): a proposal whose epoch lies ahead is dropped, and the next takes effect at P. -/
def Entropy.promoted (e : Entropy) (epoch : Nat) (stopped : Bool) : Entropy :=
  { e with
    proposal := e.proposal.filter (fun p => decide (p.2.1 ≤ epoch))
    nextEpoch := ceilDiv (epoch + 50) 100 * 100
    stopped := e.stopped || stopped
    resuming := (e.stopped || stopped) && decide (12 ≤ e.actives) }

/-- The standby takes the active role, and the old active is DEGRADED (R339, R341). Where the reply of a transition made was
still to be released, the self-reset is due from now (R397). -/
def State.promote (s : State) (w old : Twin) : State :=
  let bad := (s.twin w).reqs.any (fun (p : Nat × Req) => p.2.mismatch && p.2.reexec == some false)
  let o := s.twin old
  let s := if s.wipeReplyDue ∧ s.life.journal.isNone then { s with life := { s.life with selfReset := some (s.now + 40000000) } } else s
  let list := s.rreqs.filter (fun (e : Nat × RReq) =>
    !(match Tbl.find? (s.twin w).reqs e.1 with | some r => r.secure | none => false))
  let s := { s with active := some w, egress := some w, payStore := [],
                    rreqs := s.rreqs.map (fun (e : Nat × RReq) =>
                      (e.1, if list.any (fun d => d.1 == e.1) then { e.2 with toA := false, toB := false } else e.2)) }
  let s := s.updTwin w (fun x => { x with role := .active, outBatch := [], sentBatch := [],
                                          ent := x.ent.promoted (epochOf s.now) o.ent.stopped })
  let s := list.reverse.foldl (fun s (e : Nat × RReq) => if s.standsIn w e.1 then s else s.unwrite old e.2) s
  let s := list.foldl (fun s (e : Nat × RReq) => s.discard w e.1 e.2) s
  let s := s.updTwin old (fun x => x.depart old s.opSeconds o.cause o.causeIsl)
  let s := ((s.unsend old).noteOffline old o.cause o.causeIsl).writeDraws
  let s := { s with
    sw := { s.sw with discards := list.map Prod.fst }
    health := { s.health with switchovers := satAdd 16 s.health.switchovers 1, lastSwitch := s.stampOf 415,
                              degradations := satAdd 32 s.health.degradations 1 } }
  let at_ := s.stampOf 415
  let s := ((s.setSticky attnFailover).switchEvent 0x6003 []).switchEvent 0x6004 (toLe 4 list.length)
  let s := match s.nvm.swap with
    | some (e, _) => if 4000 * e ≤ s.now then s.swapNow at_ false else s
    | none => s
  if bad then s.doFailStop 0x06 else ((s.roleReport.abandonTests old).wakeTwin w).wakeTwin old

/-- `PROMOTION` (R339, R341). -/
def execPromotion (t : Nat) (s : State) : Host.Outcome State Fault Refusal :=
  ev t (fun s =>
    match s.sw.old with
    | some old =>
      if s.sw.switching ∧ s.active = none ∧ ¬ s.failStop ∧ (s.twin (otherTwin old)).role = .healthy then
        s.promote (otherTwin old) old
      else s
    | none => s) s

/-- The switch-over completes (R339, R352). -/
def State.switchDone (s : State) : State :=
  ({ s with sw := { s.sw with switching := false, accepting := true } }.switchEvent 0x6005 []).roleReport

/-- `DISCARDED_REPLY_POST` (R342): one reply, with `TWIN` 0b00, in acceptance order. -/
def execDiscardedReplyPost (t : Nat) (s : State) : Host.Outcome State Fault Refusal :=
  ev t (fun s =>
    match s.sw.discards with
    | [] => s
    | q :: l =>
      if s.active.isNone ∨ s.failStop then s else
        let c := s.stampOf 415
        let s := { s.stamped 415 with sw := { s.sw with discards := l } }
        let s := s.leaveRelay q (fun rr s =>
          s.writeReply rr.fn rr.idx { id := rr.hdr.id, status := stDiscarded, accept := q, complete := c } none)
        if l.isEmpty then s.switchDone else s) s

/-- `NEW_WORK_ACCEPT` (R342): when the last `DISCARDED` reply is posted, or 6 us after detection. -/
def execNewWorkAccept (t : Nat) (s : State) : Host.Outcome State Fault Refusal :=
  ev t (fun s =>
    if s.active.isNone ∨ s.failStop then s
    else if s.sw.discards.isEmpty then (if s.sw.switching then s.switchDone else s)
    else if s.sw.detected + 24000 ≤ s.now then { s with sw := { s.sw with accepting := true } }
    else s) s

/-- `RELAY_COPY_DISAGREE` (R11): the first disagreeing copy of a function is retired; a disagreement in duplex stops all
release. -/
def execRelayCopyDisagree (t func copy : Nat) (s : State) : Host.Outcome State Fault Refusal :=
  ev t (fun s =>
    let gone := Tbl.getD s.tmr.retired func []
    if func = 0 ∨ 5 < func ∨ 2 < copy ∨ gone.contains copy ∨ ¬ s.boot.up then s
    else if gone.isEmpty then
      ({ s with tmr := { s.tmr with retired := Tbl.put s.tmr.retired func [copy] } }).event 0x600C sevEvid 3
        [byte func, byte copy]
    else { s with tmr := { s.tmr with failed := s.tmr.failed ++ [func] } }.doFailStop 0) s

/-- `TWIN_SELFTEST_COMPLETE` (R337, R347): the test passes, or a unit of the twin fails it with no spare to replace it, and the
record and `CAUSE_ISLAND` name that unit. -/
def execTwinSelftestComplete (t : Nat) (w : Twin) (failed : Option Nat) (s : State) : Host.Outcome State Fault Refusal :=
  ev t (fun s =>
    if (s.twin w).role ≠ .degraded ∨ ¬ (s.twin w).inTest then s
    else match failed with
      | none => s.updTwin w (fun x => { x with inTest := false })
      | some isl =>
        if islandTwin isl ≠ some w then s
        else
          let s := s.updTwin w (fun x => { x with inTest := false, role := .offline, cause := 0x0D, causeIsl := isl })
          (s.noteOffline w 0x0D isl).roleReport) s

/-- An act on the twin out of service, where a twin is active and the module has not stopped. -/
def State.returning (s : State) (f : Twin → State) : State :=
  match s.active with
  | some w => if s.failStop then s else f (otherTwin w)
  | none => s

/-- `RESYNC_SNAPSHOT` (R349): the active takes its snapshot at the epoch Es. -/
def execResyncSnapshot (t : Nat) (s : State) : Host.Outcome State Fault Refusal :=
  ev t (fun s => s.returning (fun w =>
    if (s.twin w).role = .degraded ∧ ¬ (s.twin w).inTest ∧ 12 ≤ (s.twin w).ent.actives ∧ ¬ s.sw.switching ∧
        s.now % 4000 = 0 then
      (s.updTwin w (fun x => { x with role := .resync, resyncEs := some (epochOf s.now), resyncEj := none }) |>.wakeTwin .a |>.wakeTwin .b).eventU 0x6007
        (twinCode w) []
    else s)) s

/-- The state that a returning twin joins with (R348): the active's store and holdings, the seeds, and a record of every
request that only the active executes, which orders those that follow. -/
def TwinSt.joined (x a : TwinSt) (e : Nat) : TwinSt :=
  { x with
    resyncEj := some e, store := a.store, agreed := a.agreed, taken := a.taken, flowTaken := a.flowTaken,
    failed := a.failed, lowCome := a.lowCome, repTaken := a.repTaken, resTaken := a.resTaken, lastBatch := a.lastBatch, unbindAt := a.unbindAt
    ent := { x.ent with seeds := a.ent.seeds, proposal := a.ent.proposal, nextEpoch := a.ent.nextEpoch,
                        stopped := a.ent.stopped, resuming := a.ent.resuming }
    reqs := (a.reqs.filter (fun (p : Nat × Req) => p.2.fin.isNone)).map (fun (p : Nat × Req) =>
      (p.1, { p.2 with tasks := [], gens := [], childVals := [], staged := [], stagedEv := [] })) }

/-- `RESYNC_JOIN` (R349): at Ej the copy is complete and the twin receives the entries accepted from then on. -/
def execResyncJoin (t : Nat) (s : State) : Host.Outcome State Fault Refusal :=
  ev t (fun s => s.returning (fun w =>
    let x := s.twin w
    let a := s.twin (otherTwin w)
    let e := epochOf s.now
    if x.role = .resync ∧ x.resyncEj.isNone ∧ x.resyncEs.any (fun p => decide (p < e)) ∧ s.now % 4000 = 0 ∧
        s.rreqs.all (fun (r : Nat × RReq) => (Tbl.find? a.reqs r.1).isSome) then
      let y := x.joined a e
      ((s.setTwin w (if s.life.recovery then y else y.loadPinned s.nvm)).wakeTwin .a).wakeTwin .b
    else s)) s

/-- `RESYNC_HEALTHY` (R349): every request accepted before Ej has ended in the active. -/
def execResyncHealthy (t : Nat) (s : State) : Host.Outcome State Fault Refusal :=
  ev t (fun s => s.returning (fun w =>
    let x := s.twin w
    match x.resyncEj with
    | none => s
    | some e =>
      if x.role = .resync ∧ 12 ≤ x.ent.actives ∧
          (s.twin (otherTwin w)).reqs.all (fun (p : Nat × Req) => decide (4000 * e ≤ p.1) || p.2.fin.isSome) ∧
          x.reqs.all (fun (p : Nat × Req) => decide (4000 * e ≤ p.1)) then
        let s := s.updTwin w (fun x => { x with role := .healthy, resyncEs := none, resyncEj := none }) |>.wakeTwin .a |>.wakeTwin .b
        ({ s with health := { s.health with resyncs := satAdd 32 s.health.resyncs 1 } }.eventU 0x6008 (twinCode w)
          []).roleReport
      else s)) s

end Sys2Proof.Machine
end

