-- ==== Sys2Proof/Machine/Power.lean ====
section
/-! DEFINITION. Power domains, wake events, the gatekeepers, module states, and DVFS (R408 to R432). -/

namespace Sys2Proof.Machine

/-- The state that a kind enters (Table 18-7). -/
def State.kindState (s : State) (k : Nat) : PState :=
  match s.powerFld (17 + 8 * k) 1 with
  | 1 => .doze
  | 2 => .nap
  | _ => .sleep

/-- The clusters of a quadrant island. -/
def clustersOf (n : Nat) : List Nat := (List.range 4).map (fun c => 4 * (n % 206 - 192) + c)

/-- Whether a domain stands in Run. -/
def State.running (s : State) (n : Nat) : Bool := (s.domain n).st == .run

/-- Whether a client holds a vote of a cluster memory sub-domain (Table 18-3). -/
def State.memVoted (s : State) (w : Twin) (k : Nat) : Bool :=
  let x := s.twin w
  let c := Tbl.getD x.clusters k ({} : Cluster)
  !c.sram.isEmpty || !c.hold.isEmpty || x.cache.any (fun p => p.1 == k / 4) || (coresOf w k).any s.running

/-- Whether a client holds a vote of a domain of a VOTE kind (Table 18-3, R412). -/
def State.voted (s : State) (n : Nat) : Bool :=
  match domainKind n, domainTwin n with
  | some 1, some w =>
    let x := s.twin w
    (x.unit n).role == .selftest ||
      x.ops.any (fun (o : Nat × EngOp) => o.2.done.isNone && o.2.cluster == islandCluster n &&
        (o.2.engine == some n || o.2.engine.isNone))
  | some 2, some w => s.memVoted w ((n - 428) % 16)
  | some 3, some w =>
    (clustersOf n).any (fun k => (coresOf w k ++ enginesOf w k ++ [clusterMem w k]).any s.running ||
      (s.twin w).ops.any (fun (o : Nat × EngOp) => o.2.cluster == k && o.2.done.isNone))
  | some 4, some w => !(s.twin w).orrery.calls.isEmpty
  | some 5, _ => s.port0.dlg.isSome || s.port1.dlg.isSome
  | _, _ => true

/-- The levels that the pad latches of island 422 capture at Sleep (R420): bits 0 to 5 the levels of IO, CLK and RST of ports 0
and 1, bits 6 to 11 their output enables. The cards are deactivated: RST and CLK are driven low, and IO is released
(R167). -/
abbrev heldPads : Nat := 0xD80

/-- When a domain last had a vote, or a core its last task (R412, R413): an island in Run holds a vote of its quadrant, and a core one
of its cluster's memory sub-domain. -/
def State.lastVote (s : State) (n : Nat) : Nat :=
  let clients := match domainKind n, domainTwin n with
    | some 2, some w => coresOf w ((n - 428) % 16)
    | some 3, some w => (clustersOf n).flatMap (fun k => coresOf w k ++ enginesOf w k ++ [clusterMem w k])
    | _, _ => []
  clients.foldl (fun m i => max m (s.domain i).left) (Tbl.getD s.used n 0)

/-- Whether a domain has had no vote for `IDLE` of its kind (R412, R413). -/
def State.idled (s : State) (n k : Nat) : Bool := decide (s.lastVote n + 4000 * s.powerFld (20 + 8 * k) 4 ≤ s.now)

/-- Whether an entry may be attempted after the last one aborted: `REFUSE_WAIT` has passed, and the condition has ceased to hold in
between (R418). -/
def State.afresh (s : State) (n : Nat) : Bool :=
  decide ((s.domain n).retry ≤ s.now) && (s.domain n).aborted.all (fun a => decide (a < s.lastVote n))

/-- An entry that completes (R409, R417): the domain is in its target state, and the wake events latched are replayed at once;
island 422 captures its pads at Sleep in the native hold (R420). -/
def State.completeEntry (s : State) (n : Nat) (target : PState) : State :=
  let d := s.domain n
  let s := s.setDomain n { d with st := target, entry := none, latched := [], busy := 0, stopped := false }
  let s := if n = 422 ∧ target = .sleep ∧ ¬ s.power.padClamp then s.updPower (fun p => { p with padHold := some heldPads }) else s
  s.wakeDoms d.latched

/-- An entry begun, or going on, with the blocks that answer busy (R418). It takes over the `WOA` in force (R431), and island 422
clamps its pads from the start of an entry to Sleep when `PAD_MODE` is 1 (R421). -/
def State.enter (s : State) (n : Nat) (target : PState) (busy : List Nat) : State :=
  let first := (s.domain n).entry.isNone
  let s := if first then s.updDomain n (fun d => { d with woa := s.woaOf n }) else s
  let s := if first ∧ n = 422 then
    s.updPower (fun p => { p with padClamp := target == .sleep && s.powerFld 0 1 == 1 }) else s
  match busy with
  | [] => s.completeEntry n target
  | b :: _ => s.updDomain n (fun d => { d with entry := some (target, d.entry.elim s.now Prod.snd), busy := b })

/-- Whether an entry in progress may still be continued: `REFUSE_WAIT` has not passed (R418). -/
def State.withinWait (s : State) (since : Nat) : Bool := decide (s.now < since + s.refuseWait)

/-- `DOMAIN_IDLE_ENTRY` (R412, R418): a VOTE domain that has been without a vote for `IDLE` enters its state; while a block is
busy the entry is in progress, and a later one of these commands says which blocks are busy then. -/
def execDomainIdleEntry (t dom : Nat) (busy : List Nat) (s : State) : Host.Outcome State Fault Refusal :=
  ev t (fun s =>
    match domainKind dom with
    | none => s
    | some k =>
      if ¬ s.boot.ready ∨ k = 0 ∨ (s.domain dom).st ≠ .run then s
      else match (s.domain dom).entry with
        | none => if s.voted dom ∨ ¬ s.idled dom k ∨ ¬ s.afresh dom then s else s.enter dom (s.kindState k) busy
        | some (target, since) => if trimEntry dom target ∨ ¬ s.withinWait since then s else s.enter dom target busy) s

/-- `CORE_IDLE_ENTRY` (R413): a core whose contexts have been empty for `IDLE` enters its state. -/
def execCoreIdleEntry (t island : Nat) (s : State) : Host.Outcome State Fault Refusal :=
  ev t (fun s =>
    match islandTwin island with
    | none => s
    | some w =>
      let x := s.twin w
      onlyIf (isCore island && s.boot.ready && s.running island && !s.entering island && x.ctxFree island 0 && x.ctxFree island 1 &&
        (x.unit island).role != .selftest && s.idled island 0 && s.afresh island) (fun s => s.enter island (s.kindState 0) []) s) s

/-- `WAKE_EVENT` (R410, R416, R417): of the last row of Table 18-5 when `urgent`. In STANDBY-HOT a wake event of a twin brings
the module out of it, and one at an island of a trimmed cluster wakes the cluster (Table 18-6). -/
def execWakeEvent (t : Nat) (doms : List Nat) (urgent : Bool) (s : State) : Host.Outcome State Fault Refusal :=
  ev t (fun s => onlyIf s.boot.up (fun s =>
    let l := doms.filter (fun n => decide (n < 460))
    let s := if l.any (fun n => (domainTwin n).isSome) then s.exitStandby else s
    let s := if urgent then l.foldl State.wakeNow s else s.wakeDoms l
    (s.untrim .a).untrim .b) s) s

/-- The target code of an aborted entry (Table 18-8). -/
def targetCode (n : Nat) (p : PState) : Nat := if n = moduleDomain then 0x13 else if trimEntry n p then 0x12 else p.code

/-- `ENTRY_REFUSE_TIMEOUT` (R418): a block is still busy at `REFUSE_WAIT`. The entry aborts, with those of the cluster where a
cluster is being trimmed, and the record names the first busy block. -/
def execEntryRefuseTimeout (t dom : Nat) (s : State) : Host.Outcome State Fault Refusal :=
  ev t (fun s =>
    let d := s.domain dom
    match d.entry with
    | none => s
    | some (target, since) =>
      if s.withinWait since then s
      else
        let s := s.abortEntry dom
        let b := domainIsland d.busy
        s.powerEvent b (islandOrigin b) 0x01 sevWarn (targetCode dom target) (if trimEntry dom target then 0xFFFF else dom)
          (s.powerFld 2 2)) s

/-- `GATEKEEPER_ACCESS` (R419): a register access of Zenith at a domain's gatekeeper. -/
def execGatekeeperAccess (t dom : Nat) (write : Bool) (s : State) : Host.Outcome State Fault Refusal :=
  ev t (fun s => onlyIf s.boot.up (fun s => s.gatekeep dom (.zenith write)) s) s

/-- `PAD_HOLD_RELEASE` (R420): after the wake, Zenith releases the latches; no pad changes level. -/
def execPadHoldRelease (t : Nat) (s : State) : Host.Outcome State Fault Refusal :=
  ev t (fun s => if s.awake 422 then s.updPower (fun p => { p with padHold := none }) else s) s

/-- The highest cluster that may be trimmed: all its cores have been idle for `TRIM_IDLE` (R423), after an abort since then (R418). -/
def State.trimTarget (s : State) (w : Twin) : Option Nat :=
  let x := s.twin w
  let idle := fun (i : Nat) => x.ctxFree i 0 && x.ctxFree i 1 && decide (Tbl.getD s.used i 0 + 4000 * s.powerFld 12 4 ≤ s.now)
  let last := fun (k : Nat) => (coresOf w k).foldl (fun m i => max m (Tbl.getD s.used i 0)) 0
  (List.range 16).reverse.find? (fun k => !x.trimmed k && (coresOf w k).all idle &&
    (trimDoms w k).all (fun i => decide ((s.domain i).retry ≤ s.now) && (s.domain i).aborted.all (fun a => decide (a < last k))))

/-- Islands of a cluster that answer busy to its trimming: a unit under test, an engine with operations, a core that has
taken a task (R418). -/
def TwinSt.trimBusy (x : TwinSt) (w : Twin) (k : Nat) : List Nat :=
  (trimDoms w k).filter (fun i => (x.unit i).role == .selftest ||
    (if isCore i then !(x.ctxFree i 0 && x.ctxFree i 1) else !(x.placed i).isEmpty))

/-- The cluster whose trimming is in progress. -/
def State.trimming (s : State) (w : Twin) : Option Nat :=
  (List.range 16).find? (fun k => (trimDoms w k).any (fun i => (s.domain i).entry.any (fun e => e.1 == .sleep)))

/-- What Sleep loses in the cores and engines of a cluster (Table 18-1): the contexts; and the key cache and the masking generators
of an engine. -/
def TwinSt.sleepCluster (x : TwinSt) (w : Twin) (k : Nat) : TwinSt :=
  { x with
    ctxs := x.ctxs.filter (fun (c : Nat × Ctx) => !(coresOf w k).contains (c.1 / 2))
    engCtr := x.engCtr.map (fun (c : Nat × EngCtr) => (c.1, if (enginesOf w k).contains c.1 then { c.2 with cache := [] } else c.2))
    ent := { x.ent with masks := x.ent.masks.filter (fun (m : Nat × MaskGen) => !(enginesOf w k).contains (m.1 / 2)) } }

/-- The entry of trimming in progress in a cluster: when it began (R418). -/
def State.trimSince (s : State) (w : Twin) (k : Nat) : Option Nat :=
  (trimDoms w k).findSome? (fun i => (s.domain i).entry.bind (fun e => if e.1 = .sleep then some e.2 else none))

/-- A stop request at the islands of a cluster: those that have stopped wait in Doze (R418). -/
def State.stopCluster (s : State) (w : Twin) (k : Nat) (busy : List Nat) : State :=
  (trimDoms w k).foldl (fun s i => s.updDomain i (fun d =>
    let free := !busy.contains i && d.st == .run
    { d with entry := some (.sleep, d.entry.elim s.now Prod.snd), busy := busy.headD 0, woa := s.woaOf i
             st := if free then .doze else d.st, stopped := d.stopped || free })) s

/-- The cores and engines of a cluster enter Sleep, and a wake event latched meanwhile brings the cluster back (R417, R423). -/
def State.trimCluster (s : State) (w : Twin) (k : Nat) : State :=
  let woken := (trimDoms w k).any (fun i => !(s.domain i).latched.isEmpty)
  let s := s.updTwin w (fun x => (x.setTrimmed k true).sleepCluster w k)
  let s := (trimDoms w k).foldl (fun s i => s.updDomain i (fun d =>
    { d with st := .sleep, entry := none, latched := [], busy := 0, stopped := false, woa := s.woaOf i })) s
  let s := s.enterMod .trimmed
  if woken then s.wakeCluster w k else s

/-- `CLUSTER_TRIM` (R417, R418, R423): the cores and engines of the cluster enter Sleep together; while one of them is busy the
entry is in progress. -/
def execClusterTrim (t : Nat) (w : Twin) (busy : List Nat) (s : State) : Host.Outcome State Fault Refusal :=
  ev t (fun s =>
    let x := s.twin w
    let left := (List.range 16).countP (fun k => !x.trimmed k)
    if ¬ s.executes w ∨ ¬ s.boot.ready ∨ s.power.mod = .standbyHot ∨ (s.domain moduleDomain).entry.isSome then s
    else
      let go := fun (k : Nat) => match x.trimBusy w k ++ busy with
        | [] => s.trimCluster w k
        | l => s.stopCluster w k l
      match s.trimming w with
      | some k => if (s.trimSince w k).any s.withinWait then go k else s
      | none =>
        if left ≤ s.powerFld 8 1 + 1 then s
        else match s.trimTarget w with
          | some k => go k
          | none => s) s

/-- Whether a twin's next task finds no target and no pre-emption (R186, R187, R423). -/
def TwinSt.stuck (x : TwinSt) (w : Twin) (act : Bool) (now : Nat) : Bool :=
  match x.chooseTask w act now with
  | none => false
  | some t =>
    let img := match Tbl.find? x.reqs t.q with | some r => r.image | none => 0
    let a := x.standing w now t.comp
    (x.target w img).isNone &&
      !(x.victims w now).any (fun v => v.reserved a || (v.st.comp == t.comp && decide (v.lane < t.lane)))

/-- `CLUSTER_TRIM_WAKE` (R423): the lowest-indexed trimmed cluster. -/
def execClusterTrimWake (t : Nat) (w : Twin) (s : State) : Host.Outcome State Fault Refusal :=
  ev t (fun s =>
    if ¬ s.executes w then s
    else
      let s := s.updTwin w (fun x => x.prepare w (s.isActive w) s.now)
      if ¬ (s.twin w).stuck w (s.isActive w) s.now then s
      else match (List.range 16).find? (fun k => (s.twin w).trimmed k) with
        | some k => s.wakeCluster w k
        | none => s) s

/-- Domains of a twin that stay in Run in STANDBY-HOT: the link port, the entropy block, the test and scrub controller and
the power manager (Table 18-6). -/
def hotRun (n : Nat) : Bool := decide (n < 412) && [199, 203, 204, 205].contains (n % 206)

/-- The domains of both twins. -/
def twinDomains : List Nat := List.range 412 ++ (List.range 32).map (fun i => 428 + i)

/-- A stop request at every twin domain that takes part in an entry into STANDBY-HOT: those that have stopped wait in Doze (R418). -/
def State.stopTwins (s : State) (busy : List Nat) : State :=
  twinDomains.foldl (fun s n =>
    if hotRun n ∨ busy.contains n ∨ (s.domain n).st ≠ .run then s
    else s.updDomain n (fun d => { d with st := .doze, stopped := true, woa := s.woaOf n })) s

/-- The module enters STANDBY-HOT (Table 18-6): every twin domain in Nap but those that run, Zenith in Doze, and VDD_CORE at
0.60 V (R424). A domain already in Sleep stays there. A wake event latched meanwhile is replayed, and ends it again (R417). -/
def State.enterStandby (s : State) : State :=
  let woken := !(s.domain moduleDomain).latched.isEmpty || s.twinDoms.any (fun n => !(s.domain n).latched.isEmpty)
  let one := fun (s : State) (n : Nat) =>
    if hotRun n ∨ (s.domain n).st = .sleep then s
    else s.updDomain n (fun d =>
      { d with st := if n < 412 ∧ n % 206 = 198 then .doze else .nap, entry := none, latched := [], stopped := false, woa := s.woaOf n })
  let s := twinDomains.foldl one (s.setDomain moduleDomain {})
  let s := s.updBoth (fun x => { x with clusters := x.clusters.map (fun (c : Nat × Cluster) => (c.1, { c.2 with trimmed := false })) })
  let s := (s.updPower (fun p => { p with vidA := 0, vidB := 0 })).enterMod .standbyHot
  if woken then s.exitStandby else s

/-- `STANDBY_HOT_ENTRY` (R418, R422): with no request in flight or in the ingress for `STANDBY_IDLE`; while a block is busy the
entry is in progress. -/
def execStandbyHotEntry (t : Nat) (busy : List Nat) (s : State) : Host.Outcome State Fault Refusal :=
  ev t (fun s =>
    let idle := s.rreqs.isEmpty && s.ingress.isEmpty &&
      decide (Tbl.getD s.used moduleDomain 0 + 4000000 * s.powerFld 4 4 ≤ s.now) && s.afresh moduleDomain
    if ¬ s.boot.ready ∨ s.failStop ∨ s.power.mod = .standbyHot ∨ s.power.mod = .off ∨ s.powerFld 4 4 = 0 then s
    else
      let go := match busy with
        | [] => s.enterStandby
        | b :: _ => (s.updDomain moduleDomain (fun d =>
            { d with entry := some (.nap, d.entry.elim s.now Prod.snd), busy := b })).stopTwins busy
      match (s.domain moduleDomain).entry with
      | none => if idle then go else s
      | some (_, since) => if s.withinWait since then go else s) s

/-- `STANDBY_HOT_EXIT` (R422, R424): an accepted entry, or a wake event of a twin. -/
def execStandbyHotExit (t : Nat) (s : State) : Host.Outcome State Fault Refusal :=
  ev t (fun s => if s.rreqs.isEmpty then s else s.exitStandby) s

/-- The load class of a busy fraction in percent (R426). -/
def classOf (percent : Nat) : LoadClass := if percent < 30 then .light else if percent < 75 then .medium else .heavy

/-- The table of the class in use, charged with the time spent in it so far (R428). -/
def IslandDvfs.charged (d : IslandDvfs) (now : Nat) : IslandDvfs :=
  let t := d.table d.cls
  { d.setTable d.cls { t with spent := t.spent + (now - d.since) } with since := now }

/-- A busy fraction reported of an island (R426): a higher class takes effect at once, a lower one after 100 us below the bound. -/
def IslandDvfs.report (d : IslandDvfs) (now percent : Nat) : IslandDvfs :=
  let c := classOf percent
  let d := { d with busy := percent }
  let take := { d.charged now with cls := c, bump := 0, below := none }
  if classCode d.cls < classCode c then take
  else if d.cls = c then { d with below := none }
  else match d.below with
    | none => { d with below := some now }
    | some b => if b + 400000 ≤ now then take else d

/-- `LOAD_CLASS_CHANGE` (R426, R427): the share of its cycles in which an island did work over the last 50 us; it uses the table of
its class, or the guard-banded one. -/
def execLoadClassChange (t island percent : Nat) (s : State) : Host.Outcome State Fault Refusal :=
  ev t (fun s => onlyIf (s.boot.up && decide (island < 428))
    (fun s => (s.updIsland island (fun d => d.report s.now percent)).setVid) s) s

/-- `DVFS_TABLE_STALE` (R427): 24 h of operating time or 20 degrees since the training. The table is not used again before a
new training. -/
def execDvfsTableStale (t island : Nat) (cls : LoadClass) (s : State) : Host.Outcome State Fault Refusal :=
  ev t (fun s => onlyIf (s.boot.up && decide (island < 428))
    (fun s => (s.updIsland island (fun d => d.setTable cls { (d.table cls) with trained := false })).setVid) s) s

/-- `DVFS_TRAINING` (R428): an island that has spent 10 ms in the class since its last training is trained. `mv` is, for each
operating point, the last voltage that passed; the point lies 25 mV above it, and training goes no lower than the guard-banded table
less 150 mV. -/
def execDvfsTraining (t island : Nat) (cls : LoadClass) (mv : List Nat) (s : State) : Host.Outcome State Fault Refusal :=
  ev t (fun s =>
    let d := (s.island island).charged s.now
    onlyIf (s.boot.up && decide (island < 428) && d.cls == cls && decide (40000000 ≤ (d.table cls).spent) &&
        mv.length == pointsOf island) (fun s =>
      let low := (Config.guardMv island (classCode cls)).toNat - 150
      (s.updIsland island (fun _ =>
        { d.setTable cls { trained := true, mv := mv.map (fun v => max v low + 25), stamp := s.opSeconds, spent := 0 } with bump := 0 })).setVid) s) s

end Sys2Proof.Machine
end

