-- ==== Sys2Proof/Machine/Wear.lean ====
section
/-! DEFINITION. Wear: self-tests, rotation of the spare roles, retirement, memories, NVM sectors and Skyglow sensors
(R281, R434 to R449), and the canary alarms that start a test (R429). -/

namespace Sys2Proof.Machine

/-- Whether a unit holds no work: both contexts of a core empty and no re-execution on it, no operation on an engine
(R438, R443). -/
def TwinSt.drained (x : TwinSt) (_w : Twin) (isl : Nat) : Bool :=
  if isCore isl then x.ctxFree isl 0 && x.ctxFree isl 1 && !(x.reexecCores).contains isl
  else (x.placed isl).isEmpty

/-- A test asked for by a request or by a canary alarm (R436, R439, R440, R442, R443): a unit under test, or on its way there, is
joined; a spare is tested at once, or after the re-execution on it; an active unit gives its place to a free spare, or waits for one. A trimmed cluster is
woken first. -/
def State.askTest (s : State) (w : Twin) (isl why : Nat) : State :=
  let u := (s.twin w).unit isl
  if u.role = .retired then s
  else
    let s := s.wakeCluster w (islandCluster isl)
    let s := s.updTwin w (fun x => x.setUnit isl (fun u => { u with asked := true, why := if u.why = 0 then why else u.why }))
    if u.role = .selftest ∨ u.draining ∨ u.spareWait.isSome then s
    else if u.role = .spare then (s.updTwin w (fun x =>
      let busy := (x.reexecCores).contains isl
      x.setUnit isl (fun u => if busy then { u with draining := true } else { u with role := .selftest }))).wakeDom isl
    else match (s.twin w).spareFor w isl with
      | some sp => s.updTwin w (fun x => x.startDrain w isl (some sp) false)
      | none => s.updTwin w (fun x => x.setUnit isl (fun u => { u with spareWait := some s.now }))

/-- `SPARE_WAIT_TIMEOUT` (R440): no spare became free within 100 ms, and the unit leaves without replacement; an engine that
leaves its cluster with no active one breaches the budget (R282). -/
def execSpareWaitTimeout (t island : Nat) (s : State) : Host.Outcome State Fault Refusal :=
  ev t (fun s =>
    match islandTwin island with
    | none => s
    | some w =>
      let u := (s.twin w).unit island
      if ¬ u.spareWait.any (fun b => decide (b + 400000000 ≤ s.now)) ∨ u.role ≠ .active then s
      else
        let s := (s.updTwin w (fun x => x.startDrain w island none true)).wearEvent island 0x24 u.why (unitSlot island) 0 0 0
        if isEngine island ∧ (s.twin w).activesIn w island = 0 then s.cause w 0x02 island else s) s

/-- Epochs between two rotations of a kind, and between those of neighbouring clusters (R437). -/
def rotationPeriod : UnitKind → Nat × Nat
  | .core => (60000000, 3750000)
  | .engine => (10000000, 625000)

/-- Whether a core has had more than 64 corrected errors in 24 h of operating time (R436). -/
def State.errorsOver (s : State) (w : Twin) (isl : Nat) : Bool :=
  isCore isl && decide (64 < ((s.twin w).unit isl).ecc.countP (fun o => decide (s.opSeconds < o + opDay)))

/-- A rotation with no unit free in the spare role (R436, R439, R440): it waits for a re-execution on the spare to end; where the
cluster has no spare left, a core with too many errors leaves at this point without replacement; otherwise it is skipped, and
recorded only when a requested test waits, with a kind that the spec does not state (assumption 148). -/
def State.skipRotation (s : State) (w : Twin) (cluster : Nat) (kind : UnitKind) : State :=
  let x := s.twin w
  let units := clusterUnits w cluster kind
  if units.any x.reexecCores.contains then
    s.updTwin w (fun x => { x with rotations := x.rotations ++ [(cluster, kind)] })
  else if units.all (fun i => (x.unit i).role != .spare && (x.unit i).role != .selftest) then
    match units.find? (fun i => (x.unit i).role == .active && !(x.unit i).draining && s.errorsOver w i) with
    | some i => (s.updTwin w (fun x => x.startDrain w i none true)).wearEvent i 0x24 0x04 (unitSlot i) 0 0 0
    | none => s
  else match units.find? (fun i => (x.unit i).spareWait.isSome && (x.unit i).asked) with
    | some i => s.wearEvent i Config.skipKind.toNat 0x0A (unitSlot i) 0 0 0
    | none => s

/-- `SPARE_ROTATION` (R437 to R439): the unit in the spare role joins the active set, and the next one begins to drain. In a trimmed
cluster or in STANDBY-HOT the rotation is skipped. -/
def execSpareRotation (t : Nat) (w : Twin) (cluster : Nat) (kind : UnitKind) (s : State) :
    Host.Outcome State Fault Refusal :=
  ev t (fun s =>
    let x := s.twin w
    let (period, step) := rotationPeriod kind
    if ¬ s.executes w ∨ 16 ≤ cluster ∨ epochOf s.now % period ≠ step * cluster ∨ x.trimmed cluster ∨
        s.power.mod = .standbyHot then s
    else if (clusterUnits w cluster kind).any x.freeSpare then s.updTwin w (fun x => x.rotate w cluster kind)
    else s.skipRotation w cluster kind) s

/-- A unit that passed returns: to the active set where its cluster lacks one, else to the spare role (R281, R440). -/
def State.returnUnit (s : State) (w : Twin) (isl : Nat) : State :=
  let role : URole := if (s.twin w).activesIn w isl < fullActive isl then .active else .spare
  (s.updTwin w (fun x => x.setUnit isl (fun u => { u with role := role, draining := false, asked := false, why := 0 }))
    ).updTwin w (fun x => x.tendSpares w)

/-- `ROTATION_POINT` (R436, R438): the outgoing unit has drained and leaves for its self-test; a core with more than 64 corrected
errors in 24 h is retired here. The test takes its vote, which wakes the unit (R412). -/
def execRotationPoint (t : Nat) (w : Twin) (cluster : Nat) (kind : UnitKind) (s : State) : Host.Outcome State Fault Refusal :=
  ev t (fun s =>
    let x := s.twin w
    match (clusterUnits w cluster kind).find? (fun i => (x.unit i).draining && x.drained w i) with
    | none => s
    | some i =>
      if cluster < 16 then
        let many := s.errorsOver w i
        let s := (s.updTwin w (fun x => x.setUnit i (fun u => { u with role := .selftest, draining := false }))).wakeDom i
        if many then s.retire i 0x04 0 else s
      else s) s

/-- Compare failures of a unit within 24 h before its newest one (R281). -/
def UnitRec.earlierFails (u : UnitRec) : Nat :=
  match u.failOps.getLast? with
  | some n => u.failOps.dropLast.countP (fun f => decide (n < f + opDay))
  | none => 0

/-- The outcome of a unit's self-test (R281, R435, R436): 1 passed, 2 retired, 3 marked worn; with the reason of a
retirement. -/
def UnitRec.verdict (u : UnitRec) (pass : Bool) (ageing : Nat) : Nat × Nat :=
  if ¬ pass then (2, if u.why = 0x08 then 0x08 else 0x01)
  else if 800 ≤ ageing then (2, 0x02)
  else if u.why = 0x05 ∧ 0 < u.earlierFails then (2, 0x05)
  else if 500 ≤ ageing then (3, 0)
  else (1, 0)

/-- The records and the return of a unit whose test ended (R435, R449). -/
def State.endTest (s : State) (w : Twin) (isl ageing : Nat) (pass : Bool) : State :=
  let u := (s.twin w).unit isl
  let (outcome, reason) := u.verdict pass ageing
  let rec_ := fun (s : State) (kind r : Nat) => s.wearEvent isl kind r (unitSlot isl) ageing 0 ((s.twin w).sparesIn w isl)
  if outcome = 2 then
    let s := if pass then s else rec_ s 0x21 0x01
    s.retire isl reason ageing
  else
    let fresh := outcome = 3 ∧ ¬ u.worn
    let s := if fresh then s.updTwin w (fun x => x.setUnit isl (fun u => { u with worn := true })) else s
    let s := if fresh then rec_ s 0x23 0x02 else if u.asked then rec_ s 0x20 0 else s
    s.returnUnit w isl

/-- `UNIT_SELFTEST_COMPLETE` (R436, R442): the unit is returned, marked worn or retired, and the requests that wait for the test
receive its outcome: those of the other twin with the next batch. -/
def execUnitSelftestComplete (t island : Nat) (pass : Bool) (ageing dur : Nat) (s : State) :
    Host.Outcome State Fault Refusal :=
  ev t (fun s =>
    match islandTwin island with
    | none => s
    | some w =>
      let u := (s.twin w).unit island
      if u.role ≠ .selftest ∨ ¬ s.boot.up then s
      else
        let s := s.endTest w island ageing pass
        let v := (s.twin w).unit island
        let b := testResult (u.verdict pass ageing).1 v.role.code (b2n u.deferred) ageing dur
        (s.updTwin w (fun x =>
          { x.setUnit island (fun u => { u with deferred := false }) with
            testsOut := x.testsOut ++ [(island, b)] })).deliverIn w (.selftest island) b) s

/-- What the request is answered at once: outcome 0x04 for a retired unit, 0x05 for a twin that is neither ACTIVE nor HEALTHY
(R443, Table 19-3); empty where a test is to run. -/
def State.testNow (s : State) (w : Twin) (isl : Nat) : Bytes :=
  let x := s.twin w
  let role := (x.unit isl).role
  if role = .retired then testResult 4 role.code 0 0 0
  else if x.role ≠ .active ∧ x.role ≠ .healthy then testResult 5 role.code 0 0 0
  else []

/-- `SELFTEST_REQUEST`. A request whose test has been abandoned, because the twin left service, is answered with outcome 0x05
(R443). -/
def runSelftestRequest (e : VEnv) : VM EndRec := do
  let isl := e.r.hdr.param
  e.admShape false (e.len == 0 && (isCore isl || isEngine isl)) []
  let w := if isl < 206 then Twin.a else Twin.b
  let g ← e.given (fun s => match s.testNow w isl with | [] => [] | b => 0 :: b)
  match g with
  | _ :: b => pure (done b [] [])
  | [] => vhalt (fun s =>
      let s := s.updTwin e.w (fun x => x.updReq e.q (fun r => { r with awaits := .selftest isl, begun := true }))
      s.askTest w isl 0x0A)

/-- `SELFTEST_REQUEST` (R442). A command that comes again for a request that waits finds a twin that has left service. -/
def execSelftestRequest (t : Nat) (w : Twin) (q : Nat) (s : State) : Host.Outcome State Fault Refusal :=
  ev t (fun s =>
    match (Tbl.find? (s.twin w).reqs q).map (fun (r : Req) => r.awaits) with
    | some (Hold.selftest isl) =>
      let b := s.testNow (if isl < 206 then Twin.a else Twin.b) isl
      if b.isEmpty then s else s.deliverIn w (.selftest isl) b
    | _ => s.runAdmin 0x0170 w q runSelftestRequest) s

/-- `CANARY_ALARM` (R429, R436): the local voltage rises by 10 mV; a second alarm within 1 ms moves the island to its guard-banded
table; one at that table's highest point is recorded and has a core or an engine tested. -/
def execCanaryAlarm (t island : Nat) (s : State) : Host.Outcome State Fault Refusal :=
  ev t (fun s => onlyIf (s.boot.up && decide (island < 428)) (fun s =>
    let d := s.island island
    let mv := s.localMv island
    let note := fun (s : State) (kind sev : Nat) =>
      s.powerEvent island (islandOrigin island) kind sev (classCode d.cls) 0 mv
    if d.guarded s.opSeconds ∧ (Config.guardMax island).toNat ≤ mv then
      let s := note s 0x04 sevFault
      match islandTwin island with
      | some w => if isCore island ∨ isEngine island then s.askTest w island 0x08 else s
      | none => s
    else if ¬ d.guarded s.opSeconds ∧ d.lastAlarm.any (fun a => decide (s.now < a + 4000000)) then
      let s := (s.updIsland island (fun d => { d.setTable d.cls { (d.table d.cls) with trained := false } with
        bump := 0, lastAlarm := some s.now })).setVid
      note s 0x03 sevWarn
    else (s.updIsland island (fun d => { d with bump := d.bump + 10, lastAlarm := some s.now })).setVid) s) s

/-- A row of an array of an island, as the error counts number it. The array is 0 but in a quadrant island, whose arrays are the
18 banks of each of its four clusters (R238, R444; assumption 189). -/
def rowKey (isl bank row : Nat) : Nat := (isl * 128 + bank) * 65536 + row

/-- A bank of a cluster as an array of its quadrant island. -/
def quadrantBank (cluster bank : Nat) : Nat := 18 * (cluster % 4) + bank

/-- Operating seconds of errors of the last 24 h, with some more (R444). -/
def slideErrors (ops n : Nat) (l : List Nat) : List Nat :=
  l.filter (fun o => decide (ops < o + opDay)) ++ List.replicate n ops

/-- The error counts of the rows that a condition holds of begin anew. -/
def Wear.forget (x : Wear) (p : Nat → Bool) : Wear :=
  { x with rowErrs := x.rowErrs.filter (fun (e : Nat × List Nat) => !p e.1), rowUnc := x.rowUnc.filter (fun k => !p k) }

/-- A bank replaced by a spare bank of its cluster, or retired when none is left: what is allocated in it moves to free space, and
otherwise holds it (R445). -/
def State.replaceBank (s : State) (w : Twin) (cluster bank reason : Nat) : State :=
  let c := Tbl.getD (s.twin w).clusters cluster ({} : Cluster)
  let c := if c.banks.length < 2 then { c with banks := c.banks ++ [bank], repairs := Tbl.del c.repairs bank }
    else ({ c with held := c.held ++ [bank] } : Cluster).settleBanks
  let s := s.updTwin w (fun x => { x with clusters := Tbl.put x.clusters cluster c })
  let array := rowKey (quadrantOf w cluster) (quadrantBank cluster bank) 0 / 65536
  let s := { s with wear := s.wear.forget (fun k => k / 65536 == array) }
  s.wearEvent (quadrantOf w cluster) 0x26 reason bank 0 0 (2 - c.banks.length)

/-- Whether a row's errors call for its remapping (R445): 3 corrected ones within 24 h (reason 0x04), or an uncorrectable one
after the twin's recovery (0x03); a failed march test is its own reason (0x01). -/
def State.remapDue (s : State) (w : Twin) (key reason : Nat) : Bool :=
  match reason with
  | 1 => true
  | 3 => s.wear.rowUnc.contains key && s.executes w
  | 4 => decide (3 ≤ (Tbl.getD s.wear.rowErrs key []).countP (fun o => decide (s.opSeconds < o + opDay)))
  | _ => false

/-- `SRAM_ROW_REMAP` (R445): a row goes to a spare row of its bank; with 16 used, or after a failed march test (reason 0x01), the
bank is replaced. -/
def execSramRowRemap (t : Nat) (w : Twin) (cluster bank row reason : Nat) (s : State) : Host.Outcome State Fault Refusal :=
  ev t (fun s =>
    let key := rowKey (quadrantOf w cluster) (quadrantBank cluster bank) row
    onlyIf (s.boot.up && decide (cluster < 16) && decide (bank < 18) && s.remapDue w key reason) (fun s =>
      let c := Tbl.getD (s.twin w).clusters cluster ({} : Cluster)
      let used := Tbl.getD c.repairs bank []
      if reason = 1 then s.replaceBank w cluster bank 1
      else if 16 ≤ used.length then s.replaceBank w cluster bank 4
      else
        let c := { c with repairs := Tbl.put c.repairs bank (used ++ [row]) }
        let s := { s with wear := s.wear.forget (fun k => k == key) }
        (s.updTwin w (fun x => { x with clusters := Tbl.put x.clusters cluster c })).wearEvent (quadrantOf w cluster) 0x25
          reason bank 0 row (16 - (used.length + 1))) s) s

/-- `NVM_SECTOR_REPLACE` (R446): with no spare sector left the write fails: a request whose commit depends on it ends
`INTERNAL_ERROR`, and a failing sector of the evidence region puts the module into LOCK (assumption 59). -/
def execNvmSectorReplace (t sector : Nat) (use_ : SectorUse) (s : State) : Host.Outcome State Fault Refusal :=
  ev t (fun s => onlyIf s.boot.up (fun s =>
    if 0 < s.wear.sectors then
      let s := { s with wear := { s.wear with
        sectors := s.wear.sectors - 1
        sectorMap := Tbl.put s.wear.sectorMap sector (983 - s.wear.sectors) } }
      s.wearEvent 420 0x27 0x03 sector 0 0 s.wear.sectors
    else
      let s := match use_.dep with
        | some q => s.failReq q stInternal
        | none => s
      if use_.evidence then ({ s with alm := { s.alm with full := true } }).lockNow 2 stLocked 3 else s) s) s

/-- Skyglow sensors of a die, its spares, and the island of its records: die 0 is the Relay, 1 Twin A, 2 Twin B (R447,
R449). -/
def skyglowDie (die : Nat) : Nat × Nat × Nat := if die = 0 then (36, 4, 426) else (102, 6, 206 * (die - 1) + 205)

/-- `SKYGLOW_STIMULUS_TEST` (R447): a sensor that fails to trip in two consecutive runs is retired. -/
def execSkyglowStimulusTest (t die sensor : Nat) (trip : Bool) (s : State) : Host.Outcome State Fault Refusal :=
  ev t (fun s =>
    let k := 1024 * die + sensor
    let (n, spare, isl) := skyglowDie die
    let c : Nat × Bool := Tbl.getD s.wear.sensors k (0, false)
    onlyIf (s.boot.up && decide (die < 3) && decide (sensor < n) && !c.2) (fun s =>
      let set := fun (s : State) (v : Nat × Bool) => { s with wear := { s.wear with sensors := Tbl.put s.wear.sensors k v } }
      if trip then set s (0, false)
      else if c.1 = 0 then set s (1, false)
      else
        let s := set s (2, true)
        let gone := s.wear.sensors.countP (fun (e : Nat × (Nat × Bool)) => e.2.2 && e.1 / 1024 == die)
        s.wearEvent isl 0x22 0x07 sensor 0 0 (spare - gone)) s) s

/-- A scrub visit brings a domain from Nap to Doze for the read (Table 18-5); its counter, held in Nap, needs a pulse (R410). -/
def State.scrubVisit (s : State) (n : Nat) : State :=
  if (s.domain n).st = .nap then s.updDomain n (fun d => { d with st := .doze, pulses := 1 }) else s

/-- The domain that holds a row: the memory sub-domain of the cluster whose bank a quadrant's row lies in, and otherwise the island
(R408; assumption 189). -/
def rowDomain (w : Twin) (island : Nat) (row : RowAt) : Nat :=
  if 192 ≤ island % 206 ∧ island % 206 < 196 then clusterMem w (4 * (island % 206 - 192) + row.bank / 18 % 4) else island

/-- The errors of a read counted for its unit and its row (R444). -/
def State.countErrors (s : State) (island : Nat) (row : RowAt) (corrected : Nat) (uncorrectable : Bool) : State :=
  let k := rowKey island row.bank row.row
  let slide := fun (l : List Nat) => slideErrors s.opSeconds corrected l
  let unit := islandTwin island |>.filter (fun _ => isCore island || isEngine island)
  let s := { s with wear := { s.wear with
    rowErrs := if corrected = 0 then s.wear.rowErrs else Tbl.put s.wear.rowErrs k (slide (Tbl.getD s.wear.rowErrs k []))
    unitErrs := if corrected = 0 ∨ unit.isSome then s.wear.unitErrs
      else Tbl.put s.wear.unitErrs island (slide (Tbl.getD s.wear.unitErrs island []))
    rowUnc := if uncorrectable ∧ ¬ s.wear.rowUnc.contains k then s.wear.rowUnc ++ [k] else s.wear.rowUnc } }
  match unit with
  | some w => if corrected = 0 then s else s.updTwin w (fun x => x.setUnit island (fun u => { u with ecc := slide u.ecc }))
  | none => s

/-- `SCRUB_READ` (R337, R416, R424, R436, R444): corrected errors are counted per unit and per row; an uncorrectable one is cause
0x01 in a twin, and retires a core. The visit brings a domain from Nap to Doze, and wakes Zenith. A full pass ends at the twin power
manager (assumption 58). -/
def execScrubRead (t island : Nat) (row : RowAt) (corrected : Nat) (uncorrectable : Bool) (s : State) : Host.Outcome State Fault Refusal :=
  ev t (fun s =>
    match islandTwin island with
    | none => onlyIf (s.boot.up && decide (island < 428)) (fun s => s.countErrors island row corrected uncorrectable) s
    | some w =>
      onlyIf (s.executes w && (s.domain island).st != .sleep) (fun s =>
        let s := (((s.wakeZenith w).scrubVisit island).scrubVisit (rowDomain w island row)).countErrors island row corrected uncorrectable
        let s := s.updTwin w (fun x => { x with ctr := { x.ctr with
          eccCorr := satAdd 32 x.ctr.eccCorr corrected, eccUnc := satAdd 32 x.ctr.eccUnc (b2n uncorrectable)
          scrubs := satAdd 32 x.ctr.scrubs (b2n (island % 206 == 205)) } })
        if uncorrectable then (s.cause w 0x01 island).retireIf (isCore island) island else s) s) s

end Sys2Proof.Machine
end

