-- ==== Sys2Proof/Machine/Reexec.lean ====
section
/-! DEFINITION. The re-execution of a request whose end digests differ: it runs from the broadcast inputs against the read log
(R344, R345). -/

namespace Sys2Proof.Machine

/-- The command of a vendor image that an opcode names (Chapter 5). -/
def vendorCommand : Nat → Option (VEnv → VM (Nat × Bytes))
  | 0x0200 => some runKeyGenerate
  | 0x0201 => some runKeyImport
  | 0x0202 => some runKeyExport
  | 0x0203 => some runKeyPairGenerate
  | 0x0204 => some runPubkeyImport
  | 0x0205 => some runKeyLoad
  | 0x0206 => some runKeyUnload
  | 0x0207 => some runKeyRevoke
  | 0x0208 => some runKeyInfo
  | 0x0209 => some runKeySave
  | 0x0300 => some runPinTranslate
  | 0x0301 => some runPinVerifyOffset
  | 0x0302 => some runPinOffsetGenerate
  | 0x0303 => some runPinVerifyReference
  | 0x0400 => some runMacGenerate
  | 0x0401 => some runMacVerify
  | 0x0500 => some runDataEncrypt
  | 0x0501 => some runDataDecrypt
  | 0x0502 => some runSivSeal
  | 0x0503 => some runSivOpen
  | 0x0600 => some runKdfDerive
  | 0x0601 => some runDukptPinTranslate
  | 0x0602 => some runDukptMacVerify
  | 0x0603 => some runDukptDataDecrypt
  | 0x0604 => some runDukptIkExport
  | 0x0700 => some runSigVerify
  | 0x0701 => some runSign
  | 0x0702 => some runEcdhDerive
  | 0x0800 => some runRngGet
  | 0x0801 => some runDrawCertified
  | 0x0802 => some runDrawLast
  | 0x0900 => some runTicketIssue
  | 0x0901 => some runTicketValidate
  | _ => none

/-- The admin command that an opcode names (Table 4-9). -/
def adminCommand : Nat → Option (VEnv → VM EndRec)
  | 0x0100 => some runAdmNop
  | 0x0101 => some runAdmStatus
  | 0x0102 => some runAttnAck
  | 0x0103 => some runHealthGet
  | 0x0104 => some runHealthNow
  | 0x0110 => some runCfgShadowWrite
  | 0x0111 => some runCfgShadowValidate
  | 0x0112 => some runCfgSwap
  | 0x0113 => some runCfgRead
  | 0x0120 => some runFwSlotWrite
  | 0x0121 => some runFwSlotActivate
  | 0x0130 => some runCompCreate
  | 0x0131 => some runCompSuspend
  | 0x0132 => some runCompResume
  | 0x0133 => some runCompZeroize
  | 0x0140 => some runOfficerEnrol
  | 0x0141 => some runOfficerRemove
  | 0x0142 => some runApprovalSubmit
  | 0x0143 => some runCardExchange
  | 0x0144 => some runComponentEnter
  | 0x0150 => some runUnlock
  | 0x0160 => some runLcTransition
  | 0x0161 => some runDebugCertLoad
  | 0x0170 => some runSelftestRequest
  | 0x0A00 => some runAttestReport
  | 0x0A01 => some runAlmRead
  | 0x0A02 => some runAlmExport
  | _ => none

/-- A request as it stood when its run began, on the core of the re-execution: its payload is read again, and what acceptance assigned
to it, its uses, nonces and identities, stays (R344). -/
def Req.atBeginning (r : Req) : Req :=
  { r with
    fin := none, applied := false, undo := [], staged := [], stagedEv := [], result := [], gens := [], paid := []
    newUsed := 0, slotsTaken := 0, extTaken := 0, ledTaken := 0, awaits := .none
    allowed := r.allowed.filter (fun h => !(r.newH.any (fun id => id % 2 ^ 30 == h % 2 ^ 30)))
    chunks := r.rechunks
    tasks := [(0, { st := .running, ctx := some ⟨r.reexecOn.getD 0, 0⟩ })] }

/-- The state that a re-execution runs in: the read log in place of the store, and the request as at its beginning (R344). -/
def State.forRerun (s : State) (w : Twin) (q : Nat) (r : Req) (log : Store) : State :=
  s.updTwin w (fun x =>
    { x with store := log, taken := Tbl.del x.taken (q * 2048 + r.space), reqs := Tbl.put x.reqs q r.atBeginning })

/-- What a re-execution of a request gives that ran in a vendor image or in Zenith: its end record before it is formed; nothing where
the run does not reach its end. -/
def State.rerun (s : State) (w : Twin) (q : Nat) (r : Req) (log : Store) : Option EndRec :=
  let s := s.forRerun w q r log
  let r := r.atBeginning
  let e : VEnv := { w := w, q := q, r := r, p := r.payload }
  if r.space = adminSpace then
    (adminCommand r.hdr.opcode).bind (fun cmd => match (cmd e).run s with
      | .ok (f, _) => some f
      | .error (.status n _) => some { status := n, commits := commitsAt n }
      | _ => none)
  else if r.image = 1 ∨ r.image = 2 then
    (vendorCommand r.hdr.opcode).bind (fun cmd => match (cmd e).run s with
      | .ok ((st, res), s) => some (((Tbl.find? (s.twin w).reqs q).getD r).outcome st res)
      | .error (.status n _) => some (r.outcome n [])
      | .error (.stopped _) => some { status := stRng }
      | _ => none)
  else none

/-- The end digest of a re-execution (R330, R344): a request that ended without having run ends so again. -/
def State.rerunDigest (s : State) (w : Twin) (q : Nat) (r : Req) (e : EndRec) : Option Bytes :=
  if ¬ r.begun then some e.digest
  else r.log.bind (fun log => (s.rerun w q r log).map (fun f =>
    (r.endRec (s.isActive w) e.stamp q (r.segEffects log q f)).digest))

/-- `REEXECUTION_COMPLETE` (R344, R345): the re-execution, on the core that it took, has run the request from its inputs, with its
payload read again, against its read log; its digest is set beside the twin's first. `gave` is what the code of an owner image, or a
fault of the hardware, makes it give (assumption 177). A new active that does not reproduce the result of a request that a
switch-over discarded fails the module stop. -/
def execReexecutionComplete (t : Nat) (w : Twin) (q : Nat) (gave : Option Bytes) (s : State) :
    Host.Outcome State Fault Refusal :=
  ev t (fun s =>
    let s := s.updTwin w (fun x => x.takeReexec w)
    match Tbl.find? (s.twin w).reqs q with
    | none => s
    | some r =>
      match r.fin with
      | none => s
      | some e =>
        if ¬ r.mismatch ∨ r.reexec.isSome ∨ r.reexecOn.isNone ∨ s.failStop ∨ ¬ r.atBeginning.complete then s
        else match gave.orElse (fun _ => s.rerunDigest w q r e) with
        | none => s
        | some digest =>
        if (Tbl.find? s.rreqs q).any (fun rr => !s.sw.discards.contains q || rr.to w) then
          s.updTwin w (fun x => x.updReq q (fun r => { r with reexec := some (digest == e.digest) }))
        else if digest = e.digest then
          (s.settleMismatch w q 2).updTwin w (fun x => { x with reqs := Tbl.del x.reqs q })
        else (s.mismatchEvent q r.hdr.comp 4).doFailStop 0x06) s

end Sys2Proof.Machine
end

