-- ==== Sys2Proof/Machine/Sideband.lean ====
section
/-! DEFINITION. The indicators, the SMBus sideband, the thermal warning, Nightwatch's supply, the image cache and owner
images (R3, R238, R485, R489 to R493). -/

namespace Sys2Proof.Machine

/-- Whether HEALTH_N is driven low (R490). -/
def State.healthLow (s : State) : Bool := s.boot.up && (s.failStop || s.tamper.lock || s.boot.inRom)

/-- GPIO[7:0] while the Relay is out of reset (R489): bit i is ball i. While `TRACE` is granted balls 4 to 7 carry trace, whose
content the spec does not give. -/
def State.gpio (s : State) : BitVec 8 :=
  BitVec.ofNat 8 (b2n s.boot.ready + 2 * b2n s.tamper.lock + 4 * b2n (s.standbyState != 0) + 8 * b2n s.failStop +
    (if bit s.debugPorts 3 then (Config.freeValue 0).toNat % 16 * 16
     else 16 * b2n (s.active == some .a) + 32 * b2n (s.active == some .b) + 64 * b2n s.power.thermal +
       128 * b2n (s.sticky.getLsbD 10)))

/-- The level at a ball of an officer card port: not driven, driven low or high, driven by the card's clock, or as the T=1 line
carries it. -/
inductive PadLevel where
  | highZ
  | low
  | high
  | clock
  | line
  deriving DecidableEq, Repr

/-- The level at CARDn_IO (0), CARDn_CLK (1) or CARDn_RST (2) of port `p` (R167, R420, R421, R476, R479): high impedance with the
Relay unpowered or in reset; driven low in the clamp mode from the start of an entry of island 422 to Sleep until the island is
in Run; as captured while the latches hold; and otherwise as the port's registers give it, with CLK and RST low and IO released
while no card is activated, and RST low for 40,000 cycles after CLK starts (Table 7-4). -/
def State.cardPad (s : State) (p pad : Nat) : PadLevel :=
  let d := s.domain 422
  if ¬ (s.boot.mainOn ∧ s.boot.up) then .highZ
  else if s.power.padClamp ∧ (d.st ≠ .run ∨ d.entry.isSome) then .low
  else match s.power.padHold with
    | some h => if ¬ bit h (6 + 3 * p + pad) then .highZ else if bit h (3 * p + pad) then .high else .low
    | none =>
      match (if p = 0 then s.port0 else s.port1).dlg with
      | none => if pad = 0 then .highZ else .low
      | some g => if pad = 0 then .line else if pad = 1 then .clock else if s.now < g.rstUp then .low else .high

/-- Data returned on SMBus. -/
def State.smbusOut (s : State) (b : Bytes) : State := { s with out := s.out ++ [.smbus b] }

/-- The lower of the twins' values. -/
def State.lower (s : State) (f : TwinSt → Twin → Nat) : Nat := min (f s.twinA .a) (f s.twinB .b)

/-- The SMBus health summary (Table 21-10). Temperature, power and VBAT are what the sensors read, which nothing constrains
(assumption 57). -/
def State.healthSummary (s : State) (temp power vbat : Nat) : Bytes :=
  toLe 4 s.modState ++ toLe 2 s.attention ++ [byte s.power.mod.code, 0] ++ toLe 2 (if s.failStop then 0xF001 else 0) ++
  toLe 2 temp ++ toLe 2 power ++ toLe 2 vbat ++ toLe 4 s.alm.unwritten ++
  toLe 2 (s.lower (fun x w => x.freeSpares w .core)) ++ toLe 2 (s.lower (fun x w => x.freeSpares w .engine)) ++
  [byte (s.lower (fun x _ => x.ent.spares)), 0] ++ toLe 2 s.wear.sectors ++ toLe 4 s.pcycle

/-- `SMBUS_HEALTH_SUMMARY` (R491). -/
def execSmbusHealthSummary (t : Nat) (s : State) : Host.Outcome State Fault Refusal :=
  ev t (onlyIf s.boot.up (fun s =>
    let v := s.fresh
    let n := v.1.toNat
    v.2.smbusOut (v.2.healthSummary (n % 65536) (n / 65536 % 65536) (n / 2 ^ 32 % 65536)))) s

/-- `SMBUS_TEMPERATURE` (R491): the hottest die sensor reads what it reads (assumption 57). -/
def execSmbusTemperature (t : Nat) (s : State) : Host.Outcome State Fault Refusal :=
  ev t (onlyIf s.boot.up (fun s =>
    let v := s.fresh
    v.2.smbusOut (toLe 2 v.1.toNat))) s

/-- `SMBUS_ALERT_RESPONSE` (R492): the module answers with its address, and releases SMB_ALERT_N. -/
def execSmbusAlertResponse (t : Nat) (s : State) : Host.Outcome State Fault Refusal :=
  ev t (onlyIf (s.boot.up && s.smbAlert) (fun s => { s.smbusOut [0x4A] with smbAlert := false })) s

/-- `THERMAL_WARNING` (R493): the hottest die sensor, in units of 0.125 degrees, at 110 degrees or above sets `THERMAL`, and at
105 or below clears it. -/
def execThermalWarning (t : Nat) (temp : Int) (s : State) : Host.Outcome State Fault Refusal :=
  ev t (onlyIf s.boot.up (fun s =>
    { s with power := { s.power with
      thermal := if 880 ≤ temp then true else if temp ≤ 840 then false else s.power.thermal } }.setVid)) s

/-- `VNW_SOURCE_SWITCH` (R485): VNW follows VAUX from 3.00 V up, and VBAT once VAUX has fallen 50 mV below that. -/
def execVnwSourceSwitch (t vauxMv : Nat) (s : State) : Host.Outcome State Fault Refusal :=
  ev t (fun s => { s with power := { s.power with
    vnwVaux := if 3000 ≤ vauxMv then true else if vauxMv < 2950 then false else s.power.vnwVaux } }) s

/-- Pages that a quadrant's image cache holds: 512 KiB in each of four clusters (R238). -/
abbrev cachePages : Nat := 512

/-- Whether a page of an image version is pinned (R238): the version is in force, or a request in service runs on it. -/
def TwinSt.pagePinned (x : TwinSt) (version page : Nat) : Bool :=
  let c := x.store.component 3 (version / 2)
  bit ((c.slot (version % 2)).pageFlags page) 3 && (c.inForce == some (version % 2) ||
    x.reqs.any (fun (e : Nat × Req) => e.2.image == version / 2 && c.forceAt e.1 == some (version % 2) && e.2.fin.isNone))

/-- A page added to a quadrant's cache; the oldest page that is not pinned makes room (R238, assumption 60). -/
def TwinSt.cachePage (x : TwinSt) (quadrant version page : Nat) : TwinSt :=
  let p := (quadrant, version, page)
  if x.cache.contains p ∨ ((x.store.component 3 (version / 2)).slot (version % 2)).pageCount ≤ page then x
  else
    let mine := fun (c : Nat × Nat × Nat) => c.1 == quadrant && !x.pagePinned c.2.1 c.2.2
    let l := if x.cache.countP (fun c => c.1 == quadrant) < cachePages then x.cache
      else match x.cache.find? mine with
        | some c => x.cache.erase c
        | none => x.cache
    { x with cache := l ++ [p] }

/-- The request whose task a context of a quadrant holds while it waits for a page of an image. -/
def TwinSt.missedBy (x : TwinSt) (quadrant image page : Nat) (c : Nat × Ctx) : Option Nat :=
  if islandCluster (c.1 / 2) / 4 = quadrant ∧ c.2.wants = .page page then
    (c.2.task.map Prod.fst).filter (fun q => (Tbl.find? x.reqs q).any (fun r => r.image == image))
  else none

/-- The versions of an image that a quadrant's misses of a page are for; with no miss, the one in force (R238, R250). -/
def TwinSt.missedVersions (x : TwinSt) (quadrant image page : Nat) : List Nat :=
  match x.ctxs.filterMap (x.missedBy quadrant image page) with
  | [] => ((x.store.component 3 image).inForce.map (versionKey image)).toList
  | l => l.map (x.store.version image)

/-- `IMAGE_CACHE_FILL` (R238): a page of an image is filled from NVM, in the versions that missed it, and the contexts that
missed it go on. -/
def execImageCacheFill (t : Nat) (w : Twin) (quadrant image page : Nat) (s : State) : Host.Outcome State Fault Refusal :=
  ev t (fun s => onlyIf (s.executes w && decide (quadrant < 4))
    (fun s => s.updTwin w (fun x =>
      ((x.missedVersions quadrant image page).foldl (fun (x : TwinSt) v => x.cachePage quadrant v page) x).wakeMem s.now
        (fun c k => (x.missedBy quadrant image page (ctxKey c, k)).isSome))) s) s

/-- `OWNER_IMAGE_COMMAND` (R3): the command is what the owner image makes of it. Its root task is dispatched at the entry point
of its dispatch entry when Coachyard's choice falls on it; the instructions of the image then run, and `EXIT` ends the
request. -/
def execOwnerImageCommand (t : Nat) (w : Twin) (q : Nat) (s : State) : Host.Outcome State Fault Refusal :=
  ev t (fun s =>
    if ¬ s.executes w ∨ ¬ s.coachyardAwake w then s
    else
      let s := s.updTwin w (fun x => x.prepare w (s.isActive w) s.now)
      let x := s.twin w
      match x.chooseTask w (s.isActive w) s.now, Tbl.find? x.reqs q with
      | some t, some r =>
        if t.q ≠ q ∨ t.i ≠ 0 ∨ r.hdr.opcode < 0x0F00 ∨ 0x0FFF < r.hdr.opcode then s
        else match x.target w r.image with
          | some (isl, n) => s.dispatchTo w t isl n false
          | none => s
      | _, _ => s) s

end Sys2Proof.Machine
end

