-- ==== Sys2Proof/Machine/Dispatch.lean ====
section
/-! DEFINITION. The effect of each command on everything but the queue: one arm for each constructor. -/

namespace Sys2Proof.Machine

/-- The effect of a command (the queue is `step`'s). -/
def exec (i : Instr) (s : State) : Host.Outcome State Fault Refusal :=
  match i with
  | .registerWrite t fn off width val => Sys2Proof.Machine.execRegisterWrite t fn off width val s
  | .highWordLatchRead t fn off width => Sys2Proof.Machine.execHighWordLatchRead t fn off width s
  | .mbxEnable t fn val => Sys2Proof.Machine.execMbxEnable t fn val s
  | .mbxDisable t fn val => Sys2Proof.Machine.execMbxDisable t fn val s
  | .sqTailDoorbell t fn idx val => Sys2Proof.Machine.execSqTailDoorbell t fn idx val s
  | .rqHead t fn idx val => Sys2Proof.Machine.execRqHead t fn idx val s
  | .almCursor t val => Sys2Proof.Machine.execAlmCursor t val s
  | .almWindowLoaded t => Sys2Proof.Machine.execAlmWindowLoaded t s
  | .ptmDialogue t h => Sys2Proof.Machine.execPtmDialogue t h s
  | .perst t => Sys2Proof.Machine.execPerst t s
  | .linkDown t => Sys2Proof.Machine.execLinkDown t s
  | .functionLevelReset t fn => Sys2Proof.Machine.execFunctionLevelReset t fn s
  | .d3hotEntry t fn => Sys2Proof.Machine.execD3hotEntry t fn s
  | .d3hotExit t fn => Sys2Proof.Machine.execD3hotExit t fn s
  | .laneRetrainX8 t failed => Sys2Proof.Machine.execLaneRetrainX8 t failed s
  | .submissionFetch t fn idx entries => Sys2Proof.Machine.execSubmissionFetch t fn idx entries s
  | .entryAcceptance t pre => Sys2Proof.Machine.execEntryAcceptance t pre s
  | .fetchError t fn idx => Sys2Proof.Machine.execFetchError t fn idx s
  | .payloadReadFailed t q => Sys2Proof.Machine.execPayloadReadFailed t q s
  | .payloadStoreRead t w q off data => Sys2Proof.Machine.execPayloadStoreRead t w q off data s
  | .coalesceTimeout t fn idx => Sys2Proof.Machine.execCoalesceTimeout t fn idx s
  | .resultRelease t q => Sys2Proof.Machine.execResultRelease t q s
  | .broadcastEntryArrival t w q => Sys2Proof.Machine.execBroadcastEntryArrival t w q s
  | .useAssignment t w q k => Sys2Proof.Machine.execUseAssignment t w q k s
  | .taskDispatch t w => Sys2Proof.Machine.execTaskDispatch t w s
  | .preemption t w => Sys2Proof.Machine.execPreemption t w s
  | .dependenceCompletion t w => Sys2Proof.Machine.execDependenceCompletion t w s
  | .deadlineReached t q => Sys2Proof.Machine.execDeadlineReached t q s
  | .timeoutExitLimit t w q => Sys2Proof.Machine.execTimeoutExitLimit t w q s
  | .runBudgetReached t q => Sys2Proof.Machine.execRunBudgetReached t q s
  | .streamTimeout t w space key => Sys2Proof.Machine.execStreamTimeout t w space key s
  | .discardedIdExpiry t w space key => Sys2Proof.Machine.execDiscardedIdExpiry t w space key s
  | .disciplinePulse t offs => Sys2Proof.Machine.execDisciplinePulse t offs s
  | .epochBatch t w => Sys2Proof.Machine.execEpochBatch t w s
  | .batchReceived t w => Sys2Proof.Machine.execBatchReceived t w s
  | .reexecutionComplete t w q gave => Sys2Proof.Machine.execReexecutionComplete t w q gave s
  | .standbyDigestLate t q => Sys2Proof.Machine.execStandbyDigestLate t q s
  | .batchesMissing t w => Sys2Proof.Machine.execBatchesMissing t w s
  | .relinquish t w cause island => Sys2Proof.Machine.execRelinquish t w cause island s
  | .egressIsolation t => Sys2Proof.Machine.execEgressIsolation t s
  | .promotion t => Sys2Proof.Machine.execPromotion t s
  | .discardedReplyPost t => Sys2Proof.Machine.execDiscardedReplyPost t s
  | .newWorkAccept t => Sys2Proof.Machine.execNewWorkAccept t s
  | .relayCopyDisagree t func copy => Sys2Proof.Machine.execRelayCopyDisagree t func copy s
  | .twinSelftestComplete t w pass => Sys2Proof.Machine.execTwinSelftestComplete t w pass s
  | .resyncSnapshot t => Sys2Proof.Machine.execResyncSnapshot t s
  | .resyncJoin t => Sys2Proof.Machine.execResyncJoin t s
  | .resyncHealthy t => Sys2Proof.Machine.execResyncHealthy t s
  | .healthReportSnapshot t => Sys2Proof.Machine.execHealthReportSnapshot t s
  | .endRecordAtRelay t w q => Sys2Proof.Machine.execEndRecordAtRelay t w q s
  | .noiseSourceFail t w src test count => Sys2Proof.Machine.execNoiseSourceFail t w src test count s
  | .spareSourceJoin t w group => Sys2Proof.Machine.execSpareSourceJoin t w group s
  | .conditionedBlock t w group raw => Sys2Proof.Machine.execConditionedBlock t w group raw s
  | .maskingReseed t w island dp => Sys2Proof.Machine.execMaskingReseed t w island dp s
  | .entropyStartupTestEnd t w fails => Sys2Proof.Machine.execEntropyStartupTestEnd t w fails s
  | .seedProposal t => Sys2Proof.Machine.execSeedProposal t s
  | .seedAck t => Sys2Proof.Machine.execSeedAck t s
  | .seedRenewalEffect t => Sys2Proof.Machine.execSeedRenewalEffect t s
  | .rngServiceStop t => Sys2Proof.Machine.execRngServiceStop t s
  | .almanacAppend t region => Sys2Proof.Machine.execAlmanacAppend t region s
  | .mergeWrite t region => Sys2Proof.Machine.execMergeWrite t region s
  | .opSecondsRecord t => Sys2Proof.Machine.execOpSecondsRecord t s
  | .alarmQualify t cls mon n reading => Sys2Proof.Machine.execAlarmQualify t cls mon n reading s
  | .alarmDeassert t cls mon falses => Sys2Proof.Machine.execAlarmDeassert t cls mon falses s
  | .tamperResponseEffect t => Sys2Proof.Machine.execTamperResponseEffect t s
  | .backupWindow t samples => Sys2Proof.Machine.execBackupWindow t samples s
  | .cmkErased t c => Sys2Proof.Machine.execCmkErased t c s
  | .compZeroized t c => Sys2Proof.Machine.execCompZeroized t c s
  | .mainPowerLoss t => Sys2Proof.Machine.execMainPowerLoss t s
  | .resetNAssert t => Sys2Proof.Machine.execResetNAssert t s
  | .resetNRelease t recovery => Sys2Proof.Machine.execResetNRelease t recovery s
  | .twinBootTimeout t w => Sys2Proof.Machine.execTwinBootTimeout t w s
  | .bootComplete boot => Sys2Proof.Machine.execBootComplete boot s
  | .trialBootTimeout t => Sys2Proof.Machine.execTrialBootTimeout t s
  | .lcSelfReset t => Sys2Proof.Machine.execLcSelfReset t s
  | .cardInserted t port => Sys2Proof.Machine.execCardInserted t port s
  | .cardRemoved t port => Sys2Proof.Machine.execCardRemoved t port s
  | .cardApduResponse t port resp => Sys2Proof.Machine.execCardApduResponse t port resp s
  | .cardTimeout t port => Sys2Proof.Machine.execCardTimeout t port s
  | .approvalExpiry t id => Sys2Proof.Machine.execApprovalExpiry t id s
  | .componentSetExpiry t c => Sys2Proof.Machine.execComponentSetExpiry t c s
  | .admNop t w q => Sys2Proof.Machine.execAdmNop t w q s
  | .admStatus t w q => Sys2Proof.Machine.execAdmStatus t w q s
  | .attnAck t w q => Sys2Proof.Machine.execAttnAck t w q s
  | .healthGet t w q => Sys2Proof.Machine.execHealthGet t w q s
  | .healthNow t w q => Sys2Proof.Machine.execHealthNow t w q s
  | .cfgShadowWrite t w q => Sys2Proof.Machine.execCfgShadowWrite t w q s
  | .cfgShadowValidate t w q => Sys2Proof.Machine.execCfgShadowValidate t w q s
  | .cfgSwap t w q => Sys2Proof.Machine.execCfgSwap t w q s
  | .cfgSwapEffect t => Sys2Proof.Machine.execCfgSwapEffect t s
  | .cfgRead t w q => Sys2Proof.Machine.execCfgRead t w q s
  | .fwSlotWrite t w q => Sys2Proof.Machine.execFwSlotWrite t w q s
  | .fwSlotActivate t w q => Sys2Proof.Machine.execFwSlotActivate t w q s
  | .compCreate t w q => Sys2Proof.Machine.execCompCreate t w q s
  | .compSuspend t w q => Sys2Proof.Machine.execCompSuspend t w q s
  | .compResume t w q => Sys2Proof.Machine.execCompResume t w q s
  | .compZeroize t w q => Sys2Proof.Machine.execCompZeroize t w q s
  | .officerEnrol t w q => Sys2Proof.Machine.execOfficerEnrol t w q s
  | .officerRemove t w q => Sys2Proof.Machine.execOfficerRemove t w q s
  | .approvalSubmit t w q => Sys2Proof.Machine.execApprovalSubmit t w q s
  | .cardExchange t w q => Sys2Proof.Machine.execCardExchange t w q s
  | .componentEnter t w q => Sys2Proof.Machine.execComponentEnter t w q s
  | .unlock t w q => Sys2Proof.Machine.execUnlock t w q s
  | .lcTransition t w q => Sys2Proof.Machine.execLcTransition t w q s
  | .debugCertLoad t w q => Sys2Proof.Machine.execDebugCertLoad t w q s
  | .selftestRequest t w q => Sys2Proof.Machine.execSelftestRequest t w q s
  | .attestReport t w q => Sys2Proof.Machine.execAttestReport t w q s
  | .almRead t w q => Sys2Proof.Machine.execAlmRead t w q s
  | .almExport t w q => Sys2Proof.Machine.execAlmExport t w q s
  | .keyGenerate t w q => Sys2Proof.Machine.execKeyGenerate t w q s
  | .keyImport t w q => Sys2Proof.Machine.execKeyImport t w q s
  | .keyExport t w q => Sys2Proof.Machine.execKeyExport t w q s
  | .keyPairGenerate t w q => Sys2Proof.Machine.execKeyPairGenerate t w q s
  | .pubkeyImport t w q => Sys2Proof.Machine.execPubkeyImport t w q s
  | .keyLoad t w q => Sys2Proof.Machine.execKeyLoad t w q s
  | .keyUnload t w q => Sys2Proof.Machine.execKeyUnload t w q s
  | .keyRevoke t w q => Sys2Proof.Machine.execKeyRevoke t w q s
  | .keyInfo t w q => Sys2Proof.Machine.execKeyInfo t w q s
  | .keySave t w q => Sys2Proof.Machine.execKeySave t w q s
  | .pinTranslate t w q => Sys2Proof.Machine.execPinTranslate t w q s
  | .pinVerifyOffset t w q => Sys2Proof.Machine.execPinVerifyOffset t w q s
  | .pinOffsetGenerate t w q => Sys2Proof.Machine.execPinOffsetGenerate t w q s
  | .pinVerifyReference t w q => Sys2Proof.Machine.execPinVerifyReference t w q s
  | .macGenerate t w q => Sys2Proof.Machine.execMacGenerate t w q s
  | .macVerify t w q => Sys2Proof.Machine.execMacVerify t w q s
  | .dataEncrypt t w q => Sys2Proof.Machine.execDataEncrypt t w q s
  | .dataDecrypt t w q => Sys2Proof.Machine.execDataDecrypt t w q s
  | .sivSeal t w q => Sys2Proof.Machine.execSivSeal t w q s
  | .sivOpen t w q => Sys2Proof.Machine.execSivOpen t w q s
  | .kdfDerive t w q => Sys2Proof.Machine.execKdfDerive t w q s
  | .dukptPinTranslate t w q => Sys2Proof.Machine.execDukptPinTranslate t w q s
  | .dukptMacVerify t w q => Sys2Proof.Machine.execDukptMacVerify t w q s
  | .dukptDataDecrypt t w q => Sys2Proof.Machine.execDukptDataDecrypt t w q s
  | .dukptIkExport t w q => Sys2Proof.Machine.execDukptIkExport t w q s
  | .sigVerify t w q => Sys2Proof.Machine.execSigVerify t w q s
  | .sign t w q => Sys2Proof.Machine.execSign t w q s
  | .ecdhDerive t w q => Sys2Proof.Machine.execEcdhDerive t w q s
  | .rngGet t w q => Sys2Proof.Machine.execRngGet t w q s
  | .drawCertified t w q => Sys2Proof.Machine.execDrawCertified t w q s
  | .drawLast t w q => Sys2Proof.Machine.execDrawLast t w q s
  | .ticketIssue t w q => Sys2Proof.Machine.execTicketIssue t w q s
  | .ticketValidate t w q => Sys2Proof.Machine.execTicketValidate t w q s
  | .ownerImageCommand t w q => Sys2Proof.Machine.execOwnerImageCommand t w q s
  | .add c rd rs1 rs2 rsvd => Sys2Proof.Machine.execAdd c rd rs1 rs2 rsvd s
  | .sub c rd rs1 rs2 rsvd => Sys2Proof.Machine.execSub c rd rs1 rs2 rsvd s
  | .kAnd c rd rs1 rs2 rsvd => Sys2Proof.Machine.execKAnd c rd rs1 rs2 rsvd s
  | .kOr c rd rs1 rs2 rsvd => Sys2Proof.Machine.execKOr c rd rs1 rs2 rsvd s
  | .kXor c rd rs1 rs2 rsvd => Sys2Proof.Machine.execKXor c rd rs1 rs2 rsvd s
  | .andn c rd rs1 rs2 rsvd => Sys2Proof.Machine.execAndn c rd rs1 rs2 rsvd s
  | .sll c rd rs1 rs2 rsvd => Sys2Proof.Machine.execSll c rd rs1 rs2 rsvd s
  | .srl c rd rs1 rs2 rsvd => Sys2Proof.Machine.execSrl c rd rs1 rs2 rsvd s
  | .sra c rd rs1 rs2 rsvd => Sys2Proof.Machine.execSra c rd rs1 rs2 rsvd s
  | .rol c rd rs1 rs2 rsvd => Sys2Proof.Machine.execRol c rd rs1 rs2 rsvd s
  | .ror c rd rs1 rs2 rsvd => Sys2Proof.Machine.execRor c rd rs1 rs2 rsvd s
  | .slt c rd rs1 rs2 rsvd => Sys2Proof.Machine.execSlt c rd rs1 rs2 rsvd s
  | .sltu c rd rs1 rs2 rsvd => Sys2Proof.Machine.execSltu c rd rs1 rs2 rsvd s
  | .seq c rd rs1 rs2 rsvd => Sys2Proof.Machine.execSeq c rd rs1 rs2 rsvd s
  | .kMin c rd rs1 rs2 rsvd => Sys2Proof.Machine.execKMin c rd rs1 rs2 rsvd s
  | .kMax c rd rs1 rs2 rsvd => Sys2Proof.Machine.execKMax c rd rs1 rs2 rsvd s
  | .minu c rd rs1 rs2 rsvd => Sys2Proof.Machine.execMinu c rd rs1 rs2 rsvd s
  | .maxu c rd rs1 rs2 rsvd => Sys2Proof.Machine.execMaxu c rd rs1 rs2 rsvd s
  | .csel c rd rs1 rs2 rsvd => Sys2Proof.Machine.execCsel c rd rs1 rs2 rsvd s
  | .mul c rd rs1 rs2 rsvd => Sys2Proof.Machine.execMul c rd rs1 rs2 rsvd s
  | .mulhu c rd rs1 rs2 rsvd => Sys2Proof.Machine.execMulhu c rd rs1 rs2 rsvd s
  | .mulh c rd rs1 rs2 rsvd => Sys2Proof.Machine.execMulh c rd rs1 rs2 rsvd s
  | .div c rd rs1 rs2 rsvd => Sys2Proof.Machine.execDiv c rd rs1 rs2 rsvd s
  | .divu c rd rs1 rs2 rsvd => Sys2Proof.Machine.execDivu c rd rs1 rs2 rsvd s
  | .kRem c rd rs1 rs2 rsvd => Sys2Proof.Machine.execKRem c rd rs1 rs2 rsvd s
  | .remu c rd rs1 rs2 rsvd => Sys2Proof.Machine.execRemu c rd rs1 rs2 rsvd s
  | .clz c rd rs1 rsvd => Sys2Proof.Machine.execClz c rd rs1 rsvd s
  | .ctz c rd rs1 rsvd => Sys2Proof.Machine.execCtz c rd rs1 rsvd s
  | .popc c rd rs1 rsvd => Sys2Proof.Machine.execPopc c rd rs1 rsvd s
  | .bswap c rd rs1 rsvd => Sys2Proof.Machine.execBswap c rd rs1 rsvd s
  | .adc c rd rs1 rs2 rsvd => Sys2Proof.Machine.execAdc c rd rs1 rs2 rsvd s
  | .sbb c rd rs1 rs2 rsvd => Sys2Proof.Machine.execSbb c rd rs1 rs2 rsvd s
  | .macc c rs1 rs2 rsvd => Sys2Proof.Machine.execMacc c rs1 rs2 rsvd s
  | .macc2 c rs1 rs2 rsvd => Sys2Proof.Machine.execMacc2 c rs1 rs2 rsvd s
  | .accsh c rd rsvd => Sys2Proof.Machine.execAccsh c rd rsvd s
  | .accclr c rsvd => Sys2Proof.Machine.execAccclr c rsvd s
  | .accadd c rs1 rsvd => Sys2Proof.Machine.execAccadd c rs1 rsvd s
  | .maccm c rs1 rs2 rsvd => Sys2Proof.Machine.execMaccm c rs1 rs2 rsvd s
  | .mmov c rs1 rs2 rsvd => Sys2Proof.Machine.execMmov c rs1 rs2 rsvd s
  | .mfs c rd n rsvd => Sys2Proof.Machine.execMfs c rd n rsvd s
  | .mts c n rs1 rsvd => Sys2Proof.Machine.execMts c n rs1 rsvd s
  | .addi c rd rs1 imm => Sys2Proof.Machine.execAddi c rd rs1 imm s
  | .andi c rd rs1 imm => Sys2Proof.Machine.execAndi c rd rs1 imm s
  | .ori c rd rs1 imm => Sys2Proof.Machine.execOri c rd rs1 imm s
  | .xori c rd rs1 imm => Sys2Proof.Machine.execXori c rd rs1 imm s
  | .slti c rd rs1 imm => Sys2Proof.Machine.execSlti c rd rs1 imm s
  | .sltiu c rd rs1 imm => Sys2Proof.Machine.execSltiu c rd rs1 imm s
  | .lui c rd imm rsvd => Sys2Proof.Machine.execLui c rd imm rsvd s
  | .slli c rd rs1 sh rsvd => Sys2Proof.Machine.execSlli c rd rs1 sh rsvd s
  | .srli c rd rs1 sh rsvd => Sys2Proof.Machine.execSrli c rd rs1 sh rsvd s
  | .srai c rd rs1 sh rsvd => Sys2Proof.Machine.execSrai c rd rs1 sh rsvd s
  | .rori c rd rs1 sh rsvd => Sys2Proof.Machine.execRori c rd rs1 sh rsvd s
  | .ld c rd rs1 imm => Sys2Proof.Machine.execLd c rd rs1 imm s
  | .ldw c rd rs1 imm => Sys2Proof.Machine.execLdw c rd rs1 imm s
  | .ldws c rd rs1 imm => Sys2Proof.Machine.execLdws c rd rs1 imm s
  | .ldh c rd rs1 imm => Sys2Proof.Machine.execLdh c rd rs1 imm s
  | .ldhs c rd rs1 imm => Sys2Proof.Machine.execLdhs c rd rs1 imm s
  | .ldb c rd rs1 imm => Sys2Proof.Machine.execLdb c rd rs1 imm s
  | .ldbs c rd rs1 imm => Sys2Proof.Machine.execLdbs c rd rs1 imm s
  | .st c rd rs1 imm => Sys2Proof.Machine.execSt c rd rs1 imm s
  | .stw c rd rs1 imm => Sys2Proof.Machine.execStw c rd rs1 imm s
  | .sth c rd rs1 imm => Sys2Proof.Machine.execSth c rd rs1 imm s
  | .stb c rd rs1 imm => Sys2Proof.Machine.execStb c rd rs1 imm s
  | .beq c rs1 rs2 off => Sys2Proof.Machine.execBeq c rs1 rs2 off s
  | .bne c rs1 rs2 off => Sys2Proof.Machine.execBne c rs1 rs2 off s
  | .blt c rs1 rs2 off => Sys2Proof.Machine.execBlt c rs1 rs2 off s
  | .bge c rs1 rs2 off => Sys2Proof.Machine.execBge c rs1 rs2 off s
  | .bltu c rs1 rs2 off => Sys2Proof.Machine.execBltu c rs1 rs2 off s
  | .bgeu c rs1 rs2 off => Sys2Proof.Machine.execBgeu c rs1 rs2 off s
  | .j c off => Sys2Proof.Machine.execJ c off s
  | .call c off => Sys2Proof.Machine.execCall c off s
  | .jr c rs1 rsvd => Sys2Proof.Machine.execJr c rs1 rsvd s
  | .callr c rs1 rsvd => Sys2Proof.Machine.execCallr c rs1 rsvd s
  | .ret c rsvd => Sys2Proof.Machine.execRet c rsvd s
  | .rep c rsvd => Sys2Proof.Machine.execRep c rsvd s
  | .li c rd imm rsvd => Sys2Proof.Machine.execLi c rd imm rsvd s
  | .lih c rd imm rsvd => Sys2Proof.Machine.execLih c rd imm rsvd s
  | .addl c rd rs1 imm rsvd => Sys2Proof.Machine.execAddl c rd rs1 imm rsvd s
  | .andl c rd rs1 imm rsvd => Sys2Proof.Machine.execAndl c rd rs1 imm rsvd s
  | .orl c rd rs1 imm rsvd => Sys2Proof.Machine.execOrl c rd rs1 imm rsvd s
  | .xorl c rd rs1 imm rsvd => Sys2Proof.Machine.execXorl c rd rs1 imm rsvd s
  | .ldl c rd rs1 imm rsvd => Sys2Proof.Machine.execLdl c rd rs1 imm rsvd s
  | .stl c rd rs1 imm rsvd => Sys2Proof.Machine.execStl c rd rs1 imm rsvd s
  | .wait c rsvd => Sys2Proof.Machine.execWait c rsvd s
  | .eng c rs1 rsvd => Sys2Proof.Machine.execEng c rs1 rsvd s
  | .orr c rs1 rsvd => Sys2Proof.Machine.execOrr c rs1 rsvd s
  | .dcl c rd rs1 rsvd => Sys2Proof.Machine.execDcl c rd rs1 rsvd s
  | .fence c rsvd => Sys2Proof.Machine.execFence c rsvd s
  | .eret c rsvd => Sys2Proof.Machine.execEret c rsvd s
  | .halt c rsvd => Sys2Proof.Machine.execHalt c rsvd s
  | .brk c word => Sys2Proof.Machine.execBrk c word s
  | .exit t c rsvd => Sys2Proof.Machine.execExit t c rsvd s
  | .child t c rsvd => Sys2Proof.Machine.execChild t c rsvd s
  | .payloadRead t c rsvd => Sys2Proof.Machine.execPayloadRead t c rsvd s
  | .resultWrite t c rsvd => Sys2Proof.Machine.execResultWrite t c rsvd s
  | .rng t c rsvd => Sys2Proof.Machine.execRng t c rsvd s
  | .keyAttr t c rsvd => Sys2Proof.Machine.execKeyAttr t c rsvd s
  | .keyNew t c rsvd => Sys2Proof.Machine.execKeyNew t c rsvd s
  | .keyPut t c rsvd => Sys2Proof.Machine.execKeyPut t c rsvd s
  | .keyGet t c rsvd => Sys2Proof.Machine.execKeyGet t c rsvd s
  | .sramAlloc t c rsvd => Sys2Proof.Machine.execSramAlloc t c rsvd s
  | .sramFree t c rsvd => Sys2Proof.Machine.execSramFree t c rsvd s
  | .engineQueueAdmit t w cluster => Sys2Proof.Machine.execEngineQueueAdmit t w cluster s
  | .blockE t w op cmpFail => Sys2Proof.Machine.execBlockE t w op cmpFail s
  | .blockD t w op cmpFail => Sys2Proof.Machine.execBlockD t w op cmpFail s
  | .xctr t w op cmpFail => Sys2Proof.Machine.execXctr t w op cmpFail s
  | .chain t w op cmpFail => Sys2Proof.Machine.execChain t w op cmpFail s
  | .cv t w op cmpFail => Sys2Proof.Machine.execCv t w op cmpFail s
  | .kdf t w op cmpFail => Sys2Proof.Machine.execKdf t w op cmpFail s
  | .hash t w op cmpFail => Sys2Proof.Machine.execHash t w op cmpFail s
  | .kcv t w op cmpFail => Sys2Proof.Machine.execKcv t w op cmpFail s
  | .install t w op => Sys2Proof.Machine.execInstall t w op s
  | .stgBuild t w op => Sys2Proof.Machine.execStgBuild t w op s
  | .holdAlloc t w op => Sys2Proof.Machine.execHoldAlloc t w op s
  | .holdRegionGranted t w op => Sys2Proof.Machine.execHoldRegionGranted t w op s
  | .holdRelease t w op cmpFail => Sys2Proof.Machine.execHoldRelease t w op cmpFail s
  | .holdFree t w op => Sys2Proof.Machine.execHoldFree t w op s
  | .engineOpComplete t w op => Sys2Proof.Machine.execEngineOpComplete t w op s
  | .orreryCallStoreAdmit t w => Sys2Proof.Machine.execOrreryCallStoreAdmit t w s
  | .rsaPub t w call => Sys2Proof.Machine.execRsaPub t w call s
  | .ecdsaVerify t w call => Sys2Proof.Machine.execEcdsaVerify t w call s
  | .ed25519Verify t w call => Sys2Proof.Machine.execEd25519Verify t w call s
  | .mldsaVerify t w call => Sys2Proof.Machine.execMldsaVerify t w call s
  | .shake256 t w call => Sys2Proof.Machine.execShake256 t w call s
  | .orreryCallComplete t w call => Sys2Proof.Machine.execOrreryCallComplete t w call s
  | .orrerySlotBoundary t w => Sys2Proof.Machine.execOrrerySlotBoundary t w s
  | .orreryQuantumExpiry t w => Sys2Proof.Machine.execOrreryQuantumExpiry t w s
  | .domainIdleEntry t dom busy => Sys2Proof.Machine.execDomainIdleEntry t dom busy s
  | .coreIdleEntry t island => Sys2Proof.Machine.execCoreIdleEntry t island s
  | .wakeEvent t doms urgent => Sys2Proof.Machine.execWakeEvent t doms urgent s
  | .entryRefuseTimeout t dom => Sys2Proof.Machine.execEntryRefuseTimeout t dom s
  | .gatekeeperAccess t dom write => Sys2Proof.Machine.execGatekeeperAccess t dom write s
  | .padHoldRelease t => Sys2Proof.Machine.execPadHoldRelease t s
  | .clusterTrim t w busy => Sys2Proof.Machine.execClusterTrim t w busy s
  | .clusterTrimWake t w => Sys2Proof.Machine.execClusterTrimWake t w s
  | .standbyHotEntry t busy => Sys2Proof.Machine.execStandbyHotEntry t busy s
  | .standbyHotExit t => Sys2Proof.Machine.execStandbyHotExit t s
  | .loadClassChange t island cls => Sys2Proof.Machine.execLoadClassChange t island cls s
  | .dvfsTableStale t island cls => Sys2Proof.Machine.execDvfsTableStale t island cls s
  | .dvfsTraining t island cls mv => Sys2Proof.Machine.execDvfsTraining t island cls mv s
  | .canaryAlarm t island => Sys2Proof.Machine.execCanaryAlarm t island s
  | .spareRotation t w cluster kind => Sys2Proof.Machine.execSpareRotation t w cluster kind s
  | .rotationPoint t w cluster kind => Sys2Proof.Machine.execRotationPoint t w cluster kind s
  | .unitSelftestComplete t island pass ageing dur => Sys2Proof.Machine.execUnitSelftestComplete t island pass ageing dur s
  | .spareWaitTimeout t island => Sys2Proof.Machine.execSpareWaitTimeout t island s
  | .sramRowRemap t w cluster bank row reason => Sys2Proof.Machine.execSramRowRemap t w cluster bank row reason s
  | .nvmSectorReplace t sector use_ => Sys2Proof.Machine.execNvmSectorReplace t sector use_ s
  | .skyglowStimulusTest t die sensor trip => Sys2Proof.Machine.execSkyglowStimulusTest t die sensor trip s
  | .scrubRead t island row corrected uncorrectable => Sys2Proof.Machine.execScrubRead t island row corrected uncorrectable s
  | .lcReq t target zeros token => Sys2Proof.Machine.execLcReq t target zeros token s
  | .lcStatus t => Sys2Proof.Machine.execLcStatus t s
  | .dbgCert t cert => Sys2Proof.Machine.execDbgCert t cert s
  | .dbgStatus t => Sys2Proof.Machine.execDbgStatus t s
  | .dbgAccess t island kind => Sys2Proof.Machine.execDbgAccess t island kind s
  | .bypass t => Sys2Proof.Machine.execBypass t s
  | .samplePreload t => Sys2Proof.Machine.execSamplePreload t s
  | .extest t => Sys2Proof.Machine.execExtest t s
  | .clamp t => Sys2Proof.Machine.execClamp t s
  | .highz t => Sys2Proof.Machine.execHighz t s
  | .idcode t => Sys2Proof.Machine.execIdcode t s
  | .tapReset t => Sys2Proof.Machine.execTapReset t s
  | .smbusHealthSummary t => Sys2Proof.Machine.execSmbusHealthSummary t s
  | .smbusTemperature t => Sys2Proof.Machine.execSmbusTemperature t s
  | .smbusAlertResponse t => Sys2Proof.Machine.execSmbusAlertResponse t s
  | .ptmEnable t en => Sys2Proof.Machine.execPtmEnable t en s
  | .vfEnable t numVfs en => Sys2Proof.Machine.execVfEnable t numVfs en s
  | .msixVectorUnmask t fn vec => Sys2Proof.Machine.execMsixVectorUnmask t fn vec s
  | .thermalWarning t temp => Sys2Proof.Machine.execThermalWarning t temp s
  | .lcWipeComplete t => Sys2Proof.Machine.execLcWipeComplete t s
  | .imageCacheFill t w quadrant image page => Sys2Proof.Machine.execImageCacheFill t w quadrant image page s
  | .vnwSourceSwitch t vauxMv => Sys2Proof.Machine.execVnwSourceSwitch t vauxMv s

end Sys2Proof.Machine
end

