-- ==== Sys2Proof/Safety.lean ====
section
/-! DEFINITION. What counts as a safe step, and the predicates over commands and states that the statements share. -/

namespace Sys2Proof.Machine

/-- A command completes in a state that has a property. -/
def Completes (i : Instr) (s : State) (p : State → Prop) : Prop := ∃ t, exec i s = .next t ∧ p t

/-- A safe step: the block goes on, and stops with neither a fault nor a refusal. -/
def SafeStep (s : State) : Prop := ∃ t, step s = .next t

/-- The Relay in reset shows no change count and pulls no alert (Table 4-8, R476). -/
def ResetQuiet (s : State) : Prop := s.boot.up = false → s.attnSeq = 0 ∧ s.smbAlert = false

/-- What an event leaves of the attention count (R83): the earlier count when bits [27:16] are as before, and one more,
modulo 16, when they are not. -/
def SeqFollows (s t : State) : Prop :=
  t.attnSeq = if s.attnBits = t.attnBits then s.attnSeq else s.attnSeq + 1

/-- A Kaibas context executes an instruction of `len` bytes, not under `rep`: none of the checks of its fetch raises an exception
and its pages are in the image cache (R226, R238). -/
def Fetches (s : State) (c : Cid) (len : Nat) (e : KEnv) : Prop :=
  s.boot.up = true ∧ s.kenv? c = some e ∧ e.c.rep = none ∧ e.canFetch e.c.pc.toNat = true ∧ e.c.pc.toNat % 4 = 0 ∧
  e.missing e.c.pc.toNat = none ∧
  (len = 8 → e.canFetch (e.c.pc.toNat + 4) = true ∧ e.missing (e.c.pc.toNat + 4) = none)

/-- A Kaibas context executes one iteration of an instruction under `rep` at `p` with `rc` not 0 (R222, R223). -/
def Repeats (s : State) (c : Cid) (p : BitVec 64) (e : KEnv) : Prop :=
  s.boot.up = true ∧ s.kenv? c = some e ∧ e.c.rep = some p ∧ e.c.rc ≠ 0 ∧ e.canFetch e.c.pc.toNat = true ∧
  e.c.pc.toNat % 4 = 0 ∧ e.missing e.c.pc.toNat = none

/-- The state after an instruction of `len` bytes has completed: its twin and context written, the pc at the next
instruction, a step of a processor that a debug act halted used up, and nothing else changed but what every event settles. -/
def Advance (s : State) (e : KEnv) (len : Nat) (x : TwinSt) (c : Ctx) : Host.Outcome State Fault Refusal :=
  .next (settle s ((s.takeStep e.cid.island).putCtx e x { c with pc := e.c.pc + BitVec.ofNat 64 len }))

/-- The state after a transfer of control. -/
def Transfer (s : State) (e : KEnv) (x : TwinSt) (c : Ctx) (target : BitVec 64) : Host.Outcome State Fault Refusal :=
  .next (settle s ((s.takeStep e.cid.island).putCtx e x { c with pc := target }))

/-- The state after an exception is raised (R227). -/
def Raises (s : State) (e : KEnv) (c : Ctx) (cause sub reg info : Nat) : Host.Outcome State Fault Refusal :=
  .next (settle s ((s.takeStep e.cid.island).raise e c cause sub reg info e.c.pc.toNat))

/-- A command brings a request of a twin to an end whose record has a property. -/
def Ends (i : Instr) (s : State) (w : Twin) (q : Nat) (p : EndRec → Prop) : Prop :=
  Completes i s (fun t => ∃ (r : Req) (e : EndRec), Tbl.find? (t.twin w).reqs q = some r ∧ r.fin = some e ∧ p e)

/-- The commit stamp that a request's end record would carry now (R33). -/
def TwinSt.commitStamp (x : TwinSt) (now q : Nat) : Nat := (x.taskDone now q).2.stampOf now coachyard

/-- A request in service of a twin that no time-out has reached, and whose deadline, if it has one, lies ahead of now and of
the commit stamp (R33, R189, R191). -/
def Timely (x : TwinSt) (now q : Nat) (r : Req) : Prop :=
  r.fin = none ∧ r.timedOut = none ∧
  (r.hdr.deadline = 0 ∨ (now < r.hdr.deadline ∧ x.commitStamp now q < r.hdr.deadline))

/-- A result goes to the host: inline, or to a reply buffer that is long enough (R65). -/
def Fits (r : Req) (res : Bytes) : Prop := res.length ≤ 24 ∨ res.length ≤ r.hdr.rlen

/-- A request whose root task runs in a vendor image of an executing twin, with its payload there, on a core that executes it (R25,
R87, R243). -/
def Served (s : State) (t op : Nat) (w : Twin) (q : Nat) (r : Req) : Prop :=
  Tbl.find? (s.twin w).reqs q = some r ∧ s.executes w = true ∧ Timely (s.twin w) (s.at t).now q r ∧
  (VEnv.mk w q r r.payload).ready op = true ∧ s.coreAwake w q = true

/-- What wake events leave of a twin: all of it but its contexts and its clusters, which a debug access that a gatekeeper held may
write, and which leave `TRIMMED` (R419, R423). -/
def WokenOnly (x y : TwinSt) : Prop := { y with ctxs := x.ctxs, clusters := x.clusters } = x

/-- What a run of an admin or vendor command of a request sees. -/
def VEnv.of (w : Twin) (q : Nat) (r : Req) : VEnv := { w := w, q := q, r := r, p := r.payload }

/-- An admin request that Zenith of an executing twin may run now, with no entry of the replay table to answer it and nothing
yet supplied for it by the Relay (R77, R84, R162, R329). -/
def Asked (s : State) (t op : Nat) (w : Twin) (q : Nat) (r : Req) : Prop :=
  Tbl.find? (s.twin w).reqs q = some r ∧ s.executes w = true ∧ Timely (s.twin w) (s.at t).now q r ∧
  s.awake (twinBase w + 198) = true ∧ (s.at t).admReady w op q r = true ∧ (s.twin w).replayOf r = none ∧
  (Tbl.find? s.rreqs q).all (fun (rr : RReq) => rr.given.isNone) = true

/-- The approvals that a quorum check finds and the command consumes (R155, R156). -/
def VEnv.approved (e : VEnv) (s : State) (cls : Nat) (scopes : List QScope) (l : List (Nat × Approval)) : Bool :=
  match (e.quorum cls scopes).run s with
  | .ok (r, _) => r == l
  | .error _ => false

/-- The key that a declaration finds, where it passes every check of R98. -/
def VEnv.keyed (e : VEnv) (s : State) (i h : Nat) (fits : KeyRec → Bool) (k : KeyRec) : Bool :=
  match (e.key i h fits).run s with
  | .ok (r, _) => r == k
  | .error _ => false

/-- What a part of a vendor image's run gives from a state, when it reaches its end. -/
def ranTo {α : Type} (m : VM α) (s : State) : Option α :=
  match m.run s with
  | .ok (a, _) => some a
  | .error _ => none

/-- The bytes of a request's next consumer call, when random service gives them (R94, R321). -/
def VEnv.drawn (e : VEnv) (s : State) (n : Nat) : Option Bytes :=
  match (s.twin e.w).rng e.q 0 n with
  | .ok b _ => some b
  | _ => none

end Sys2Proof.Machine
end

