-- ==== Sys2Proof/Certificates/Slice0/Obligations.lean ====
section
/-! DEFINITION. The statements about the model: what each family of commands does, what every step keeps, and what reset
leaves. -/

open Sys2Proof Sys2Proof.Machine

/-- Table 9-10 and R213: the integer register operations of two sources write rd, tagged exactly when a source is, and
go on at the next instruction; nothing else of the module changes. -/
def Obligations.KaibasRegisterOperations : Prop :=
  ∀ (s : State) (c : Cid) (e : KEnv) (rd rs1 rs2 : BitVec 5), Fetches s c 4 e →
    let a := (e.c.reg rs1).1
    let b := (e.c.reg rs2).1
    let out := fun v => Advance s e 4 e.x (e.c.setReg rd v ((e.c.reg rs1).2 || (e.c.reg rs2).2))
    let flag := fun p : Bool => if p then (1 : Word) else 0
    exec (.add c rd rs1 rs2 0) s = out (a + b) ∧
    exec (.sub c rd rs1 rs2 0) s = out (a - b) ∧
    exec (.kAnd c rd rs1 rs2 0) s = out (a &&& b) ∧
    exec (.kOr c rd rs1 rs2 0) s = out (a ||| b) ∧
    exec (.kXor c rd rs1 rs2 0) s = out (a ^^^ b) ∧
    exec (.andn c rd rs1 rs2 0) s = out (a &&& ~~~b) ∧
    exec (.sll c rd rs1 rs2 0) s = out (a <<< (b.toNat % 64)) ∧
    exec (.srl c rd rs1 rs2 0) s = out (a >>> (b.toNat % 64)) ∧
    exec (.sra c rd rs1 rs2 0) s = out (a.sshiftRight (b.toNat % 64)) ∧
    exec (.rol c rd rs1 rs2 0) s = out (a.rotateLeft (b.toNat % 64)) ∧
    exec (.ror c rd rs1 rs2 0) s = out (a.rotateRight (b.toNat % 64)) ∧
    exec (.slt c rd rs1 rs2 0) s = out (flag (decide (a.toInt < b.toInt))) ∧
    exec (.sltu c rd rs1 rs2 0) s = out (flag (decide (a.toNat < b.toNat))) ∧
    exec (.seq c rd rs1 rs2 0) s = out (flag (decide (a = b))) ∧
    exec (.kMin c rd rs1 rs2 0) s = out (if a.toInt < b.toInt then a else b) ∧
    exec (.kMax c rd rs1 rs2 0) s = out (if a.toInt < b.toInt then b else a) ∧
    exec (.minu c rd rs1 rs2 0) s = out (if a.toNat < b.toNat then a else b) ∧
    exec (.maxu c rd rs1 rs2 0) s = out (if a.toNat < b.toNat then b else a) ∧
    exec (.mul c rd rs1 rs2 0) s = out (a * b) ∧
    exec (.mulhu c rd rs1 rs2 0) s = out (BitVec.ofNat 64 (a.toNat * b.toNat / 2 ^ 64)) ∧
    exec (.mulh c rd rs1 rs2 0) s = out (BitVec.ofInt 64 (a.toInt * b.toInt / 2 ^ 64)) ∧
    exec (.div c rd rs1 rs2 0) s = out (if b = 0 then BitVec.allOnes 64 else BitVec.ofInt 64 (a.toInt.tdiv b.toInt)) ∧
    exec (.divu c rd rs1 rs2 0) s = out (if b = 0 then BitVec.allOnes 64 else BitVec.ofNat 64 (a.toNat / b.toNat)) ∧
    exec (.kRem c rd rs1 rs2 0) s = out (if b = 0 then a else BitVec.ofInt 64 (a.toInt.tmod b.toInt)) ∧
    exec (.remu c rd rs1 rs2 0) s = out (if b = 0 then a else BitVec.ofNat 64 (a.toNat % b.toNat))

/-- Tables 9-10 and 9-11 and R213: `csel` reads three registers, `adc` and `sbb` read and write `C` and `CTAG`, and the
accumulator instructions without memory operands work modulo 2^192. -/
def Obligations.KaibasCarryAndAccumulator : Prop :=
  (∀ (s : State) (c : Cid) (e : KEnv) (rd rs1 rs2 : BitVec 5), Fetches s c 4 e →
     let a := e.c.reg rs1
     let b := e.c.reg rs2
     let d := e.c.reg rd
     let cin := if e.c.carry then 1 else 0
     let tag := a.2 || b.2 || e.c.carryTag
     exec (.csel c rd rs1 rs2 0) s =
       Advance s e 4 e.x (e.c.setReg rd (if d.1 ≠ 0 then a.1 else b.1) (d.2 || a.2 || b.2)) ∧
     exec (.adc c rd rs1 rs2 0) s = Advance s e 4 e.x
       ((e.c.setReg rd (BitVec.ofNat 64 (a.1.toNat + b.1.toNat + cin)) tag).setCarry
         (decide (2 ^ 64 ≤ a.1.toNat + b.1.toNat + cin)) tag) ∧
     exec (.sbb c rd rs1 rs2 0) s = Advance s e 4 e.x
       ((e.c.setReg rd (BitVec.ofInt 64 ((a.1.toNat : Int) - b.1.toNat - cin)) tag).setCarry
         (decide (a.1.toNat < b.1.toNat + cin)) tag)) ∧
  (∀ (s : State) (c : Cid) (e : KEnv) (rd rs1 rs2 : BitVec 5), Fetches s c 4 e →
     let a := e.c.reg rs1
     let b := e.c.reg rs2
     let into := fun (v : Nat) (tag : Bool) =>
       Advance s e 4 e.x { e.c with acc := e.c.acc + BitVec.ofNat 192 v, accTag := e.c.accTag || tag }
     exec (.macc c rs1 rs2 0) s = into (a.1.toNat * b.1.toNat) (a.2 || b.2) ∧
     exec (.macc2 c rs1 rs2 0) s = into (2 * (a.1.toNat * b.1.toNat)) (a.2 || b.2) ∧
     exec (.accadd c rs1 0) s = into a.1.toNat a.2 ∧
     exec (.accclr c 0) s = Advance s e 4 e.x { e.c with acc := 0, accTag := false } ∧
     exec (.accsh c rd 0) s = Advance s e 4 e.x
       { e.c.setReg rd (e.c.acc.extractLsb' 0 64) e.c.accTag with acc := e.c.acc >>> 64 })

/-- Tables 9-9, 9-10 and 9-15 and R213: the operations of one register and of an immediate, short and long. -/
def Obligations.KaibasImmediateOperations : Prop :=
  ∀ (s : State) (c : Cid) (e : KEnv) (rd rs1 : BitVec 5) (imm : BitVec 16) (sh : BitVec 6), Fetches s c 4 e →
    let a := (e.c.reg rs1).1
    let out := fun v => Advance s e 4 e.x (e.c.setReg rd v (e.c.reg rs1).2)
    let flag := fun p : Bool => if p then (1 : Word) else 0
    exec (.addi c rd rs1 imm) s = out (a + imm.signExtend 64) ∧
    exec (.andi c rd rs1 imm) s = out (a &&& imm.setWidth 64) ∧
    exec (.ori c rd rs1 imm) s = out (a ||| imm.setWidth 64) ∧
    exec (.xori c rd rs1 imm) s = out (a ^^^ imm.setWidth 64) ∧
    exec (.slti c rd rs1 imm) s = out (flag (decide (a.toInt < imm.toInt))) ∧
    exec (.sltiu c rd rs1 imm) s = out (flag (decide (a.toNat < (imm.signExtend 64).toNat))) ∧
    exec (.lui c rd imm 0) s = Advance s e 4 e.x (e.c.setReg rd (BitVec.ofInt 64 (imm.toInt * 2 ^ 16)) false) ∧
    exec (.slli c rd rs1 sh 0) s = out (a <<< sh.toNat) ∧
    exec (.srli c rd rs1 sh 0) s = out (a >>> sh.toNat) ∧
    exec (.srai c rd rs1 sh 0) s = out (a.sshiftRight sh.toNat) ∧
    exec (.rori c rd rs1 sh 0) s = out (a.rotateRight sh.toNat) ∧
    exec (.clz c rd rs1 0) s = out (BitVec.ofNat 64 (leadingZeros 64 a)) ∧
    exec (.ctz c rd rs1 0) s = out (BitVec.ofNat 64 (trailingZeros 64 a)) ∧
    exec (.popc c rd rs1 0) s = out (BitVec.ofNat 64 (popCount 64 a.toNat)) ∧
    exec (.bswap c rd rs1 0) s = out (BitVec.ofNat 64 (beNat (toLe 8 a.toNat)))

/-- Table 9-15 and R213: the long forms that compute. -/
def Obligations.KaibasLongForms : Prop :=
  ∀ (s : State) (c : Cid) (e : KEnv) (rd rs1 : BitVec 5) (imm : BitVec 32), Fetches s c 8 e →
    let a := (e.c.reg rs1).1
    let out := fun v => Advance s e 8 e.x (e.c.setReg rd v (e.c.reg rs1).2)
    exec (.li c rd imm 0) s = Advance s e 8 e.x (e.c.setReg rd (imm.signExtend 64) false) ∧
    exec (.lih c rd imm 0) s =
      Advance s e 8 e.x (e.c.setReg rd (imm ++ (e.c.reg rd).1.extractLsb' 0 32) (e.c.reg rd).2) ∧
    exec (.addl c rd rs1 imm 0) s = out (a + imm.signExtend 64) ∧
    exec (.andl c rd rs1 imm 0) s = out (a &&& imm.signExtend 64) ∧
    exec (.orl c rd rs1 imm 0) s = out (a ||| imm.signExtend 64) ∧
    exec (.xorl c rd rs1 imm 0) s = out (a ^^^ imm.signExtend 64)

/-- Tables 9-11, 9-12 and 9-15, R213, R214 and R238: a load from an untagged, aligned address of a readable region, where no
page is to be filled first, writes rd with the bytes and their tag, sign-extended in the signed forms; `maccm` adds the product of two words. -/
def Obligations.KaibasLoads : Prop :=
  ∀ (s : State) (c : Cid) (e : KEnv) (rd rs1 rs2 : BitVec 5) (v u : Nat) (tag tag2 : Bool),
    (∀ (imm : BitVec 16) (n : Nat), Fetches s c 4 e → (e.c.reg rs1).2 = false →
      let a := ((e.c.reg rs1).1 + imm.signExtend 64).toNat
      let out := fun x => Advance s e 4 e.x (e.c.setReg rd x tag)
      a % n = 0 → e.load a n = some (v, tag) → v < 2 ^ (8 * n) → e.missing a = none →
      (n = 8 → exec (.ld c rd rs1 imm) s = out (BitVec.ofNat 64 v)) ∧
      (n = 4 → exec (.ldw c rd rs1 imm) s = out (BitVec.ofNat 64 v) ∧
        exec (.ldws c rd rs1 imm) s = out ((BitVec.ofNat 32 v).signExtend 64)) ∧
      (n = 2 → exec (.ldh c rd rs1 imm) s = out (BitVec.ofNat 64 v) ∧
        exec (.ldhs c rd rs1 imm) s = out ((BitVec.ofNat 16 v).signExtend 64)) ∧
      (n = 1 → exec (.ldb c rd rs1 imm) s = out (BitVec.ofNat 64 v) ∧
        exec (.ldbs c rd rs1 imm) s = out ((BitVec.ofNat 8 v).signExtend 64))) ∧
    (∀ imm : BitVec 32, Fetches s c 8 e → (e.c.reg rs1).2 = false →
      let a := ((e.c.reg rs1).1 + imm.signExtend 64).toNat
      a % 8 = 0 → e.load a 8 = some (v, tag) → e.missing a = none →
      exec (.ldl c rd rs1 imm 0) s = Advance s e 8 e.x (e.c.setReg rd (BitVec.ofNat 64 v) tag)) ∧
    (Fetches s c 4 e → (e.c.reg rs1).2 = false → (e.c.reg rs2).2 = false →
      (e.c.reg rs1).1.toNat % 8 = 0 → (e.c.reg rs2).1.toNat % 8 = 0 →
      e.load (e.c.reg rs1).1.toNat 8 = some (v, tag) → e.load (e.c.reg rs2).1.toNat 8 = some (u, tag2) →
      e.missing (e.c.reg rs1).1.toNat = none → e.missing (e.c.reg rs2).1.toNat = none →
      exec (.maccm c rs1 rs2 0) s = Advance s e 4 e.x
        { e.c with acc := e.c.acc + BitVec.ofNat 192 (v * u), accTag := e.c.accTag || (tag || tag2) })

/-- Tables 9-11, 9-12 and 9-15, R215 and R216: a store to an untagged, aligned address that lies wholly in local memory
writes the low bytes of rt there with its tag, and nothing else; to cluster SRAM, an untagged value only. -/
def Obligations.KaibasStores : Prop :=
  ∀ (s : State) (c : Cid) (e : KEnv) (rt rs1 rs2 : BitVec 5),
    (∀ (imm : BitVec 16) (n : Nat), Fetches s c 4 e → (e.c.reg rs1).2 = false →
      let a := ((e.c.reg rs1).1 + imm.signExtend 64).toNat
      let b := (toLe 8 (e.c.reg rt).1.toNat).take n
      let done := fun r => (e.region a n = some .lmem → r = Advance s e 4 e.x (e.c.lput a b (e.c.reg rt).2)) ∧
        (e.region a n = some .sram → (e.c.reg rt).2 = false → r = Advance s e 4 (e.sramWrite a b) e.c)
      a % n = 0 →
      (n = 8 → done (exec (.st c rt rs1 imm) s)) ∧ (n = 4 → done (exec (.stw c rt rs1 imm) s)) ∧
      (n = 2 → done (exec (.sth c rt rs1 imm) s)) ∧ (n = 1 → done (exec (.stb c rt rs1 imm) s))) ∧
    (∀ imm : BitVec 32, Fetches s c 8 e → (e.c.reg rs1).2 = false →
      let a := ((e.c.reg rs1).1 + imm.signExtend 64).toNat
      let b := toLe 8 (e.c.reg rt).1.toNat
      a % 8 = 0 →
      (e.region a 8 = some .lmem →
        exec (.stl c rt rs1 imm 0) s = Advance s e 8 e.x (e.c.lput a b (e.c.reg rt).2)) ∧
      (e.region a 8 = some .sram → (e.c.reg rt).2 = false →
        exec (.stl c rt rs1 imm 0) s = Advance s e 8 (e.sramWrite a b) e.c)) ∧
    (∀ (v : Nat) (tag : Bool), Fetches s c 4 e → (e.c.reg rs1).2 = false → (e.c.reg rs2).2 = false →
      (e.c.reg rs1).1.toNat % 8 = 0 → (e.c.reg rs2).1.toNat % 8 = 0 →
      e.load (e.c.reg rs1).1.toNat 8 = some (v, tag) → e.missing (e.c.reg rs1).1.toNat = none →
      let b := (e.c.reg rs2).1.toNat
      (e.region b 8 = some .lmem → exec (.mmov c rs1 rs2 0) s = Advance s e 4 e.x (e.c.lput b (toLe 8 v) tag)) ∧
      (e.region b 8 = some .sram → tag = false →
        exec (.mmov c rs1 rs2 0) s = Advance s e 4 (e.sramWrite b (toLe 8 v)) e.c))

/-- The frame of a store to local memory (R215, R225): for the address that the instruction computes, every byte of
local memory outside the stored ones, every register, the status register, the accumulator and the other twin are as
before, and the stored bytes read back. -/
def Obligations.KaibasStoreFrame : Prop :=
  ∀ (s t : State) (c : Cid) (e : KEnv) (rt rs1 : BitVec 5) (imm : BitVec 16) (n : Nat) (i : Instr),
    Fetches s c 4 e →
    (n = 8 ∧ i = .st c rt rs1 imm ∨ n = 4 ∧ i = .stw c rt rs1 imm ∨ n = 2 ∧ i = .sth c rt rs1 imm ∨
      n = 1 ∧ i = .stb c rt rs1 imm) →
    exec i s = .next t →
    ∀ a : Nat, a = ((e.c.reg rs1).1 + imm.signExtend 64).toNat → (e.c.reg rs1).2 = false → a % n = 0 →
    e.region a n = some .lmem →
    ∃ k : Ctx, Tbl.find? (t.twin e.w).ctxs (ctxKey e.cid) = some k ∧
      (∀ j, j < a ∨ a + n ≤ j → Tbl.getD k.lmem j 0 = Tbl.getD e.c.lmem j 0) ∧
      (∀ j, j < n → Tbl.getD k.lmem (a + j) 0 = byte ((e.c.reg rt).1.toNat / 256 ^ j)) ∧
      k.regs = e.c.regs ∧ k.sr = e.c.sr ∧ k.acc = e.c.acc ∧ k.lk = e.c.lk ∧ k.ev = e.c.ev ∧ k.epc = e.c.epc ∧
      t.twin (otherTwin e.w) = s.twin (otherTwin e.w) ∧ t.nvm = s.nvm ∧ t.out = s.out ∧ t.pending = s.pending

/-- Table 9-13 and R212: a conditional branch on untagged comparands goes to its target, four times the offset from its
own address, when the comparison holds, and to the next instruction when it does not; `j` and `jr` always go. -/
def Obligations.KaibasBranches : Prop :=
  ∀ (s : State) (c : Cid) (e : KEnv) (rs1 rs2 : BitVec 5) (off : BitVec 16) (far : BitVec 26), Fetches s c 4 e →
    let a := (e.c.reg rs1).1
    let b := (e.c.reg rs2).1
    let went := fun (p : Prop) (r : Host.Outcome State Fault Refusal) =>
      (p → r = Transfer s e e.x e.c (e.c.pc + 4 * off.signExtend 64)) ∧ (¬ p → r = Advance s e 4 e.x e.c)
    ((e.c.reg rs1).2 = false → (e.c.reg rs2).2 = false →
      went (a = b) (exec (.beq c rs1 rs2 off) s) ∧ went (a ≠ b) (exec (.bne c rs1 rs2 off) s) ∧
      went (a.toInt < b.toInt) (exec (.blt c rs1 rs2 off) s) ∧ went (b.toInt ≤ a.toInt) (exec (.bge c rs1 rs2 off) s) ∧
      went (a.toNat < b.toNat) (exec (.bltu c rs1 rs2 off) s) ∧ went (b.toNat ≤ a.toNat) (exec (.bgeu c rs1 rs2 off) s)) ∧
    exec (.j c far) s = Transfer s e e.x e.c (e.c.pc + 4 * far.signExtend 64) ∧
    ((e.c.reg rs1).2 = false → a.toNat % 4 = 0 → exec (.jr c rs1 0) s = Transfer s e e.x e.c a)

/-- R203 to R205: a call enters a new window, notes the return address, the anchor and the depth, and with 14 resident windows
first spills the oldest to its save area; a return goes back to the window below, and fills it first when one window is resident. -/
def Obligations.KaibasCallAndReturn : Prop :=
  ∀ (s : State) (c : Cid) (e : KEnv) (rs1 : BitVec 5) (off : BitVec 26), Fetches s c 4 e →
    let inner := fun k : Ctx =>
      { k.setAnchor ((e.c.cwp + 1) % 15) (e.c.word 6).1 with
        lk := e.c.pc + 4
        sr := setBits (setBits k.sr 20 4 ((e.c.cwp + 1) % 15)) 32 16 (e.c.depth + 1) }
    let back := fun k : Ctx => { k with sr := setBits (setBits k.sr 20 4 ((e.c.cwp + 14) % 15)) 32 16 (e.c.depth - 1) }
    let top := (e.c.anchor ((e.c.wold + 1) % 15)).toNat
    let own := (e.c.anchor e.c.cwp).toNat
    let spilt := { spillWindow e.c top with sr := setBits e.c.sr 16 4 ((e.c.wold + 1) % 15) }
    let below := (e.c.cwp + 14) % 15
    let filled := { fillWindow e.c below own with sr := setBits e.c.sr 16 4 below }
    (∀ k : Ctx, (e.c.word 6).2 = false → e.c.depth ≠ 65535 →
      (e.c.windows ≠ 14 ∧ k = e.c ∨ e.c.windows = 14 ∧ e.saveArea top = true ∧ k = spilt) →
      (e.canFetch (e.c.pc + 4 * off.signExtend 64).toNat = true →
        exec (.call c off) s = Transfer s e e.x (inner k) (e.c.pc + 4 * off.signExtend 64)) ∧
      ((e.c.reg rs1).2 = false → (e.c.reg rs1).1.toNat % 4 = 0 → e.canFetch (e.c.reg rs1).1.toNat = true →
        exec (.callr c rs1 0) s = Transfer s e e.x (inner k) (e.c.reg rs1).1)) ∧
    (∀ k : Ctx, e.c.lk.toNat % 4 = 0 → e.canFetch e.c.lk.toNat = true → e.c.depth ≠ 0 →
      (e.c.windows ≠ 1 ∧ k = e.c ∨
        e.c.windows = 1 ∧ e.saveArea own = true ∧ e.c.ltag (own + 128) 8 = false ∧ k = filled) →
      exec (.ret c 0) s = Transfer s e e.x (back k) e.c.lk)

/-- R222 and R223: `rep` is noted, and an iteration under it at p with `rc` not 0 writes the result, lowers `rc` by one
and goes on at p, or at p + 8 when `rc` has reached 0. -/
def Obligations.KaibasRepeat : Prop :=
  ∀ (s : State) (c : Cid) (e : KEnv) (rd rs1 rs2 : BitVec 5),
    (Fetches s c 4 e → exec (.rep c 0) s = Advance s e 4 e.x { e.c with rep := some e.c.pc }) ∧
    (∀ p : BitVec 64, Repeats s c p e →
      exec (.add c rd rs1 rs2 0) s = .next (settle s ((s.takeStep e.cid.island).putCtx e e.x
        { e.c.setReg rd ((e.c.reg rs1).1 + (e.c.reg rs2).1) ((e.c.reg rs1).2 || (e.c.reg rs2).2) with
          rep := none, rc := e.c.rc - 1, pc := if e.c.rc = 1 then p + 8 else p })))

/-- Tables 9-2, 9-9 and 9-14, R207, R208, R211, R218: the special-register moves, and the system instructions on a
transaction core: `dcl` in a declassify-capable page copies without the tag and
counts, `fence` goes on, and `eret` in a handler restores `C` and `CTAG` and goes to `epc`. -/
def Obligations.KaibasSystem : Prop :=
  ∀ (s : State) (c : Cid) (e : KEnv) (rd rs1 : BitVec 5) (n : BitVec 12), Fetches s c 4 e →
    (∀ v : Word × Bool, e.special n.toNat = some v → (handlerOnly n.toNat = true → e.c.exc = true) →
      exec (.mfs c rd n 0) s = Advance s e 4 e.x (e.c.setReg rd v.1 v.2)) ∧
    ((e.special n.toNat).isSome = true → readOnly n.toNat = false → (handlerOnly n.toNat = true → e.c.exc = true) →
      (untaggedOnly n.toNat = true → (e.c.reg rs1).2 = false) →
      let r := e.setSpecial n.toNat (e.c.reg rs1).1 (e.c.reg rs1).2
      exec (.mts c n rs1 0) s = Advance s e 4 r.1 r.2) ∧
    (e.dclPage e.c.pc.toNat = true →
      exec (.dcl c rd rs1 0) s = Advance s e 4 (e.x.updReq e.q (fun r => { r with dcl := r.dcl + 1 }))
        ({ e.c with dclc := e.c.dclc + 1 }.setReg rd (e.c.reg rs1).1 false)) ∧
    exec (.fence c 0) s = Advance s e 4 e.x e.c ∧
    (e.c.exc = true → e.c.cwp = bits e.c.esr.toNat 23 20 → e.c.depth = bits e.c.esr.toNat 47 32 →
      let k := e.c.setCarry (e.c.esr.getLsbD 7) (e.c.esr.getLsbD 6)
      exec (.eret c 0) s = Transfer s e e.x { k with sr := setBits k.sr 31 1 0 } e.c.epc)

/-- R227: an instruction that raises an exception with a handler installed and outside a handler saves the address, the
cause, the information and the status, sets `EXC` and goes to `ev`; nothing else of the context changes. `brk` raises the
break exception, a word that no row has the undefined-instruction one, `svc` with a function that Table 10-6 does not have the
service refusal, and `eret` outside a handler the privileged one. -/
def Obligations.KaibasExceptionEntry : Prop :=
  ∀ (s : State) (c : Cid) (e : KEnv), Fetches s c 4 e → e.c.ev ≠ 0 → e.c.exc = false →
    let entry := fun (cause : Nat) => (.next (settle s ((s.takeStep e.cid.island).putCtx e e.x
      { e.c with epc := e.c.pc, einfo := 0, ecause := BitVec.ofNat 32 cause,
                 esr := setBits e.c.sr 11 1 (b2n (e.dclPage e.c.pc.toNat)),
                 sr := setBits e.c.sr 31 1 1, pc := e.c.ev })) :
      Host.Outcome State Fault Refusal)
    exec (.brk c brkWord) s = entry 0x0A ∧
    (∀ word : BitVec 32, ownWord word = true → word ≠ brkWord → opOf word ≠ 5 → exec (.brk c word) s = entry 0x01) ∧
    (∀ word : BitVec 32, ownWord word = true → opOf word = 5 → bits word.toNat 25 16 = 0 →
      exec (.brk c word) s = Raises s e e.c 0x08 0 0 (bits word.toNat 15 0)) ∧
    exec (.eret c 0) s = entry 0x09 ∧
    (∀ (w : Nat), w ≠ 0 → exec (.fence c w) s = entry 0x01 ∧ exec (.add c 0 0 0 w) s = entry 0x01) ∧
    (∀ (rd rs1 : BitVec 5), e.dclPage e.c.pc.toNat = false → exec (.dcl c rd rs1 0) s = entry 0x06) ∧
    (∀ (r : BitVec 5) (off : BitVec 16), (e.c.reg r).2 = true →
      exec (.beq c r r off) s = entry (0x05 + 256 * 0x01 + 65536 * r.toNat) ∧
      exec (.jr c r 0) s = entry (0x05 + 256 * 0x02 + 65536 * r.toNat) ∧
      exec (.ld c 0 r off) s = entry (0x05 + 256 * 0x03 + 65536 * r.toNat))

/-- R201: a read of g0 gives 0, untagged, and a write to it is discarded with its tag, where another register reads back what
was written last; the instructions that do more than write rd do the rest when rd is g0, and raise their exceptions. -/
def Obligations.KaibasRegisterZero : Prop :=
  (∀ (c : Ctx) (n m : BitVec 5) (v : Word) (tag : Bool),
    c.reg 0 = (0, false) ∧ c.setReg 0 v tag = c ∧ (n ≠ 0 → (c.setReg n v tag).reg n = (v, tag)) ∧
    (m ≠ n → (c.setReg n v tag).reg m = c.reg m)) ∧
  (∀ (s : State) (c : Cid) (e : KEnv) (rs1 rs2 : BitVec 5) (off : BitVec 16), Fetches s c 4 e →
    let a := e.c.reg rs1
    let b := e.c.reg rs2
    let cin := if e.c.carry then 1 else 0
    let tag := a.2 || b.2 || e.c.carryTag
    exec (.add c 0 rs1 rs2 0) s = Advance s e 4 e.x e.c ∧
    exec (.adc c 0 rs1 rs2 0) s = Advance s e 4 e.x (e.c.setCarry (decide (2 ^ 64 ≤ a.1.toNat + b.1.toNat + cin)) tag) ∧
    exec (.sbb c 0 rs1 rs2 0) s = Advance s e 4 e.x (e.c.setCarry (decide (a.1.toNat < b.1.toNat + cin)) tag) ∧
    exec (.accsh c 0 0) s = Advance s e 4 e.x { e.c with acc := e.c.acc >>> 64 } ∧
    (e.dclPage e.c.pc.toNat = true → exec (.dcl c 0 rs1 0) s =
      Advance s e 4 (e.x.updReq e.q (fun r => { r with dcl := r.dcl + 1 })) { e.c with dclc := e.c.dclc + 1 }) ∧
    (a.2 = true → exec (.ld c 0 rs1 off) s = Raises s e e.c 0x05 0x03 rs1.toNat 0))

/-- Tables 9-14 and 18-5, R177, R415: `wait` goes on when the task's dependence counter is 0 and otherwise enters a wait;
on Zenith with `ARM` 1 and no wake event pending, `halt` enters the power state that `HSTATE` names and clears `ARM`. R238: a
context whose next instruction lies in a page that the image cache of its quadrant lacks waits for the page and executes
nothing. -/
def Obligations.KaibasWaitAndHalt : Prop :=
  (∀ (s : State) (c : Cid) (e : KEnv) (p : Nat), s.boot.up = true → s.kenv? c = some e → e.c.rep = none →
    e.canFetch e.c.pc.toNat = true → e.c.pc.toNat % 4 = 0 → e.missing e.c.pc.toNat = some p →
    Completes (.fence c 0) s (fun t =>
      Tbl.find? (t.twin e.w).ctxs (ctxKey c) = some { e.c with waiting := true, wants := .page p } ∧
      t.kenv? c = none ∧ t.twin (otherTwin e.w) = s.twin (otherTwin e.w) ∧ t.nvm = s.nvm ∧ t.out = s.out)) ∧
  (∀ (s : State) (c : Cid) (e : KEnv), Fetches s c 4 e →
    (∀ k : Task, e.zenith = false → e.x.task? e.q e.i = some k →
      Completes (.wait c 0) s (fun t => ∃ k' : Ctx, Tbl.find? (t.twin e.w).ctxs (ctxKey c) = some k' ∧
        k' = { e.c with pc := e.c.pc + 4, waiting := decide (k.dep ≠ 0) } ∧
        t.nvm = s.nvm ∧ t.out = s.out ∧ t.twin (otherTwin e.w) = s.twin (otherTwin e.w))) ∧
    (e.zenith = true → e.x.pwm.getLsbD 8 = true → e.x.zenithWork = false →
      Completes (.halt c 0) s (fun t =>
        (t.twin e.w).pwm = e.x.pwm &&& 0x003 ∧
        (Tbl.getD t.power.domains c.island {}).st = (if e.x.pwm &&& 3 = 1 then .nap else .doze) ∧
        Tbl.find? (t.twin e.w).ctxs (ctxKey c) = some { e.c with pc := e.c.pc + 4, waiting := true })) ∧
    (e.zenith = true → e.x.pwm.getLsbD 8 = false → exec (.halt c 0) s = Advance s e 4 e.x e.c))

/-- Table 9-14, R177, R257 and R292: `eng` and `orr` with an untagged block in local memory and room in the queue issue
one operation or call with the block's bytes, and raise the task's counter by one. -/
def Obligations.KaibasIssue : Prop :=
  ∀ (s : State) (c : Cid) (e : KEnv) (rs1 : BitVec 5) (k : Task), Fetches s c 4 e → e.zenith = false →
    e.x.task? e.q e.i = some k → k.dep < 65535 → (e.c.reg rs1).2 = false → (e.c.reg rs1).1.toNat % 64 = 0 →
    e.region (e.c.reg rs1).1.toNat 64 = some .lmem → e.c.ltag (e.c.reg rs1).1.toNat 56 = false →
    let blk := e.c.lread (e.c.reg rs1).1.toNat 56
    (e.x.engRoom e.cid (islandCluster e.cid.island) = true →
      Completes (.eng c rs1 0) s (fun t => ∃ (o : EngOp) (k' : Task),
        Tbl.find? (t.twin e.w).ops e.x.nextOp = some o ∧ o.blk = blk ∧ o.q = e.q ∧ o.task = e.i ∧ o.admitted = true ∧
        (t.twin e.w).nextOp = e.x.nextOp + 1 ∧ (t.twin e.w).task? e.q e.i = some k' ∧ k'.dep = k.dep + 1)) ∧
    (fld blk 8 4 % 8 = 0 → fld blk 16 4 % 8 = 0 → e.owns (fld blk 8 4) (fld blk 12 4) = true →
      e.owns (fld blk 16 4) (fld blk 20 4) = true → e.c.ltag (fld blk 8 4) (fld blk 12 4) = false →
      e.x.orrery.used + 64 + (e.bytesAt (fld blk 8 4) (fld blk 12 4)).length ≤ 524288 →
      e.x.orrery.calls.countP (fun (o : Nat × OrrCall) => o.2.admitted && o.2.ctx == e.cid && o.2.q == e.q && o.2.task == e.i) < 2 →
      e.req.space ≠ adminSpace →
      Completes (.orr c rs1 0) s (fun t => ∃ (o : OrrCall) (k' : Task),
        Tbl.find? (t.twin e.w).orrery.calls e.x.orrery.nextCall = some o ∧ o.blk = blk ∧
        o.input = e.bytesAt (fld blk 8 4) (fld blk 12 4) ∧ o.owner = e.req.space ∧ o.admitted = true ∧
        (t.twin e.w).task? e.q e.i = some k' ∧ k'.dep = k.dep + 1))

/-- R241 and Table 10-6: `EXIT` of the root with status `OK` ends the request with the staged effects and the result,
and `EXIT` of a child leaves its value for the root and ends the child alone. -/
def Obligations.ServiceExit : Prop :=
  ∀ (s : State) (t : Nat) (c : Cid) (e : KEnv), Fetches (s.at t) c 4 e → e.zenith = false → e.req.dcl = 0 →
    (e.i = 0 → e.arg 0 = 0 → e.req.tasks.length ≤ 1 → (e.arg 1 ≤ 24 ∨ e.arg 1 ≤ e.req.hdr.rlen) →
      exec (.exit t c 0) s = .next (settle s ((((s.at t).takeStep e.cid.island).finish e.w e.q
        { status := 0, result := fixLen (e.arg 1) e.req.result, effects := e.req.staged, evs := e.req.stagedEv,
          commits := true }).serve e.w))) ∧
    (e.i ≠ 0 → Completes (.exit t c 0) s (fun t' => ∀ r, Tbl.find? (t'.twin e.w).reqs e.q = some r →
      Tbl.find? r.childVals e.i = some (e.arg 0) ∧ Tbl.find? r.tasks e.i = none))

/-- Table 10-6 and R242 to R245: what each of the other services leaves when its arguments are good. -/
def Obligations.Services : Prop :=
  ∀ (s : State) (t : Nat) (c : Cid) (e : KEnv), Fetches (s.at t) c 4 e → e.zenith = false →
    let u := (s.at t).takeStep e.cid.island
    let back := fun (x : TwinSt) (vs : List Nat) =>
      (.next (settle s (u.putCtx e x { setResults e.c vs with pc := e.c.pc + 4 })) : Host.Outcome State Fault Refusal)
    let begun := fun (x : TwinSt) (k : Ctx) (a : Async) =>
      (.next (settle s ((u.putCtx e { x with asyncs := x.asyncs ++ [a] } { k with pc := e.c.pc + 4 }).serve e.w)) :
        Host.Outcome State Fault Refusal)
    (e.i = 0 → (e.c.reg 25).2 = false → e.req.children < 3 → e.arg 2 = 0 → e.arg 3 % 2 = 0 →
      exec (.child t c 0) s = back (e.x.updReq e.q (fun r =>
        { r with tasks := Tbl.put r.tasks (e.req.children + 1) { entry := e.arg 0, arg := e.arg 1 } }))
        [e.req.children + 1]) ∧
    (∀ x, e.owns (e.arg 2) (e.arg 1) = true → e.x.raiseDep e.q e.i id = some x →
      exec (.payloadRead t c 0) s = begun x e.c (.payload e.q e.i (e.arg 0) (e.arg 1) (e.arg 2) e.cid)) ∧
    (e.i = 0 → e.owns (e.arg 0) (e.arg 1) = true → e.c.ltag (e.arg 0) (e.arg 1) = false →
      e.arg 2 + e.arg 1 ≤ max 24 e.req.hdr.rlen →
      exec (.resultWrite t c 0) s = back (e.x.updReq e.q (fun r =>
        { r with result := patch r.result (e.arg 2) (e.bytesAt (e.arg 0) (e.arg 1)) })) [0]) ∧
    (∀ b y x, e.arg 1 ≠ 0 → e.arg 1 ≤ 4096 → e.region (e.arg 0) (e.arg 1) = some .lmem →
      e.x.rng e.q e.i (e.arg 1) = .ok b y → e.x.raiseDep e.q e.i id = some x →
      exec (.rng t c 0) s = begun x e.c (.rng e.q e.i (e.arg 0) (e.arg 1) (e.arg 2 % 2) e.cid)) ∧
    (∀ k, e.x.keyFor e.q e.req (e.arg 0) = some k →
      exec (.keyAttr t c 0) s =
        back e.x [0, k.alg, k.usage, b2n k.exportable + 2 * b2n k.nonceEn + 4 * b2n k.exhausted]) ∧
    (∀ a m x y z h, e.req.newUsed < e.req.newH.length → e.owns (e.arg 0) 24 = true →
      attrOf true (e.bytesAt (e.arg 0) 24) = .inr a →
      e.x.prepay e.q e.i 1 1 (extSlots (symLen a.alg)) (b2n a.ledger) = some y → y.rngCalled e.q e.i = false →
      y.rng e.q e.i (symLen a.alg) = .ok m x → x.createKey e.q (some e.i) a 0 m = some (.inr (h, z)) →
      exec (.keyNew t c 0) s = back z [0, h]) ∧
    (∀ a h y, e.req.newUsed < e.req.newH.length → e.owns (e.arg 0) 24 = true →
      attrOf false (e.bytesAt (e.arg 0) 24) = .inr a →
      e.region (e.arg 1) (materialLen a.alg (newClass a)) = some .lmem →
      e.x.createKey e.q (some e.i) a (newClass a) (e.c.lread (e.arg 1) (materialLen a.alg (newClass a))) = some (.inr (h, y)) →
      exec (.keyPut t c 0) s = back y [0, h]) ∧
    (∀ k x, e.x.keyFor e.q e.req (e.arg 0) = some k → handleClass (e.arg 0) ≠ 0 →
      e.region (e.arg 1) k.material.length = some .lmem → e.x.raiseDep e.q e.i id = some x →
      exec (.keyGet t c 0) s = begun x (setResults e.c [0]) (.keyGet e.q e.i (e.arg 0) (e.arg 1) e.cid)) ∧
    (∀ b,
      let k := e.cluster
      e.arg 0 ≠ 0 → e.arg 0 % 64 = 0 → e.arg 0 ≤ 1024 * e.slot.sramKib →
      k.sram.filter (fun a => a.2.2 == (e.q, e.i)) = [] → placeSram (k.lost.length + k.held.length) k.sram (e.arg 0) = some b →
      exec (.sramAlloc t c 0) s = .next (settle s ((u.putCtx e
        { e.x with clusters := Tbl.put e.x.clusters (islandCluster e.cid.island) (
            { k with sram := Tbl.put k.sram b (e.arg 0, e.q, e.i) } : Cluster) }
        { setResults e.c [0, b] with pc := e.c.pc + 4 }).allocWake u e.w (islandCluster c.island)))) ∧
    (∀ n,
      let k := e.cluster
      Tbl.find? k.sram (e.arg 0) = some (n, e.q, e.i) →
      exec (.sramFree t c 0) s = back (({ e.x with clusters := Tbl.put e.x.clusters (islandCluster e.cid.island) (
        Cluster.settleBanks { k with sram := Tbl.del k.sram (e.arg 0), sramData := k.sramData.filter (fun d =>
            !(decide (e.arg 0 ≤ d.1) && decide (d.1 < e.arg 0 + n))) }) } : TwinSt).wakeSram e.now
        (islandCluster e.cid.island)) [])

/-- R8, R41 and Table 3-2: a naturally aligned access of 32 or 64 bits to a function that is there writes and reads the named
register, another access writes nothing, and an offset past the function's registers is no access at all. A 32-bit read of a low
word latches its own high word, which the next read of that word gives. An error bit written 1 clears, but for one that an event
has set in the same unit of time. R36: the MSI-X table in BAR2 and the configuration space read back what is written there. -/
def Obligations.HostRegisterAccess : Prop :=
  ∀ (s : State) (t fn off width val : Nat),
    let u := s.at t
    (hostLimit ≤ off → exec (.registerWrite t fn off width val) s = .fault .outsideBar0 ∧
      exec (.highWordLatchRead t fn off width) s = .fault .outsideBar0) ∧
    (s.fnOn fn = true → off < 0x10000 → accessOk off width = false →
      exec (.registerWrite t fn off width val) s = .next (settle s u) ∧
      exec (.highWordLatchRead t fn off width) s = .next (settle s { u with out := u.out ++ [.barRead fn off 0] })) ∧
    (s.fnOn fn = true →
      exec (.registerWrite t fn 0x0100 4 val) s =
        .next (settle s (u.updFn fn (fun f => { f with mbxSel := BitVec.ofNat 12 val }))) ∧
      (∀ i, u.selected fn = some i → (u.mbx fn i).freshAt ≠ u.now → exec (.registerWrite t fn 0x0120 4 val) s =
        .next (settle s (u.updMbx fn i (fun m => { m with errs := m.errs &&& ~~~(BitVec.ofNat 6 val) })))) ∧
      (∀ i, u.selected fn = some i → (u.mbx fn i).freshAt = u.now → exec (.registerWrite t fn 0x0120 4 val) s =
        .next (settle s (u.updMbx fn i (fun m =>
          { m with errs := m.errs &&& ~~~(BitVec.ofNat 6 val &&& ~~~m.fresh) })))) ∧
      (∀ i, u.selected fn = some i → (u.mbx fn i).state = .disabled → exec (.registerWrite t fn 0x0110 4 val) s =
        .next (settle s (u.updMbx fn i (fun m =>
          { m with sqBase := halfOf m.sqBase false (val % 2 ^ 32) &&& 0xFFFFFFFFFFFFF000#64 }))))) ∧
    (s.fnOn fn = true → off < 0x10000 → off % 8 = 0 →
      exec (.highWordLatchRead t fn off 8) s = .next (settle s
        { u with out := u.out ++ [.barRead fn off (u.reg32 fn off + 2 ^ 32 * u.reg32 fn (off + 4))] })) ∧
    (s.fnOn fn = true → wideReg off = true →
      Completes (.highWordLatchRead t fn off 4) s (fun t' =>
        t'.out = s.out ++ [.barRead fn off (u.reg32 fn off)] ∧
        Tbl.find? (t'.fn fn).latch off = some (BitVec.ofNat 32 (u.reg32 fn (off + 4)))) ∧
      (∀ v, Tbl.find? (s.fn fn).latch off = some v → Completes (.highWordLatchRead t fn (off + 4) 4) s (fun t' =>
        t'.out = s.out ++ [.barRead fn (off + 4) v.toNat] ∧ Tbl.find? (t'.fn fn).latch off = none))) ∧
    (s.fnOn fn = true →
      (0x10000 ≤ off → off < hostLimit → exec (.highWordLatchRead t fn off width) s =
        .next (settle s { u with out := u.out ++ [.barRead fn off (u.otherRead fn off width)] })) ∧
      Completes (.registerWrite t fn 0x20014 4 val) s (fun t' => t'.otherRead fn 0x20014 4 = val % 2 ^ 32) ∧
      (∀ n, n < 2048 → n < (s.fn fn).vecSize → Completes (.registerWrite t fn (0x10000 + 16 * n + 8) 4 val) s (fun t' =>
        (Tbl.getD (t'.fn fn).pci.vecs n (0, 0)).2 = BitVec.ofNat 32 val ∧ t'.otherRead fn (0x10000 + 16 * n + 8) 4 = val % 2 ^ 32)))

/-- R44, R45, R47: an enable of an assigned, disabled mailbox with good fields makes it enabled with its ring empty and
its phase 1; a disable drains an enabled one, and one with nothing in service becomes disabled at once. -/
def Obligations.MailboxEnableAndDisable : Prop :=
  ∀ (s : State) (t fn i val : Nat), s.fnOn fn = true → s.selected fn = some i →
    let m := s.mbx fn i
    let v := BitVec.ofNat 32 val &&& cfgMask
    (m.state = .disabled → bit val 31 = true → s.enableBad fn i { m with cfg := v &&& 0x7FFFFFFF#32 } = false →
      exec (.mbxEnable t fn val) s = .next (settle s ((s.at t).updMbx fn i (fun m =>
        { m with cfg := v, state := .enabled, sqTail := 0, sqHead := 0, rqHead := 0, slot := 0, written := 0,
                 phase := true, unsig := 0, firstUnsig := (s.at t).now })))) ∧
    (m.state = .disabled → bit val 31 = true → s.enableBad fn i { m with cfg := v &&& 0x7FFFFFFF#32 } = true →
      Completes (.mbxEnable t fn val) s (fun t' => (t'.mbx fn i).state = .disabled ∧
        (t'.mbx fn i).errs = m.errs ||| 0x10#6)) ∧
    (m.state = .enabled → bit val 31 = false → (v ^^^ m.cfg) &&& 0x7FFFFFFF#32 = 0 →
      Completes (.mbxDisable t fn val) s (fun t' =>
        (m.infl ≠ 0 → (t'.mbx fn i).state = .draining) ∧
        (m.infl = 0 → s.waiting fn i = 0 → (t'.mbx fn i).state = .disabled) ∧
        (t'.mbx fn i).cfg = m.cfg &&& 0x7FFFFFFF#32))

/-- R49 and R53: what a doorbell write and a write of `RQ_HEAD` do to an assigned mailbox in each of its states, that
they change no other mailbox, and that a write for an unassigned one is discarded. -/
def Obligations.DoorbellAndReplyHead : Prop :=
  ∀ (s : State) (t fn i val : Nat), s.fnOn fn = true → val < 65536 →
    (s.nvm.activeSet.mbox? fn i = none → exec (.sqTailDoorbell t fn i val) s = .next (settle s (s.at t)) ∧
      exec (.rqHead t fn i val) s = .next (settle s (s.at t))) ∧
    ((s.nvm.activeSet.mbox? fn i).isSome = true →
    let m := s.mbx fn i
    let n := m.sqSize
    let left := fun (c : Instr) (m' : Mbx) => exec c s = .next (settle s ((s.at t).updMbx fn i (fun _ => m')))
    let back := (val + n - m.sqHead) % n < (m.sqTail + n - m.sqHead) % n
    let bad := fun k : Nat => m.err (s.at t).now k
    (m.state = .enabled → val < n → ¬ back → left (.sqTailDoorbell t fn i val) { m with sqTail := val }) ∧
    (m.state = .enabled → (n ≤ val ∨ back) →
      left (.sqTailDoorbell t fn i val) { bad 3 with state := .error }) ∧
    (m.state ≠ .enabled → left (.sqTailDoorbell t fn i val) (bad 1)) ∧
    (val < m.rqSize → left (.rqHead t fn i val)
      { m with rqHead := val, written := m.written - ((val + m.rqSize - m.rqHead) % m.rqSize : Nat) }) ∧
    (m.rqSize ≤ val → left (.rqHead t fn i val) (bad 5)) ∧
    (∀ k, (bad k).errs = m.errs ||| (1#6 <<< k) ∧ (bad k).state = m.state ∧ (bad k).sqTail = m.sqTail ∧
      (bad k).rqHead = m.rqHead ∧ (bad k).written = m.written) ∧
    (∀ j f, mbxKey j f ≠ mbxKey fn i → ∀ m', ((s.at t).updMbx fn i (fun _ => m')).mbx j f = s.mbx j f))

/-- R50 and R51: a fetch that the ring and the reserved reply slots allow, from the lane whose turn it is, moves `SQ_HEAD` past
its entries and puts them at the end of the ingress; a fetch out of turn does nothing; a fetch error stops the mailbox with
`ERR_FETCH`. -/
def Obligations.SubmissionFetch : Prop :=
  ∀ (s : State) (t fn i : Nat) (entries : List Bytes),
    let m := s.mbx fn i
    (∀ a, s.nvm.activeSet.mbox? fn i = some a → s.nextLane ≠ some (a.lane % 8) →
      exec (.submissionFetch t fn i entries) s = .next (settle s (s.at t))) ∧
    (∀ a, s.nvm.activeSet.mbox? fn i = some a → s.mayFetch fn i entries.length = true → s.nextLane = some (a.lane % 8) →
      (∀ e ∈ entries, e.length = m.stride) →
      Completes (.submissionFetch t fn i entries) s (fun t' =>
        t'.mbx fn i = { m with sqHead := (m.sqHead + entries.length) % m.sqSize } ∧
        t'.ingress = s.ingress ++ entries.map (fun e =>
          { fn := fn, idx := i, comp := a.comp, lane := a.lane, entry := e }) ∧
        t'.lastLane = a.lane % 8 ∧ t'.rreqs = s.rreqs ∧ t'.out = s.out)) ∧
    (s.fnOn fn = true → m.state = .enabled →
      exec (.fetchError t fn i) s = .next (settle s (((s.at t).readError fn).updMbx fn i (fun m =>
        { m.err (s.at t).now 2 with state := .error }))))

/-- R54: a coalescing time-out with unsignalled replies sends the mailbox's vector, and clearing a vector's mask sends
the message that waited; each message is the one of the vector's entry in the MSI-X table. -/
def Obligations.InterruptDelivery : Prop :=
  ∀ (s : State) (t fn i vec : Nat),
    let m := s.mbx fn i
    let f := s.fn fn
    (m.vecEn = true → m.timeUs ≠ 0 → m.unsig ≠ 0 → m.firstUnsig + 4000 * m.timeUs ≤ (s.at t).now →
      f.open_ m.vector = true → m.vector < f.vecSize →
      Completes (.coalesceTimeout t fn i) s (fun t' =>
        t'.mbx fn i = { m with unsig := 0 } ∧ t'.out = s.out ++ [f.message fn m.vector])) ∧
    (s.fnOn fn = true → vec < f.vecSize → f.unmasked.contains vec = false → f.pci.msixEn = true → f.pci.fnMask = false →
      (∀ v ∈ f.pends, v = vec ∨ f.unmasked.contains v = false) →
      Completes (.msixVectorUnmask t fn vec) s (fun t' =>
        (t'.fn fn).unmasked = f.unmasked ++ [vec] ∧ (t'.fn fn).pends = f.pends.filter (fun v => v != vec) ∧
        t'.out = s.out ++ (f.pends.filter (fun v => v == vec)).map (f.message fn)))

/-- R42, R46, R58, R59: the PTM dialogue moves NEW to OLD and counts; PTM Enable and VF Enable bring their units up and
down; a write of `ALM_CURSOR` starts a load, and its end makes the window a snapshot of up to 64 records. -/
def Obligations.HostUnits : Prop :=
  ∀ (s : State) (t h val : Nat), s.fnOn 0 = true →
    let u := s.at t
    (s.ptm.en = true → s.ptm.due u.now = true → exec (.ptmDialogue t h) s = .next (settle s { u with
      ptm := { s.ptm with mOld := s.ptm.mNew, hOld := s.ptm.hNew, mNew := u.now % 2 ^ 64, hNew := h % 2 ^ 64,
                          last := some u.now, seq := (s.ptm.seq + 1) % 2 ^ 31, count := s.ptm.count + 1,
                          valid := decide (1 ≤ s.ptm.count) } })) ∧
    (s.ptm.due u.now = false → exec (.ptmDialogue t h) s = .next (settle s u)) ∧
    (s.ptm.en = false →
      exec (.ptmEnable t true) s = .next (settle s { u with ptm := { s.ptm with en := true, count := 0 } })) ∧
    (s.ptm.en = true → Completes (.ptmEnable t false) s (fun t' =>
      t'.ptm.en = false ∧ t'.ptm.valid = false ∧ t'.ptm.seq = 0 ∧ t'.ptm.ctrl = s.ptm.ctrl)) ∧
    (s.fns.any (fun (e : Nat × Fn) => e.1 != 0 && e.2.enabled) = false → 1 ≤ h → h ≤ 255 →
      Completes (.vfEnable t h true) s (fun t' => ∀ k, 1 ≤ k → k ≤ h →
        (t'.fn k).enabled = true ∧ (t'.fn k).vecSize = s.vectors k)) ∧
    exec (.almCursor t val) s = .next (settle s { u with
      win := { s.win with cursor := BitVec.ofNat 32 val, loading := true, loadReg := s.win.region } }) ∧
    (s.win.loading = true → Completes (.almWindowLoaded t) s (fun t' =>
      t'.win.loading = false ∧ t'.win.recs = (s.almRead s.win.loadReg s.win.cursor.toNat 64).2.2 ∧
      t'.win.clamped = (s.almRead s.win.loadReg s.win.cursor.toNat 64).1 ∧ t'.win.valid = t'.win.recs.length ∧
      t'.win.valid ≤ 64))

/-- R57 and R46: PERST#, a link-down and a Function Level Reset of physical function 0 disable every mailbox of that
function without draining, return its registers, and drop the replies of its accepted requests; the requests stay in
service. A Function Level Reset of a virtual function leaves `REPLY_LOST` in its mailboxes. -/
def Obligations.FunctionResets : Prop :=
  ∀ (s : State) (t : Nat), s.boot.up = true →
    let cleared := fun (n : Nat) (t' : State) => (∀ i < 4096, (t'.mbx n i).state = .disabled ∧ (t'.mbx n i).cfg = 0) ∧
      (t'.fn n).mbxSel = 0 ∧ (t'.fn n).d3hot = false ∧ (∀ e ∈ t'.ingress, e.fn ≠ n) ∧
      (∀ q r, Tbl.find? t'.rreqs q = some r → r.fn = n → r.drop = true) ∧
      t'.rreqs.map Prod.fst = s.rreqs.map Prod.fst
    Completes (.perst t) s (fun t' => cleared 0 t' ∧ t'.ptm = {} ∧ t'.win = {}) ∧
    Completes (.linkDown t) s (fun t' => cleared 0 t' ∧ t'.ptm = {} ∧ t'.win = {}) ∧
    (s.fnOn 0 = true → Completes (.functionLevelReset t 0) s (fun t' => cleared 0 t' ∧ t'.ptm = {} ∧ t'.win = {})) ∧
    (∀ n, n ≠ 0 → s.fnOn n = true → Completes (.functionLevelReset t n) s (fun t' =>
      (∀ m ∈ s.nvm.activeSet.mboxes, m.fn = n → m.idx < 4096 → (t'.mbx n m.idx).errs.getLsbD 0 = true ∧
        (t'.mbx n m.idx).state = .disabled) ∧ t'.ptm = s.ptm)) ∧
    (∀ n, s.fnOn n = true →
      exec (.d3hotEntry t n) s = .next (settle s ((s.at t).updFn n (fun f => { f with d3hot := true }))) ∧
      ((s.fn n).d3hot = true → Completes (.d3hotExit t n) s (cleared n)))


/-- R29, R63, R236, R327: the order of the acceptance checks, from the version to LOCK; the entry at the front of the ingress
that passes every check is stamped above every earlier acceptance, counted in its mailbox and broadcast to the twins that
receive; one that fails is answered with the code of the first check, or counted as dropped while its function is in D3hot
(R57), and no request comes of it. -/
def Obligations.EntryAcceptance : Prop :=
  (∀ (g : Ingress) (locked : Bool),
     let h := Hdr.parse g.entry
     (h.version ≠ 1 → g.check locked = some stBadVersion) ∧
     (h.version = 1 → h.rsv7 ≠ 0 → g.check locked = some stReserved) ∧
     (h.version = 1 → h.rsv7 = 0 → h.rsv55 = 0 → h.flags < 16 → h.pred < 8 → h.target < 8192 → h.segCtrl < 4 →
       (h.comp ≠ g.comp % 1024 → g.check locked = some stBadTarget) ∧
       (h.comp = g.comp % 1024 → h.lane = g.lane % 8 →
         ((if g.admin then (opGroup h.opcode).1 else (opGroup h.opcode).2) = false →
           g.check locked = some stWrongMailbox) ∧
         ((if g.admin then (opGroup h.opcode).1 else (opGroup h.opcode).2) = true → g.entryBad = false →
           g.bufferBad = false → g.predIds.contains h.id = false →
           g.check false = none ∧
           g.check true = if g.admin && lockServed h.opcode then none else some stLocked)))) ∧
  (∀ (s : State) (t : Nat) (pre : Bytes) (g : Ingress) (l : List Ingress), s.ingress = g :: l → s.boot.ready = true →
     s.boot.up = true → s.failStop = false → s.sw.accepting = true → s.rreqs.length < 65536 →
     (s.at t).swapDue = false →
     let h := Hdr.parse g.entry
     let q := (s.at t).stampOf 414
     (g.check s.tamper.lock = none → Completes (.entryAcceptance t pre) s (fun t' => ∃ r : RReq,
       t'.ingress = l ∧ Tbl.find? t'.rreqs q = some r ∧ r.hdr = h ∧ r.entry = g.entry ∧ r.fn = g.fn ∧ r.idx = g.idx ∧
       r.toA = s.twinA.receives q ∧ r.toB = s.twinB.receives q ∧ r.first = none ∧
       (∀ v, Tbl.find? s.stamps 414 = some v → v < q) ∧ clockAt s.offs (s.at t).now 414 ≤ q ∧ Tbl.find? t'.stamps 414 = some q ∧
       (t'.mbx g.fn g.idx).infl = (s.mbx g.fn g.idx).infl + 1 ∧ t'.out = s.out)) ∧
     (∀ st, g.check s.tamper.lock = some st → (s.fn g.fn).d3hot = true → Completes (.entryAcceptance t pre) s (fun t' =>
       t'.ingress = l ∧ t'.rreqs = s.rreqs ∧ (t'.fn g.fn).d3count = (s.fn g.fn).d3count + 1)) ∧
     (∀ st, g.check s.tamper.lock = some st → (s.fn g.fn).d3hot = false → Completes (.entryAcceptance t pre) s (fun t' =>
       let m := s.mbx g.fn g.idx
       let rec_ := ({ id := h.id, status := st, complete := (s.at t).stampOf 415 } : Reply).record s.attention m.phase
       t'.ingress = l ∧ t'.rreqs = s.rreqs ∧
       ∃ rest, t'.out = s.out ++ [.dma (m.rqBase.toNat + 64 * m.slot) (rec_.take 56),
         .dma (m.rqBase.toNat + 64 * m.slot + 56) (rec_.drop 56)] ++ rest)))

/-- R175, R176, R327: an entry that has its turn, with no earlier batch still on its way, arrives in an executing twin: while the module gives no transaction
service the request is answered with that status, and an admin request without flow, predecessors or deadline gets its
root task, which waits for nothing; in STANDBY-HOT the entry first wakes the twins. -/
def Obligations.BroadcastArrival : Prop :=
  ∀ (s : State) (t : Nat) (w : Twin) (q : Nat) (rr : RReq), Tbl.find? s.rreqs q = some rr → rr.to w = true →
    s.executes w = true → Tbl.find? (s.twin w).reqs q = none → rr.readFail = false →
    s.rreqs.all (fun (e : Nat × RReq) => !decide (e.1 < q) || !e.2.to w || (Tbl.find? (s.twin w).reqs e.1).isSome) = true →
    (s.twin (otherTwin w)).outBatch.any (fun b => decide (4000 * b.epoch < q)) = false →
    (s.power.mod = .standbyHot → exec (.broadcastEntryArrival t w q) s = .next (settle s (s.at t).exitStandby)) ∧
    (s.power.mod ≠ .standbyHot → (s.domain moduleDomain).entry = none → s.coachyardAwake w = true →
    let r : Req := { hdr := rr.hdr, space := rr.space, inline := inlineArea rr.hdr rr.entry, head := rr.pre }
    (∀ st, s.noService q r = some st → st ≠ stTooSmall →
      Ends (.broadcastEntryArrival t w q) s w q (fun e => e.status = st ∧ e.result = [] ∧ e.effects = [])) ∧
    (rr.space = adminSpace → (Tbl.getD (s.twin w).store.flows (flowKey adminSpace 0) {}).fence = false → rr.hdr.flow = 0 →
      adminOps.contains rr.hdr.opcode = true → rr.hdr.segmented = false → rr.hdr.stateChange = false →
      rr.hdr.deadline = 0 → rr.hdr.predCount = 0 → rr.hdr = Hdr.parse rr.entry →
      Completes (.broadcastEntryArrival t w q) s (fun t' => ∃ r',
        Tbl.find? (t'.twin w).reqs q = some r' ∧ r'.hdr = rr.hdr ∧ r'.space = adminSpace ∧ r'.fin = none ∧
        r'.tasks = [(0, {})] ∧ t'.twin (otherTwin w) = s.twin (otherTwin w))))

/-- R92, R140 and R236: a deferred claim whose turn has come is assigned: the key's use counter, or its nonce counter, advances
by one, and the request takes the new nonce. R51, R243 and R328: a failed payload read ends the request in each twin that has
it in service, and a twin's read that needs no store is kept with its offset. -/
def Obligations.AssignmentsAndPayload : Prop :=
  (∀ (s : State) (t : Nat) (w : Twin) (q k : Nat) (r : Req) (c : Claim) (key : KeyRec),
     Tbl.find? (s.twin w).reqs q = some r → r.claims[k]? = some c → c.done = false → c.handle ≠ 0 →
     (s.twin w).claimWaits q r.space c.handle = false → (s.twin w).store.key? r.space c.handle q = some key →
     key.exhausted = false →
     (c.use = true → c.nonce = false → (key.useLimit = 0 ∨ key.useCount < key.useLimit) → key.useCount + 1 < 2 ^ 64 - 1 →
       Completes (.useAssignment t w q k) s (fun t' =>
         (t'.twin w).store.key? r.space c.handle q = some { key with useCount := key.useCount + 1 })) ∧
     (c.use = false → c.nonce = true → key.nonce + 1 < 2 ^ 96 - 1 →
       Completes (.useAssignment t w q k) s (fun t' =>
         (t'.twin w).store.key? r.space c.handle q = some { key with nonce := key.nonce + 1 } ∧
         ∃ r', Tbl.find? (t'.twin w).reqs q = some r' ∧ r'.nonce = key.nonce + 1))) ∧
  (∀ (s : State) (t q off : Nat) (w : Twin) (data : Bytes),
     (∀ rr r, Tbl.find? s.rreqs q = some rr → rr.hdr.isInline = false → rr.hdr.plen ≠ 0 → s.failStop = false →
       Tbl.find? (s.twin w).reqs q = some r → r.fin = none → r.timedOut = none →
       Ends (.payloadReadFailed t q) s w q (fun e => e.status = stPayload ∧ e.result = [] ∧ e.effects = r.sure)) ∧
     (∀ r, Tbl.find? (s.twin w).reqs q = some r → r.hdr.isInline = false → off + data.length ≤ r.hdr.plen →
       r.mismatch = false → s.failStop = false → s.payStore = [] → s.shares w q = false → (s.twin w).asyncs = [] →
       Completes (.payloadStoreRead t w q off data) s (fun t' => ∃ r',
         Tbl.find? (t'.twin w).reqs q = some r' ∧ r'.chunks = r.chunks ++ [(off, data)] ∧ r'.hdr = r.hdr ∧
         t'.payStore = [])))

/-- R183 to R187, R239: a dispatch places the task that Coachyard chooses on the chosen target and stamps it; a
pre-emption places it beside a running task, which is suspended. -/
def Obligations.TaskDispatch : Prop :=
  ∀ (s : State) (t : Nat) (w : Twin) (c : Ready) (r : Req) (k : Task), s.executes w = true → s.coachyardAwake w = true →
    let u := s.at t
    let x := (u.twin w).prepare w (u.isActive w) u.now
    let img := match Tbl.find? x.reqs c.q with | some r => r.image | none => 0
    let runs := fun (t' : State) (isl n : Nat) => ∃ (r' : Req) (k' : Task) (ctx : Ctx),
      Tbl.find? (t'.twin w).reqs c.q = some r' ∧ r'.begun = true ∧ (t'.twin w).task? c.q c.i = some k' ∧
      k'.ctx = some ⟨isl, n⟩ ∧ k'.st = .running ∧ k'.dispatch = x.stampOf u.now coachyard ∧
      Tbl.find? (t'.twin w).ctxs (2 * isl + n) = some ctx ∧ ctx.occ = true ∧ ctx.task = some (c.q, c.i) ∧
      ctx.ev = 0 ∧ ctx.acc = 0 ∧ ctx.rep = none
    x.chooseTask w (u.isActive w) u.now = some c → Tbl.find? x.reqs c.q = some r → Tbl.find? r.tasks c.i = some k →
    (∀ isl n, x.target w img = some (isl, n) → (s.domain isl).held = [] → Completes (.taskDispatch t w) s (fun t' => runs t' isl n)) ∧
    (∀ v, x.target w img = none → (v.q, v.i) ≠ (c.q, c.i) →
      leastBy Victim.before ((x.victims w u.now).filter (fun v => v.reserved (x.standing w u.now c.comp) ||
        (v.st.comp == c.comp && decide (v.lane < c.lane)))) = some v → (s.domain v.isl).held = [] →
      Completes (.preemption t w) s (fun t' => runs t' v.isl v.free ∧
        (t'.twin w).ctr.preempts = satAdd 32 x.ctr.preempts 1))

/-- R177, R178 and R243: once the services that can complete have done so, the first completion that has reached Coachyard lowers its task's counter by one; one that brings it
to 0 ends the task's wait, and a failed predecessor then ends a request that has not begun. -/
def Obligations.DependenceCompletion : Prop :=
  ∀ (s : State) (t : Nat) (w : Twin) (d : Done) (l : List Done) (r : Req) (k : Task),
    let x := ((s.at t).serve w).twin w
    s.coachyardAwake w = true → x.dones = d :: l → Tbl.find? x.reqs d.q = some r → Tbl.find? r.tasks d.task = some k →
    (2 ≤ k.dep → Completes (.dependenceCompletion t w) s (fun t' =>
      (t'.twin w).dones = l ∧ (t'.twin w).task? d.q d.task = some { k with dep := k.dep - 1 })) ∧
    (∀ c, k.dep = 1 → (d.task = 0 → r.failMark = false ∧ d.kind ≠ .pred false) → k.ctx = some c →
      x.held c = false → Completes (.dependenceCompletion t w) s (fun t' =>
        (Tbl.getD (t'.twin w).ctxs (ctxKey c) {}).waiting = false ∧ (t'.twin w).dones = l)) ∧
    (k.dep = 1 → d.task = 0 → d.kind = .pred false → r.begun = false → Timely x (s.at t).now d.q r →
      Ends (.dependenceCompletion t w) s w d.q (fun e => e.status = stPredFailed ∧ e.effects = r.sure ∧ e.commits = false))

/-- R189, R191, R192, R247: in the active twin, a request that no core runs ends when its Coachyard's counter reaches the
deadline, or when its budget is spent,
with `PRECEDENCE_EXPIRED` when its precedence mark is set and `EXPIRED` otherwise; a task still there 20 µs after its time-out
is aborted with the same status. R71 and R73: an open stream is closed as failed when 30 s have passed since its latest segment,
and a discarded id is forgotten 30 s after its discard. -/
def Obligations.DeadlinesAndLimits : Prop :=
  (∀ (s : State) (t q : Nat) (w : Twin) (r : Req), r.fin = none → s.coachyardAwake w = true →
     let u := s.at t
     let x := (s.twin w).markCap w true u.now
     let ended := fun e : EndRec => e.status = (if r.precMark then stPrecedence else stExpired) ∧ e.result = [] ∧
       e.effects = r.sure ∧ e.commits = false
     (s.active = some w → Tbl.find? x.reqs q = some r → r.timedOut = none → r.matched = none → r.denied = 0 →
       x.rngHeld q r = false → (∀ k ∈ r.tasks, k.2.ctx = none) →
       (r.hdr.deadline ≠ 0 → r.hdr.deadline ≤ clockAt (s.twin w).offs u.now coachyard → Ends (.deadlineReached t q) s w q ended) ∧
       (∀ img d, r.forZenith = false → (s.twin w).entryOf q r = some (img, d) → d.runMax ≠ 0 →
         4000000 * d.runMax ≤ r.tasks.foldl (fun (n : Nat) (k : Nat × Task) => n + k.2.ranFor u.now) r.ran →
         Ends (.runBudgetReached t q) s w q ended)) ∧
     (Tbl.find? (s.twin w).reqs q = some r → r.timedOut.isSome = true → (∃ k ∈ r.tasks, k.2.timedOut = true ∧ k.2.usedAt + 80000 ≤ k.2.ranFor u.now) →
       Ends (.timeoutExitLimit t w q) s w q ended)) ∧
  (∀ (s : State) (t sp key d : Nat) (w : Twin) (f : Flow),
     let u := s.at t
     let x := s.twin w
     let shut : Flow := { f with stream := { f.stream with isOpen := false, failed := true } }
     let closed := fun st : Store => { st with flows := Tbl.put st.flows (flowKey sp key) shut }
     (Tbl.find? x.store.flows (flowKey sp key) = some f → f.stream.isOpen = true →
       f.stream.last + 120000000000 ≤ 4000 * epochOf u.now →
       x.reqs.any (fun (e : Nat × Req) => e.2.space == sp && e.2.hdr.flow == key && e.2.hdr.segmented &&
         e.2.fin.isNone && decide (e.1 < f.stream.last + 120000000000)) = false →
       exec (.streamTimeout t w sp key) s = .next (settle s (u.updTwin w (fun x => { x with store := closed x.store })))) ∧
     (Tbl.find? x.store.discarded (discKey sp key) = some d → d + 120000000000 ≤ u.now →
       exec (.discardedIdExpiry t w sp key) s = .next (settle s (u.updTwin w (fun x =>
         { x with store := { x.store with discarded := Tbl.del x.store.discarded (discKey sp key) } })))))

/-- R332, R333 and R380: the first end record of a request to reach the Relay writes its commit effects in NVM, a second one
nothing, and one whose records find no room waits at rank 2; a request whose digests agree is released in the order of R52, and leaves both twins; one whose digest must be
compared and is not stays. -/
def Obligations.ReplyRelease : Prop :=
  ∀ (s : State) (t q : Nat) (w : Twin) (rr : RReq) (r : Req) (e : EndRec), r.fin = some e → s.failStop = false →
    let u := s.at t
    let fx := (e.effects.filter Effect.inNvm).map Effect.forNvm
    (Tbl.find? s.rreqs q = some rr → Tbl.find? (s.twin w).reqs q = some r →
      (rr.first = none → r.applied = true → u.roomFor q e = true → u.forestalled e = false →
        (∀ f ∈ e.effects, ∀ v : State, v.relayEffect q e.stamp f = v) → e.evs = [] → Tbl.find? s.alm.draws q = none →
        exec (.endRecordAtRelay t w q) s = .next (settle s { u with
          rreqs := Tbl.upd (Tbl.put s.rreqs q { rr with first := some w }) q (fun x =>
            { x with undo := undoEffects e.stamp s.nvm fx, noted := true })
          nvm := r.countDcl (applyEffects e.stamp s.nvm fx) })) ∧
      (rr.first.isSome = true → exec (.endRecordAtRelay t w q) s = .next (settle s u)) ∧
      (rr.first = none → r.applied = true → u.roomFor q e = false → exec (.endRecordAtRelay t w q) s =
        .next (settle s (u.updTwin w (fun x => x.updReq q (fun r => { r with precMark := true })))))) ∧
    (s.active = some w →
      let v := (u.updTwin w (fun x => x.compareReq true q)).wakeMismatch w
      let m := v.mbx rr.fn rr.idx
      let rec_ := (replyOf w q (v.stampOf 415) r.compared r e).record v.attention m.phase
      Tbl.find? v.rreqs q = some rr → Tbl.find? (v.twin w).reqs q = some r → v.failStop = false →
      (v.egress = some w → (v.twin w).giveUp = false → rr.first.isSome = true → r.applied = true → r.mismatch = false →
        r.compared = true → v.lc ≠ .scrapped → v.holdOver e.hold = true → rr.drop = false → (v.fn rr.fn).d3hot = false →
        Completes (.resultRelease t q) s (fun t' =>
          Tbl.find? t'.rreqs q = none ∧ Tbl.find? (t'.twin w).reqs q = none ∧
          ∃ rest, t'.out = v.out ++ ((replyPayload r e).toList.map (fun p => Output.dma p.1 p.2) ++
            [.dma (m.rqBase.toNat + 64 * m.slot) (rec_.take 56), .dma (m.rqBase.toNat + 64 * m.slot + 56) (rec_.drop 56)] ++
            rest))) ∧
      (r.compared = false → v.mustCompare w rr = true → exec (.resultRelease t q) s = .next (settle s v)))

/-- R331, R345 and R442: a twin's batch of an epoch carries the digests of the end records formed since its last, and the
outcomes of its self-tests; a digest that arrives is compared, and a difference marks a mismatch. R344: a re-execution that has its
core and the payload read again runs against the read log, and says whether it gave the first digest again. -/
def Obligations.TwinBatches : Prop :=
  ∀ (s : State) (t : Nat) (w : Twin), s.boot.up = true → (s.twin w).exchanges = true →
    let x := s.twin w
    let n := epochOf (s.at t).now
    ((s.at t).now % 4000 = 0 → x.lastBatch < n → (s.twin (otherTwin w)).exchanges = true →
      s.debugHalted (twinBase w + 198) = false → s.debugHalted (linkIsland w) = false → Completes (.epochBatch t w) s (fun t' =>
      (t'.twin w).lastBatch = n ∧ t'.twin (otherTwin w) = s.twin (otherTwin w) ∧ t'.nvm = s.nvm ∧
      ∃ b : Batch, (t'.twin w).outBatch = x.outBatch ++ [b] ∧ b.epoch = n ∧
        b.digests = x.unsent.map (fun p => (p.1, p.2.2.digest)) ∧ b.tests = x.testsOut ∧ (t'.twin w).testsOut = [])) ∧
    (∀ b l q d r e, (s.twin (otherTwin w)).outBatch = b :: l → b.digests = [(q, d)] → b.verdicts = [] → b.fx = [] →
      b.health = [] → b.tests = [] → (∀ c ∈ x.store.comps, c.2.suspendAt = none) → x.unbindAt = none → (∀ o ∈ x.sentBatch, o.reexec = []) →
      Tbl.find? x.reqs q = some r → r.fin = some e → r.digFrom < b.epoch → r.compared = false → r.mismatch = false →
      r.sent.isSome = true →
      Completes (.batchReceived t w) s (fun t' => (t'.twin (otherTwin w)).outBatch = l ∧
        ∃ r', Tbl.find? (t'.twin w).reqs q = some r' ∧
          (d = e.digest → r'.compared = true ∧ r'.mismatch = false) ∧
          (d ≠ e.digest → r'.compared = false ∧ r'.mismatch = true ∧ r'.precMark = true ∧ r'.reexec = none))) ∧
    (∀ q d rr r e, Tbl.find? s.rreqs q = some rr → s.sw.discards.contains q = false ∨ rr.to w = true → s.failStop = false →
      Tbl.find? (x.takeReexec w).reqs q = some r → r.fin = some e → r.mismatch = true → r.reexec = none →
      r.reexecOn.isSome = true → r.atBeginning.complete = true →
      let gives := fun (same : Bool) => (.next (settle s ((s.at t).updTwin w (fun x =>
        (x.takeReexec w).updReq q (fun r => { r with reexec := some same })))) : Host.Outcome State Fault Refusal)
      exec (.reexecutionComplete t w q (some d)) s = gives (d == e.digest) ∧
      (((s.at t).updTwin w (fun x => x.takeReexec w)).rerunDigest w q r e = some d →
        exec (.reexecutionComplete t w q none) s = gives (d == e.digest)))

/-- R11, R24 to R26, R28, R336 to R338, R346, R347, R351: what a cause does. A pulse notes by how much each awake island's
counter differs, and one that is off by more than 4 units is a cause in its twin, of several the lowest island. A standby leaves service, OFFLINE at its third
departure in 24 h; an active with a HEALTHY standby stops releasing and gives up, and one without fails the module stop, as
does a second disagreeing copy of a Relay function. -/
def Obligations.CausesAndFailStop : Prop :=
  ∀ (s : State) (t : Nat) (w o : Twin), s.boot.up = true → s.failStop = false → s.active = some w → o = otherTwin w →
    (s.twin w).giveUp = false → s.sw.switching = false → s.lc ≠ .scrapped →
    let u := s.at t
    let out := fun (code isl : Nat) (t' : State) => (t'.twin o).cause = code ∧ (t'.twin o).causeIsl = isl ∧
      (t'.twin o).reqs = [] ∧ (t'.twin o).inTest = true ∧ t'.active = some w ∧ t'.failStop = false ∧
      (t'.twin o).role = (if 2 ≤ ((s.twin o).departs.filter (fun d => decide (u.opSeconds < d + opDay))).length ∨ code = 0x0D
        then .offline else .degraded)
    ((s.twin o).role = .healthy →
      (∀ q rr r e, Tbl.find? s.rreqs q = some rr → Tbl.find? (s.twin w).reqs q = some r → r.fin = some e →
        r.peerDig = none → r.compared = false → rr.to o = true → e.stamp + max 80000 (r.ran / 4) ≤ u.now →
        Completes (.standbyDigestLate t q) s (out 7 (digestIsland o))) ∧
      ((s.twin o).lastBatch + 3 ≤ epochOf u.now → Completes (.batchesMissing t o) s (out 0x0A (linkIsland o))) ∧
      (∀ c isl, c ≠ 0 → c ≤ 13 → Completes (.relinquish t o c isl) s (out c isl)) ∧
      (∀ c isl, c ≠ 0 → c ≤ 13 → c ≠ 7 → c ≠ 9 → (s.twin w).role = .active →
        Completes (.relinquish t w c isl) s (fun t' => (t'.twin w).giveUp = true ∧ (t'.twin w).cause = c ∧
          t'.sw.detected = u.now ∧ t'.failStop = false ∧ t'.twin o = s.twin o))) ∧
    (∀ c isl, (s.twin o).role ≠ .healthy → c ≠ 0 → c ≤ 13 → c ≠ 7 → c ≠ 9 → (s.twin w).role = .active →
      Completes (.relinquish t w c isl) s (fun t' => t'.failStop = true)) ∧
    (∀ f c, 1 ≤ f → f ≤ 5 → c ≤ 2 →
      (Tbl.getD s.tmr.retired f [] = [] → Completes (.relayCopyDisagree t f c) s (fun t' =>
        Tbl.getD t'.tmr.retired f [] = [c] ∧ t'.failStop = false)) ∧
      (∀ k, Tbl.getD s.tmr.retired f [] = [k] → k ≠ c → Completes (.relayCopyDisagree t f c) s (fun t' =>
        t'.failStop = true ∧ t'.tmr.failed = s.tmr.failed ++ [f]))) ∧
    (∀ offs : List (Nat × Int), u.now % 4000 = 0 → (∀ p ∈ offs, p.2.natAbs ≤ 4) →
      let l := offs.filter (fun p => decide (p.1 < 426) && s.awake p.1)
      exec (.disciplinePulse t offs) s = .next (settle s { u with
        offs := pulseOffs none u.now s.offs l
        twinA := { s.twinA with offs := pulseOffs (some .a) u.now s.twinA.offs l }
        twinB := { s.twinB with offs := pulseOffs (some .b) u.now s.twinB.offs l }
        power := { s.power with domains := s.power.domains.map (fun (d : Nat × Domain) => (d.1, d.2.pulsed u.now)) } })) ∧
    (∀ (i j : Nat) (d f : Int), u.now % 4000 = 0 → (s.twin o).role = .healthy → islandTwin i = some o →
      islandTwin j = some o → i < j → s.awake i = true → s.awake j = true → 4 < d.natAbs → 4 < f.natAbs →
      Completes (.disciplinePulse t [(i, d)]) s (out 5 i) ∧ Completes (.disciplinePulse t [(j, f), (i, d)]) s (out 5 i))

/-- R339, R341, R342: isolation leaves the selector open; at its promotion the standby is the active twin and the accepted,
unreleased requests are the discarded ones; each gets one `DISCARDED` reply with `TWIN` 0, and the last ends the
switch-over. -/
def Obligations.SwitchOver : Prop :=
  ∀ (s : State) (t : Nat) (w old : Twin), w = otherTwin old → s.failStop = false →
    let u := s.at t
    (s.active = some old → (s.twin old).giveUp = true → Completes (.egressIsolation t) s (fun t' =>
      t'.egress = none ∧ t'.active = none ∧ t'.sw = { s.sw with switching := true, old := some old, accepting := false } ∧
      t'.twinA = s.twinA ∧ t'.twinB = s.twinB ∧ t'.rreqs = s.rreqs)) ∧
    (s.sw.old = some old → s.sw.switching = true → s.active = none → (s.twin w).role = .healthy → s.nvm.swap = none →
      (s.rreqs.map Prod.fst).Nodup →
      (∀ p ∈ (s.twin w).reqs, p.2.mismatch = false) →
      (∀ e ∈ s.rreqs, ∃ r, Tbl.find? (s.twin w).reqs e.1 = some r ∧ r.secure = false ∧
        ((r.fin = none ∧ e.2.first = none) ∨
          (∃ f, r.fin = some f ∧ f.commits = true ∧ r.applied = true ∧ e.2.first.isSome = true))) →
      Completes (.promotion t) s (fun t' => t'.active = some w ∧ t'.egress = some w ∧ (t'.twin w).role = .active ∧
        ((t'.twin old).role = .degraded ∨ (t'.twin old).role = .offline) ∧ t'.sw.discards = s.rreqs.map Prod.fst ∧
        t'.sticky.getLsbD 9 = true ∧ t'.rreqs.map Prod.fst = s.rreqs.map Prod.fst)) ∧
    (∀ q l rr, s.sw.discards = q :: l → s.active = some w → Tbl.find? s.rreqs q = some rr → rr.drop = false →
      (s.fn rr.fn).d3hot = false → Completes (.discardedReplyPost t) s (fun t' =>
        let m := s.mbx rr.fn rr.idx
        let rec_ := ({ id := rr.hdr.id, status := stDiscarded, accept := q, complete := u.stampOf 415 } : Reply).record
          s.attention m.phase
        t'.sw.discards = l ∧ Tbl.find? t'.rreqs q = none ∧
        (l = [] → t'.sw.switching = false ∧ t'.sw.accepting = true) ∧
        ∃ rest, t'.out = s.out ++ ([.dma (m.rqBase.toNat + 64 * m.slot) (rec_.take 56),
          .dma (m.rqBase.toNat + 64 * m.slot + 56) (rec_.drop 56)] ++ rest))) ∧
    (s.active = some w →
      (s.sw.discards = [] → s.sw.switching = true → Completes (.newWorkAccept t) s (fun t' =>
        t'.sw.switching = false ∧ t'.sw.accepting = true)) ∧
      (s.sw.discards ≠ [] → s.sw.detected + 24000 ≤ u.now →
        exec (.newWorkAccept t) s = .next (settle s { u with sw := { s.sw with accepting := true } })))

/-- R317, R347 to R349: a twin that passes its self-test may return, and one that fails stays OFFLINE; a snapshot at Es makes it
resynchronise, unless it has fewer than 12 active sources; at Ej it takes the active's store and seeds, and it is HEALTHY again once the earlier requests have ended. -/
def Obligations.Resynchronisation : Prop :=
  ∀ (s : State) (t : Nat) (w o : Twin), s.active = some w → o = otherTwin w → s.failStop = false →
    let u := s.at t
    let e := epochOf u.now
    ((s.twin o).role = .degraded → (s.twin o).inTest = true →
      exec (.twinSelftestComplete t o none) s = .next (settle s (u.updTwin o (fun x => { x with inTest := false }))) ∧
      (∀ isl, islandTwin isl = some o → Completes (.twinSelftestComplete t o (some isl)) s (fun t' =>
        (t'.twin o).role = .offline ∧ (t'.twin o).cause = 0x0D ∧ (t'.twin o).causeIsl = isl ∧ (t'.twin o).inTest = false ∧
        WokenOnly (s.twin w) (t'.twin w)))) ∧
    ((s.twin o).role = .degraded → (s.twin o).inTest = false → s.sw.switching = false → u.now % 4000 = 0 →
      12 ≤ (s.twin o).ent.actives → Completes (.resyncSnapshot t) s (fun t' =>
        (t'.twin o).role = .resync ∧ (t'.twin o).resyncEs = some e ∧ (t'.twin o).resyncEj = none ∧
        (t'.twin o).store = (s.twin o).store ∧ (t'.twin o).ent = (s.twin o).ent ∧
        WokenOnly (s.twin w) (t'.twin w))) ∧
    ((s.twin o).ent.actives < 12 → exec (.resyncSnapshot t) s = .next (settle s u)) ∧
    (∀ es, (s.twin o).role = .resync → (s.twin o).resyncEs = some es → (s.twin o).resyncEj = none → es < e →
      u.now % 4000 = 0 → s.rreqs.all (fun (r : Nat × RReq) => (Tbl.find? (s.twin w).reqs r.1).isSome) = true →
      Completes (.resyncJoin t) s (fun t' => (t'.twin o).resyncEj = some e ∧ (t'.twin o).store = (s.twin w).store ∧
        (t'.twin o).ent.seeds = (s.twin w).ent.seeds ∧ (t'.twin o).agreed = (s.twin w).agreed ∧
        WokenOnly (s.twin w) (t'.twin w))) ∧
    (∀ ej, (s.twin o).role = .resync → (s.twin o).resyncEj = some ej → 12 ≤ (s.twin o).ent.actives →
      (s.twin w).reqs.all (fun (p : Nat × Req) => decide (4000 * ej ≤ p.1) || p.2.fin.isSome) = true →
      (s.twin o).reqs.all (fun (p : Nat × Req) => decide (4000 * ej ≤ p.1)) = true →
      Completes (.resyncHealthy t) s (fun t' => (t'.twin o).role = .healthy ∧ (t'.twin o).resyncEs = none ∧
        (t'.twin o).resyncEj = none ∧ t'.health.resyncs = satAdd 32 s.health.resyncs 1 ∧
        WokenOnly (s.twin w) (t'.twin w)))

/-- R307 to R309, R312, R314, R315: a source whose test reaches its cutoff leaves its group and takes with it the blocks that hold
a bit which it took after its last pass; the lowest-numbered spare joins; 256 raw bytes make a block, and the oldest block reseeds a masking generator; the
start-up test makes sources 0 to 23 active, in three groups of eight, and the rest spares. R317 and R318: the first seed is proposed
as soon as it can be made, and a renewal 50 epochs ahead; the other twin's acknowledgment lets it take effect in both twins, the
first seed at once and a renewal at its epoch; without it the first seed waits while the other twin is there, and a renewal is
postponed by 100; with fewer than 12 active sources random service stops in both. -/
def Obligations.EntropyService : Prop :=
  (∀ (s : State) (t src island dp : Nat) (w : Twin), s.boot.up = true →
     let u := s.at t
     let x := s.twin w
     (∀ c g test count, Tbl.find? x.ent.sources src = some c → c.role = .active g →
       (cutoffReached test count = false → exec (.noiseSourceFail t w src test count) s = .next (settle s u)) ∧
       (cutoffReached test count = true →
       x.role = .active → Completes (.noiseSourceFail t w src test count) s (fun t' =>
         let e := (t'.twin w).ent
         let pass := c.lastPass u.now
         (Tbl.getD e.sources src {}).role = .quarantined ∧
         (Tbl.getD e.sources src {}).samples = min (1024 + (u.now - c.base) / 250) (2 ^ 48 - 1) ∧
         e.blocks = x.ent.blocks.filter (fun b => !(b.srcs.contains src && decide (pass < b.stamp))) ∧
         (∀ k m, Tbl.find? e.masks k = some m → m.inst = true → src ∈ m.srcs → pass < m.last → m.tainted = true)))) ∧
     (∀ g i c, x.ent.joinWait.contains g = true →
       List.find? (fun (c : Nat × NSource) => c.2.role == NRole.spare) x.ent.sources = some (i, c) →
       exec (.spareSourceJoin t w g) s = .next (settle s (u.updTwin w (fun x => x.updEnt (fun e =>
         { e with joinWait := e.joinWait.erase g, sources := Tbl.put e.sources i { c with role := .active g } }))))) ∧
     (∀ g raw, raw.length = 256 → x.ent.groupSrcs g ≠ [] →
       exec (.conditionedBlock t w g raw) s = .next (settle s (u.updTwin w (fun x => x.updEnt (fun e =>
         ({ e with blocks := e.blocks ++ [{ group := g, srcs := e.groupSrcs g, data := sha256 raw, stamp := u.now }],
                   blocksN := satAdd 48 e.blocksN 1 } : Entropy).tendSeed w u.now s.pcycle))))) ∧
     (∀ b l, x.ent.blocks = b :: l → isEngine island = true → islandTwin island = some w → dp ≤ 1 →
       Completes (.maskingReseed t w island dp) s (fun t' =>
         let old : MaskGen := Tbl.getD x.ent.masks (2 * island + dp) {}
         (t'.twin w).ent.blocks = l ∧ t'.twin (otherTwin w) = s.twin (otherTwin w) ∧
         Tbl.find? (t'.twin w).ent.masks (2 * island + dp) = some
           { inst := true, srcs := b.srcs, last := b.stamp, seeded := u.now,
             drbg := if old.inst then drbgReseed (maskDrawn old.blocks old.drbg) b.data
               else drbgInst 16 b.data [] (localPers w 2 island dp s.pcycle) })) ∧
     (x.ent.sources = [] → s.wear.quarant = [] → s.wear.noiseOut = [] → x.role = .booting →
       Completes (.entropyStartupTestEnd t w []) s (fun t' => ∀ i < 32, Tbl.find? (t'.twin w).ent.sources i = some
         { role := if i < 24 then .active (i / 8) else .spare, base := u.now, samples := 1024 }))) ∧
  (∀ (s : State) (t : Nat) (w : Twin), s.boot.up = true → s.failStop = false → s.sw.switching = false → w = s.seedTwin →
     let u := s.at t
     let e := (s.twin w).ent
     let cur := epochOf u.now
     (∀ seed ent, e.proposal = none → 12 ≤ e.actives → e.makeSeed w u.now s.pcycle = some (seed, ent) →
       (e.seeds = [] → Completes (.seedProposal t) s (fun t' =>
         (t'.twin w).ent.proposal = some (1, cur, seed, s.seedPeer.isNone) ∧
         t'.twin (otherTwin w) = s.twin (otherTwin w))) ∧
       (∀ g, e.seeds.getLast? = some g → e.stopped = false → e.nextEpoch = cur + 50 →
         Completes (.seedProposal t) s (fun t' =>
           (t'.twin w).ent.proposal = some (g.2.1 + 1, cur + 50, seed, s.seedPeer.isNone) ∧
           t'.twin (otherTwin w) = s.twin (otherTwin w)))) ∧
     (∀ o, s.seedPeer = some o → exec (.seedAck t) s = .next (settle s (u.updTwin o (fun x => x.updEnt (fun e =>
       { e with proposal := e.proposal.map (fun p => (p.1, p.2.1, p.2.2.1, true)) }))))) ∧
     (∀ gen n seed, n ≤ cur →
       (e.proposal = some (gen, n, seed, true) → Completes (.seedRenewalEffect t) s (fun t' =>
         ∀ v, s.seeded v = true → (t'.twin v).ent.seeds =
             (s.twin v).ent.seeds ++ [(if gen = 1 then cur else n, gen, seed)] ∧
           (t'.twin v).ent.proposal = none ∧ (t'.twin v).ent.stopped = false)) ∧
       (e.proposal = some (1, n, seed, false) → s.seedPeer.isSome = true →
         exec (.seedRenewalEffect t) s = .next (settle s u)) ∧
       (e.proposal = some (1, n, seed, false) → s.seedPeer = none → Completes (.seedRenewalEffect t) s (fun t' =>
         s.seeded w = true → (t'.twin w).ent.proposal = none ∧ (t'.twin w).ent.seeds = e.seeds ++ [(cur, 1, seed)])) ∧
       (e.proposal = some (gen, n, seed, false) → gen ≠ 1 →
         Completes (.seedRenewalEffect t) s (fun t' =>
           (t'.twin w).ent.seeds = e.seeds ∧ (t'.twin w).ent.proposal = none ∧ (t'.twin w).ent.nextEpoch = n + 100 ∧
           (t'.twin w).ent.postponed = satAdd 16 e.postponed 1))) ∧
     (s.active = some w → e.sources ≠ [] → e.actives < 12 → e.stopped = false →
       Completes (.rngServiceStop t) s (fun t' => t'.twinA.ent.stopped = true ∧ t'.twinB.ent.stopped = true ∧
         t'.twinA.ent.proposal = none ∧ t'.twinB.ent.proposal = none)))


/-- R352, R373 to R378, R380, R382: a received record is appended with its number and chain value, or merged into the newest
record; the last ordinary evidence position brings LOCK; a pending merge is written once per millisecond, operating time
every 64 s; at an epoch that its reason names, a report that is due is taken and counted, and is whole at once without a HEALTHY
standby. -/
def Obligations.AlmanacAndReports : Prop :=
  ∀ (s : State) (t : Nat),
    let u := s.at t
    let g := s.alm.gen
    let v := s.alm.ev
    (∀ e l, s.almRuns = true → g.queue = e :: l → e.sev ≠ sevEvid → s.alm.dropped = 0 →
      ((∀ p, Tbl.find? g.recs (seqPrev g.next) = some p → p.merges (s.recOf e) = false) →
        (g.next + 2 ^ 32 - g.oldest) % 2 ^ 32 ≠ 1048576 → Completes (.almanacAppend t .general) s (fun t' =>
          t'.alm.gen.queue = l ∧ t'.alm.gen.next = (g.next + 1) % 2 ^ 32 ∧ t'.alm.ev = v ∧
          Tbl.find? t'.alm.gen.recs g.next = some { s.recOf e with chain := g.chainOf false g.next (s.recOf e) })) ∧
      (∀ p, Tbl.find? g.recs (seqPrev g.next) = some p → p.merges (s.recOf e) = true → g.next ≠ g.oldest →
        Completes (.almanacAppend t .general) s (fun t' => ∃ p',
          t'.alm.gen.queue = l ∧ t'.alm.gen.next = g.next ∧ t'.alm.gen.pend = true ∧
          Tbl.find? t'.alm.gen.recs (seqPrev g.next) = some p' ∧ p'.rpt = p.rpt + 1 ∧ p'.last = e.stamp))) ∧
    (∀ e l, s.almRuns = true → v.queue = e :: l → e.sev = sevEvid → s.alm.draws = [] → s.alm.highDone = true →
      (∀ p, Tbl.find? v.recs (seqPrev v.next) = some p → p.merges (s.recOf e) = false) →
      (v.next < 130815 → Completes (.almanacAppend t .evidence) s (fun t' =>
        t'.alm.ev.queue = l ++ s.alm.waiting.take 1 ∧ t'.alm.waiting = s.alm.waiting.drop 1 ∧ t'.alm.ev.next = v.next + 1 ∧ t'.tamper = s.tamper ∧ t'.alm.gen = g ∧
        Tbl.find? t'.alm.ev.recs v.next = some { s.recOf e with chain := v.chainOf true v.next (s.recOf e) })) ∧
      (v.next = 130815 → Completes (.almanacAppend t .evidence) s (fun t' =>
        t'.alm.full = true ∧ t'.tamper.lock = true ∧ t'.alm.ev.next = 130817))) ∧
    (s.almRuns = true → g.pend = true → (∀ n, g.lastWr = some n → n + 4000000 ≤ u.now) →
      exec (.mergeWrite t .general) s = .next (settle s
        { u with alm := { s.alm with gen := { g with pend := false, lastWr := some u.now } } })) ∧
    (∀ n, g.lastWr = some n → u.now < n + 4000000 → exec (.mergeWrite t .general) s = .next (settle s u)) ∧
    (s.boot.up = true → s.alm.opsNvm + 64 ≤ u.opSeconds → exec (.opSecondsRecord t) s = .next (settle s
      { u with alm := { s.alm with opsNvm := u.opSeconds } })) ∧
    (∀ w ep r, s.active = some w → s.failStop = false → u.now % 4000 = 0 →
      s.health.due = [(ep, r)] → ep ≤ epochOf u.now → epochOf u.now % reportStep r = 0 → r ≠ 2 → r < 256 →
      epochOf u.now / 100000 * 100000 ≤ s.health.schedAt →
      Completes (.healthReportSnapshot t) s (fun t' => t'.health.seq = s.health.seq + 1 ∧ t'.health.due = [] ∧
        (s.healthyStandby = none → ∃ b, t'.health.latest = some b ∧ b.take 6 = [0x50, 0x58, 0x48, 0x52, 1, byte r] ∧
          t'.sticky = s.sticky ||| attnHealth) ∧
        (s.healthyStandby.isSome = true → t'.health.latest = s.health.latest ∧ t'.sticky = s.sticky ∧
          ∃ p, t'.health.snaps = s.health.snaps ++ [p] ∧ p.epoch = epochOf u.now ∧ p.reason = r ∧
            p.seq = s.health.seq + 1 ∧ p.sent = [] ∧ p.done = [])))

/-- R9, R22, R23, R32, R57, R368, R397, R450, R453, R459, R488: what a reset of the Relay, its release, a loss of main
power and the ends of a boot leave. -/
def Obligations.BootAndReset : Prop :=
  ∀ (s : State) (t : Nat),
    let u := s.at t
    let cold := fun (t' : State) => t'.boot.up = false ∧ t'.boot.ready = false ∧ t'.resetN = false ∧ t'.now = 0 ∧
      t'.active = none ∧ t'.egress = none ∧ t'.failStop = false ∧ t'.rreqs = [] ∧ t'.mbxs = [] ∧ t'.ingress = [] ∧
      t'.twinA.reqs = [] ∧ t'.twinB.reqs = [] ∧ t'.attnSeq = 0 ∧ t'.pcycle = s.pcycle ∧ t'.life.fused = s.life.fused
    (s.boot.up = true → Completes (.resetNAssert t) s (fun t' => cold t' ∧ t'.boot.mainOn = s.boot.mainOn ∧
      (s.alm.ev.queue = [] → s.alm.waiting = [] → s.alm.draws = [] → s.tamper.pendResp = none → s.tamper.progress = none →
        (∀ f to_ path, s.life.journal ≠ some (f, to_, path, false)) → t'.nvm = s.nvm.atReset ∧ t'.tamper.lock = s.tamper.lock ∧ t'.tamper.mrk = s.tamper.mrk))) ∧
    (s.powered = true → Completes (.mainPowerLoss t) s (fun t' => cold t' ∧ t'.boot.mainOn = false)) ∧
    (s.resetN = false → s.boot.selfHeld = false → ∀ r, Completes (.resetNRelease t r) s (fun t' => t'.boot.up = true ∧ t'.resetN = true ∧
      t'.boot.mainOn = true ∧ t'.boot.ready = false ∧ t'.pcycle = min (s.pcycle + 1) 0xFFFFFFFF)) ∧
    (s.booting = true → s.boot.from_ ≤ u.now →
      (∀ zen badA badB, s.nvm.verified (firmwareLc s.lc) 2 = some zen → s.twinA.role = .booting →
        Completes (.bootComplete ⟨t, badA, badB⟩) s (fun t' => t'.boot.ready = true ∧ t'.active = some .a ∧ t'.egress = some .a ∧
          t'.twinA.role = .active)) ∧
      (s.nvm.verified (firmwareLc s.lc) 2 = none → s.twinA.role = .booting → s.twinB.role = .booting →
        ∀ badA badB, Completes (.bootComplete ⟨t, badA, badB⟩) s (fun t' => t'.failStop = true ∧ t'.boot.ready = false)) ∧
      (∀ w, s.boot.released + 1600000000 ≤ u.now → (s.twin w).role = .booting → Completes (.twinBootTimeout t w) s (fun t' =>
        (t'.twin w).cause = 0x0C ∧ ((t'.twin w).role = .degraded ∨ (t'.twin w).role = .offline) ∧
        (t'.failStop = true ↔ (s.twin (otherTwin w)).role ≠ .booting)))) ∧
    (s.boot.up = true → s.boot.trialBoot = true → s.boot.ready = false → s.boot.from_ + 8000000000 ≤ u.now →
      exec (.trialBootTimeout t) s = .next (settle s { u with boot := { s.boot with trialFail := true } })) ∧
    (∀ d, s.boot.up = true → s.boot.selfHeld = false → s.failStop = false → s.life.selfReset = some d → d ≤ u.now →
      Completes (.lcSelfReset t) s (fun t' => cold t' ∧ t'.boot.selfHeld = true ∧ t'.boot.mainOn = s.boot.mainOn ∧
        t'.life.selfReset = none)) ∧
    (s.boot.up = false → s.boot.selfHeld = true → Completes (.lcSelfReset t) s (fun t' => t'.boot.up = true ∧
      t'.boot.selfHeld = false ∧ t'.resetN = true ∧ t'.boot.ready = false ∧ t'.now = 0 ∧
      t'.pcycle = min (s.pcycle + 1) 0xFFFFFFFF))

/-- R388 to R406 and Table 17-2: a life-cycle request on the TAP begins its transition when the pair, the count of failed
tokens and the token allow it, and counts a failed token; the end of the erasure fuses the new state; a debug certificate adds its rights; a
debug act that the rights permit halts, steps, resumes, reads or writes an island in Run, is answered `ISLAND_DOWN` by one that is not, and
does nothing elsewhere. -/
def Obligations.LifeCycleAndDebug : Prop :=
  ∀ (s : State) (t : Nat),
    let u := s.at t
    (∀ target token to_ slot quorum, lcOf target = some to_ → token.length = 32 → to_ ≠ s.lc → s.lc ≠ .scrapped →
      (s.lc = .production → target = 4) → s.lcAllowed to_ = true → lcPair s.lc to_ = some (slot, quorum, true) →
      s.life.tokFails < 4 → Completes (.lcReq t target 0 token) s (fun t' =>
        if tokenGood slot token then
          t'.life.journal = some (s.lc, to_, 1, false) ∧ t'.life.tapResult = 0 ∧ t'.life.tokFails = s.life.tokFails
        else t'.life.journal = none ∧ t'.life.tapResult = 2 ∧ t'.life.tokFails = s.life.tokFails + 1)) ∧
    (∀ target token, s.lc = .production → target ≠ 4 → exec (.lcReq t target 0 token) s =
      .next (settle s { u with life := { s.life with tapInst := .bypass } })) ∧
    (∀ f to_ path wiped, s.boot.up = true → s.life.journal = some (f, to_, path, wiped) →
      Completes (.lcWipeComplete t) s (fun t' => t'.life.fused = to_ :: s.life.fused ∧ t'.lc = to_ ∧
        t'.life.journal = none ∧ t'.sticky.getLsbD 2 = true ∧
        (to_ = .analysis ∨ to_ = .scrapped → t'.tamper.lock = false))) ∧
    (∀ cert, (s.lc = .test ∨ s.lc = .blank ∨ (s.lc = .production ∧ s.life.recovery = true ∧ s.life.opened = true)) →
      Completes (.dbgCert t cert) s (fun t' =>
        let r := certRights s.lc cert
        t'.life.tapResult = tapCodeOf (s.certStatus cert) ∧
        (s.certStatus cert = 0 → t'.life.ports = s.life.ports ||| r.1 ∧ t'.life.access = s.life.access ||| r.2.1 ∧
          ∀ i, i ∈ t'.life.islands ↔ i ∈ s.life.islands ∨ i ∈ r.2.2) ∧
        (s.certStatus cert ≠ 0 → t'.life.ports = s.life.ports ∧ t'.life.access = s.life.access ∧
          t'.life.islands = s.life.islands))) ∧
    (∀ isl, s.closed isl = none →
      let run := fun (h : Tbl Nat) (v : Option (Word × Bool)) => ({ u with
        life := { s.life with tapInst := .dbgAccess, halted := h }, out := s.out ++ [.access isl v false] } : State)
      (s.debugOpen isl .halt = true →
        exec (.dbgAccess t isl .halt) s = .next (settle s (run (Tbl.put s.life.halted isl 0) none)) ∧
        exec (.dbgAccess t isl .resume) s = .next (settle s (run (Tbl.del s.life.halted isl) none)) ∧
        (∀ n, Tbl.find? s.life.halted isl = some n → isProcessor isl = true →
          exec (.dbgAccess t isl .step) s = .next (settle s (run (Tbl.put s.life.halted isl (n + 1)) none)))) ∧
      (∀ w n i, islandTwin isl = some w → isProcessor isl = true → n < 2 → i < 256 →
        (s.debugOpen isl (.read (.word n i)) = true → exec (.dbgAccess t isl (.read (.word n i))) s =
          .next (settle s (run s.life.halted (some (((s.twin w).debugCtx isl n).word i))))) ∧
        (∀ v tag, s.debugOpen isl (.write (.word n i) v tag) = true →
          Completes (.dbgAccess t isl (.write (.word n i) v tag)) s (fun t' =>
            ((t'.twin w).debugCtx isl n).word i = (v, tag) ∧ t'.out = s.out ++ [.access isl none false] ∧
            (∀ j ≠ i, ((t'.twin w).debugCtx isl n).word j = ((s.twin w).debugCtx isl n).word j) ∧
            t'.twin (otherTwin w) = s.twin (otherTwin w) ∧ t'.nvm = s.nvm)))) ∧
    (∀ isl l p, s.debugOpen isl (.read l) = true → s.closed isl = some p → (s.domain isl).woa = false →
      Completes (.dbgAccess t isl (.read l)) s (fun t' =>
        t'.out = s.out ++ [.access isl (some (BitVec.allOnes 64, false)) true] ∧ t'.nvm = s.nvm)) ∧
    (∀ isl kind, bit s.debugPorts 0 = true → s.debugOpen isl kind = false → exec (.dbgAccess t isl kind) s =
      .next (settle s { u with life := { s.life with tapInst := .dbgAccess } })) ∧
    (∀ isl kind, bit s.debugPorts 0 = false → exec (.dbgAccess t isl kind) s =
      .next (settle s { u with life := { s.life with tapInst := .bypass } }))

/-- R403, R404, R406 and Table 17-7: every public TAP instruction completes in every state, and so do the reads of the two
status registers; a pin instruction acts as PERST# does, and is recorded once; `LC_STATUS` tells the state, the count of failed tokens and the
last result, which is 0xFF while a transition that the TAP asked for runs; `DBG_STATUS` is bypassed in SCRAPPED. -/
def Obligations.TapInstructions : Prop :=
  ∀ (s : State) (t : Nat),
  exec (.bypass t) s = .next (settle s { s.at t with life := { s.life with tapInst := .bypass } }) ∧
  exec (.samplePreload t) s = .next (settle s { s.at t with life := { s.life with tapInst := .sample } }) ∧
  exec (.tapReset t) s = .next (settle s { s.at t with life := { s.life with tapInst := .idcode } }) ∧
  exec (.idcode t) s = .next (settle s { s.at t with
    life := { s.life with tapInst := .idcode }, out := s.out ++ [.tap (toLe 4 Config.idcode.toNat)] }) ∧
  (∃ t', exec (.extest t) s = .next t' ∧ t'.life.tapInst = .extest ∧ t'.life.scanRec = true ∧
    (s.boot.up = true → s.isolated = false → (∀ n < 4096, (t'.mbx 0 n).state = .disabled) ∧ t'.ptm = {})) ∧
  (∃ t', exec (.clamp t) s = .next t' ∧ t'.life.tapInst = .clamp ∧ t'.life.scanRec = true ∧
    (s.boot.up = true → s.isolated = false → (∀ n < 4096, (t'.mbx 0 n).state = .disabled) ∧ t'.ptm = {})) ∧
  (∃ t', exec (.highz t) s = .next t' ∧ t'.life.tapInst = .highz ∧ t'.life.scanRec = true ∧
    (s.boot.up = true → s.isolated = false → (∀ n < 4096, (t'.mbx 0 n).state = .disabled) ∧ t'.ptm = {})) ∧
  exec (.lcStatus t) s = .next (settle s { s.at t with
    life := { s.life with tapInst := .lcStatus }
    out := s.out ++ [.tap (toLe 4 (lcCode s.lc * 2 ^ 28 + s.life.tokFails % 16 * 2 ^ 24 +
      (if s.life.tapResult = 0 ∧ s.life.journal.any (fun j => j.2.2.1 == 1) then 0xFF else s.life.tapResult) * 2 ^ 16))] }) ∧
  (∃ t', exec (.dbgStatus t) s = .next t' ∧ t' = settle s (if s.lc = .scrapped
    then { s.at t with life := { s.life with tapInst := .bypass } }
    else { s.at t with
      life := { s.life with tapInst := .dbgStatus }
      out := s.out ++ [.tap (toLe 4 (s.debugPorts * 2 ^ 16 + s.debugRights))] }))

/-- R150, R151, R163, R355, R360 to R366: an alarm qualifies when its count reaches the filter of its class, and is cleared
by as many false samples; the response then brings LOCK, zeroization or both; backup windows respond at once; a
zeroization erases the wrapped key first and the rest after it. -/
def Obligations.TamperResponses : Prop :=
  ∀ (s : State) (t cls mon n reading : Nat),
    let u := s.at t
    let e := classEntry s.alarms cls
    let m : Monitor := Tbl.getD s.tamper.monitors (monKey cls mon) {}
    (s.mainSampling = true → monitorExists cls mon = true → monitored e cls mon = true → s.sensorOut cls mon = false →
      u.condition e cls mon reading ≠ some false → m.asserted = false →
      (n < fld e 2 2 → exec (.alarmQualify t cls mon n reading) s = .next (settle s u)) ∧
      (fld e 2 2 ≤ n → Completes (.alarmQualify t cls mon n reading) s (fun t' =>
        let r := s.responseOf e false
        Tbl.find? t'.tamper.monitors (monKey cls mon) = some { trues := n, falses := 0, asserted := true, resp := r.1 } ∧
        t'.tamper.pendResp = some (joinResponse s.tamper.pendResp r.1 (if r.1 = 2 then targetsOf e else [])) ∧
        (s.alm.ev.queue.length < 1024 → ∃ v : EvReq, t'.alm.ev.queue = s.alm.ev.queue ++ [v] ∧
          let isl := if monitorOrigin cls mon = 1 then 205 else if monitorOrigin cls mon = 2 then 411 else 418
          v.id = 0x7000 + 256 * cls + mon ∧ v.stamp = u.stampOf (if s.awake isl then isl else powerManager isl) ∧
          v.detail = fixLen 16 (tamperDetail r cls mon (fld e 2 2) reading 0))))) ∧
    (s.mainSampling = true → monitored e cls mon = true → s.sensorOut cls mon = false → m.asserted = true →
      (if cls = 8 then ∀ i < 428, islandTwin i = meridianDie mon → u.clockAlarm i = false else readingTrue e cls mon reading ≠ some true) →
      fld e 2 2 ≤ n →
      exec (.alarmDeassert t cls mon ⟨n, reading⟩) s = .next (settle s (u.setMonitor cls mon { m with asserted := false, trues := 0, falses := n }))) ∧
    (∀ r targets, s.tamper.pendResp = some (r, targets) → s.mainSampling = true →
      Completes (.tamperResponseEffect t) s (fun t' => t'.tamper.pendResp = none ∧ t'.sticky.getLsbD 10 = true ∧
        (r = 0 → t'.tamper.lock = s.tamper.lock) ∧
        (1 ≤ r → t'.tamper.lock = true ∧ t'.nvm.approvals = []) ∧
        (r = 3 → t'.tamper.mrk = none ∧ t'.tamper.mrkLost = true) ∧
        (r = 2 → s.rreqs = [] → ∀ c, targets.contains c || targets.contains 0xFFFE →
          ((s.nvm.comp c).st = .active ∨ (s.nvm.comp c).st = .suspended) → (t'.nvm.comp c).st = .zeroizing))) ∧
    (s.mainSampling = false → ∀ (x : MonSample) (rails : Bool),
      let v1 : State := if s.boot.mainOn then u else { u with boot := { s.boot with railsBack := rails } }
      let v : State := if v1.powered then v1 else { v1 with tamper := { s.tamper with windows := s.tamper.windows + 1 } }
      Completes (.backupWindow t { rails := rails, samples := [x] }) s (fun t' => t'.tamper.windows = v.tamper.windows ∧
        (∀ h ∈ (v.windowMon x).2, h.1 < 8 → 1 ≤ h.2.2.1 →
          t'.tamper.lock = true ∧ (s.tamper.lock = false → t'.nvm.approvals = []) ∧
          (h.2.2.1 = 3 → t'.tamper.mrk = none)) ∧
        ((v.windowMon x).2 = [] → t'.tamper.lock = s.tamper.lock ∧ t'.tamper.mrk = s.tamper.mrk))) ∧
    (∀ c, s.boot.up = true → (s.nvm.comp c).st = .zeroizing →
      ((s.nvm.comp c).wrapped ≠ [] → Completes (.cmkErased t c) s (fun t' =>
        t'.nvm.comp c = { s.nvm.comp c with wrapped := [], cmk := [], pxk := [], keys := [] } ∧
        ∀ w, ((t'.twin w).store.comp c).keys = [] ∧ ((t'.twin w).store.comp c).transport = none)) ∧
      ((s.nvm.comp c).wrapped = [] → Completes (.compZeroized t c) s (fun t' =>
        t'.nvm.comp c = { st := .zeroized, gen := (s.nvm.comp c).gen })))

/-- R163, R166 to R173: a card's insertion and removal, the lines of its dialogue (the answer to reset without a TA1, the answer
to S(IFS request), a whole response APDU), the ends of a dialogue, and the times that an approval and a component set last. -/
def Obligations.OfficerCards : Prop :=
  ∀ (s : State) (t p : Nat), p < 2 →
    let u := s.at t
    ((s.port p).pres = false → Completes (.cardInserted t p) s (fun t' =>
      t'.port p = { (s.port p) with pres := true, ident := none } ∧ t'.port (1 - p) = s.port (1 - p))) ∧
    ((s.port p).pres = true → (s.port p).dlg = none → Completes (.cardRemoved t p) s (fun t' =>
      (t'.port p).pres = false ∧ (t'.port p).ident = none ∧ (∀ a ∈ t'.nvm.approvals, a.2.port ≠ some p) ∧
      ∀ w, ∀ a ∈ (t'.twin w).store.approvals, a.2.port ≠ some p)) ∧
    (∀ w d r, (s.port p).dlg = some d → s.active = some w → s.executes w = true → Tbl.find? (s.twin w).reqs d.q = some r →
      Timely (s.twin w) u.now d.q r →
      let timedOut := fun (c : Instr) => Ends c s w d.q (fun e => e.status = stCardTimeout ∧ e.result = [] ∧ e.effects = r.sure)
      (d.start + cardLongest ≤ u.now → timedOut (.cardTimeout t p)) ∧
      ((s.port p).pres = true → timedOut (.cardRemoved t p)) ∧
      ((s.port p).pres = true → u.now < d.start + cardLongest →
        (∀ b a, d.line.stage = .atr → u.now ≤ d.atrDue + b.length * initialWait → atrRead b = some a → a.ta1 = none →
          Completes (.cardApduResponse t p b) s (fun t' => t'.out = s.out ++ [.card p ifsRequest] ∧
            ∃ d', (t'.port p).dlg = some d' ∧ d'.line.stage = .ifs ∧ d'.line.ifsc0 = a.ifsc.getD 32)) ∧
        (∀ b, d.line.stage = .atr → u.now ≤ d.atrDue + b.length * initialWait → atrRead b = none →
          Ends (.cardApduResponse t p b) s w d.q (fun e => e.status = stApproval ∧ e.result = [])) ∧
        (d.line.stage = .ifs → d.line.sent = ifsRequest → d.held = none → d.apdu = [] → 14 ≤ d.line.ifsc →
          u.now ≤ d.line.sentAt + d.line.bwt + 5 * d.line.cwt →
          Completes (.cardApduResponse t p (t1Block 0xE1 [0xFE])) s (fun t' =>
            t'.out = s.out ++ [.card p (t1Block (64 * b2n d.line.ns) apduSelect)] ∧
            ∃ d', (t'.port p).dlg = some d' ∧ d'.line.stage = .blocks ∧ d'.apdu = apduSelect)) ∧
        (∀ inf, d.line.stage = .blocks → d.line.sent ≠ resynchRequest → d.line.rest = [] → d.held = none →
          inf.length ≤ 254 → u.now ≤ d.line.sentAt + d.line.bwt + (inf.length + 4) * d.line.cwt →
          s.dlgReady d.q = true →
          let resp := t1Block (64 * b2n d.line.nr) inf
          let all := d.line.rx ++ inf
          (d.stage = .select → all = [0x90, 0x00] → 4 ≤ d.line.ifsc → Completes (.cardApduResponse t p resp) s (fun t' =>
            t'.out = s.out ++ [.card p (t1Block (64 * b2n (d.line.ns != d.line.owed)) apduIdentity)] ∧
            ∃ d', (t'.port p).dlg = some d' ∧ d'.stage = .identity ∧ d'.q = d.q)) ∧
          (apduData all = none → Ends (.cardApduResponse t p resp) s w d.q (fun e =>
            e.status = stApproval ∧ e.result = [])) ∧
          (∀ b serial alg pub, all = b ++ [0x90, 0x00] → d.stage = .identity → identityOf b = some (serial, alg, pub) →
            r.hdr.opcode = 0x0143 → fld r.payload 1 1 = 1 → Ends (.cardApduResponse t p resp) s w d.q (fun e =>
              e.status = 0 ∧
              e.result = exchangeResult 0 (serialOf ((s.twin w).store.officers 0 0) serial) serial))))) ∧
    (∀ id a, Tbl.find? s.twinA.store.approvals id = some a → a.expiry < u.now → s.adminSince a.expiry = false →
      Completes (.approvalExpiry t id) s (fun t' => (∀ x ∈ t'.nvm.approvals, x.2 ≠ a) ∧
        ∀ w, ∀ x ∈ (t'.twin w).store.approvals, x.2 ≠ a)) ∧
    (∀ c k, (s.nvm.comp c).cset = some k → k.last + 2400000000000 ≤ u.now →
      s.adminSince (k.last + 2399999999999) = false →
      Completes (.componentSetExpiry t c) s (fun t' => t'.nvm.comp c = { s.nvm.comp c with cset := none }))

/-- R40, R238, R469, R485, R491 to R493: a committed swap takes effect at the pulse of its epoch, or later where the twins could not
exchange that epoch's batch, and not before; a page fill puts the page in the
quadrant's cache and lets the contexts that wait for it go on, the SMBus answers, the thermal bit follows its two limits, and
Nightwatch's supply follows VAUX. -/
def Obligations.SwapAndSidebands : Prop :=
  (∀ (s : State) (t e : Nat) (d : Bytes), s.boot.up = true → s.nvm.swap = some (e, d) → s.active.isSome = true →
    ((s.at t).now = 4000 * e ∨ (4000 * e < (s.at t).now ∧ s.unexchanged e = true) →
      ∃ t', exec (.cfgSwapEffect t) s = .next t' ∧
        t'.nvm.swap = none ∧ t'.nvm.activeB = (!s.nvm.activeB) ∧ t'.nvm.activeSet = s.nvm.shadowSet ∧
        t'.nvm.shadowSet = s.nvm.activeSet ∧ t'.nvm.validated = some s.nvm.activeSet.digest ∧
        t'.sticky.getLsbD 4 = true) ∧
    ((s.at t).now < 4000 * e → exec (.cfgSwapEffect t) s = .next (settle s (s.at t)))) ∧
  (∀ (s : State) (t k image page : Nat) (w : Twin), s.executes w = true → k < 4 →
    ∃ t', exec (.imageCacheFill t w k image page) s = .next t' ∧
      t'.twin (otherTwin w) = s.twin (otherTwin w) ∧ t'.nvm = s.nvm ∧
      (∀ v, (s.twin w).missedVersions k image page = [v] →
        page < (((s.twin w).store.component 3 (v / 2)).slot (v % 2)).pageCount → (k, v, page) ∈ (t'.twin w).cache) ∧
      ∀ n c q i r, Tbl.find? (s.twin w).ctxs n = some c → c.waiting = true → c.wants = .page page →
        islandCluster (n / 2) / 4 = k → c.task = some (q, i) → Tbl.find? (s.twin w).reqs q = some r → r.image = image →
        Tbl.find? (t'.twin w).ctxs n = some { c with waiting := false, wants := .nothing }) ∧
  (∀ (s : State) (t : Nat), s.boot.up = true →
    let u := s.at t
    (∃ t', exec (.smbusHealthSummary t) s = .next t' ∧ ∃ b, t'.out = s.out ++ [.smbus b] ∧ b.length = 32 ∧
      b.take 6 = toLe 4 s.modState ++ toLe 2 s.attention ∧ t'.nvm = s.nvm ∧ t'.power = s.power) ∧
    (∃ t', exec (.smbusTemperature t) s = .next t' ∧ ∃ b, t'.out = s.out ++ [.smbus b] ∧ b.length = 2 ∧ t'.nvm = s.nvm) ∧
    (s.smbAlert = true → exec (.smbusAlertResponse t) s = .next (settle s
      { u with out := s.out ++ [.smbus [0x4A]], smbAlert := false }))) ∧
  (∀ (s : State) (t : Nat) (v : Int), s.boot.up = true → exec (.thermalWarning t v) s = .next (settle s
    (State.setVid { s.at t with power := { s.power with
      thermal := decide (880 ≤ v) || (decide (840 < v) && s.power.thermal) } }))) ∧
  (∀ (s : State) (t v : Nat), exec (.vnwSourceSwitch t v) s = .next (settle s
    { s.at t with power := { s.power with vnwVaux := decide (3000 ≤ v) || (decide (2950 ≤ v) && s.power.vnwVaux) } }))

/-- Table 4-9, R82, R86, R352, R384 to R387, R442, R461, R465 and R466: what the admin commands that consume no approval
answer, when Zenith may run the request and its length, `PARAM` and reserved bytes are good. -/
def Obligations.AdminQueries : Prop :=
  ∀ (s : State) (t : Nat) (w : Twin) (q : Nat) (r : Req),
    let u := s.at t
    let x := s.twin w
    let f := fun (off len : Nat) => fld r.payload off len
    let gives := fun (c : Instr) (b : Bytes) => Fits r b → Ends c s w q (fun e => e.status = 0 ∧ e.result = b)
    let plain := r.hdr.plen = 0 ∧ r.hdr.param = 0
    let shadowFree := (Tbl.find? s.rreqs q).all (fun rr => !rr.behind) = true ∧ s.nvm.swap = none ∧
      s.twinA.store.swap = none ∧ s.twinB.store.swap = none
    (Asked s t 0x0100 w q r → plain → gives (.admNop t w q) []) ∧
    (Asked s t 0x0101 w q r → plain → gives (.admStatus t w q) u.statusBlock) ∧
    (Asked s t 0x0102 w q r → r.hdr.plen = 0 → r.hdr.param < 65536 → Ends (.attnAck t w q) s w q (fun e =>
      let left := s.attnBits &&& ~~~(BitVec.ofNat 12 r.hdr.param &&& 0x615#12)
      e.status = 0 ∧ Effect.attnClear r.hdr.param ∈ e.effects ∧
      e.result = toLe 2 (((s.attnSeq.toNat + if left = s.attnBits then 0 else 1) % 16) * 4096 + left.toNat))) ∧
    (∀ b, Asked s t 0x0103 w q r → plain → s.health.latest = some b → Fits r b →
      Ends (.healthGet t w q) s w q (fun e => e.status = 0 ∧ e.result = b ∧ Effect.healthClear ∈ e.effects)) ∧
    (Asked s t 0x0104 w q r → plain → Completes (.healthNow t w q) s (fun t' =>
      let ep := ceilDiv (q + 80000) 40000 * 10
      (∃ r', Tbl.find? (t'.twin w).reqs q = some r' ∧ r'.fin = none ∧ r'.awaits = .snapshot ep) ∧
      (ep, 2) ∈ t'.health.due)) ∧
    (Asked s t 0x0110 w q r → r.hdr.stateChange = true → 8 ≤ r.hdr.plen → r.hdr.param = 0 →
      allZero (slice r.payload 1 3) = true → shadowFree →
      let data := r.payload.drop 8
      (f 0 1 = 0 → f 4 4 = 0 → data = [] → Ends (.cfgShadowWrite t w q) s w q (fun e =>
        e.status = 0 ∧ e.result = [] ∧ Effect.cfgCopy ∈ e.effects)) ∧
      (1 ≤ f 0 1 → f 0 1 ≤ 8 → f 4 4 + data.length ≤ secSize (f 0 1) → Ends (.cfgShadowWrite t w q) s w q (fun e =>
        e.status = 0 ∧ e.result = [] ∧ Effect.cfgWrite (f 0 1) (f 4 4) data ∈ e.effects))) ∧
    (Asked s t 0x0111 w q r → r.hdr.stateChange = true → plain → shadowFree → 64 ≤ r.hdr.rlen →
      Ends (.cfgShadowValidate t w q) s w q (fun e =>
        let c := x.store.shadowSet
        e.status = 0 ∧
        (x.store.cfgFault c (s.lc == .production) = none → e.result = zeros 16 ++ c.digest ∧
          Effect.cfgValidated (some c.digest) ∈ e.effects) ∧
        (∀ sec off code, x.store.cfgFault c (s.lc == .production) = some (sec, off, code) →
          e.result = [1, byte sec, 0, 0] ++ toLe 4 off ++ toLe 2 code ++ zeros 54 ∧
          Effect.cfgValidated none ∈ e.effects))) ∧
    (Asked s t 0x0113 w q r → r.hdr.plen = 12 → r.hdr.param = 0 → allZero (slice r.payload 2 2) = true → f 0 1 < 2 →
      1 ≤ f 1 1 → f 1 1 ≤ 8 → 1 ≤ f 8 4 → f 8 4 ≤ 65536 → f 4 4 + f 8 4 ≤ secSize (f 1 1) →
      gives (.cfgRead t w q) ((if f 0 1 = 0 then x.store.cfgA else x.store.cfgB).rd (f 1 1) (f 4 4) (f 8 4))) ∧
    (∀ isl, Asked s t 0x0170 w q r → r.hdr.plen = 0 → r.hdr.param = isl → (isCore isl = true ∨ isEngine isl = true) →
      let v := if isl < 206 then Twin.a else Twin.b
      (u.testNow v isl = [] → Completes (.selftestRequest t w q) s (fun t' =>
        (∃ r', Tbl.find? (t'.twin w).reqs q = some r' ∧ r'.fin = none ∧ r'.awaits = .selftest isl) ∧
        ((t'.twin v).unit isl).asked = true)) ∧
      (u.testNow v isl ≠ [] → gives (.selftestRequest t w q) (u.testNow v isl))) ∧
    (∀ rnd, Asked s t 0x0A00 w q r → r.hdr.plen = 32 → r.hdr.param < 2 → (VEnv.of w q r).drawn u 48 = some rnd →
      let b := u.attestBody (bit r.hdr.param 0) (if r.space = adminSpace then none else some r.space) q r.payload
      gives (.attestReport t w q) (b ++ ecdsaSign 0x21 (deviceKey s.lc) (sha384 b) rnd)) ∧
    (Asked s t 0x0A01 w q r → r.hdr.plen = 0 → r.hdr.param < 2 ^ 41 → bit r.hdr.param 39 = false →
      1 ≤ bits r.hdr.param 38 32 → bits r.hdr.param 38 32 ≤ 64 →
      let evid := bit r.hdr.param 40
      let a := s.almRead evid (r.hdr.param % 2 ^ 32) (bits r.hdr.param 38 32)
      gives (.almRead t w q) (toLe 4 (s.oldest evid) ++ toLe 4 (s.reg evid).next ++ toLe 4 a.2.1 ++
        [byte a.2.2.length, byte (b2n a.1), 0, 0] ++ a.2.2.flatten))

/-- R85, R130 to R133, R150 to R165, R249, R387, R401, R455 to R458, R468: the admin commands that change sets, slots,
compartments and officers, when their checks pass; the effects of each stand in its end record, with the approvals that it
consumes. -/
def Obligations.AdminActions : Prop :=
  ∀ (s : State) (t : Nat) (w : Twin) (q : Nat) (r : Req) (l : List (Nat × Approval)),
    let u := s.at t
    let x := s.twin w
    let st := x.store
    let e := VEnv.of w q r
    let f := fun (off len : Nat) => fld r.payload off len
    let ahead := (Tbl.find? s.rreqs q).any (fun rr => rr.behind)
    let shadowFree := ahead = false ∧ s.nvm.swap = none ∧ s.twinA.store.swap = none ∧ s.twinB.store.swap = none
    let asked := fun (op : Nat) => Asked s t op w q r ∧ r.hdr.stateChange = true
    let fx := fun (c : Instr) (b : Bytes) (fs : List Effect) => Fits r b →
      Ends c s w q (fun e => e.status = 0 ∧ e.result = b ∧ ∀ a ∈ fs, a ∈ e.effects)
    let none_ := fun (c : Instr) => Ends c s w q (fun e => e.status = 0 ∧ e.result = [])
    (asked 0x0112 → r.hdr.plen = 48 → shadowFree → st.validated = some r.payload →
      epochOf u.now + 20 ≤ r.hdr.param → r.hdr.param ≤ epochOf q + 1000000000 → e.approved u 1 [msoScope] l = true →
      fx (.cfgSwap t w q) (toLe 8 r.hdr.param) (.cfgSwap r.hdr.param r.payload :: consume l)) ∧
    (asked 0x0120 → 13 ≤ r.hdr.plen → r.hdr.param = 0 → allZero (slice r.payload 2 2) = true →
      let c := st.component (f 0 1) (f 4 4)
      let data := r.payload.drop 12
      slotNamed (f 0 1) (f 1 1) (f 4 4) false = true → f 8 4 % 64 = 0 → data.length ≤ 1048576 →
      f 8 4 + data.length ≤ maxPackage (f 0 1) → c.inForce ≠ some (f 1 1) → c.forceAt q ≠ some (f 1 1) → ahead = false →
      (f 0 1 = 3 → s.slotUsed (f 4 4) (f 1 1) q = false) →
      (f 0 1 ≠ 3 ∨ f 4 4 < 0x100 ∨ st.ownersHeld.length < 32) →
      Ends (.fwSlotWrite t w q) s w q (fun e => e.status = 0 ∧ e.result = [] ∧
        ∃ v, Effect.slotWrite (f 0 1) (f 4 4) (f 1 1) (f 8 4) data v ∈ e.effects)) ∧
    (asked 0x0121 → r.hdr.plen = 8 → r.hdr.param = 0 → allZero (slice r.payload 2 2) = true → f 1 1 < 2 →
      slotNamed (f 0 1) (f 1 1) (f 4 4) true = true → (f 0 1 ≠ 3 ∨ s.lcDenied = false) →
      let c := st.component (f 0 1) (f 4 4)
      let m := (c.slot (f 1 1)).measure
      (c.inForce = some (f 1 1) → fx (.fwSlotActivate t w q) m []) ∧
      (c.inForce ≠ some (f 1 1) → st.slotStatus s.lc (f 0 1) (f 4 4) (f 1 1) = 0 → e.approved u 2 [msoScope] l = true →
        fx (.fwSlotActivate t w q) m (.slotActivate (f 0 1) (f 4 4) (f 1 1) ((c.slot (f 1 1)).svn (f 0 1 != 3))
          (if f 0 1 = 3 then some (c.slot (f 1 1)).ownerKey else none) :: consume l))) ∧
    (∀ cmk, asked 0x0130 → r.hdr.plen = 40 → r.hdr.param = 0 → f 0 2 < 1024 → s.lcDenied = false →
      firstFault (entryFaults st (CfgSet.wr {} 1 (40 * f 0 2) r.payload) (40 * f 0 2)) = none →
      ((st.comp (f 0 2)).st = .undefined ∨ (st.comp (f 0 2)).st = .zeroized) → shadowFree →
      st.sumsOk (st.cfgA.wr 1 (40 * f 0 2) r.payload) = true → st.sumsOk (st.cfgB.wr 1 (40 * f 0 2) r.payload) = true →
      e.approved u 3 [msoScope] l = true → e.drawn u 32 = some cmk →
      let g := (st.comp (f 0 2)).gen + 1
      fx (.compCreate t w q) (toLe 4 g) (.compCreate (f 0 2) g cmk
        (sivSealB (s.tamper.mrk.getD []) [serialBytes ++ toLe 2 (f 0 2) ++ toLe 4 g] cmk) r.payload :: consume l)) ∧
    (∀ c, r.hdr.plen = 0 → r.hdr.param = c → c < 1024 → s.lcDenied = false → e.approved u 3 (compScopes c) l = true →
      (asked 0x0131 → ((st.comp c).st = .active → fx (.compSuspend t w q) [] (.compState c .suspended :: consume l)) ∧
        ((st.comp c).st = .suspended → none_ (.compSuspend t w q))) ∧
      (asked 0x0132 → ((st.comp c).st = .suspended → fx (.compResume t w q) [] (.compState c .active :: consume l)) ∧
        ((st.comp c).st = .active → none_ (.compResume t w q))) ∧
      (asked 0x0133 → ((st.comp c).st = .active ∨ (st.comp c).st = .suspended →
          fx (.compZeroize t w q) [] (.compState c .zeroizing :: consume (l ++ st.compApprovals c))) ∧
        ((st.comp c).st = .zeroizing ∨ (st.comp c).st = .zeroized → none_ (.compZeroize t w q)))) ∧
    (∀ i, asked 0x0140 → 24 ≤ r.hdr.plen → r.hdr.param = 0 → allZero (slice r.payload 5 3) = true →
      f 0 1 = 1 → 1 ≤ f 1 1 → f 1 1 < 4 → f 2 2 < 1024 → f 4 1 = 0x30 → r.payload.length = 24 + officerKeyLen 0x30 →
      ((st.comp (f 2 2)).st = .active ∨ (st.comp (f 2 2)).st = .suspended) →
      let o : Officer := { role := f 1 1, serial := slice r.payload 8 16, alg := 0x30, pub := r.payload.drop 24 }
      let all := st.officers 1 (f 2 2)
      all.any (fun k => k.2.serial == o.serial || k.2.pub == o.pub) = false →
      (List.range 16).find? (fun i => (Tbl.find? all i).isNone) = some i →
      e.approved u 4 (compScopes (f 2 2)) l = true →
      fx (.officerEnrol t w q) [byte i] (.officerPut 1 (f 2 2) i o :: consume l)) ∧
    (∀ i scope c o, asked 0x0141 → r.hdr.plen = 0 → i < 16 → scope < 2 → c < 1024 →
      r.hdr.param = i + 256 * scope + 65536 * c → Tbl.find? (st.officers scope c) i = some o →
      st.spares (st.officers scope c) o.role = true → e.approved u 4 (officerScopes scope c) l = true →
      fx (.officerRemove t w q) [] (.officerDel scope c i :: consume l)) ∧
    (∀ o, asked 0x0142 → r.hdr.plen = 88 + f 80 2 → r.hdr.param = 0 → allZero (slice r.payload 7 1) = true →
      allZero (slice r.payload 20 4) = true → allZero (slice r.payload 82 6) = true → f 0 1 = 1 → f 1 1 < 2 →
      (f 1 1 = 1 ∨ f 2 2 = 0) → f 6 1 = 5 → f 80 2 = 96 → Tbl.find? (st.officers (f 1 1) (f 2 2)) (f 4 1) = some o →
      o.alg = 0x21 → roleCounts o.role (f 5 1) = true → cardsOnly (f 5 1) = false → f 16 4 = s.pcycle → q < f 24 8 →
      let m := slice r.payload 0 88
      st.remoteSeen.contains (sha256 m) = false → st.pool q < 64 →
      Ends (.approvalSubmit t w q) s w q (fun v =>
        if f 8 8 = Config.serial.toNat ∧ o.signed m (r.payload.drop 88) = true then
          v.status = 0 ∧ v.result = toLe 4 st.nextApp ∧ Effect.approvalAdd st.nextApp
            { scope := f 1 1, comp := f 2 2, cls := f 5 1, officer := f 4 1, digest := slice r.payload 32 48, expiry := f 24 8 }
            (some (sha256 m)) ∈ v.effects
        else v.status = stApproval ∧ ∃ z, v.effects = .replayPut r.space z :: r.sure)) ∧
    (∀ b sig, Asked s t 0x0A02 w q r → r.hdr.plen = 12 → r.hdr.param = 0 → f 0 1 < 2 →
      allZero (slice r.payload 1 3) = true → u.exportBody (f 0 1 == 1) (f 4 4) (f 8 4) q e.action = b → b ≠ [] →
      e.approved u 8 (msoScope :: st.comps.map (fun c => { scope := 1, comp := c.1, role := 3 })) l = true →
      (∃ rnd, e.drawn u 48 = some rnd ∧ sig = ecdsaSign 0x21 (deviceKey s.lc) (sha384 b) rnd) →
      fx (.almExport t w q) (b ++ sig) (consume l))

/-- R166 to R175, R391 to R401: a card dialogue begins, with the pads up, with the card activated and its answer to reset awaited; `UNLOCK` takes one approval
of each port; a transition and a debug certificate are granted as their token and certificate say. -/
def Obligations.AdminDialogues : Prop :=
  ∀ (s : State) (t : Nat) (w : Twin) (q : Nat) (r : Req) (rr : RReq) (l : List (Nat × Approval)),
    Tbl.find? s.rreqs q = some rr → rr.dlgEnd = none → s.power.padHold = none → s.awake 422 = true →
    let u := s.at t
    let x := s.twin w
    let e := VEnv.of w q r
    let f := fun (off len : Nat) => fld r.payload off len
    let begun := fun (c : Instr) => (s.port (f 0 1)).dlg = none → Completes c s (fun t' =>
      (∃ d, (t'.port (f 0 1)).dlg = some d ∧ d.q = q ∧ d.stage = .select ∧ d.line = {} ∧ d.start = u.now) ∧
      (t'.port (f 0 1)).active = true ∧
      (∃ r', Tbl.find? (t'.twin w).reqs q = some r' ∧ r'.begun = true ∧ r'.fin = none) ∧
      t'.out = s.out)
    (Asked s t 0x0143 w q r → r.hdr.plen = 56 → r.hdr.param = 0 → f 0 1 < 2 →
      (f 1 1 = 1 → allZero (slice r.payload 2 54) = true → begun (.cardExchange t w q)) ∧
      (f 1 1 = 2 → allZero (slice r.payload 6 2) = true → f 2 1 < 2 → f 4 2 < 1024 → (f 2 1 = 1 ∨ f 4 2 = 0) →
        (e.drawn u 32).isSome = true → begun (.cardExchange t w q))) ∧
    (Asked s t 0x0144 w q r → r.hdr.stateChange = true → r.hdr.plen = 8 → r.hdr.param = 0 → f 0 1 < 2 → f 1 1 = 0 →
      f 2 2 < 1024 → 1 ≤ f 4 1 → f 4 1 ≤ 5 → x.store.activeSet.quorum 5 ≤ f 5 1 → f 5 1 ≤ 3 → 1 ≤ f 6 1 → f 6 1 ≤ f 5 1 →
      f 7 1 = 0 → s.lcDenied = false → ((x.store.comp (f 2 2)).st = .active ∨ (x.store.comp (f 2 2)).st = .suspended) →
      ((x.store.comp (f 2 2)).setFor q (f 4 1) (f 5 1) (f 6 1)).isSome = true →
      (∃ b y c z, x.rng q 0 32 = .ok b y ∧ y.rng q 0 56 = .ok c z) → begun (.componentEnter t w q)) ∧
    (∀ a b rnd, Asked s t 0x0150 w q r → r.hdr.stateChange = true → r.hdr.plen = 0 → r.hdr.param = 0 →
      u.lockAsserted = false → s.alm.full = false → s.port0.pres = true → s.port1.pres = true →
      unlockPair (x.store.approvals.filter (fun (a : Nat × Approval) => a.2.cls == 6 && a.2.digest == e.action &&
        decide (q ≤ a.2.expiry) && x.store.counts msoScope a.2)) = some (a, b) →
      (if s.tamper.mrkLost then e.drawn u 64 = some rnd else rnd = []) →
      Ends (.unlock t w q) s w q (fun v => v.status = 0 ∧ v.result = [] ∧ Effect.unlock rnd ∈ v.effects ∧
        Effect.approvalDel a.1 ∈ v.effects ∧ Effect.approvalDel b.1 ∈ v.effects)) ∧
    (∀ to_ slot asks tap, Asked s t 0x0160 w q r → r.hdr.stateChange = true → r.hdr.plen = 40 → r.hdr.param = 0 →
      allZero (slice r.payload 1 7) = true → lcOf (f 0 1) = some to_ → s.lcAllowed to_ = true → lcCode s.lc ≠ f 0 1 →
      lcPair s.lc to_ = some (slot, asks, tap) → (asks = true → e.approved u 7 [msoScope] l = true) →
      (asks = false → l = []) → s.life.tokFails < 4 → Ends (.lcTransition t w q) s w q (fun v =>
        if tokenGood slot (slice r.payload 8 32) then
          v.status = 0 ∧ v.result = [byte (f 0 1), 0, 0, 0] ∧ v.hold = .wiped ∧
          ∀ a ∈ .lcStart (f 0 1) (officerBytes l) :: consume l, a ∈ v.effects
        else v.status = stLifecycle ∧ v.effects = r.sure)) ∧
    (Asked s t 0x0161 w q r → r.hdr.stateChange = true → r.hdr.param = 0 → s.lc ≠ .analysis → 72 ≤ r.hdr.rlen →
      Ends (.debugCertLoad t w q) s w q (fun v =>
        v.status = s.certStatus r.payload ∧ (s.certStatus r.payload = 0 →
          let g := certRights s.lc r.payload
          v.result = toLe 2 g.1 ++ toLe 2 g.2.1 ++ zeros 4 ++ islandMap g.2.2 ∧
          Effect.dbgGrant r.payload 0 ∈ v.effects)))

/-- R254 to R282 and Table 11-4: an operation that its engine may run ends with the status of the first check it fails, and
otherwise with its output; a compare failure, or a second delivery of its key with a bad check code, has it run again on another
engine, and a further one ends it; its completion
writes `ESTATUS`, `EFLAGS` and `OUT`, and lowers the task's counter. -/
def Obligations.EngineOperations : Prop :=
  ∀ (s : State) (t : Nat) (w : Twin) (id isl : Nat) (e : EngEnv), (s.twin w).engEnv? id = some e →
    let x := s.twin w
    let o := e.o
    let ends := fun (c : Instr) (p : EngOut → Prop) => Completes c s (fun t' => ∃ o' out,
      Tbl.find? (t'.twin w).ops id = some o' ∧ o'.done = some out ∧ o'.blk = o.blk ∧ p out)
    let gives := fun (c : Instr) (d : Bytes) => o.dKind ≠ 9 → ends c (fun out => out.status = 0 ∧ out.data = d ∧
      out.out = d.length ∧ out.tag = (e.outClass == 1) ∧ out.stg = some e.stagingAttr)
    let freed := fun (t' : State) => ∀ h ∈ (Tbl.getD (t'.twin w).clusters o.cluster {}).hold, (h.2.q, h.2.task) ≠ (o.q, o.task)
    (o.engine = some isl → o.admitted = true → o.waits = false → o.done = none → e.payloadThere = true →
      (∀ m ∈ x.masksOf isl, m.tainted = false ∧ x.ent.maskDue (s.at t).now m = false) → x.ent.seeds ≠ [] →
      s.awake isl = true →
      let n := e.blockWork (e.firstUse isl)
      (∀ out, e.refusal = some out → ∀ kf cf,
        (o.code = 1 → ends (.blockE t w ⟨id, kf⟩ cf) (· = out)) ∧ (o.code = 5 → ends (.cv t w ⟨id, kf⟩ cf) (· = out)) ∧
        (o.code = 0x11 → ends (.holdRelease t w ⟨id, kf⟩ cf) (· = out))) ∧
      (e.refusal = none → x.masksSpent isl n (s.at t).now = false → x.maskNeed isl n ≤ x.ent.blocks.length →
        ∀ kf, kf ≤ 1 →
        (o.code = 0x01 → gives (.blockE t w ⟨id, kf⟩ none) (e.blocks true)) ∧
        (o.code = 0x02 → gives (.blockD t w ⟨id, kf⟩ none) (e.blocks false)) ∧
        (o.code = 0x03 → gives (.xctr t w ⟨id, kf⟩ none)
          (xctrRun (e.blockFn true) o.ctrW (o.iv.take e.bs) (pieces e.bs e.a))) ∧
        (o.code = 0x04 →
          let cs := chainRun (e.blockFn true) (o.iv.take e.bs) (pieces e.bs (e.a ++ e.b))
          gives (.chain t w ⟨id, kf⟩ none) (if o.outLen = 0 then cs.flatten else cs.getLastD (o.iv.take e.bs))) ∧
        (o.code = 0x05 → o.verify = false → gives (.cv t w ⟨id, kf⟩ none) (e.checkValue (e.a ++ e.b))) ∧
        (o.code = 0x05 → o.verify = true → ends (.cv t w ⟨id, kf⟩ none) (fun out => out.data = [] ∧
          if e.checkValue (e.a ++ e.b) = e.expected then out.status = 0 ∧ out.flags = 3
          else out.status = stVerify ∧ out.flags = 1)) ∧
        (o.code = 0x06 → gives (.kdf t w ⟨id, kf⟩ none) (kdfRun o.func e.partAlg e.material e.a e.b o.outLen)) ∧
        (o.code = 0x07 → gives (.hash t w id none) (hashOf o.func (e.a ++ e.b))) ∧
        (o.code = 0x08 → gives (.kcv t w ⟨id, kf⟩ none) e.kcv) ∧
        (∀ a h y, o.code = 0x09 → o.dKind = 9 → e.attr = some a → x.createKey o.q none a 0 e.a = some (.inr (h, y)) →
          ends (.install t w id) (fun out => out.status = 0 ∧ out.flags = 1 ∧ out.out = h ∧ out.data = [])) ∧
        (o.code = 0x0A → gives (.stgBuild t w ⟨id, kf⟩) (e.a ++ e.b)) ∧
        (o.code = 0x10 → e.k.holdRoom o.aLen = true → Completes (.holdAlloc t w id) s (fun t' =>
          (∃ o', Tbl.find? (t'.twin w).ops id = some o' ∧ o'.done = some {}) ∧
          Tbl.find? (Tbl.getD (t'.twin w).clusters o.cluster {}).hold id =
            some { q := o.q, task := o.task, size := holdSize o.aLen, data := zeros (holdSize o.aLen) })) ∧
        (o.code = 0x10 → e.k.holdRoom o.aLen = false → Completes (.holdAlloc t w id) s (fun t' =>
          ∃ o', Tbl.find? (t'.twin w).ops id = some o' ∧ o'.done = none ∧ o'.waits = true)) ∧
        (o.code = 0x11 → ends (.holdRelease t w ⟨id, kf⟩ none) (fun out =>
            if e.checkValue e.a = e.expected then out.status = 0 ∧ out.flags = 3 ∧ out.data = e.a
            else out.status = stTag ∧ out.data = []) ∧ Completes (.holdRelease t w ⟨id, kf⟩ none) s freed) ∧
        (o.code = 0x12 → ends (.holdFree t w id) (· = {}) ∧ Completes (.holdFree t w id) s freed) ∧
        (∀ b, o.code = 0x01 → s.active = some w → o.rerun = true → ends (.blockE t w ⟨id, kf⟩ (some b)) (fun out =>
          out.status = stInternal ∧ out.data = [])) ∧
        (∀ kf' cf, o.code = 0x01 → s.active = some w → o.rerun = false → (cf.isSome = true ∨ (o.kkind = 1 ∧ 2 ≤ kf')) →
          Completes (.blockE t w ⟨id, kf'⟩ cf) s (fun t' => ∃ o',
            Tbl.find? (t'.twin w).ops id = some o' ∧ o'.done = none ∧ o'.rerun = true)))) ∧
    (∀ out c, o.admitted = true → o.done = some out → out.data = [] → out.status < 65536 → out.flags < 256 →
      Tbl.find? x.ctxs (ctxKey o.ctx) = some c → o.blkAddr + 64 ≤ 65536 →
      Completes (.engineOpComplete t w id) s (fun t' => Tbl.find? (t'.twin w).ops id = none ∧
        (t'.twin w).dones = x.dones ++ [{ q := o.q, task := o.task, kind := .engine }] ∧
        ∃ c', Tbl.find? (t'.twin w).ctxs (ctxKey o.ctx) = some c' ∧
          c'.lread (o.blkAddr + 56) 8 = toLe 2 out.status ++ [byte out.flags, 0] ++ toLe 4 out.out ∧
          ∀ a, (a < o.blkAddr + 56 ∨ o.blkAddr + 64 ≤ a) → c'.lread a 1 = c.lread a 1)) ∧
    (∀ k, List.find? (fun (p : Nat × EngOp) => p.2.cluster == o.cluster && !p.2.admitted && x.engRoom p.2.ctx o.cluster)
        x.ops = some (id, o) → x.task? o.q o.task = some k → k.dep < 65535 →
      Completes (.engineQueueAdmit t w o.cluster) s (fun t' =>
        (∃ o', Tbl.find? (t'.twin w).ops id = some o' ∧ o'.admitted = true ∧ o'.blk = o.blk ∧
          o'.engine = x.pickEngine w o.cluster) ∧
        (∀ c, Tbl.find? (t'.twin w).ctxs (ctxKey o.ctx) = some c → c.waiting = false))) ∧
    (o.waits = true → e.region = none → e.k.holdRoom o.aLen = true → Completes (.holdRegionGranted t w id) s (fun t' =>
      (∃ o', Tbl.find? (t'.twin w).ops id = some o' ∧ o'.done = some {} ∧ o'.waits = false) ∧
      (Tbl.find? (Tbl.getD (t'.twin w).clusters o.cluster {}).hold id).isSome = true))

/-- R289 to R303 and Table 12-4: a call enters the store when it has room; one that the slice in progress lets start is
computed, and ends after its cycles; its completion writes `OSTATUS`, `OVFLAGS` and `CYCLES`, with `INTERNAL_ERROR` on an uncorrectable error; a slot boundary begins the
next owner's slice, and the end of the quantum ends a slice in which nothing runs. -/
def Obligations.OrreryCalls : Prop :=
  ∀ (s : State) (t : Nat) (w : Twin) (id : Nat) (k : OrrCall), Tbl.find? (s.twin w).orrery.calls id = some k →
    let u := s.at t
    let x := s.twin w
    let y := x.orrery
    let i := k.input
    let done := fun (c : Instr) (v : Option Bool) (out : Bytes) => Completes c s (fun t' =>
      Tbl.find? (t'.twin w).orrery.calls id = some { k with
        done := some (if v = some false then stVerify else 0, if v = some true then 3 else 1, out, k.cycles)
        ends := some (u.now + 4 * k.cycles) } ∧ (t'.twin w).orrery.dirty = true)
    (k.admitted = true → k.done = none → y.canStart u.now id k = true → s.awake (twinBase w + 197) = true →
      (k.f 0 1 = 0x01 →
        let d := 8 * k.f 4 2
        done (.rsaPub t w id) none (toBe d (rsaPub (beNat (i.take d)) (beNat (slice i d d)) (k.f 24 4)))) ∧
      (k.f 0 1 = 0x10 →
        let n := (curveOf (k.f 1 1)).len
        let p := fun j => beNat (slice i (j * n) n)
        let r := ecdsaVerify (k.f 1 1) (p 0) (p 1) (p 2) (p 3) (p 4)
        done (.ecdsaVerify t w id) (some r.1) (toBe n r.2)) ∧
      (k.f 0 1 = 0x11 → done (.ed25519Verify t w id)
        (some (edVerify (slice i 0 32) (slice i 32 32) (leNat (slice i 64 32)) (leNat (slice i 96 64)))) []) ∧
      (k.f 0 1 = 0x20 →
        let pk := i.take k.pkLen
        let m := i.drop (k.pkLen + mldsaSig (k.f 1 1))
        done (.mldsaVerify t w id) (some (mldsaVerify (k.f 1 1) pk (slice i k.pkLen (mldsaSig (k.f 1 1)))
          (if bit (k.f 2 1) 2 then m else mldsaMu pk m))) []) ∧
      (k.f 0 1 = 0x30 → done (.shake256 t w id) none
        (shakeStep (bit (k.f 2 1) 1) (bit (k.f 2 1) 0) (i.take 200) (i.drop 200) (k.f 20 4)))) ∧
    (∀ d, List.find? (fun (p : Nat × OrrCall) => !p.2.admitted && y.room p.2) y.calls = some (id, k) →
      k.owner ≠ adminSpace → x.task? k.q k.task = some d → d.dep < 65535 →
      Completes (.orreryCallStoreAdmit t w) s (fun t' =>
        Tbl.find? (t'.twin w).orrery.calls id = some ({ k with arrived := u.now } : OrrCall).enter ∧
        (∀ c, Tbl.find? (t'.twin w).ctxs (ctxKey k.ctx) = some c → c.waiting = false))) ∧
    (∀ c, k.owner ≠ adminSpace → Tbl.find? x.ctxs (ctxKey k.ctx) = some c → k.blkAddr + 64 ≤ 65536 →
      let ended := fun (ecc : Bool) (words : Bytes) => Completes (.orreryCallComplete t w ⟨id, ecc⟩) s (fun t' =>
        Tbl.find? (t'.twin w).orrery.calls id = none ∧
        (t'.twin w).dones = x.dones ++ [{ q := k.q, task := k.task, kind := .orrery }] ∧
        ∃ c', Tbl.find? (t'.twin w).ctxs (ctxKey k.ctx) = some c' ∧ c'.lread (k.blkAddr + 56) words.length = words)
      (∀ st fl out cyc, k.done = some (st, fl, out, cyc) → (∀ e, k.ends = some e → e ≤ u.now) → out = [] →
        ended false (toLe 2 st ++ [byte fl, 0] ++ toLe 4 cyc)) ∧
      (k.admitted = true → s.active = some w → ended true (toLe 2 stInternal ++ [1, 0]))) ∧
    (y.slice = none →
      let cfg := x.store.activeSet
      (∀ c, y.nextOwner cfg = some c → Completes (.orrerySlotBoundary t w) s (fun t' =>
        let start := if y.dirty && y.lastOwner != some c then u.now + 512 else u.now
        (t'.twin w).orrery.slice = some (c, start, start + cfg.quantum, 0, false))) ∧
      (y.nextOwner cfg = none → Completes (.orrerySlotBoundary t w) s (fun t' =>
        (t'.twin w).orrery.slice = none ∧ (t'.twin w).orrery.slot = if y.slot = 255 then 0 else y.slot + 1))) ∧
    (∀ c b n e r, y.slice = some (c, b, n, e, r) → n ≤ u.now → y.running u.now = [] → c ≠ adminSpace →
      Completes (.orreryQuantumExpiry t w) s (fun t' => (t'.twin w).orrery.slice = none ∧
        (t'.twin w).orrery.slot = (if y.slot = 255 then 0 else y.slot + 1)))

/-- R408 to R430 and Table 18-6: what the power commands leave: entries that complete, wait or abort, wake events and the
gatekeepers, trimmed clusters, STANDBY-HOT, and the tables of the load classes. -/
def Obligations.PowerStates : Prop :=
  ∀ (s : State) (t n : Nat) (w : Twin), s.boot.up = true → s.boot.ready = true →
    let u := s.at t
    let d := s.domain n
    (∀ k, domainKind n = some k → k ≠ 0 → d.st = .run → d.entry = none →
      (s.voted n = false → u.idled n k = true → u.afresh n = true →
        (d.latched = [] → Completes (.domainIdleEntry t n []) s (fun t' =>
          (t'.domain n).st = s.kindState k ∧ (t'.domain n).entry = none)) ∧
        (∀ b l, Completes (.domainIdleEntry t n (b :: l)) s (fun t' =>
          (t'.domain n).st = .run ∧ (t'.domain n).entry = some (s.kindState k, u.now) ∧ (t'.domain n).busy = b))) ∧
      (∀ l, s.voted n = true ∨ u.idled n k = false ∨ u.afresh n = false →
        exec (.domainIdleEntry t n l) s = .next (settle s u))) ∧
    (∀ k p b, domainKind n = some k → k ≠ 0 → d.st = .run → d.entry = some (p, b) → trimEntry n p = false →
      u.now < b + s.refuseWait → d.latched = [] → Completes (.domainIdleEntry t n []) s (fun t' =>
        (t'.domain n).st = p ∧ (t'.domain n).entry = none)) ∧
    (islandTwin n = some w → isCore n = true → d.st = .run → s.entering n = false → d.latched = [] →
      (s.twin w).ctxFree n 0 = true → (s.twin w).ctxFree n 1 = true → ((s.twin w).unit n).role ≠ .selftest →
      u.idled n 0 = true → u.afresh n = true →
      Completes (.coreIdleEntry t n) s (fun t' => (t'.domain n).st = s.kindState 0 ∧ (t'.domain n).entry = none)) ∧
    (n < 460 →
      Completes (.wakeEvent t [n] true) s (fun t' => (t'.domain n).st = .run ∧ (t'.domain n).entry = none ∧ (t'.domain n).held = []) ∧
      (s.entering n = false → Completes (.wakeEvent t [n] false) s (fun t' => (t'.domain n).st = .run ∧
        (t'.domain n).entry = none ∧ (t'.domain n).pulses = d.woken.pulses)) ∧
      (d.entry.isSome = true → (s.domain moduleDomain).entry = none → s.power.mod ≠ .standbyHot →
        (∀ v k, (s.twin v).trimmed k = false) →
        Completes (.wakeEvent t [n] false) s (fun t' => t'.domain n = { d with latched := d.latched ++ [n] }))) ∧
    (∀ p b, d.entry = some (p, b) → b + s.refuseWait ≤ u.now → Completes (.entryRefuseTimeout t n) s (fun t' =>
      let d' := t'.domain n
      d'.entry = none ∧ d'.latched = [] ∧ d'.aborted = some u.now ∧ d'.retry = u.now + s.refuseWait ∧
      (d.st = .run → d'.st = .run) ∧ (n ≠ moduleDomain → d.stopped = true → d'.st = .run))) ∧
    (s.closed n = none →
      exec (.gatekeeperAccess t n true) s = .next (settle s { u with out := s.out ++ [.access n none false] }) ∧
      Completes (.gatekeeperAccess t n false) s (fun t' => ∃ v, t'.out = s.out ++ [.access n (some (v, false)) false])) ∧
    (∀ p wr, s.closed n = some p →
      (d.woa = false → Completes (.gatekeeperAccess t n wr) s (fun t' => t'.domain n = d ∧
        t'.out = s.out ++ [.access n (if wr then none else some (BitVec.allOnes 64, false)) true])) ∧
      (d.woa = true → s.entering n = true → Completes (.gatekeeperAccess t n wr) s (fun t' => (t'.domain n).held = d.held ++ [.zenith wr] ∧ t'.out = s.out)) ∧
      (d.woa = true → s.entering n = false → d.held = [] → Completes (.gatekeeperAccess t n wr) s (fun t' =>
        (t'.domain n).st = .run ∧ (t'.domain n).held = [] ∧ ∃ v, (wr = true → v = none) ∧ t'.out = s.out ++ [.access n v false]))) ∧
    (s.awake 422 = true → exec (.padHoldRelease t) s =
      .next (settle s { u with power := { s.power with padHold := none } })) ∧
    (∀ k, s.executes w = true → s.power.mod ≠ .standbyHot → (s.domain moduleDomain).entry = none →
      (s.trimming w = some k ∧ (∀ b, s.trimSince w k = some b → u.now < b + s.refuseWait) ∧ (s.trimSince w k).isSome = true) ∨
        (s.trimming w = none ∧ s.powerFld 8 1 + 1 < (List.range 16).countP (fun k => !(s.twin w).trimmed k) ∧
          u.trimTarget w = some k) →
      (s.twin w).trimBusy w k = [] →
      ((∀ i ∈ trimDoms w k, (s.domain i).latched = []) →
        Completes (.clusterTrim t w []) s (fun t' => (t'.twin w).trimmed k = true ∧ t'.power.mod = .trimmed ∧
          (∀ i ∈ trimDoms w k, (t'.domain i).st = .sleep ∧ (t'.domain i).entry = none) ∧
          ∀ c ∈ (t'.twin w).ctxs, (coresOf w k).contains (c.1 / 2) = false)) ∧
      (∀ b, Completes (.clusterTrim t w [b]) s (fun t' => (t'.twin w).trimmed k = (s.twin w).trimmed k ∧
        ∀ i ∈ trimDoms w k, (t'.domain i).entry = some (.sleep, (s.domain i).entry.elim u.now Prod.snd)))) ∧
    (∀ k,
      let x := (s.twin w).prepare w (s.isActive w) u.now
      s.executes w = true → x.stuck w (s.isActive w) u.now = true →
      (List.range 16).find? (fun k => x.trimmed k) = some k → Completes (.clusterTrimWake t w) s (fun t' =>
        (t'.twin w).trimmed k = false)) ∧
    (s.failStop = false → s.power.mod ≠ .standbyHot → s.power.mod ≠ .off → s.powerFld 4 4 ≠ 0 → s.rreqs = [] →
      s.ingress = [] → Tbl.getD s.used moduleDomain 0 + 4000000 * s.powerFld 4 4 ≤ u.now → u.afresh moduleDomain = true →
      (s.domain moduleDomain).entry = none → (s.domain moduleDomain).latched = [] →
      (∀ i ∈ s.twinDoms, (s.domain i).latched = []) →
      Completes (.standbyHotEntry t []) s (fun t' => t'.power.mod = .standbyHot ∧ t'.power.vidA = 0 ∧ t'.power.vidB = 0 ∧
        ∀ i ∈ twinDomains, hotRun i = false → (t'.domain i).st ≠ .run)) ∧
    (s.rreqs ≠ [] → s.power.mod = .standbyHot → Completes (.standbyHotExit t) s (fun t' =>
      t'.power.mod = .active ∧ t'.power.vidA = 24 ∧ t'.power.vidB = 24 ∧
      ∀ i, (domainTwin i).isSome = true → (t'.domain i).st = .run)) ∧
    (n < 428 → ∀ pc,
      let v := s.island n
      let c := classOf pc
      Completes (.loadClassChange t n pc) s (fun t' =>
        let v' := t'.island n
        v'.busy = pc ∧
        (classCode v.cls < classCode c → v'.cls = c ∧ v'.bump = 0 ∧ v'.below = none) ∧
        (v.cls = c → v' = { v with busy := pc, below := none }) ∧
        (classCode c < classCode v.cls →
          (v.below = none → v' = { v with busy := pc, below := some u.now }) ∧
          (∀ b, v.below = some b → u.now < b + 400000 → v' = { v with busy := pc }) ∧
          (∀ b, v.below = some b → b + 400000 ≤ u.now → v'.cls = c ∧ v'.bump = 0 ∧ v'.below = none)))) ∧
    (n < 428 → ∀ cls,
      let v := s.island n
      Completes (.dvfsTableStale t n cls) s (fun t' => t'.island n = v.setTable cls { (v.table cls) with trained := false }) ∧
      (∀ mv, v.cls = cls → 40000000 ≤ (v.table cls).spent + (u.now - v.since) → mv.length = pointsOf n →
        Completes (.dvfsTraining t n cls mv) s (fun t' => ((t'.island n).table cls) =
          { trained := true, mv := mv.map (fun m => max m ((Config.guardMv n (classCode cls)).toNat - 150) + 25),
            stamp := u.opSeconds, spent := 0 } ∧ (t'.island n).bump = 0)) ∧
      (v.guarded u.opSeconds = false → (∀ a, v.lastAlarm = some a → a + 4000000 ≤ u.now) →
        Completes (.canaryAlarm t n) s (fun t' => t'.island n = { v with bump := v.bump + 10, lastAlarm := some u.now })) ∧
      (∀ a, v.guarded u.opSeconds = false → v.lastAlarm = some a → u.now < a + 4000000 →
        Completes (.canaryAlarm t n) s (fun t' => (t'.island n).guarded u.opSeconds = true ∧ (t'.island n).bump = 0 ∧
          (t'.island n).lastAlarm = some u.now)))

/-- R37, R281, R434 to R449: link width, rotations of the spare roles, the end of a self-test, the wait for a spare, row and
sector replacement, Skyglow's stimulus test and the scrubber's reads. -/
def Obligations.WearAndRepair : Prop :=
  ∀ (s : State) (t isl : Nat) (w : Twin), s.boot.up = true → islandTwin isl = some w →
    let u := s.at t
    let x := s.twin w
    (∀ k kind sp out, s.executes w = true → k < 16 →
      epochOf u.now % (rotationPeriod kind).1 = (rotationPeriod kind).2 * k → x.trimmed k = false →
      s.power.mod ≠ .standbyHot → (clusterUnits w k kind).find? x.freeSpare = some sp →
      x.nextUnit w sp = some out → (x.unit out).role = .active → (x.unit out).draining = false →
      Completes (.spareRotation t w k kind) s (fun t' => ((t'.twin w).unit sp).role = .active ∧
        ((t'.twin w).unit out).draining = true)) ∧
    (∀ k kind, s.executes w = true → k < 16 → epochOf u.now % (rotationPeriod kind).1 = (rotationPeriod kind).2 * k →
      x.trimmed k = false → s.power.mod ≠ .standbyHot → (clusterUnits w k kind).any x.freeSpare = false →
      (clusterUnits w k kind).any x.reexecCores.contains = true →
      Completes (.spareRotation t w k kind) s (fun t' => (t'.twin w).rotations = x.rotations ++ [(k, kind)] ∧
        (t'.twin w).units = x.units)) ∧
    (∀ k kind i, k < 16 → (clusterUnits w k kind).find? (fun i => (x.unit i).draining && x.drained w i) = some i →
      u.errorsOver w i = false → Completes (.rotationPoint t w k kind) s (fun t' => ((t'.twin w).unit i).role = .selftest ∧
        ((t'.twin w).unit i).draining = false)) ∧
    ((x.unit isl).role = .selftest → ∀ ageing dur,
      (ageing < 500 → ((x.unit isl).why = 5 → (x.unit isl).earlierFails = 0) → Completes (.unitSelftestComplete t isl true ageing dur) s (fun t' =>
        (((t'.twin w).unit isl).role = .active ∨ ((t'.twin w).unit isl).role = .spare) ∧
        ((t'.twin w).unit isl).asked = false)) ∧
      (500 ≤ ageing → ageing < 800 → ((x.unit isl).why = 5 → (x.unit isl).earlierFails = 0) → Completes (.unitSelftestComplete t isl true ageing dur) s
        (fun t' => ((t'.twin w).unit isl).worn = true ∧ ((t'.twin w).unit isl).role ≠ .retired)) ∧
      (800 ≤ ageing → Completes (.unitSelftestComplete t isl true ageing dur) s (fun t' =>
        ((t'.twin w).unit isl).role = .retired)) ∧
      Completes (.unitSelftestComplete t isl false ageing dur) s (fun t' => ((t'.twin w).unit isl).role = .retired)) ∧
    (∀ b, (x.unit isl).spareWait = some b → b + 400000000 ≤ u.now → (x.unit isl).role = .active →
      (isEngine isl = true → ∃ j ∈ mates w isl, j ≠ isl ∧ (x.unit j).role = .active ∧ (x.unit j).draining = false) →
      Completes (.spareWaitTimeout t isl) s (fun t' => (t'.twin w).unit isl =
        { x.unit isl with draining := true, spareWait := none, deferred := true })) ∧
    (∀ k bank row reason, k < 16 → bank < 18 →
      u.remapDue w (rowKey (quadrantOf w k) (quadrantBank k bank) row) reason = true →
      let c := Tbl.getD x.clusters k ({} : Cluster)
      let after := fun (p : Cluster → Prop) => Completes (.sramRowRemap t w k bank row reason) s (fun t' =>
        p (Tbl.getD (t'.twin w).clusters k ({} : Cluster)))
      (reason ≠ 1 → (Tbl.getD c.repairs bank []).length < 16 → after (fun c' =>
        Tbl.getD c'.repairs bank [] = Tbl.getD c.repairs bank [] ++ [row] ∧ c'.banks = c.banks)) ∧
      (reason = 1 ∨ 16 ≤ (Tbl.getD c.repairs bank []).length →
        (c.banks.length < 2 → after (fun c' => c'.banks = c.banks ++ [bank] ∧ Tbl.getD c'.repairs bank [] = [])) ∧
        (2 ≤ c.banks.length → c.held = [] → after (fun c' => c'.banks = c.banks ∧ c'.sram = c.sram ∧
          if c.sramUsed + 131072 * (c.lost.length + 1) ≤ sramSpace then c'.lost = c.lost ++ [bank] ∧ c'.held = []
          else c'.lost = c.lost ∧ c'.held = [bank])))) ∧
    (∀ sector ev dep, (0 < s.wear.sectors → Completes (.nvmSectorReplace t sector ⟨ev, dep⟩) s (fun t' =>
        t'.wear.sectors = s.wear.sectors - 1 ∧ Tbl.find? t'.wear.sectorMap sector = some (983 - s.wear.sectors) ∧ t'.tamper = s.tamper ∧ t'.rreqs = s.rreqs)) ∧
      (s.wear.sectors = 0 → Completes (.nvmSectorReplace t sector ⟨true, dep⟩) s (fun t' => t'.tamper.lock = true)) ∧
      (∀ q r, s.wear.sectors = 0 → dep = some q → Tbl.find? x.reqs q = some r →
        Ends (.nvmSectorReplace t sector ⟨false, dep⟩) s w q (fun e => e.status = stInternal ∧ e.result = [] ∧
          e.effects = r.sure))) ∧
    (∀ die sensor, die < 3 → sensor < (skyglowDie die).1 →
      let k := 1024 * die + sensor
      (Tbl.getD s.wear.sensors k (0, false)).2 = false →
      Completes (.skyglowStimulusTest t die sensor true) s (fun t' => Tbl.find? t'.wear.sensors k = some (0, false)) ∧
      Completes (.skyglowStimulusTest t die sensor false) s (fun t' => Tbl.find? t'.wear.sensors k =
        some (if (Tbl.getD s.wear.sensors k (0, false)).1 = 0 then (1, false) else (2, true)))) ∧
    (∀ bank row n, s.executes w = true → (s.domain isl).st ≠ .sleep →
      Completes (.scrubRead t isl ⟨bank, row⟩ n false) s (fun t' => (t'.twin w).ctr.eccCorr = satAdd 32 x.ctr.eccCorr n ∧
        (t'.twin w).ctr.eccUnc = satAdd 32 x.ctr.eccUnc 0 ∧ (t'.twin w).role = x.role ∧
        (t'.twin w).reqs = x.reqs ∧ t'.wear.rowUnc = s.wear.rowUnc) ∧
      (isCore isl = true → Completes (.scrubRead t isl ⟨bank, row⟩ n true) s (fun t' =>
        ((t'.twin w).unit isl).role = .retired ∧ rowKey isl bank row ∈ t'.wear.rowUnc))) ∧
    (∀ l : List Nat, l ≠ [] → s.linkUp = true →
      ((∀ i ∈ s.wear.lanes ++ l, 8 ≤ i) ∨ (∀ i ∈ s.wear.lanes ++ l, i < 8) → Completes (.laneRetrainX8 t l) s (fun t' =>
        t'.wear.linkX8 = true ∧ t'.sparesLow = true ∧ t'.mbxs = s.mbxs ∧ t'.linkUp = true ∧ ∀ i ∈ l, i ∈ t'.wear.lanes)) ∧
      (¬ ((∀ i ∈ s.wear.lanes ++ l, 8 ≤ i) ∨ (∀ i ∈ s.wear.lanes ++ l, i < 8)) → Completes (.laneRetrainX8 t l) s (fun t' =>
        t'.linkUp = false ∧ t'.wear.linkX8 = s.wear.linkX8 ∧ (∀ i < 4096, (t'.mbx 0 i).state = .disabled) ∧ ∀ i ∈ l, i ∈ t'.wear.lanes))) ∧
    (∀ l, s.linkUp = false → exec (.laneRetrainX8 t l) s = .next (settle s u))

/-- Table 5-4 and R97 to R107, R140 to R149: the key management commands, when their checks pass; a new key's record is one of
the effects of the end record. A block that does not authenticate and a revoked handle are answered as R106 and R147 say. -/
def Obligations.KeyManagement : Prop :=
  ∀ (s : State) (t : Nat) (w : Twin) (q : Nat) (r : Req),
    let u := s.at t
    let x := s.twin w
    let e := VEnv.of w q r
    let p := r.payload
    let f := fun (off len : Nat) => fld p off len
    let zero := fun (off len : Nat) => allZero (slice p off len) = true
    let c := x.store.comp r.space
    let h := r.hdr.param
    let gives := fun (i : Instr) (b : Bytes) (fs : List Effect) => Fits r b →
      Ends i s w q (fun v => v.status = 0 ∧ v.result = b ∧ ∀ a ∈ fs, a ∈ v.effects)
    let fails := fun (i : Instr) (st : Nat) => Ends i s w q (fun v => v.status = st ∧ v.result = [] ∧ v.effects = r.sure)
    let denies := fun (i : Instr) => Ends i s w q (fun v => v.status = stBlockAuth ∧ v.result = [] ∧
      ∀ a ∈ v.effects, a ∈ r.staged ∨ a ∈ r.sure ∨ ∃ z, a = .replayPut r.space z)
    let made := fun (a : KeyAttr) (cls : Nat) (m : Bytes) (hd : Nat) =>
      ∃ y, x.createKey q (some 0) a cls m = some (.inr (hd, y))
    let serves := fun (op : Nat) => Served s t op w q r
    let sym : KeyAttr := { usage := f 0 4, alg := f 4 1, expt := f 6 1 == 1, nonceEn := f 5 1 == 1, limit := f 8 8 }
    (∀ m hd, serves 0x0200 → r.hdr.plen = 16 → h = 0 → zero 7 1 → f 0 4 < 0x1000 → isSym (f 4 1) = true → f 5 1 < 2 →
      f 6 1 < 2 → e.drawn u (symLen (f 4 1)) = some m → made sym 0 m hd →
      gives (.keyGenerate t w q) (toLe 4 hd ++ fixLen 5 (kcvOf (f 4 1) 0 m) ++ zeros 3)
        [.keyPut r.space hd (newKey sym c.gen 0 m)]) ∧
    (∀ hh kb, serves 0x0201 → 16 ≤ r.hdr.plen → r.hdr.plen ≤ 4096 → h < 2 ^ 32 → parseHeader p = some hh →
      e.keyed u 0 h (kbpkFits hh.isD) kb = true →
      (kbOpen kb.alg kb.material p hh.len = none → denies (.keyImport t w q)) ∧
      (∀ clear alg m hd, kbOpen kb.alg kb.material p hh.len = some clear → kbKeyOf hh.row.alg clear = some (alg, m) →
        (hh.hm = some 8 → alg = 9) → (∀ v, hh.kc = some v → (kcvOf alg 0 m).take v.length = v) →
        (∀ v, hh.kp = some v → kb.kcv.take v.length = v) → strength alg ≤ strength kb.alg →
        let a : KeyAttr := { usage := hh.row.mask, alg := alg, expt := hh.expt }
        made a 0 m hd → gives (.keyImport t w q) (toLe 4 hd) [.keyPut r.space hd { newKey a c.gen 0 m with
          form := if hh.row.multi then hh.row.usage ++ [hh.row.mode] else zeros 3, macRes := hh.hm.getD 0 }])) ∧
    (∀ kb k row out, serves 0x0202 → r.hdr.plen = 4 → h < 2 ^ 32 →
      e.keyed u 0 h (fun k => isTdea k.alg || isAes k.alg) kb = true →
      e.keyed u 1 (f 0 4) (fun k => handleClass (f 0 4) == 0 && k.exportable && (exportForm k).isSome &&
        decide (strength k.alg ≤ strength kb.alg)) k = true → exportForm k = some row →
      ranTo (e.kbSeal kb row 0x45 (exportOpts kb k) k.material) u = some out → gives (.keyExport t w q) out []) ∧
    (∀ m hs hp y z, serves 0x0203 → r.hdr.plen = 8 → h = 0 → zero 5 3 → pairUsageOk (f 0 4) (f 4 1) = true →
      let alg := f 4 1
      (x.quota q 2 (extSlots (materialLen alg 2) + extSlots (materialLen alg 1)) 0).isSome = true →
      ranTo (e.pairMaterial alg) u = some m →
      x.createKey q (some 0) { usage := f 0 4, alg := alg } 2 m = some (.inr (hs, y)) →
      y.createKey q (some 0) { usage := 0x2000, alg := alg } 1 (publicPart alg 2 m) = some (.inr (hp, z)) →
      gives (.keyPairGenerate t w q) (toLe 4 hs ++ toLe 4 hp ++ pubEncoding alg 1 (publicPart alg 2 m))
        [.keyPut r.space hs (newKey { usage := f 0 4, alg := alg } c.gen 2 m),
         .keyPut r.space hp (newKey { usage := 0x2000, alg := alg } c.gen 1 (publicPart alg 2 m))]) ∧
    (∀ hd, serves 0x0204 → isAsym (f 0 1) = true → r.hdr.plen = 8 + pubEncLen (f 0 1) →
      (p.drop 8).length = pubEncLen (f 0 1) → h = 0 → zero 1 3 → (f 4 4 = 0 ∨ f 4 4 = 0x2000) →
      (pubValid (f 0 1) (p.drop 8) = false → fails (.pubkeyImport t w q) stBadFormat) ∧
      (pubValid (f 0 1) (p.drop 8) = true →
        let m := if isEcc (f 0 1) then p.drop 9 else p.drop 8
        made { usage := f 4 4, alg := f 0 1 } 1 m hd →
        gives (.pubkeyImport t w q) (toLe 4 hd) [.keyPut r.space hd (newKey { usage := f 4 4, alg := f 0 1 } c.gen 1 m)])) ∧
    (serves 0x0205 → h = 0 → pxForm p = true → f 4 2 = r.space → f 8 4 = c.gen →
      (sivOpenB c.pxk [p.take 56] (p.drop 56) = none → denies (.keyLoad t w q)) ∧
      (∀ m, sivOpenB c.pxk [p.take 56] (p.drop 56) = some m →
        (∀ l, Tbl.find? c.ledger (f 12 4) = some l → l.revoked = true → fails (.keyLoad t w q) stRevoked) ∧
        ((∀ l, Tbl.find? c.ledger (f 12 4) = some l → l.revoked = false) →
          (x.store.key? r.space (f 12 4) q ≠ none → gives (.keyLoad t w q) (toLe 4 (f 12 4)) []) ∧
          (x.store.key? r.space (f 12 4) q = none → (x.quota q 1 (extSlots m.length) 0).isSome = true →
            gives (.keyLoad t w q) (toLe 4 (f 12 4))
              [.keyPut r.space (f 12 4) { pxKey p m (Tbl.find? c.ledger (f 12 4)) with born := q }])))) ∧
    (r.hdr.plen = 0 → h < 2 ^ 32 →
      let out := r.keyStatus.getD 0 stKeyNotFound
      (serves 0x0206 → h ≠ 0 → gives (.keyUnload t w q) []
        (if out = stKeyNotFound ∨ x.store.key? r.space h q = none then [] else [.keyUnload r.space h q])) ∧
      (out ≠ 0 → out ≠ stExhausted →
        (serves 0x0207 → Ends (.keyRevoke t w q) s w q (fun v => v.status = out ∧ v.result = [])) ∧
        (serves 0x0208 → Ends (.keyInfo t w q) s w q (fun v => v.status = out ∧ v.result = [])) ∧
        (serves 0x0209 → h ≠ 0 → Ends (.keySave t w q) s w q (fun v => v.status = out ∧ v.result = []))) ∧
      (∀ k, x.store.key? r.space h q = some k → out = 0 ∨ out = stExhausted →
        (serves 0x0207 → x.revokeEntry q r h = none → fails (.keyRevoke t w q) stQuota) ∧
        (∀ y res, serves 0x0207 → x.revokeEntry q r h = some (y, res) → gives (.keyRevoke t w q) []
          [.ledgerPut r.space h { revoked := true, reserve := res },
           if h = 0 then .transportDel r.space else .keyErase r.space h]) ∧
        (x.claimWaits q r.space h = false →
          let o := (Tbl.find? r.snaps h).getD k
          let k' := { k with useCount := o.useCount, nonce := o.nonce, exhausted := o.exhausted }
          (serves 0x0208 → gives (.keyInfo t w q) (toLe 4 h ++ [byte k.alg, k'.kflags, byte k.macRes, 0] ++
            toLe 4 k.usage ++ toLe 8 k'.useCount ++ toLe 8 k.useLimit ++ toLe 12 (if k.nonceEn then k'.nonce else 0) ++
            fixLen 5 k.kcv ++ fixLen 3 k.form) []) ∧
          (serves 0x0209 → h ≠ 0 → gives (.keySave t w q) (pxSeal c.pxk r.space h k') []))))

/-- R108 to R111, R117: the PIN commands, when the fields, the keys and the PAN are good: a block that is not of its format is
answered `BAD_FORMAT`; a translation gives the PIN in the other format, and a verification its verdict. -/
def Obligations.PinCommands : Prop :=
  ∀ (s : State) (t : Nat) (w : Twin) (q : Nat) (r : Req) (k1 k2 : KeyRec), r.hdr.param = 0 →
    let u := s.at t
    let e := VEnv.of w q r
    let b := fun (off len : Nat) => slice r.payload off len
    let f := fun (off len : Nat) => fld r.payload off len
    let zero := fun (off len : Nat) => allZero (b off len) = true
    let gives := fun (i : Instr) (out : Bytes) => Fits r out → Ends i s w q (fun v => v.status = 0 ∧ v.result = out)
    let fails := fun (i : Instr) (st : Nat) => Ends i s w q (fun v => v.status = st ∧ v.result = [])
    let verdict := fun (i : Instr) (ok : Prop) => Ends i s w q (fun v =>
      (ok → v.status = 0) ∧ (¬ ok → v.status = stVerify) ∧ v.result = [])
    let pan := fun (off n : Nat) (fs : List Nat) => panReserved e off fs = true ∧ panLenOk n fs = true ∧
      (fs.any pinNeedsPan = true → panOk (b off 10) n = true)
    let anyBlock := fun (k : KeyRec) => isTdea k.alg || isAes k.alg
    let translates := fun (i : Instr) (df pad n : Nat) (pin : Option (List Nat)) =>
      (pin = none → fails i stBadFormat) ∧
      (∀ d out, pin = some d → ranTo (e.pinMake df k2.alg k2.material (b pad 10) n d) u = some out → gives i out)
    (Served s t 0x0300 w q r → r.hdr.plen = 40 → zero 11 1 → zero 22 2 → e.halfZero 24 (f 8 1) = true →
      pinPair (f 8 1) (f 9 1) = true → pan 12 (f 10 1) [f 8 1, f 9 1] → e.keyed u 0 (f 0 4) (pinAlg (f 8 1)) k1 = true →
      e.keyed u 1 (f 4 4) (pinAlg (f 9 1)) k2 = true →
      translates (.pinTranslate t w q) (f 9 1) 12 (f 10 1)
        (pinRead (f 8 1) k1.alg k1.material (b 12 10) (f 10 1) (b 24 (pinLen (f 8 1))))) ∧
    (r.hdr.plen = 64 → zero 11 1 → zero 22 2 → zero 62 2 → e.halfZero 24 (f 8 1) = true → isPinFormat (f 8 1) = true →
      pan 12 (f 9 1) [f 8 1] → decTableOk (nibbles (b 48 8)) = true → e.keyed u 0 (f 0 4) (pinAlg (f 8 1)) k1 = true →
      e.keyed u 1 (f 4 4) anyBlock k2 = true →
      let pin := pinRead (f 8 1) k1.alg k1.material (b 12 10) (f 9 1) (b 24 (pinLen (f 8 1)))
      let natural := fun (d : List Nat) =>
        ((naturalDigits k2 (b 40 8)).take d.length).map (fun v => (nibbles (b 48 8)).getD v 0)
      (Served s t 0x0301 w q r → 4 ≤ f 10 1 → f 10 1 ≤ 12 →
        (∀ i, i < f 10 1 → (nibbles (b 56 6)).getD i 0 < 10) →
        (∀ i, f 10 1 ≤ i → i < 12 → (nibbles (b 56 6)).getD i 0 = 15) →
        (pin = none → fails (.pinVerifyOffset t w q) stBadFormat) ∧
        (∀ d, pin = some d → verdict (.pinVerifyOffset t w q) (f 10 1 = d.length ∧
          List.zipWith (fun a o => (a + o) % 10) (natural d) ((nibbles (b 56 6)).take d.length) = d))) ∧
      (Served s t 0x0302 w q r → f 10 1 = 0 → zero 56 6 →
        (pin = none → fails (.pinOffsetGenerate t w q) stBadFormat) ∧
        (∀ d, pin = some d → gives (.pinOffsetGenerate t w q) (packNibbles
          ((List.zipWith (fun a o => (a + 10 - o) % 10) d (natural d) ++ List.replicate 12 15).take 12))))) ∧
    (Served s t 0x0303 w q r → r.hdr.plen = 56 → zero 11 1 → zero 22 2 → e.halfZero 24 (f 8 1) = true →
      e.halfZero 40 (f 9 1) = true → isPinFormat (f 8 1) = true → isPinFormat (f 9 1) = true →
      pan 12 (f 10 1) [f 8 1, f 9 1] → e.keyed u 0 (f 0 4) (pinAlg (f 8 1)) k1 = true →
      e.keyed u 1 (f 4 4) (pinAlg (f 9 1)) k2 = true →
      let mine := pinRead (f 8 1) k1.alg k1.material (b 12 10) (f 10 1) (b 24 (pinLen (f 8 1)))
      let ref := pinRead (f 9 1) k2.alg k2.material (b 12 10) (f 10 1) (b 40 (pinLen (f 9 1)))
      ((mine = none ∨ ref = none) → fails (.pinVerifyReference t w q) stBadFormat) ∧
      (mine ≠ none → ref ≠ none → verdict (.pinVerifyReference t w q) (mine = ref))) ∧
    (Served s t 0x0601 w q r → r.hdr.plen = 56 → zero 27 1 → zero 38 2 → e.halfZero 40 (f 24 1) = true →
      (f 4 1 = 1 ∧ 3 ≤ f 5 1 ∧ f 5 1 ≤ 5 ∧ f 24 1 = 4 ∨ f 4 1 = 2 ∧ f 5 1 = 0 ∧ f 24 1 ≠ 4 ∧ zero 18 2) → zero 6 2 →
      pinPair (f 24 1) (f 25 1) = true → pan 28 (f 26 1) [f 24 1, f 25 1] → e.ksnOk = true →
      e.keyed u 0 (f 0 4) (fun k => if f 4 1 = 1 then isAes k.alg else isTdea k.alg) k1 = true →
      e.keyed u 1 (f 20 4) (pinAlg (f 25 1)) k2 = true →
      let wk := if f 4 1 = 1 then f 5 1 else 1
      translates (.dukptPinTranslate t w q) (f 25 1) 28 (f 26 1)
        (pinRead (f 24 1) wk (dukptWorking (f 4 1 == 1) .pin k1.alg k1.material e.ksn wk) (b 28 10) (f 26 1)
          (b 40 (pinLen (f 24 1)))))

/-- R73, R74, R112 to R117, R278 and R279: the MAC and data commands, when their fields and keys are good; a segment of a
stream leaves the stream its chain value and next index, and one whose tag fails closes it as failed. -/
def Obligations.MacAndData : Prop :=
  ∀ (s : State) (t : Nat) (w : Twin) (q : Nat) (r : Req) (k : KeyRec), r.hdr.param = 0 →
    let u := s.at t
    let x := s.twin w
    let e := VEnv.of w q r
    let b := fun (off len : Nat) => slice r.payload off len
    let f := fun (off len : Nat) => fld r.payload off len
    let rest := fun (off : Nat) => r.payload.drop off
    let zero := fun (off len : Nat) => allZero (b off len) = true
    let gives := fun (i : Instr) (out : Bytes) => Fits r out → Ends i s w q (fun v => v.status = 0 ∧ v.result = out)
    let fails := fun (i : Instr) (st : Nat) => Ends i s w q (fun v => v.status = st ∧ v.result = [])
    let verdict := fun (i : Instr) (ok : Prop) => Ends i s w q (fun v =>
      (ok → v.status = 0) ∧ (¬ ok → v.status = stVerify) ∧ v.result = [])
    let keyed := fun (fits : KeyRec → Bool) => e.keyed u 0 (f 0 4) fits k = true
    let decrypts := fun (i : Instr) (mode pad alg : Nat) (key iv m : Bytes) =>
      (mode = 3 ∨ m.length % blkLen alg = 0) →
      (pad = 0 → gives i (modeD mode alg key iv m)) ∧
      (pad = 1 → unpad2 (blkLen alg) (modeD mode alg key iv m) = none → fails i stBadFormat) ∧
      (∀ d, pad = 1 → unpad2 (blkLen alg) (modeD mode alg key iv m) = some d → gives i d)
    let dukpt := zero 6 2 ∧ e.ksnOk = true ∧ keyed (fun k => if f 4 1 = 1 then isAes k.alg else isTdea k.alg) ∧
      (f 4 1 = 1 ∧ 3 ≤ f 5 1 ∧ f 5 1 ≤ 5 ∨ f 4 1 = 2 ∧ f 5 1 = 0 ∧ zero 18 2)
    let wk := if f 4 1 = 1 then f 5 1 else 1
    let working := fun (use : DukptUse) => dukptWorking (f 4 1 == 1) use k.alg k.material e.ksn wk
    (1 ≤ f 4 1 → f 4 1 ≤ 10 → macLenOk (f 4 1) (f 5 1) = true → zero 6 2 → keyed (macKeyOk (f 4 1)) →
      (Served s t 0x0400 w q r → 8 ≤ r.hdr.plen → gives (.macGenerate t w q) (macTag (f 4 1) k (rest 8) (f 5 1))) ∧
      (Served s t 0x0401 w q r → 8 + f 5 1 ≤ r.hdr.plen → verdict (.macVerify t w q)
        (macTag (f 4 1) k (rest (8 + f 5 1)) (f 5 1) = b 8 (f 5 1)))) ∧
    (24 ≤ r.hdr.plen → zero 7 1 → 1 ≤ f 4 1 → f 4 1 ≤ 3 → f 5 1 < 2 → (f 5 1 = 1 → f 4 1 ≠ 3) →
      (f 4 1 = 1 ∨ f 6 1 = 1 → zero 8 16) → keyed (fun k => isAes k.alg || (isTdea k.alg && f 6 1 == 0)) →
      (isTdea k.alg = true → zero 16 8) →
      (Served s t 0x0500 w q r → (f 4 1 = 3 ∨ f 5 1 = 1 ∨ (rest 24).length % blkLen k.alg = 0) →
        (f 6 1 = 0 → gives (.dataEncrypt t w q) (modeE (f 4 1) k.alg k.material (b 8 16)
          (if f 5 1 = 1 then pad2 (blkLen k.alg) (rest 24) else rest 24))) ∧
        (f 6 1 = 1 → f 4 1 = 3 → r.hdr.stateChange = true → r.keyStatus.getD 1 0 = 0 →
          let iv := toBe 12 r.nonce ++ zeros 4
          gives (.dataEncrypt t w q) (iv ++ ctr32 k.alg k.material iv (rest 24)))) ∧
      (Served s t 0x0501 w q r → f 6 1 = 0 →
        decrypts (.dataDecrypt t w q) (f 4 1) (f 5 1) k.alg k.material (b 8 16) (rest 24))) ∧
    (let al := f 4 2
     let nl := f 6 1
     let fl : Flow := Tbl.getD x.store.flows (flowKey r.space r.hdr.flow) {}
     let st := fl.stream.at_ q
     let parts := sivParts e (if r.hdr.segmented then some (if r.hdr.segFirst then zeros 16 else st.chain) else none)
     let leaves := fun (i : Instr) (p : EndRec → Prop) (n : Stream) => Ends i s w q (fun v => p v ∧
       (r.hdr.segmented = true → Effect.streamPut r.space r.hdr.flow n ∈ v.effects))
     let next := fun (v : Bytes) => { isOpen := !r.hdr.segLast, failed := false, next := r.hdr.segIndex + 1, last := q,
                                      chain := v : Stream }
     24 + al ≤ r.hdr.plen → zero 7 1 → al ≤ 4096 → nl ≤ 16 → zero (8 + nl) (16 - nl) →
     (r.hdr.segmented = true → segStatus r.hdr st = 0) → keyed (fun k => k.alg == 6 || k.alg == 7) →
     (Served s t 0x0502 w q r → r.hdr.plen ≤ 24 + al + 262144 →
       let out := sivSealB k.material parts (rest (24 + al))
       Fits r out → leaves (.sivSeal t w q) (fun v => v.status = 0 ∧ v.result = out) (next (out.take 16))) ∧
     (Served s t 0x0503 w q r → 24 + al + 16 ≤ r.hdr.plen → r.hdr.plen ≤ 24 + al + 262160 →
       (∀ m, sivOpenB k.material parts (rest (24 + al)) = some m → Fits r m →
         leaves (.sivOpen t w q) (fun v => v.status = 0 ∧ v.result = m) (next ((rest (24 + al)).take 16))) ∧
       (sivOpenB k.material parts (rest (24 + al)) = none → leaves (.sivOpen t w q)
         (fun v => v.status = stTag ∧ v.result = []) { st with isOpen := false, failed := true, last := q }))) ∧
    (dukpt →
      (Served s t 0x0602 w q r → 24 + f 21 1 ≤ r.hdr.plen → zero 22 2 →
        (f 4 1 = 1 ∧ f 20 1 = 1 ∨ f 4 1 = 2 ∧ (f 20 1 = 4 ∨ f 20 1 = 5)) → macLenOk (f 20 1) (f 21 1) = true →
        verdict (.dukptMacVerify t w q)
          ((macAlg (f 20 1) wk (working .mac) (rest (24 + f 21 1)) (f 21 1)).take (f 21 1) = b 24 (f 21 1))) ∧
      (Served s t 0x0603 w q r → 40 ≤ r.hdr.plen → zero 22 2 → (f 20 1 = 1 → zero 24 16) → (f 4 1 = 2 → zero 32 8) →
        (f 20 1 = 1 ∨ f 20 1 = 2) → f 21 1 < 2 →
        decrypts (.dukptDataDecrypt t w q) (f 20 1) (f 21 1) wk (working .data) (b 24 16) (rest 40)))

/-- R100, R104, R116 to R120: key derivation, key agreement, the export of an initial DUKPT key, signatures and their
verification, when their fields and keys are good; a verification answers with its verdict. -/
def Obligations.DerivationAndSignatures : Prop :=
  ∀ (s : State) (t : Nat) (w : Twin) (q : Nat) (r : Req) (k : KeyRec), r.hdr.param = 0 →
    let u := s.at t
    let x := s.twin w
    let e := VEnv.of w q r
    let b := fun (off len : Nat) => slice r.payload off len
    let f := fun (off len : Nat) => fld r.payload off len
    let zero := fun (off len : Nat) => allZero (b off len) = true
    let gives := fun (i : Instr) (out : Bytes) (fs : List Effect) => Fits r out →
      Ends i s w q (fun v => v.status = 0 ∧ v.result = out ∧ ∀ a ∈ fs, a ∈ v.effects)
    let keyed := fun (fits : KeyRec → Bool) => e.keyed u 0 (f 0 4) fits k = true
    let derives := fun (i : Instr) (a : KeyAttr) (m : Bytes) => ∀ hd y, x.createKey q (some 0) a 0 m = some (.inr (hd, y)) →
      gives i (toLe 4 hd ++ fixLen 5 (kcvOf a.alg 0 m) ++ zeros 3)
        [.keyPut r.space hd (newKey a (x.store.comp r.space).gen 0 m)]
    (let ll := f 20 2
     let cl := f 22 2
     let a : KeyAttr := { usage := f 8 4, alg := f 5 1, expt := f 6 1 == 1, nonceEn := f 7 1 == 1, limit := f 12 8 }
     Served s t 0x0600 w q r → r.hdr.plen = 24 + ll + cl → ll ≤ 256 → cl ≤ 256 → f 8 4 < 0x1000 → isSym (f 5 1) = true →
     f 6 1 < 2 → f 7 1 < 2 → isPrf (f 4 1) = true →
     keyed (fun k => macKeyOk (f 4 1) k && (!(f 6 1 == 1) || k.exportable)) →
     derives (.kdfDerive t w q) a (kdf108 (f 4 1) k.alg k.material (b 24 ll) (b (24 + ll) cl) (symLen (f 5 1)))) ∧
    (let pl := f 20 2
     let il := f 22 2
     let a : KeyAttr := { usage := f 8 4, alg := f 4 1, expt := f 5 1 == 1, nonceEn := f 6 1 == 1, limit := f 12 8 }
     let cv := curveOf k.alg
     Served s t 0x0702 w q r → r.hdr.plen = 56 + pl + il → il ≤ 256 → zero 7 1 → f 8 4 < 0x1000 → isSym (f 4 1) = true →
     f 5 1 < 2 → f 6 1 < 2 → keyed (fun k => isEcc k.alg && handleClass (f 0 4) == 2) →
     pl = (if k.alg = 0x20 then 65 else 97) →
     (ecDec cv (b 56 pl) = none → Ends (.ecdhDerive t w q) s w q (fun v => v.status = stBadFormat ∧ v.result = [])) ∧
     (∀ p, ecDec cv (b 56 pl) = some p → derives (.ecdhDerive t w q) a
       (kdf108 7 9 (hmac shaP384 (if allZero (b 24 32) then zeros 48 else b 24 32)
         (ecdhZ k.alg (beNat (k.material.take cv.len)) p)) [] (b (56 + pl) il) (symLen (f 4 1))))) ∧
    (∀ kb out, Served s t 0x0604 w q r → r.hdr.plen = 24 → zero 6 2 →
      (f 4 1 = 1 ∧ 3 ≤ f 5 1 ∧ f 5 1 ≤ 5 ∨ f 4 1 = 2 ∧ f 5 1 = 0 ∧ zero 18 2) → e.ksnCtr = 0 →
      keyed (fun k => if f 4 1 = 1 then isAes k.alg else isTdea k.alg) →
      let aes := f 4 1 == 1
      let alg := if aes then k.alg else 1
      let ik := if aes then aesIk alg k.material (b 8 8) else tdeaIk k.material (b 8 10)
      let row : FormRow := { usage := ascii "B1", alg := if aes then 0x41 else 0x54, mode := 0x58, mask := 0 }
      e.keyed u 1 (f 20 4) (fun k => (isTdea k.alg || isAes k.alg) && decide (strength alg ≤ strength k.alg)) kb = true →
      ranTo (e.kbSeal kb row 0x45 ([kcvOpt "KP" kb.alg kb.kcv, kcvOpt "KC" alg (kcvOf alg 0 ik)] ++
        (if aes then [optBlock "IK" (hexOf (b 8 8))] else [])) ik) u = some out →
      gives (.dukptIkExport t w q) out []) ∧
    (let sl := f 6 2
     let m := r.payload.drop (8 + sl)
     Served s t 0x0700 w q r → 8 + sl ≤ r.hdr.plen → 1 ≤ f 4 1 → f 4 1 ≤ 8 → digestOk (f 4 1) (f 5 1) m.length = true →
     sl = sigLen (f 4 1) k.alg → keyed (fun k => (sigKeys (f 4 1)).contains k.alg && handleClass (f 0 4) == 1) →
     Ends (.sigVerify t w q) s w q (fun v => v.result = [] ∧
       v.status = if sigCheck (f 4 1) k.alg (f 5 1) k.material (b 8 sl) m = true then 0 else stVerify)) ∧
    (∀ sig, Served s t 0x0701 w q r → 8 ≤ r.hdr.plen → zero 6 2 → 1 ≤ f 4 1 → f 4 1 ≤ 6 →
      digestOk (f 4 1) (f 5 1) (r.payload.drop 8).length = true →
      keyed (fun k => (sigKeys (f 4 1)).contains k.alg && handleClass (f 0 4) == 2) →
      ranTo (e.sign (f 4 1) (f 5 1) k (r.payload.drop 8)) u = some sig → gives (.sign t w q) sig [])

/-- R121 to R125 and R323: random bytes, a certified draw with its receipt and register, the register read back, tickets issued
and validated; and an owner image's root task dispatched when Coachyard's choice falls on it (R3). -/
def Obligations.DrawsAndTickets : Prop :=
  ∀ (s : State) (t : Nat) (w : Twin) (q : Nat) (r : Req) (k : KeyRec),
    let u := s.at t
    let x := s.twin w
    let e := VEnv.of w q r
    let b := fun (off len : Nat) => slice r.payload off len
    let f := fun (off len : Nat) => fld r.payload off len
    let zero := fun (off len : Nat) => allZero (b off len) = true
    let gives := fun (i : Instr) (out : Bytes) => Fits r out → Ends i s w q (fun v => v.status = 0 ∧ v.result = out)
    (∀ d, Served s t 0x0800 w q r → r.hdr.plen = 0 → 1 ≤ r.hdr.param → r.hdr.param ≤ 65536 →
      e.drawn u r.hdr.param = some d → gives (.rngGet t w q) d) ∧
    (let low := f 8 4
     let picks := f 16 2
     let span := f 12 4 - low + 1
     let without := bit (f 18 1) 0
     let reg := Tbl.find? (x.store.comp r.space).draws (f 0 4)
     let u1 := if reg.isNone ∧ r.slotsTaken = 0 then u.setTwin w ((x.quota q 1 0 0).getD x) else u
     ∀ first v1 drawn used v2 sig, Served s t 0x0801 w q r → s.lc = .production → r.hdr.plen = 56 → r.hdr.param = 0 →
     zero 19 1 → f 18 1 < 4 → (∀ d, reg = some d → d.last < f 4 4) → low < f 12 4 → f 12 4 - low ≤ 0xFFFFFFFE →
     1 ≤ picks → picks ≤ 256 → (without = true → picks ≤ span) →
     e.keyed u 0 (f 20 4) (fun k => k.alg == 0x21 && handleClass (f 20 4) == 2) k = true →
     (reg = none → r.slotsTaken = 0 → x.quota q 1 0 0 ≠ none) →
     (e.reserve (5 + ceilDiv picks 4)).run u1 = .ok (first, v1) →
     (e.numbers without low span (2 ^ 20) picks [] [] []).run v1 = .ok ((drawn, used), v2) →
     let nums := if bit (f 18 1) 1 then drawn.foldl (fun l v => insertUp v l) [] else drawn
     let body := b 0 8 ++ toLe 8 q ++ toLe 4 s.pcycle ++ toLe 4 first ++ sha256 used ++ b 24 32 ++ b 8 8 ++ b 16 4 ++
       toLe 4 used.length ++ nums.flatMap (toLe 4)
     ranTo (e.sign 5 0 k body) v2 = some sig →
     (∃ r2, Tbl.find? (v2.twin w).reqs q = some r2 ∧ Timely (v2.twin w) v2.now q r2 ∧ Fits r2 (body ++ sig)) →
     Ends (.drawCertified t w q) s w q (fun v => v.status = 0 ∧ v.result = body ++ sig ∧
       Effect.drawPut r.space (f 0 4) { last := f 4 4, evSeq := first, pcycle := s.pcycle } ∈ v.effects)) ∧
    (Served s t 0x0802 w q r → r.hdr.plen = 0 → r.hdr.param < 2 ^ 32 →
      let d := Tbl.getD (x.store.comp r.space).draws r.hdr.param {}
      gives (.drawLast t w q) (toLe 4 d.last ++ toLe 4 d.evSeq ++ toLe 4 d.pcycle)) ∧
    (1 ≤ f 4 2 → f 4 2 ≤ 1024 → r.hdr.param = 0 → zero 6 2 →
      e.keyed u 0 (f 0 4) (fun k => isAes k.alg && k.nonceEn) k = true →
      (Served s t 0x0900 w q r → r.hdr.plen = 8 + f 4 2 → gives (.ticketIssue t w q) (toLe 12 r.nonce ++
        (cmac k.alg k.material (toLe 12 r.nonce ++ r.payload.drop 8)).take 10 ++ [0, 0])) ∧
      (Served s t 0x0901 w q r → r.hdr.plen = 32 + f 4 2 → zero 30 2 → x.claimWaits q r.space (f 0 4) = false →
        let o := (Tbl.find? r.snaps (f 0 4)).getD k
        let n := f 8 12
        Ends (.ticketValidate t w q) s w q (fun v => v.result = [] ∧
          v.status = if (cmac k.alg k.material (b 8 12 ++ r.payload.drop 32)).take 10 = b 20 10 ∧ n ≠ 0 ∧ n ≤ o.nonce then 0
            else stVerify))) ∧
    (∀ (c : Ready) (r' : Req) (task : Task) (isl n : Nat),
      let y := (u.twin w).prepare w (u.isActive w) u.now
      s.executes w = true → s.coachyardAwake w = true → y.chooseTask w (u.isActive w) u.now = some c → c.q = q → c.i = 0 →
      Tbl.find? y.reqs q = some r' → Tbl.find? r'.tasks 0 = some task → 0x0F00 ≤ r'.hdr.opcode → r'.hdr.opcode ≤ 0x0FFF →
      y.target w r'.image = some (isl, n) → Completes (.ownerImageCommand t w q) s (fun t' => ∃ (r'' : Req) (k' : Task),
        Tbl.find? (t'.twin w).reqs q = some r'' ∧ r''.begun = true ∧ (t'.twin w).task? q 0 = some k' ∧
        k'.ctx = some ⟨isl, n⟩ ∧ k'.st = .running ∧ k'.dispatch = y.stampOf u.now coachyard))

/-- A step runs the command at the front of the queue on the state with the rest of the queue; on an empty queue the block
idles, which is the model's choice (assumption 2). -/
def Obligations.StepRunsFront : Prop :=
  (∀ (c : Instr) (l : List Instr) (s : State), s.pending = c :: l → step s = exec c { s with pending := l }) ∧
  (∀ s : State, s.pending = [] → step s = .next s)

/-- Table 4-8, R22 and R476: what stands while the Relay is in reset, with RESET_N low as main power comes on: Meridian at 0, the
module not ready and empty of requests, no fail-stop and no LOCK, no change count, no alert, and HEALTH_N released. The
life-cycle state and the memory's contents are the module's as shipped (assumption 7). -/
def Obligations.ResetState : Prop :=
  ResetQuiet State.reset ∧ State.reset.boot.up = false ∧ State.reset.boot.ready = false ∧ State.reset.now = 0 ∧
  State.reset.pending = [] ∧ State.reset.ingress = [] ∧ State.reset.rreqs = [] ∧ State.reset.failStop = false ∧
  State.reset.tamper.lock = false ∧ State.reset.healthLow = false ∧ State.reset.active = none ∧
  State.reset.twinA.reqs = [] ∧ State.reset.twinB.reqs = []

/-- R490: HEALTH_N is driven low while the Relay is out of reset and fail-stop is set, the module is in LOCK or the Relay waits
in ROM; it is released in every other case. -/
def Obligations.HealthIndicator : Prop :=
  ∀ s : State, (s.healthLow = true ↔ s.boot.up = true ∧ (s.failStop = true ∨ s.tamper.lock = true ∨ s.boot.inRom = true))

/-- The Relay in reset shows no change count and pulls no alert (Table 4-8, R476): every step keeps it so. -/
def Obligations.ResetStaysQuiet : Prop :=
  ∀ s t : State, ResetQuiet s → step s = .next t → ResetQuiet t

/-- R83: `ATTN_SEQ` advances by one, modulo 16, with each event that changes one or more of bits [27:16], however many it
changes, and stands as it was with every other event. While the Relay is in reset the count stands at 0 (Table 4-8). -/
def Obligations.AttentionCount : Prop :=
  ∀ (c : Instr) (s t : State), exec c s = .next t →
    (t.boot.up = true → SeqFollows s t) ∧ (t.boot.up = false → t.attnSeq = 0)
end

