-- ==== Sys2Proof/Laws/Memory.lean ====
section
/-! SUPPORT. Sparse tables: what a read gives after each update, and that every memory operation keeps the canonical
form. -/

namespace Sys2Proof.Machine

variable {α : Type}

/-- A read after a write. -/
theorem Tbl.find?_put (t : Tbl α) (i j : Nat) (x : α) :
    Tbl.find? (Tbl.put t i x) j = if j = i then some x else Tbl.find? t j := by
  induction t with
  | nil => simp [Tbl.put, Tbl.find?]
  | cons e t ih =>
    obtain ⟨k, y⟩ := e
    simp only [Tbl.put]
    split
    · simp only [Tbl.find?]
    · split
      · subst_vars
        simp only [Tbl.find?]
        by_cases h : j = k <;> simp [h]
      · simp only [Tbl.find?, ih]
        by_cases h : j = k <;> by_cases h' : j = i <;> simp_all

/-- A read after a removal. -/
theorem Tbl.find?_del (t : Tbl α) (i j : Nat) :
    Tbl.find? (Tbl.del t i) j = if j = i then none else Tbl.find? t j := by
  induction t with
  | nil => simp [Tbl.del, Tbl.find?]
  | cons e t ih =>
    obtain ⟨k, y⟩ := e
    unfold Tbl.del at *
    simp only [List.filter_cons, bne_iff_ne, ne_eq]
    split
    · simp only [Tbl.find?, ih]
      by_cases h : j = k <;> by_cases h' : j = i <;> simp_all
    · simp only [Tbl.find?, ih]
      by_cases h : j = k <;> by_cases h' : j = i <;> simp_all

/-- A write reads back. -/
@[simp] theorem Tbl.find?_put_same (t : Tbl α) (i : Nat) (x : α) : Tbl.find? (Tbl.put t i x) i = some x := by
  simp [Tbl.find?_put]

/-- A write reads back. -/
@[simp] theorem Tbl.getD_put_same (t : Tbl α) (i : Nat) (x d : α) : Tbl.getD (Tbl.put t i x) i d = x := by
  simp [Tbl.getD]

/-- A write leaves every other entry. -/
theorem Tbl.getD_put (t : Tbl α) (i j : Nat) (x d : α) :
    Tbl.getD (Tbl.put t i x) j d = if j = i then x else Tbl.getD t j d := by
  unfold Tbl.getD
  rw [Tbl.find?_put]
  split <;> rfl

/-- What a stored value reads as, and that every other place reads as before. -/
theorem Tbl.getD_store [DecidableEq α] (t : Tbl α) (i j : Nat) (x d : α) :
    Tbl.getD (Tbl.store t i x d) j d = if j = i then x else Tbl.getD t j d := by
  unfold Tbl.store
  split
  · next h =>
    unfold Tbl.getD
    rw [Tbl.find?_del]
    split <;> simp_all
  · exact Tbl.getD_put t i j x d

/-- Every key of a well-formed table lies above its first. -/
theorem Tbl.wf_cons (i : Nat) (x : α) (t : Tbl α) :
    Tbl.wf ((i, x) :: t) = true ↔ (∀ e ∈ t, i < e.1) ∧ Tbl.wf t = true := by
  induction t generalizing i x with
  | nil => simp [Tbl.wf]
  | cons e t ih =>
    obtain ⟨j, y⟩ := e
    simp only [Tbl.wf, Bool.and_eq_true, decide_eq_true_eq, List.mem_cons, forall_eq_or_imp]
    constructor
    · rintro ⟨h, ht⟩
      exact ⟨⟨h, fun e he => Nat.lt_trans h (((ih j y).mp ht).1 e he)⟩, ht⟩
    · rintro ⟨⟨h, -⟩, ht⟩
      exact ⟨h, ht⟩

/-- The keys of a table after a write. -/
theorem Tbl.mem_put (t : Tbl α) (i : Nat) (x : α) (e : Nat × α) (h : e ∈ Tbl.put t i x) : e = (i, x) ∨ e ∈ t := by
  induction t with
  | nil => simpa [Tbl.put] using h
  | cons f t ih =>
    obtain ⟨j, y⟩ := f
    simp only [Tbl.put] at h
    split at h
    · simp_all
    · split at h
      · simp only [List.mem_cons] at h
        rcases h with h | h <;> simp [h]
      · simp only [List.mem_cons] at h
        rcases h with h | h
        · simp [h]
        · rcases ih h with h | h <;> simp [h]

/-- A write keeps the keys in rising order. -/
theorem Tbl.wf_put (t : Tbl α) (i : Nat) (x : α) (h : Tbl.wf t = true) : Tbl.wf (Tbl.put t i x) = true := by
  induction t with
  | nil => rfl
  | cons f t ih =>
    obtain ⟨j, y⟩ := f
    have hc := (Tbl.wf_cons j y t).mp h
    simp only [Tbl.put]
    split
    · next hlt => rw [Tbl.wf_cons]; exact ⟨by simpa using ⟨hlt, fun a b hab => Nat.lt_trans hlt (hc.1 _ hab)⟩, h⟩
    · split
      · next heq => rw [Tbl.wf_cons, heq]; exact hc
      · rw [Tbl.wf_cons]
        refine ⟨fun e he => ?_, ih hc.2⟩
        rcases Tbl.mem_put t i x e he with h | h
        · subst h; simp only; omega
        · exact hc.1 e h

/-- A removal keeps the keys in rising order. -/
theorem Tbl.wf_del (t : Tbl α) (i : Nat) (h : Tbl.wf t = true) : Tbl.wf (Tbl.del t i) = true := by
  induction t with
  | nil => rfl
  | cons f t ih =>
    obtain ⟨j, y⟩ := f
    have hc := (Tbl.wf_cons j y t).mp h
    have ht := ih hc.2
    unfold Tbl.del at *
    simp only [List.filter_cons]
    split
    · rw [Tbl.wf_cons]
      exact ⟨fun e he => hc.1 e (List.mem_filter.mp he).1, ht⟩
    · exact ht

/-- A store keeps the canonical form. -/
theorem Tbl.canonical_store [DecidableEq α] (t : Tbl α) (i : Nat) (x d : α) (h : Tbl.canonical t d = true) :
    Tbl.canonical (Tbl.store t i x d) d = true := by
  unfold Tbl.canonical Tbl.store at *
  simp only [Bool.and_eq_true, List.all_eq_true, decide_eq_true_eq] at *
  split
  · exact ⟨Tbl.wf_del t i h.1, fun e he => h.2 e (List.mem_filter.mp he).1⟩
  · next hx =>
    refine ⟨Tbl.wf_put t i x h.1, fun e he => ?_⟩
    rcases Tbl.mem_put t i x e he with h' | h'
    · subst h'; exact hx
    · exact h.2 e h'

/-- A byte list written keeps the canonical form of a memory. -/
theorem storeBytes_canonical (b : Bytes) (t : Tbl (BitVec 8)) (a : Nat) (h : Tbl.canonical t 0 = true) :
    Tbl.canonical (storeBytes t a b) 0 = true := by
  induction b generalizing t a with
  | nil => exact h
  | cons x b ih => exact ih _ _ (Tbl.canonical_store t a x 0 h)

/-- What a byte list written reads as, and that every byte outside it reads as before. -/
theorem getD_storeBytes (b : Bytes) (t : Tbl (BitVec 8)) (a j : Nat) :
    Tbl.getD (storeBytes t a b) j 0 = if a ≤ j ∧ j < a + b.length then b.getD (j - a) 0 else Tbl.getD t j 0 := by
  induction b generalizing t a with
  | nil =>
    have h : ¬ (a ≤ j ∧ j < a + 0) := by omega
    simp only [storeBytes, List.length_nil, if_neg h]
  | cons x b ih =>
    simp only [storeBytes, ih, Tbl.getD_store, List.length_cons]
    by_cases h1 : j = a
    · subst h1; simp <;> omega
    · by_cases h2 : a + 1 ≤ j ∧ j < a + 1 + b.length
      · rw [if_pos h2, if_pos (by omega)]
        have : j - a = (j - (a + 1)) + 1 := by omega
        rw [this, List.getD_cons_succ]
      · rw [if_neg h2, if_neg h1, if_neg (by omega)]

/-- A context's store keeps the canonical form of its local memory. -/
theorem Ctx.lput_canonical (c : Ctx) (a : Nat) (b : Bytes) (tag : Bool) (h : Tbl.canonical c.lmem 0 = true) :
    Tbl.canonical (c.lput a b tag).lmem 0 = true := storeBytes_canonical b c.lmem a h

/-- A register written keeps the canonical form of the register file. -/
theorem Ctx.setWord_canonical (c : Ctx) (i : Nat) (v : Word) (tag : Bool) (h : Tbl.canonical c.regs (0, false) = true) :
    Tbl.canonical (c.setWord i v tag).regs (0, false) = true := Tbl.canonical_store _ _ _ _ h

end Sys2Proof.Machine
end

