-- ==== Sys2Proof/Laws/State.lean ====
section
/-! SUPPORT. What each update of the state leaves of each field: one lemma for each, so that no proof unfolds a record
update. -/

namespace Sys2Proof.Machine

@[simp] theorem State.at_pcycle (s : State) (t : Nat) : (s.at t).pcycle = s.pcycle := rfl
@[simp] theorem State.at_stamps (s : State) (t : Nat) : (s.at t).stamps = s.stamps := rfl
@[simp] theorem State.at_offs (s : State) (t : Nat) : (s.at t).offs = s.offs := rfl
@[simp] theorem State.at_fns (s : State) (t : Nat) : (s.at t).fns = s.fns := rfl
@[simp] theorem State.at_mbxs (s : State) (t : Nat) : (s.at t).mbxs = s.mbxs := rfl
@[simp] theorem State.at_ptm (s : State) (t : Nat) : (s.at t).ptm = s.ptm := rfl
@[simp] theorem State.at_win (s : State) (t : Nat) : (s.at t).win = s.win := rfl
@[simp] theorem State.at_ingress (s : State) (t : Nat) : (s.at t).ingress = s.ingress := rfl
@[simp] theorem State.at_lastLane (s : State) (t : Nat) : (s.at t).lastLane = s.lastLane := rfl
@[simp] theorem State.at_linkUp (s : State) (t : Nat) : (s.at t).linkUp = s.linkUp := rfl
@[simp] theorem State.at_rreqs (s : State) (t : Nat) : (s.at t).rreqs = s.rreqs := rfl
@[simp] theorem State.at_payStore (s : State) (t : Nat) : (s.at t).payStore = s.payStore := rfl
@[simp] theorem State.at_twinA (s : State) (t : Nat) : (s.at t).twinA = s.twinA := rfl
@[simp] theorem State.at_twinB (s : State) (t : Nat) : (s.at t).twinB = s.twinB := rfl
@[simp] theorem State.at_active (s : State) (t : Nat) : (s.at t).active = s.active := rfl
@[simp] theorem State.at_egress (s : State) (t : Nat) : (s.at t).egress = s.egress := rfl
@[simp] theorem State.at_sw (s : State) (t : Nat) : (s.at t).sw = s.sw := rfl
@[simp] theorem State.at_tmr (s : State) (t : Nat) : (s.at t).tmr = s.tmr := rfl
@[simp] theorem State.at_failStop (s : State) (t : Nat) : (s.at t).failStop = s.failStop := rfl
@[simp] theorem State.at_nvm (s : State) (t : Nat) : (s.at t).nvm = s.nvm := rfl
@[simp] theorem State.at_alm (s : State) (t : Nat) : (s.at t).alm = s.alm := rfl
@[simp] theorem State.at_tamper (s : State) (t : Nat) : (s.at t).tamper = s.tamper := rfl
@[simp] theorem State.at_port0 (s : State) (t : Nat) : (s.at t).port0 = s.port0 := rfl
@[simp] theorem State.at_port1 (s : State) (t : Nat) : (s.at t).port1 = s.port1 := rfl
@[simp] theorem State.at_life (s : State) (t : Nat) : (s.at t).life = s.life := rfl
@[simp] theorem State.at_power (s : State) (t : Nat) : (s.at t).power = s.power := rfl
@[simp] theorem State.at_used (s : State) (t : Nat) : (s.at t).used = s.used := rfl
@[simp] theorem State.at_wear (s : State) (t : Nat) : (s.at t).wear = s.wear := rfl
@[simp] theorem State.at_boot (s : State) (t : Nat) : (s.at t).boot = s.boot := rfl
@[simp] theorem State.at_health (s : State) (t : Nat) : (s.at t).health = s.health := rfl
@[simp] theorem State.at_sticky (s : State) (t : Nat) : (s.at t).sticky = s.sticky := rfl
@[simp] theorem State.at_stickyAt (s : State) (t : Nat) : (s.at t).stickyAt = s.stickyAt := rfl
@[simp] theorem State.at_attnSeq (s : State) (t : Nat) : (s.at t).attnSeq = s.attnSeq := rfl
@[simp] theorem State.at_smbAlert (s : State) (t : Nat) : (s.at t).smbAlert = s.smbAlert := rfl
@[simp] theorem State.at_resetN (s : State) (t : Nat) : (s.at t).resetN = s.resetN := rfl
@[simp] theorem State.at_out (s : State) (t : Nat) : (s.at t).out = s.out := rfl
@[simp] theorem State.at_free (s : State) (t : Nat) : (s.at t).free = s.free := rfl
@[simp] theorem State.at_pending (s : State) (t : Nat) : (s.at t).pending = s.pending := rfl

@[simp] theorem State.fresh_now (s : State) : (s.fresh.2).now = s.now := rfl
@[simp] theorem State.fresh_pcycle (s : State) : (s.fresh.2).pcycle = s.pcycle := rfl
@[simp] theorem State.fresh_stamps (s : State) : (s.fresh.2).stamps = s.stamps := rfl
@[simp] theorem State.fresh_offs (s : State) : (s.fresh.2).offs = s.offs := rfl
@[simp] theorem State.fresh_fns (s : State) : (s.fresh.2).fns = s.fns := rfl
@[simp] theorem State.fresh_mbxs (s : State) : (s.fresh.2).mbxs = s.mbxs := rfl
@[simp] theorem State.fresh_ptm (s : State) : (s.fresh.2).ptm = s.ptm := rfl
@[simp] theorem State.fresh_win (s : State) : (s.fresh.2).win = s.win := rfl
@[simp] theorem State.fresh_ingress (s : State) : (s.fresh.2).ingress = s.ingress := rfl
@[simp] theorem State.fresh_lastLane (s : State) : (s.fresh.2).lastLane = s.lastLane := rfl
@[simp] theorem State.fresh_linkUp (s : State) : (s.fresh.2).linkUp = s.linkUp := rfl
@[simp] theorem State.fresh_rreqs (s : State) : (s.fresh.2).rreqs = s.rreqs := rfl
@[simp] theorem State.fresh_payStore (s : State) : (s.fresh.2).payStore = s.payStore := rfl
@[simp] theorem State.fresh_twinA (s : State) : (s.fresh.2).twinA = s.twinA := rfl
@[simp] theorem State.fresh_twinB (s : State) : (s.fresh.2).twinB = s.twinB := rfl
@[simp] theorem State.fresh_active (s : State) : (s.fresh.2).active = s.active := rfl
@[simp] theorem State.fresh_egress (s : State) : (s.fresh.2).egress = s.egress := rfl
@[simp] theorem State.fresh_sw (s : State) : (s.fresh.2).sw = s.sw := rfl
@[simp] theorem State.fresh_tmr (s : State) : (s.fresh.2).tmr = s.tmr := rfl
@[simp] theorem State.fresh_failStop (s : State) : (s.fresh.2).failStop = s.failStop := rfl
@[simp] theorem State.fresh_nvm (s : State) : (s.fresh.2).nvm = s.nvm := rfl
@[simp] theorem State.fresh_alm (s : State) : (s.fresh.2).alm = s.alm := rfl
@[simp] theorem State.fresh_tamper (s : State) : (s.fresh.2).tamper = s.tamper := rfl
@[simp] theorem State.fresh_port0 (s : State) : (s.fresh.2).port0 = s.port0 := rfl
@[simp] theorem State.fresh_port1 (s : State) : (s.fresh.2).port1 = s.port1 := rfl
@[simp] theorem State.fresh_life (s : State) : (s.fresh.2).life = s.life := rfl
@[simp] theorem State.fresh_power (s : State) : (s.fresh.2).power = s.power := rfl
@[simp] theorem State.fresh_used (s : State) : (s.fresh.2).used = s.used := rfl
@[simp] theorem State.fresh_wear (s : State) : (s.fresh.2).wear = s.wear := rfl
@[simp] theorem State.fresh_boot (s : State) : (s.fresh.2).boot = s.boot := rfl
@[simp] theorem State.fresh_health (s : State) : (s.fresh.2).health = s.health := rfl
@[simp] theorem State.fresh_sticky (s : State) : (s.fresh.2).sticky = s.sticky := rfl
@[simp] theorem State.fresh_stickyAt (s : State) : (s.fresh.2).stickyAt = s.stickyAt := rfl
@[simp] theorem State.fresh_attnSeq (s : State) : (s.fresh.2).attnSeq = s.attnSeq := rfl
@[simp] theorem State.fresh_smbAlert (s : State) : (s.fresh.2).smbAlert = s.smbAlert := rfl
@[simp] theorem State.fresh_resetN (s : State) : (s.fresh.2).resetN = s.resetN := rfl
@[simp] theorem State.fresh_out (s : State) : (s.fresh.2).out = s.out := rfl
@[simp] theorem State.fresh_pending (s : State) : (s.fresh.2).pending = s.pending := rfl

@[simp] theorem State.setSticky_now (s : State) (m : BitVec 12) : (s.setSticky m).now = s.now := rfl
@[simp] theorem State.setSticky_pcycle (s : State) (m : BitVec 12) : (s.setSticky m).pcycle = s.pcycle := rfl
@[simp] theorem State.setSticky_stamps (s : State) (m : BitVec 12) : (s.setSticky m).stamps = s.stamps := rfl
@[simp] theorem State.setSticky_offs (s : State) (m : BitVec 12) : (s.setSticky m).offs = s.offs := rfl
@[simp] theorem State.setSticky_fns (s : State) (m : BitVec 12) : (s.setSticky m).fns = s.fns := rfl
@[simp] theorem State.setSticky_mbxs (s : State) (m : BitVec 12) : (s.setSticky m).mbxs = s.mbxs := rfl
@[simp] theorem State.setSticky_ptm (s : State) (m : BitVec 12) : (s.setSticky m).ptm = s.ptm := rfl
@[simp] theorem State.setSticky_win (s : State) (m : BitVec 12) : (s.setSticky m).win = s.win := rfl
@[simp] theorem State.setSticky_ingress (s : State) (m : BitVec 12) : (s.setSticky m).ingress = s.ingress := rfl
@[simp] theorem State.setSticky_lastLane (s : State) (m : BitVec 12) : (s.setSticky m).lastLane = s.lastLane := rfl
@[simp] theorem State.setSticky_linkUp (s : State) (m : BitVec 12) : (s.setSticky m).linkUp = s.linkUp := rfl
@[simp] theorem State.setSticky_rreqs (s : State) (m : BitVec 12) : (s.setSticky m).rreqs = s.rreqs := rfl
@[simp] theorem State.setSticky_payStore (s : State) (m : BitVec 12) : (s.setSticky m).payStore = s.payStore := rfl
@[simp] theorem State.setSticky_twinA (s : State) (m : BitVec 12) : (s.setSticky m).twinA = s.twinA := rfl
@[simp] theorem State.setSticky_twinB (s : State) (m : BitVec 12) : (s.setSticky m).twinB = s.twinB := rfl
@[simp] theorem State.setSticky_active (s : State) (m : BitVec 12) : (s.setSticky m).active = s.active := rfl
@[simp] theorem State.setSticky_egress (s : State) (m : BitVec 12) : (s.setSticky m).egress = s.egress := rfl
@[simp] theorem State.setSticky_sw (s : State) (m : BitVec 12) : (s.setSticky m).sw = s.sw := rfl
@[simp] theorem State.setSticky_tmr (s : State) (m : BitVec 12) : (s.setSticky m).tmr = s.tmr := rfl
@[simp] theorem State.setSticky_failStop (s : State) (m : BitVec 12) : (s.setSticky m).failStop = s.failStop := rfl
@[simp] theorem State.setSticky_nvm (s : State) (m : BitVec 12) : (s.setSticky m).nvm = s.nvm := rfl
@[simp] theorem State.setSticky_alm (s : State) (m : BitVec 12) : (s.setSticky m).alm = s.alm := rfl
@[simp] theorem State.setSticky_tamper (s : State) (m : BitVec 12) : (s.setSticky m).tamper = s.tamper := rfl
@[simp] theorem State.setSticky_port0 (s : State) (m : BitVec 12) : (s.setSticky m).port0 = s.port0 := rfl
@[simp] theorem State.setSticky_port1 (s : State) (m : BitVec 12) : (s.setSticky m).port1 = s.port1 := rfl
@[simp] theorem State.setSticky_life (s : State) (m : BitVec 12) : (s.setSticky m).life = s.life := rfl
@[simp] theorem State.setSticky_power (s : State) (m : BitVec 12) : (s.setSticky m).power = s.power := rfl
@[simp] theorem State.setSticky_used (s : State) (m : BitVec 12) : (s.setSticky m).used = s.used := rfl
@[simp] theorem State.setSticky_wear (s : State) (m : BitVec 12) : (s.setSticky m).wear = s.wear := rfl
@[simp] theorem State.setSticky_boot (s : State) (m : BitVec 12) : (s.setSticky m).boot = s.boot := rfl
@[simp] theorem State.setSticky_health (s : State) (m : BitVec 12) : (s.setSticky m).health = s.health := rfl
@[simp] theorem State.setSticky_attnSeq (s : State) (m : BitVec 12) : (s.setSticky m).attnSeq = s.attnSeq := rfl
@[simp] theorem State.setSticky_smbAlert (s : State) (m : BitVec 12) : (s.setSticky m).smbAlert = s.smbAlert := rfl
@[simp] theorem State.setSticky_resetN (s : State) (m : BitVec 12) : (s.setSticky m).resetN = s.resetN := rfl
@[simp] theorem State.setSticky_out (s : State) (m : BitVec 12) : (s.setSticky m).out = s.out := rfl
@[simp] theorem State.setSticky_free (s : State) (m : BitVec 12) : (s.setSticky m).free = s.free := rfl
@[simp] theorem State.setSticky_pending (s : State) (m : BitVec 12) : (s.setSticky m).pending = s.pending := rfl

@[simp] theorem State.setTwin_now (s : State) (w : Twin) (x : TwinSt) : (s.setTwin w x).now = s.now := by cases w <;> rfl
@[simp] theorem State.setTwin_pcycle (s : State) (w : Twin) (x : TwinSt) : (s.setTwin w x).pcycle = s.pcycle := by cases w <;> rfl
@[simp] theorem State.setTwin_stamps (s : State) (w : Twin) (x : TwinSt) : (s.setTwin w x).stamps = s.stamps := by cases w <;> rfl
@[simp] theorem State.setTwin_offs (s : State) (w : Twin) (x : TwinSt) : (s.setTwin w x).offs = s.offs := by cases w <;> rfl
@[simp] theorem State.setTwin_fns (s : State) (w : Twin) (x : TwinSt) : (s.setTwin w x).fns = s.fns := by cases w <;> rfl
@[simp] theorem State.setTwin_mbxs (s : State) (w : Twin) (x : TwinSt) : (s.setTwin w x).mbxs = s.mbxs := by cases w <;> rfl
@[simp] theorem State.setTwin_ptm (s : State) (w : Twin) (x : TwinSt) : (s.setTwin w x).ptm = s.ptm := by cases w <;> rfl
@[simp] theorem State.setTwin_win (s : State) (w : Twin) (x : TwinSt) : (s.setTwin w x).win = s.win := by cases w <;> rfl
@[simp] theorem State.setTwin_ingress (s : State) (w : Twin) (x : TwinSt) : (s.setTwin w x).ingress = s.ingress := by cases w <;> rfl
@[simp] theorem State.setTwin_lastLane (s : State) (w : Twin) (x : TwinSt) : (s.setTwin w x).lastLane = s.lastLane := by cases w <;> rfl
@[simp] theorem State.setTwin_linkUp (s : State) (w : Twin) (x : TwinSt) : (s.setTwin w x).linkUp = s.linkUp := by cases w <;> rfl
@[simp] theorem State.setTwin_rreqs (s : State) (w : Twin) (x : TwinSt) : (s.setTwin w x).rreqs = s.rreqs := by cases w <;> rfl
@[simp] theorem State.setTwin_payStore (s : State) (w : Twin) (x : TwinSt) : (s.setTwin w x).payStore = s.payStore := by cases w <;> rfl
@[simp] theorem State.setTwin_active (s : State) (w : Twin) (x : TwinSt) : (s.setTwin w x).active = s.active := by cases w <;> rfl
@[simp] theorem State.setTwin_egress (s : State) (w : Twin) (x : TwinSt) : (s.setTwin w x).egress = s.egress := by cases w <;> rfl
@[simp] theorem State.setTwin_sw (s : State) (w : Twin) (x : TwinSt) : (s.setTwin w x).sw = s.sw := by cases w <;> rfl
@[simp] theorem State.setTwin_tmr (s : State) (w : Twin) (x : TwinSt) : (s.setTwin w x).tmr = s.tmr := by cases w <;> rfl
@[simp] theorem State.setTwin_failStop (s : State) (w : Twin) (x : TwinSt) : (s.setTwin w x).failStop = s.failStop := by cases w <;> rfl
@[simp] theorem State.setTwin_nvm (s : State) (w : Twin) (x : TwinSt) : (s.setTwin w x).nvm = s.nvm := by cases w <;> rfl
@[simp] theorem State.setTwin_alm (s : State) (w : Twin) (x : TwinSt) : (s.setTwin w x).alm = s.alm := by cases w <;> rfl
@[simp] theorem State.setTwin_tamper (s : State) (w : Twin) (x : TwinSt) : (s.setTwin w x).tamper = s.tamper := by cases w <;> rfl
@[simp] theorem State.setTwin_port0 (s : State) (w : Twin) (x : TwinSt) : (s.setTwin w x).port0 = s.port0 := by cases w <;> rfl
@[simp] theorem State.setTwin_port1 (s : State) (w : Twin) (x : TwinSt) : (s.setTwin w x).port1 = s.port1 := by cases w <;> rfl
@[simp] theorem State.setTwin_life (s : State) (w : Twin) (x : TwinSt) : (s.setTwin w x).life = s.life := by cases w <;> rfl
@[simp] theorem State.setTwin_power (s : State) (w : Twin) (x : TwinSt) : (s.setTwin w x).power = s.power := by cases w <;> rfl
@[simp] theorem State.setTwin_used (s : State) (w : Twin) (x : TwinSt) : (s.setTwin w x).used = s.used := by cases w <;> rfl
@[simp] theorem State.setTwin_wear (s : State) (w : Twin) (x : TwinSt) : (s.setTwin w x).wear = s.wear := by cases w <;> rfl
@[simp] theorem State.setTwin_boot (s : State) (w : Twin) (x : TwinSt) : (s.setTwin w x).boot = s.boot := by cases w <;> rfl
@[simp] theorem State.setTwin_health (s : State) (w : Twin) (x : TwinSt) : (s.setTwin w x).health = s.health := by cases w <;> rfl
@[simp] theorem State.setTwin_sticky (s : State) (w : Twin) (x : TwinSt) : (s.setTwin w x).sticky = s.sticky := by cases w <;> rfl
@[simp] theorem State.setTwin_stickyAt (s : State) (w : Twin) (x : TwinSt) : (s.setTwin w x).stickyAt = s.stickyAt := by cases w <;> rfl
@[simp] theorem State.setTwin_attnSeq (s : State) (w : Twin) (x : TwinSt) : (s.setTwin w x).attnSeq = s.attnSeq := by cases w <;> rfl
@[simp] theorem State.setTwin_smbAlert (s : State) (w : Twin) (x : TwinSt) : (s.setTwin w x).smbAlert = s.smbAlert := by cases w <;> rfl
@[simp] theorem State.setTwin_resetN (s : State) (w : Twin) (x : TwinSt) : (s.setTwin w x).resetN = s.resetN := by cases w <;> rfl
@[simp] theorem State.setTwin_out (s : State) (w : Twin) (x : TwinSt) : (s.setTwin w x).out = s.out := by cases w <;> rfl
@[simp] theorem State.setTwin_free (s : State) (w : Twin) (x : TwinSt) : (s.setTwin w x).free = s.free := by cases w <;> rfl
@[simp] theorem State.setTwin_pending (s : State) (w : Twin) (x : TwinSt) : (s.setTwin w x).pending = s.pending := by cases w <;> rfl

@[simp] theorem State.updTwin_now (s : State) (w : Twin) (f : TwinSt → TwinSt) : (s.updTwin w f).now = s.now := by cases w <;> rfl
@[simp] theorem State.updTwin_pcycle (s : State) (w : Twin) (f : TwinSt → TwinSt) : (s.updTwin w f).pcycle = s.pcycle := by cases w <;> rfl
@[simp] theorem State.updTwin_stamps (s : State) (w : Twin) (f : TwinSt → TwinSt) : (s.updTwin w f).stamps = s.stamps := by cases w <;> rfl
@[simp] theorem State.updTwin_offs (s : State) (w : Twin) (f : TwinSt → TwinSt) : (s.updTwin w f).offs = s.offs := by cases w <;> rfl
@[simp] theorem State.updTwin_fns (s : State) (w : Twin) (f : TwinSt → TwinSt) : (s.updTwin w f).fns = s.fns := by cases w <;> rfl
@[simp] theorem State.updTwin_mbxs (s : State) (w : Twin) (f : TwinSt → TwinSt) : (s.updTwin w f).mbxs = s.mbxs := by cases w <;> rfl
@[simp] theorem State.updTwin_ptm (s : State) (w : Twin) (f : TwinSt → TwinSt) : (s.updTwin w f).ptm = s.ptm := by cases w <;> rfl
@[simp] theorem State.updTwin_win (s : State) (w : Twin) (f : TwinSt → TwinSt) : (s.updTwin w f).win = s.win := by cases w <;> rfl
@[simp] theorem State.updTwin_ingress (s : State) (w : Twin) (f : TwinSt → TwinSt) : (s.updTwin w f).ingress = s.ingress := by cases w <;> rfl
@[simp] theorem State.updTwin_lastLane (s : State) (w : Twin) (f : TwinSt → TwinSt) : (s.updTwin w f).lastLane = s.lastLane := by cases w <;> rfl
@[simp] theorem State.updTwin_linkUp (s : State) (w : Twin) (f : TwinSt → TwinSt) : (s.updTwin w f).linkUp = s.linkUp := by cases w <;> rfl
@[simp] theorem State.updTwin_rreqs (s : State) (w : Twin) (f : TwinSt → TwinSt) : (s.updTwin w f).rreqs = s.rreqs := by cases w <;> rfl
@[simp] theorem State.updTwin_payStore (s : State) (w : Twin) (f : TwinSt → TwinSt) : (s.updTwin w f).payStore = s.payStore := by cases w <;> rfl
@[simp] theorem State.updTwin_active (s : State) (w : Twin) (f : TwinSt → TwinSt) : (s.updTwin w f).active = s.active := by cases w <;> rfl
@[simp] theorem State.updTwin_egress (s : State) (w : Twin) (f : TwinSt → TwinSt) : (s.updTwin w f).egress = s.egress := by cases w <;> rfl
@[simp] theorem State.updTwin_sw (s : State) (w : Twin) (f : TwinSt → TwinSt) : (s.updTwin w f).sw = s.sw := by cases w <;> rfl
@[simp] theorem State.updTwin_tmr (s : State) (w : Twin) (f : TwinSt → TwinSt) : (s.updTwin w f).tmr = s.tmr := by cases w <;> rfl
@[simp] theorem State.updTwin_failStop (s : State) (w : Twin) (f : TwinSt → TwinSt) : (s.updTwin w f).failStop = s.failStop := by cases w <;> rfl
@[simp] theorem State.updTwin_nvm (s : State) (w : Twin) (f : TwinSt → TwinSt) : (s.updTwin w f).nvm = s.nvm := by cases w <;> rfl
@[simp] theorem State.updTwin_alm (s : State) (w : Twin) (f : TwinSt → TwinSt) : (s.updTwin w f).alm = s.alm := by cases w <;> rfl
@[simp] theorem State.updTwin_tamper (s : State) (w : Twin) (f : TwinSt → TwinSt) : (s.updTwin w f).tamper = s.tamper := by cases w <;> rfl
@[simp] theorem State.updTwin_port0 (s : State) (w : Twin) (f : TwinSt → TwinSt) : (s.updTwin w f).port0 = s.port0 := by cases w <;> rfl
@[simp] theorem State.updTwin_port1 (s : State) (w : Twin) (f : TwinSt → TwinSt) : (s.updTwin w f).port1 = s.port1 := by cases w <;> rfl
@[simp] theorem State.updTwin_life (s : State) (w : Twin) (f : TwinSt → TwinSt) : (s.updTwin w f).life = s.life := by cases w <;> rfl
@[simp] theorem State.updTwin_power (s : State) (w : Twin) (f : TwinSt → TwinSt) : (s.updTwin w f).power = s.power := by cases w <;> rfl
@[simp] theorem State.updTwin_used (s : State) (w : Twin) (f : TwinSt → TwinSt) : (s.updTwin w f).used = s.used := by cases w <;> rfl
@[simp] theorem State.updTwin_wear (s : State) (w : Twin) (f : TwinSt → TwinSt) : (s.updTwin w f).wear = s.wear := by cases w <;> rfl
@[simp] theorem State.updTwin_boot (s : State) (w : Twin) (f : TwinSt → TwinSt) : (s.updTwin w f).boot = s.boot := by cases w <;> rfl
@[simp] theorem State.updTwin_health (s : State) (w : Twin) (f : TwinSt → TwinSt) : (s.updTwin w f).health = s.health := by cases w <;> rfl
@[simp] theorem State.updTwin_sticky (s : State) (w : Twin) (f : TwinSt → TwinSt) : (s.updTwin w f).sticky = s.sticky := by cases w <;> rfl
@[simp] theorem State.updTwin_stickyAt (s : State) (w : Twin) (f : TwinSt → TwinSt) : (s.updTwin w f).stickyAt = s.stickyAt := by cases w <;> rfl
@[simp] theorem State.updTwin_attnSeq (s : State) (w : Twin) (f : TwinSt → TwinSt) : (s.updTwin w f).attnSeq = s.attnSeq := by cases w <;> rfl
@[simp] theorem State.updTwin_smbAlert (s : State) (w : Twin) (f : TwinSt → TwinSt) : (s.updTwin w f).smbAlert = s.smbAlert := by cases w <;> rfl
@[simp] theorem State.updTwin_resetN (s : State) (w : Twin) (f : TwinSt → TwinSt) : (s.updTwin w f).resetN = s.resetN := by cases w <;> rfl
@[simp] theorem State.updTwin_out (s : State) (w : Twin) (f : TwinSt → TwinSt) : (s.updTwin w f).out = s.out := by cases w <;> rfl
@[simp] theorem State.updTwin_free (s : State) (w : Twin) (f : TwinSt → TwinSt) : (s.updTwin w f).free = s.free := by cases w <;> rfl
@[simp] theorem State.updTwin_pending (s : State) (w : Twin) (f : TwinSt → TwinSt) : (s.updTwin w f).pending = s.pending := by cases w <;> rfl

@[simp] theorem State.updBoth_now (s : State) (f : TwinSt → TwinSt) : (s.updBoth f).now = s.now := rfl
@[simp] theorem State.updBoth_pcycle (s : State) (f : TwinSt → TwinSt) : (s.updBoth f).pcycle = s.pcycle := rfl
@[simp] theorem State.updBoth_stamps (s : State) (f : TwinSt → TwinSt) : (s.updBoth f).stamps = s.stamps := rfl
@[simp] theorem State.updBoth_offs (s : State) (f : TwinSt → TwinSt) : (s.updBoth f).offs = s.offs := rfl
@[simp] theorem State.updBoth_fns (s : State) (f : TwinSt → TwinSt) : (s.updBoth f).fns = s.fns := rfl
@[simp] theorem State.updBoth_mbxs (s : State) (f : TwinSt → TwinSt) : (s.updBoth f).mbxs = s.mbxs := rfl
@[simp] theorem State.updBoth_ptm (s : State) (f : TwinSt → TwinSt) : (s.updBoth f).ptm = s.ptm := rfl
@[simp] theorem State.updBoth_win (s : State) (f : TwinSt → TwinSt) : (s.updBoth f).win = s.win := rfl
@[simp] theorem State.updBoth_ingress (s : State) (f : TwinSt → TwinSt) : (s.updBoth f).ingress = s.ingress := rfl
@[simp] theorem State.updBoth_lastLane (s : State) (f : TwinSt → TwinSt) : (s.updBoth f).lastLane = s.lastLane := rfl
@[simp] theorem State.updBoth_linkUp (s : State) (f : TwinSt → TwinSt) : (s.updBoth f).linkUp = s.linkUp := rfl
@[simp] theorem State.updBoth_rreqs (s : State) (f : TwinSt → TwinSt) : (s.updBoth f).rreqs = s.rreqs := rfl
@[simp] theorem State.updBoth_payStore (s : State) (f : TwinSt → TwinSt) : (s.updBoth f).payStore = s.payStore := rfl
@[simp] theorem State.updBoth_active (s : State) (f : TwinSt → TwinSt) : (s.updBoth f).active = s.active := rfl
@[simp] theorem State.updBoth_egress (s : State) (f : TwinSt → TwinSt) : (s.updBoth f).egress = s.egress := rfl
@[simp] theorem State.updBoth_sw (s : State) (f : TwinSt → TwinSt) : (s.updBoth f).sw = s.sw := rfl
@[simp] theorem State.updBoth_tmr (s : State) (f : TwinSt → TwinSt) : (s.updBoth f).tmr = s.tmr := rfl
@[simp] theorem State.updBoth_failStop (s : State) (f : TwinSt → TwinSt) : (s.updBoth f).failStop = s.failStop := rfl
@[simp] theorem State.updBoth_nvm (s : State) (f : TwinSt → TwinSt) : (s.updBoth f).nvm = s.nvm := rfl
@[simp] theorem State.updBoth_alm (s : State) (f : TwinSt → TwinSt) : (s.updBoth f).alm = s.alm := rfl
@[simp] theorem State.updBoth_tamper (s : State) (f : TwinSt → TwinSt) : (s.updBoth f).tamper = s.tamper := rfl
@[simp] theorem State.updBoth_port0 (s : State) (f : TwinSt → TwinSt) : (s.updBoth f).port0 = s.port0 := rfl
@[simp] theorem State.updBoth_port1 (s : State) (f : TwinSt → TwinSt) : (s.updBoth f).port1 = s.port1 := rfl
@[simp] theorem State.updBoth_life (s : State) (f : TwinSt → TwinSt) : (s.updBoth f).life = s.life := rfl
@[simp] theorem State.updBoth_power (s : State) (f : TwinSt → TwinSt) : (s.updBoth f).power = s.power := rfl
@[simp] theorem State.updBoth_used (s : State) (f : TwinSt → TwinSt) : (s.updBoth f).used = s.used := rfl
@[simp] theorem State.updBoth_wear (s : State) (f : TwinSt → TwinSt) : (s.updBoth f).wear = s.wear := rfl
@[simp] theorem State.updBoth_boot (s : State) (f : TwinSt → TwinSt) : (s.updBoth f).boot = s.boot := rfl
@[simp] theorem State.updBoth_health (s : State) (f : TwinSt → TwinSt) : (s.updBoth f).health = s.health := rfl
@[simp] theorem State.updBoth_sticky (s : State) (f : TwinSt → TwinSt) : (s.updBoth f).sticky = s.sticky := rfl
@[simp] theorem State.updBoth_stickyAt (s : State) (f : TwinSt → TwinSt) : (s.updBoth f).stickyAt = s.stickyAt := rfl
@[simp] theorem State.updBoth_attnSeq (s : State) (f : TwinSt → TwinSt) : (s.updBoth f).attnSeq = s.attnSeq := rfl
@[simp] theorem State.updBoth_smbAlert (s : State) (f : TwinSt → TwinSt) : (s.updBoth f).smbAlert = s.smbAlert := rfl
@[simp] theorem State.updBoth_resetN (s : State) (f : TwinSt → TwinSt) : (s.updBoth f).resetN = s.resetN := rfl
@[simp] theorem State.updBoth_out (s : State) (f : TwinSt → TwinSt) : (s.updBoth f).out = s.out := rfl
@[simp] theorem State.updBoth_free (s : State) (f : TwinSt → TwinSt) : (s.updBoth f).free = s.free := rfl
@[simp] theorem State.updBoth_pending (s : State) (f : TwinSt → TwinSt) : (s.updBoth f).pending = s.pending := rfl

@[simp] theorem State.updStores_now (s : State) (f : Store → Store) : (s.updStores f).now = s.now := rfl
@[simp] theorem State.updStores_pcycle (s : State) (f : Store → Store) : (s.updStores f).pcycle = s.pcycle := rfl
@[simp] theorem State.updStores_stamps (s : State) (f : Store → Store) : (s.updStores f).stamps = s.stamps := rfl
@[simp] theorem State.updStores_offs (s : State) (f : Store → Store) : (s.updStores f).offs = s.offs := rfl
@[simp] theorem State.updStores_fns (s : State) (f : Store → Store) : (s.updStores f).fns = s.fns := rfl
@[simp] theorem State.updStores_mbxs (s : State) (f : Store → Store) : (s.updStores f).mbxs = s.mbxs := rfl
@[simp] theorem State.updStores_ptm (s : State) (f : Store → Store) : (s.updStores f).ptm = s.ptm := rfl
@[simp] theorem State.updStores_win (s : State) (f : Store → Store) : (s.updStores f).win = s.win := rfl
@[simp] theorem State.updStores_ingress (s : State) (f : Store → Store) : (s.updStores f).ingress = s.ingress := rfl
@[simp] theorem State.updStores_lastLane (s : State) (f : Store → Store) : (s.updStores f).lastLane = s.lastLane := rfl
@[simp] theorem State.updStores_linkUp (s : State) (f : Store → Store) : (s.updStores f).linkUp = s.linkUp := rfl
@[simp] theorem State.updStores_rreqs (s : State) (f : Store → Store) : (s.updStores f).rreqs = s.rreqs := rfl
@[simp] theorem State.updStores_payStore (s : State) (f : Store → Store) : (s.updStores f).payStore = s.payStore := rfl
@[simp] theorem State.updStores_active (s : State) (f : Store → Store) : (s.updStores f).active = s.active := rfl
@[simp] theorem State.updStores_egress (s : State) (f : Store → Store) : (s.updStores f).egress = s.egress := rfl
@[simp] theorem State.updStores_sw (s : State) (f : Store → Store) : (s.updStores f).sw = s.sw := rfl
@[simp] theorem State.updStores_tmr (s : State) (f : Store → Store) : (s.updStores f).tmr = s.tmr := rfl
@[simp] theorem State.updStores_failStop (s : State) (f : Store → Store) : (s.updStores f).failStop = s.failStop := rfl
@[simp] theorem State.updStores_alm (s : State) (f : Store → Store) : (s.updStores f).alm = s.alm := rfl
@[simp] theorem State.updStores_tamper (s : State) (f : Store → Store) : (s.updStores f).tamper = s.tamper := rfl
@[simp] theorem State.updStores_port0 (s : State) (f : Store → Store) : (s.updStores f).port0 = s.port0 := rfl
@[simp] theorem State.updStores_port1 (s : State) (f : Store → Store) : (s.updStores f).port1 = s.port1 := rfl
@[simp] theorem State.updStores_life (s : State) (f : Store → Store) : (s.updStores f).life = s.life := rfl
@[simp] theorem State.updStores_power (s : State) (f : Store → Store) : (s.updStores f).power = s.power := rfl
@[simp] theorem State.updStores_used (s : State) (f : Store → Store) : (s.updStores f).used = s.used := rfl
@[simp] theorem State.updStores_wear (s : State) (f : Store → Store) : (s.updStores f).wear = s.wear := rfl
@[simp] theorem State.updStores_boot (s : State) (f : Store → Store) : (s.updStores f).boot = s.boot := rfl
@[simp] theorem State.updStores_health (s : State) (f : Store → Store) : (s.updStores f).health = s.health := rfl
@[simp] theorem State.updStores_sticky (s : State) (f : Store → Store) : (s.updStores f).sticky = s.sticky := rfl
@[simp] theorem State.updStores_stickyAt (s : State) (f : Store → Store) : (s.updStores f).stickyAt = s.stickyAt := rfl
@[simp] theorem State.updStores_attnSeq (s : State) (f : Store → Store) : (s.updStores f).attnSeq = s.attnSeq := rfl
@[simp] theorem State.updStores_smbAlert (s : State) (f : Store → Store) : (s.updStores f).smbAlert = s.smbAlert := rfl
@[simp] theorem State.updStores_resetN (s : State) (f : Store → Store) : (s.updStores f).resetN = s.resetN := rfl
@[simp] theorem State.updStores_out (s : State) (f : Store → Store) : (s.updStores f).out = s.out := rfl
@[simp] theorem State.updStores_free (s : State) (f : Store → Store) : (s.updStores f).free = s.free := rfl
@[simp] theorem State.updStores_pending (s : State) (f : Store → Store) : (s.updStores f).pending = s.pending := rfl

@[simp] theorem State.stamped_now (s : State) (i : Nat) : (s.stamped i).now = s.now := by unfold State.stamped; split <;> simp
@[simp] theorem State.stamped_pcycle (s : State) (i : Nat) : (s.stamped i).pcycle = s.pcycle := by unfold State.stamped; split <;> simp
@[simp] theorem State.stamped_offs (s : State) (i : Nat) : (s.stamped i).offs = s.offs := by unfold State.stamped; split <;> simp
@[simp] theorem State.stamped_fns (s : State) (i : Nat) : (s.stamped i).fns = s.fns := by unfold State.stamped; split <;> simp
@[simp] theorem State.stamped_mbxs (s : State) (i : Nat) : (s.stamped i).mbxs = s.mbxs := by unfold State.stamped; split <;> simp
@[simp] theorem State.stamped_ptm (s : State) (i : Nat) : (s.stamped i).ptm = s.ptm := by unfold State.stamped; split <;> simp
@[simp] theorem State.stamped_win (s : State) (i : Nat) : (s.stamped i).win = s.win := by unfold State.stamped; split <;> simp
@[simp] theorem State.stamped_ingress (s : State) (i : Nat) : (s.stamped i).ingress = s.ingress := by unfold State.stamped; split <;> simp
@[simp] theorem State.stamped_lastLane (s : State) (i : Nat) : (s.stamped i).lastLane = s.lastLane := by unfold State.stamped; split <;> simp
@[simp] theorem State.stamped_linkUp (s : State) (i : Nat) : (s.stamped i).linkUp = s.linkUp := by unfold State.stamped; split <;> simp
@[simp] theorem State.stamped_rreqs (s : State) (i : Nat) : (s.stamped i).rreqs = s.rreqs := by unfold State.stamped; split <;> simp
@[simp] theorem State.stamped_payStore (s : State) (i : Nat) : (s.stamped i).payStore = s.payStore := by unfold State.stamped; split <;> simp
@[simp] theorem State.stamped_active (s : State) (i : Nat) : (s.stamped i).active = s.active := by unfold State.stamped; split <;> simp
@[simp] theorem State.stamped_egress (s : State) (i : Nat) : (s.stamped i).egress = s.egress := by unfold State.stamped; split <;> simp
@[simp] theorem State.stamped_sw (s : State) (i : Nat) : (s.stamped i).sw = s.sw := by unfold State.stamped; split <;> simp
@[simp] theorem State.stamped_tmr (s : State) (i : Nat) : (s.stamped i).tmr = s.tmr := by unfold State.stamped; split <;> simp
@[simp] theorem State.stamped_failStop (s : State) (i : Nat) : (s.stamped i).failStop = s.failStop := by unfold State.stamped; split <;> simp
@[simp] theorem State.stamped_nvm (s : State) (i : Nat) : (s.stamped i).nvm = s.nvm := by unfold State.stamped; split <;> simp
@[simp] theorem State.stamped_alm (s : State) (i : Nat) : (s.stamped i).alm = s.alm := by unfold State.stamped; split <;> simp
@[simp] theorem State.stamped_tamper (s : State) (i : Nat) : (s.stamped i).tamper = s.tamper := by unfold State.stamped; split <;> simp
@[simp] theorem State.stamped_port0 (s : State) (i : Nat) : (s.stamped i).port0 = s.port0 := by unfold State.stamped; split <;> simp
@[simp] theorem State.stamped_port1 (s : State) (i : Nat) : (s.stamped i).port1 = s.port1 := by unfold State.stamped; split <;> simp
@[simp] theorem State.stamped_life (s : State) (i : Nat) : (s.stamped i).life = s.life := by unfold State.stamped; split <;> simp
@[simp] theorem State.stamped_power (s : State) (i : Nat) : (s.stamped i).power = s.power := by unfold State.stamped; split <;> simp
@[simp] theorem State.stamped_used (s : State) (i : Nat) : (s.stamped i).used = s.used := by unfold State.stamped; split <;> simp
@[simp] theorem State.stamped_wear (s : State) (i : Nat) : (s.stamped i).wear = s.wear := by unfold State.stamped; split <;> simp
@[simp] theorem State.stamped_boot (s : State) (i : Nat) : (s.stamped i).boot = s.boot := by unfold State.stamped; split <;> simp
@[simp] theorem State.stamped_health (s : State) (i : Nat) : (s.stamped i).health = s.health := by unfold State.stamped; split <;> simp
@[simp] theorem State.stamped_sticky (s : State) (i : Nat) : (s.stamped i).sticky = s.sticky := by unfold State.stamped; split <;> simp
@[simp] theorem State.stamped_stickyAt (s : State) (i : Nat) : (s.stamped i).stickyAt = s.stickyAt := by unfold State.stamped; split <;> simp
@[simp] theorem State.stamped_attnSeq (s : State) (i : Nat) : (s.stamped i).attnSeq = s.attnSeq := by unfold State.stamped; split <;> simp
@[simp] theorem State.stamped_smbAlert (s : State) (i : Nat) : (s.stamped i).smbAlert = s.smbAlert := by unfold State.stamped; split <;> simp
@[simp] theorem State.stamped_resetN (s : State) (i : Nat) : (s.stamped i).resetN = s.resetN := by unfold State.stamped; split <;> simp
@[simp] theorem State.stamped_out (s : State) (i : Nat) : (s.stamped i).out = s.out := by unfold State.stamped; split <;> simp
@[simp] theorem State.stamped_free (s : State) (i : Nat) : (s.stamped i).free = s.free := by unfold State.stamped; split <;> simp
@[simp] theorem State.stamped_pending (s : State) (i : Nat) : (s.stamped i).pending = s.pending := by unfold State.stamped; split <;> simp

@[simp] theorem State.putCtx_now (s : State) (e : KEnv) (x : TwinSt) (c : Ctx) : (s.putCtx e x c).now = s.now := by unfold State.putCtx; simp
@[simp] theorem State.putCtx_pcycle (s : State) (e : KEnv) (x : TwinSt) (c : Ctx) : (s.putCtx e x c).pcycle = s.pcycle := by unfold State.putCtx; simp
@[simp] theorem State.putCtx_stamps (s : State) (e : KEnv) (x : TwinSt) (c : Ctx) : (s.putCtx e x c).stamps = s.stamps := by unfold State.putCtx; simp
@[simp] theorem State.putCtx_offs (s : State) (e : KEnv) (x : TwinSt) (c : Ctx) : (s.putCtx e x c).offs = s.offs := by unfold State.putCtx; simp
@[simp] theorem State.putCtx_fns (s : State) (e : KEnv) (x : TwinSt) (c : Ctx) : (s.putCtx e x c).fns = s.fns := by unfold State.putCtx; simp
@[simp] theorem State.putCtx_mbxs (s : State) (e : KEnv) (x : TwinSt) (c : Ctx) : (s.putCtx e x c).mbxs = s.mbxs := by unfold State.putCtx; simp
@[simp] theorem State.putCtx_ptm (s : State) (e : KEnv) (x : TwinSt) (c : Ctx) : (s.putCtx e x c).ptm = s.ptm := by unfold State.putCtx; simp
@[simp] theorem State.putCtx_win (s : State) (e : KEnv) (x : TwinSt) (c : Ctx) : (s.putCtx e x c).win = s.win := by unfold State.putCtx; simp
@[simp] theorem State.putCtx_ingress (s : State) (e : KEnv) (x : TwinSt) (c : Ctx) : (s.putCtx e x c).ingress = s.ingress := by unfold State.putCtx; simp
@[simp] theorem State.putCtx_lastLane (s : State) (e : KEnv) (x : TwinSt) (c : Ctx) : (s.putCtx e x c).lastLane = s.lastLane := by unfold State.putCtx; simp
@[simp] theorem State.putCtx_linkUp (s : State) (e : KEnv) (x : TwinSt) (c : Ctx) : (s.putCtx e x c).linkUp = s.linkUp := by unfold State.putCtx; simp
@[simp] theorem State.putCtx_rreqs (s : State) (e : KEnv) (x : TwinSt) (c : Ctx) : (s.putCtx e x c).rreqs = s.rreqs := by unfold State.putCtx; simp
@[simp] theorem State.putCtx_payStore (s : State) (e : KEnv) (x : TwinSt) (c : Ctx) : (s.putCtx e x c).payStore = s.payStore := by unfold State.putCtx; simp
@[simp] theorem State.putCtx_active (s : State) (e : KEnv) (x : TwinSt) (c : Ctx) : (s.putCtx e x c).active = s.active := by unfold State.putCtx; simp
@[simp] theorem State.putCtx_egress (s : State) (e : KEnv) (x : TwinSt) (c : Ctx) : (s.putCtx e x c).egress = s.egress := by unfold State.putCtx; simp
@[simp] theorem State.putCtx_sw (s : State) (e : KEnv) (x : TwinSt) (c : Ctx) : (s.putCtx e x c).sw = s.sw := by unfold State.putCtx; simp
@[simp] theorem State.putCtx_tmr (s : State) (e : KEnv) (x : TwinSt) (c : Ctx) : (s.putCtx e x c).tmr = s.tmr := by unfold State.putCtx; simp
@[simp] theorem State.putCtx_failStop (s : State) (e : KEnv) (x : TwinSt) (c : Ctx) : (s.putCtx e x c).failStop = s.failStop := by unfold State.putCtx; simp
@[simp] theorem State.putCtx_nvm (s : State) (e : KEnv) (x : TwinSt) (c : Ctx) : (s.putCtx e x c).nvm = s.nvm := by unfold State.putCtx; simp
@[simp] theorem State.putCtx_alm (s : State) (e : KEnv) (x : TwinSt) (c : Ctx) : (s.putCtx e x c).alm = s.alm := by unfold State.putCtx; simp
@[simp] theorem State.putCtx_tamper (s : State) (e : KEnv) (x : TwinSt) (c : Ctx) : (s.putCtx e x c).tamper = s.tamper := by unfold State.putCtx; simp
@[simp] theorem State.putCtx_port0 (s : State) (e : KEnv) (x : TwinSt) (c : Ctx) : (s.putCtx e x c).port0 = s.port0 := by unfold State.putCtx; simp
@[simp] theorem State.putCtx_port1 (s : State) (e : KEnv) (x : TwinSt) (c : Ctx) : (s.putCtx e x c).port1 = s.port1 := by unfold State.putCtx; simp
@[simp] theorem State.putCtx_life (s : State) (e : KEnv) (x : TwinSt) (c : Ctx) : (s.putCtx e x c).life = s.life := by unfold State.putCtx; simp
@[simp] theorem State.putCtx_power (s : State) (e : KEnv) (x : TwinSt) (c : Ctx) : (s.putCtx e x c).power = s.power := by unfold State.putCtx; simp
@[simp] theorem State.putCtx_used (s : State) (e : KEnv) (x : TwinSt) (c : Ctx) : (s.putCtx e x c).used = s.used := by unfold State.putCtx; simp
@[simp] theorem State.putCtx_wear (s : State) (e : KEnv) (x : TwinSt) (c : Ctx) : (s.putCtx e x c).wear = s.wear := by unfold State.putCtx; simp
@[simp] theorem State.putCtx_boot (s : State) (e : KEnv) (x : TwinSt) (c : Ctx) : (s.putCtx e x c).boot = s.boot := by unfold State.putCtx; simp
@[simp] theorem State.putCtx_health (s : State) (e : KEnv) (x : TwinSt) (c : Ctx) : (s.putCtx e x c).health = s.health := by unfold State.putCtx; simp
@[simp] theorem State.putCtx_sticky (s : State) (e : KEnv) (x : TwinSt) (c : Ctx) : (s.putCtx e x c).sticky = s.sticky := by unfold State.putCtx; simp
@[simp] theorem State.putCtx_stickyAt (s : State) (e : KEnv) (x : TwinSt) (c : Ctx) : (s.putCtx e x c).stickyAt = s.stickyAt := by unfold State.putCtx; simp
@[simp] theorem State.putCtx_attnSeq (s : State) (e : KEnv) (x : TwinSt) (c : Ctx) : (s.putCtx e x c).attnSeq = s.attnSeq := by unfold State.putCtx; simp
@[simp] theorem State.putCtx_smbAlert (s : State) (e : KEnv) (x : TwinSt) (c : Ctx) : (s.putCtx e x c).smbAlert = s.smbAlert := by unfold State.putCtx; simp
@[simp] theorem State.putCtx_resetN (s : State) (e : KEnv) (x : TwinSt) (c : Ctx) : (s.putCtx e x c).resetN = s.resetN := by unfold State.putCtx; simp
@[simp] theorem State.putCtx_out (s : State) (e : KEnv) (x : TwinSt) (c : Ctx) : (s.putCtx e x c).out = s.out := by unfold State.putCtx; simp
@[simp] theorem State.putCtx_free (s : State) (e : KEnv) (x : TwinSt) (c : Ctx) : (s.putCtx e x c).free = s.free := by unfold State.putCtx; simp
@[simp] theorem State.putCtx_pending (s : State) (e : KEnv) (x : TwinSt) (c : Ctx) : (s.putCtx e x c).pending = s.pending := by unfold State.putCtx; simp

@[simp] theorem settle_now (s t : State) : (settle s t).now = t.now := rfl
@[simp] theorem settle_pcycle (s t : State) : (settle s t).pcycle = t.pcycle := rfl
@[simp] theorem settle_stamps (s t : State) : (settle s t).stamps = t.stamps := rfl
@[simp] theorem settle_offs (s t : State) : (settle s t).offs = t.offs := rfl
@[simp] theorem settle_fns (s t : State) : (settle s t).fns = t.fns := rfl
@[simp] theorem settle_mbxs (s t : State) : (settle s t).mbxs = t.mbxs := rfl
@[simp] theorem settle_ptm (s t : State) : (settle s t).ptm = t.ptm := rfl
@[simp] theorem settle_win (s t : State) : (settle s t).win = t.win := rfl
@[simp] theorem settle_ingress (s t : State) : (settle s t).ingress = t.ingress := rfl
@[simp] theorem settle_lastLane (s t : State) : (settle s t).lastLane = t.lastLane := rfl
@[simp] theorem settle_linkUp (s t : State) : (settle s t).linkUp = t.linkUp := rfl
@[simp] theorem settle_rreqs (s t : State) : (settle s t).rreqs = t.rreqs := rfl
@[simp] theorem settle_payStore (s t : State) : (settle s t).payStore = t.payStore := rfl
@[simp] theorem settle_twinA (s t : State) : (settle s t).twinA = t.twinA := rfl
@[simp] theorem settle_twinB (s t : State) : (settle s t).twinB = t.twinB := rfl
@[simp] theorem settle_active (s t : State) : (settle s t).active = t.active := rfl
@[simp] theorem settle_egress (s t : State) : (settle s t).egress = t.egress := rfl
@[simp] theorem settle_sw (s t : State) : (settle s t).sw = t.sw := rfl
@[simp] theorem settle_tmr (s t : State) : (settle s t).tmr = t.tmr := rfl
@[simp] theorem settle_failStop (s t : State) : (settle s t).failStop = t.failStop := rfl
@[simp] theorem settle_nvm (s t : State) : (settle s t).nvm = t.nvm := rfl
@[simp] theorem settle_alm (s t : State) : (settle s t).alm = t.alm := rfl
@[simp] theorem settle_tamper (s t : State) : (settle s t).tamper = t.tamper := rfl
@[simp] theorem settle_port0 (s t : State) : (settle s t).port0 = t.port0 := rfl
@[simp] theorem settle_port1 (s t : State) : (settle s t).port1 = t.port1 := rfl
@[simp] theorem settle_life (s t : State) : (settle s t).life = t.life := rfl
@[simp] theorem settle_power (s t : State) : (settle s t).power = t.power := rfl
@[simp] theorem settle_wear (s t : State) : (settle s t).wear = t.wear := rfl
@[simp] theorem settle_boot (s t : State) : (settle s t).boot = t.boot := rfl
@[simp] theorem settle_health (s t : State) : (settle s t).health = t.health := rfl
@[simp] theorem settle_sticky (s t : State) : (settle s t).sticky = t.sticky := rfl
@[simp] theorem settle_stickyAt (s t : State) : (settle s t).stickyAt = t.stickyAt := rfl
@[simp] theorem settle_resetN (s t : State) : (settle s t).resetN = t.resetN := rfl
@[simp] theorem settle_out (s t : State) : (settle s t).out = t.out := rfl
@[simp] theorem settle_free (s t : State) : (settle s t).free = t.free := rfl
@[simp] theorem settle_pending (s t : State) : (settle s t).pending = t.pending := rfl

/-- A twin just written reads back. -/
@[simp] theorem State.twin_setTwin (s : State) (w : Twin) (x : TwinSt) : (s.setTwin w x).twin w = x := by cases w <;> rfl

/-- Writing one twin leaves the other. -/
@[simp] theorem State.other_setTwin (s : State) (w : Twin) (x : TwinSt) :
    (s.setTwin w x).twin (otherTwin w) = s.twin (otherTwin w) := by cases w <;> rfl

/-- Settling leaves both twins. -/
@[simp] theorem settle_twin (s t : State) (w : Twin) : (settle s t).twin w = t.twin w := by cases w <;> rfl

/-- Bringing the time up leaves both twins. -/
@[simp] theorem State.at_twin (s : State) (t : Nat) (w : Twin) : (s.at t).twin w = s.twin w := by cases w <;> rfl

/-- With the Relay out of reset, an event at the present count leaves the time. -/
theorem State.at_now (s : State) (h : s.boot.up = true) : s.at s.now = s := by simp [State.at, h]

/-- The time after an event with the Relay out of reset: the later of the count and the command's stamp. -/
theorem State.at_up (s : State) (t : Nat) (h : s.boot.up = true) : (s.at t).now = max s.now t := by simp [State.at, h]

/-- The attention bits read neither the attention count nor the alert line. -/
@[simp] theorem settle_attnBits (s t : State) : (settle s t).attnBits = t.attnBits := rfl

/-- The attention bits do not depend on the queue. -/
@[simp] theorem attnBits_pending (s : State) (l : List Instr) : ({ s with pending := l } : State).attnBits = s.attnBits := rfl

/-- The attention bits do not depend on the time. -/
@[simp] theorem State.at_attnBits (s : State) (t : Nat) : (s.at t).attnBits = s.attnBits := rfl

end Sys2Proof.Machine
end

