-- ==== Sys2Proof/Laws/Kaibas.lean ====
section
/-! SUPPORT. What one Kaibas instruction can do, said once: the outcome of an instruction that is fetched and defined,
of one iteration under `rep`, and the small lemmas of registers and contexts. -/

namespace Sys2Proof.Machine

@[simp] theorem Ctx.setWord_pc (c : Ctx) (i : Nat) (v : Word) (t : Bool) : (c.setWord i v t).pc = c.pc := rfl
@[simp] theorem Ctx.setWord_rep (c : Ctx) (i : Nat) (v : Word) (t : Bool) : (c.setWord i v t).rep = c.rep := rfl
@[simp] theorem Ctx.setWord_rc (c : Ctx) (i : Nat) (v : Word) (t : Bool) : (c.setWord i v t).rc = c.rc := rfl
@[simp] theorem Ctx.setWord_sr (c : Ctx) (i : Nat) (v : Word) (t : Bool) : (c.setWord i v t).sr = c.sr := rfl
@[simp] theorem Ctx.setWord_lmem (c : Ctx) (i : Nat) (v : Word) (t : Bool) : (c.setWord i v t).lmem = c.lmem := rfl
@[simp] theorem Ctx.setReg_pc (c : Ctx) (n : BitVec 5) (v : Word) (t : Bool) : (c.setReg n v t).pc = c.pc := by
  unfold Ctx.setReg; split <;> rfl
@[simp] theorem Ctx.setReg_rep (c : Ctx) (n : BitVec 5) (v : Word) (t : Bool) : (c.setReg n v t).rep = c.rep := by
  unfold Ctx.setReg; split <;> rfl
@[simp] theorem Ctx.setReg_rc (c : Ctx) (n : BitVec 5) (v : Word) (t : Bool) : (c.setReg n v t).rc = c.rc := by
  unfold Ctx.setReg; split <;> rfl
@[simp] theorem Ctx.setReg_sr (c : Ctx) (n : BitVec 5) (v : Word) (t : Bool) : (c.setReg n v t).sr = c.sr := by
  unfold Ctx.setReg; split <;> rfl
@[simp] theorem Ctx.setReg_lmem (c : Ctx) (n : BitVec 5) (v : Word) (t : Bool) : (c.setReg n v t).lmem = c.lmem := by
  unfold Ctx.setReg; split <;> rfl
@[simp] theorem Ctx.setCarry_pc (c : Ctx) (v t : Bool) : (c.setCarry v t).pc = c.pc := rfl
@[simp] theorem Ctx.setCarry_regs (c : Ctx) (v t : Bool) : (c.setCarry v t).regs = c.regs := rfl
@[simp] theorem Ctx.accumulate_pc (c : Ctx) (v : Nat) (t : Bool) : (c.accumulate v t).pc = c.pc := rfl
@[simp] theorem Ctx.accumulate_regs (c : Ctx) (v : Nat) (t : Bool) : (c.accumulate v t).regs = c.regs := rfl
@[simp] theorem Ctx.setAccWord_pc (c : Ctx) (i : Nat) (v : Word) (t : Bool) : (c.setAccWord i v t).pc = c.pc := rfl
@[simp] theorem Ctx.lput_pc (c : Ctx) (a : Nat) (b : Bytes) (t : Bool) : (c.lput a b t).pc = c.pc := rfl
@[simp] theorem Ctx.lput_regs (c : Ctx) (a : Nat) (b : Bytes) (t : Bool) : (c.lput a b t).regs = c.regs := rfl
@[simp] theorem Ctx.lput_lmem (c : Ctx) (a : Nat) (b : Bytes) (t : Bool) : (c.lput a b t).lmem = storeBytes c.lmem a b := rfl

/-- The context just written reads back. -/
theorem State.ctx_putCtx (s : State) (e : KEnv) (x : TwinSt) (c : Ctx) :
    Tbl.find? ((s.putCtx e x c).twin e.w).ctxs (ctxKey e.cid) = some c := by
  simp [State.putCtx]

/-- A step taken leaves both twins. -/
@[simp] theorem State.twin_takeStep (s : State) (i : Nat) (w : Twin) : (s.takeStep i).twin w = s.twin w := by
  unfold State.takeStep; cases w <;> split <;> rfl

/-- In an island that no debug act halted there is no step to take. -/
theorem State.takeStep_free {s : State} {i : Nat} (h : Tbl.find? s.life.halted i = none) : s.takeStep i = s := by
  simp [State.takeStep, h]

/-- What the outcome of an instruction makes of the state (R226, R227). -/
def KRes.land (s : State) (e : KEnv) (len : Nat) : KRes → State
  | .ok x c => s.putCtx e x { c with pc := c.pc + BitVec.ofNat 64 len }
  | .jump x c t => s.putCtx e x { c with pc := t }
  | .exc c cause sub reg info => s.raise e c cause sub reg info e.c.pc.toNat
  | .abort => s.killTask e 0 0 0 e.c.pc.toNat
  | .leave f => f s

/-- With its second word fetched, a long form's outcome stands as it is, and so does that of a short form. -/
theorem KEnv.second_run {e : KEnv} {len here : Nat} (r : KRes)
    (h : len = 8 → e.canFetch (here + 4) = true ∧ e.missing (here + 4) = none) : e.second len here r = r := by
  unfold KEnv.second
  split
  · rfl
  · next h8 =>
    obtain ⟨hf, hm⟩ := h (by omega)
    split
    · rfl
    · simp [hf, KEnv.filled, hm]

/-- An instruction that is fetched and defined: its outcome lands. -/
theorem kstep_run {s : State} {c : Cid} {len : Nat} {e : KEnv} {d : KEnv → Bool} {r : RepKind} {op : KEnv → KRes}
    (h : Fetches s c len e) (hd : d e = true) : kstep c len d r op s = (op e).land (s.takeStep e.cid.island) e len := by
  obtain ⟨-, hk, hr, hf, ha, hm, hp⟩ := h
  have he : ({ e with c := { e.c with rep := none } } : KEnv) = e := by
    cases e with | mk w cid x c q i req slot now => cases c; simp at hr; subst hr; rfl
  have hc : ({ e.c with rep := none } : Ctx) = e.c := congrArg KEnv.c he
  unfold kstep
  simp only [hk, hr, hc, hf, ha, hd, hm, KEnv.second_run _ hp]
  simp only [not_true_eq_false, if_false, ne_eq]
  cases op e <;> rfl

/-- An instruction that is fetched and defined, as a command. -/
theorem kev_run {s : State} {c : Cid} {len : Nat} {e : KEnv} {d : KEnv → Bool} {r : RepKind} {op : KEnv → KRes}
    (h : Fetches s c len e) (hd : d e = true) : kev c len d r op s = .next (settle s ((op e).land (s.takeStep e.cid.island) e len)) := by
  unfold kev ev
  rw [State.at_now s h.1, kstep_run h hd]

/-- An instruction that completes without moving the pc itself goes on at the next instruction. -/
theorem kev_ok {s : State} {c : Cid} {len : Nat} {e : KEnv} {d : KEnv → Bool} {r : RepKind} {op : KEnv → KRes}
    {x : TwinSt} {k : Ctx} (h : Fetches s c len e) (hd : d e = true) (ho : op e = .ok x k) (hp : k.pc = e.c.pc) :
    kev c len d r op s = Advance s e len x k := by
  rw [kev_run h hd, ho]
  simp only [KRes.land, Advance, hp]

/-- An instruction that transfers control goes on at its target. -/
theorem kev_jump {s : State} {c : Cid} {len : Nat} {e : KEnv} {d : KEnv → Bool} {r : RepKind} {op : KEnv → KRes}
    {x : TwinSt} {k : Ctx} {t : BitVec 64} (h : Fetches s c len e) (hd : d e = true) (ho : op e = .jump x k t) :
    kev c len d r op s = Transfer s e x k t := by
  rw [kev_run h hd, ho]
  simp only [KRes.land, Transfer]

/-- An instruction that raises an exception. -/
theorem kev_exc {s : State} {c : Cid} {len : Nat} {e : KEnv} {d : KEnv → Bool} {r : RepKind} {op : KEnv → KRes}
    {k : Ctx} {cause sub reg info : Nat} (h : Fetches s c len e) (hd : d e = true)
    (ho : op e = .exc k cause sub reg info) : kev c len d r op s = Raises s e k cause sub reg info := by
  rw [kev_run h hd, ho]
  simp only [KRes.land, Raises]

/-- An operation of two registers. -/
theorem kRR_run {s : State} {c : Cid} {e : KEnv} {rd rs1 rs2 : BitVec 5} {f : Word → Word → Word}
    (h : Fetches s c 4 e) : kRR c rd rs1 rs2 0 f s =
      Advance s e 4 e.x (e.c.setReg rd (f (e.c.reg rs1).1 (e.c.reg rs2).1) ((e.c.reg rs1).2 || (e.c.reg rs2).2)) :=
  kev_ok h rfl rfl (Ctx.setReg_pc _ _ _ _)

/-- An operation of one register. -/
theorem kR_run {s : State} {c : Cid} {e : KEnv} {rd rs1 : BitVec 5} {len : Nat} {r : RepKind} {f : Word → Word}
    (h : Fetches s c len e) : kR c rd rs1 0 len r f s =
      Advance s e len e.x (e.c.setReg rd (f (e.c.reg rs1).1) (e.c.reg rs1).2) :=
  kev_ok h rfl rfl (Ctx.setReg_pc _ _ _ _)

/-- One iteration of a repeatable instruction that completes (R223). -/
theorem kstep_rep {s : State} {c : Cid} {p : BitVec 64} {e : KEnv} {d : KEnv → Bool} {l : List (BitVec 5 × Int)}
    {op : KEnv → KRes} {x : TwinSt} {k : Ctx} (h : Repeats s c p e)
    (hd : d { e with c := { e.c with rep := none } } = true)
    (ho : op { e with c := { e.c with rep := none } } = .ok x k) :
    kstep c 4 d (.yes l) op s =
      (s.takeStep e.cid.island).putCtx e x { moveBases { k with rc := k.rc - 1 } l with
        pc := if (moveBases { k with rc := k.rc - 1 } l).rc = 0 then p + 8 else p } := by
  obtain ⟨-, hk, hr, hc, hf, ha, hm⟩ := h
  unfold kstep
  have hf' : KEnv.canFetch { e with c := { e.c with rep := none } } e.c.pc.toNat = true := hf
  have hm' : KEnv.missing { e with c := { e.c with rep := none } } e.c.pc.toNat = none := hm
  simp only [hk, hr, hf', hm', ha, hd, ho, hc]
  simp [State.putCtx]

end Sys2Proof.Machine
end

