-- ==== Sys2Proof/Laws/Power.lean ====
section
/-! SUPPORT. What wake events leave, said once: power domains and voltages, accesses that gatekeepers held, the records of a module
state that is left, and nothing else. -/

namespace Sys2Proof.Machine

/-- A state with what wake events may change put back as it was in `s`. -/
def State.rested (s t : State) : State :=
  { t with power := s.power, twinA := s.twinA, twinB := s.twinB, out := s.out, free := s.free, stamps := s.stamps, alm := s.alm,
           life := { t.life with halted := s.life.halted } }

/-- A state after wake events: the twins are as before but for what a held debug access wrote and the clusters' flags, and the rest
of the module is but for power, outputs, free values, records and halted islands. -/
def Woken (s t : State) : Prop :=
  WokenOnly s.twinA t.twinA ∧ WokenOnly s.twinB t.twinB ∧ s.rested t = s

theorem WokenOnly.rfl {x : TwinSt} : WokenOnly x x := Eq.refl _

theorem WokenOnly.trans {x y z : TwinSt} (h : WokenOnly x y) (k : WokenOnly y z) : WokenOnly x z := by
  unfold WokenOnly at *
  calc { z with ctxs := x.ctxs, clusters := x.clusters }
      = { ({ z with ctxs := y.ctxs, clusters := y.clusters } : TwinSt) with ctxs := x.ctxs, clusters := x.clusters } := Eq.refl _
    _ = x := by rw [k]; exact h

theorem Woken.rfl {s : State} : Woken s s := ⟨.rfl, .rfl, Eq.refl _⟩

theorem Woken.trans {s t u : State} (h : Woken s t) (k : Woken t u) : Woken s u := by
  obtain ⟨ha, hb, hr⟩ := h
  obtain ⟨ka, kb, kr⟩ := k
  refine ⟨ha.trans ka, hb.trans kb, ?_⟩
  calc s.rested u = s.rested (t.rested u) := Eq.refl _
    _ = s := by rw [kr]; exact hr

/-- A fold of steps that wake. -/
theorem Woken.foldl {α : Type} {f : State → α → State} (h : ∀ s a, Woken s (f s a)) (l : List α) (s : State) :
    Woken s (l.foldl f s) := by
  induction l generalizing s with
  | nil => exact .rfl
  | cons a l ih => exact (h s a).trans (ih _)

/-- What a wake leaves of a twin. -/
theorem Woken.twin {s t : State} (h : Woken s t) (w : Twin) : WokenOnly (s.twin w) (t.twin w) := by
  cases w
  · exact h.1
  · exact h.2.1

/-- A part of the module that a wake leaves. -/
theorem Woken.eq {α : Type} {s t : State} (h : Woken s t) (f : State → α) (hf : f (s.rested t) = f t) : f t = f s :=
  hf.symm.trans (congrArg f h.2.2)

theorem Woken.updTwin {s : State} (w : Twin) {f : TwinSt → TwinSt} (h : WokenOnly (s.twin w) (f (s.twin w))) : Woken s (s.updTwin w f) := by
  cases w
  · exact ⟨h, .rfl, Eq.refl _⟩
  · exact ⟨.rfl, h, Eq.refl _⟩

theorem Woken.updPower (s : State) (f : Power → Power) : Woken s (s.updPower f) := ⟨.rfl, .rfl, Eq.refl _⟩

theorem Woken.setVid (s : State) : Woken s s.setVid := by
  unfold State.setVid
  split
  · exact .rfl
  · exact .updPower s _

theorem Woken.setDomain (s : State) (n : Nat) (d : Domain) : Woken s (s.setDomain n d) := by
  unfold State.setDomain
  have h : ∀ (c : Prop) [Decidable c] (p : Power), Woken s (if c then { s with power := p } else State.setVid { s with power := p }) := by
    intro c _ p
    have hp : Woken s { s with power := p } := ⟨.rfl, .rfl, Eq.refl _⟩
    split
    · exact hp
    · exact hp.trans (.setVid _)
  exact h _ _

theorem Woken.updDomain (s : State) (n : Nat) (f : Domain → Domain) : Woken s (s.updDomain n f) := .setDomain s n _

theorem Woken.answerAccess (s : State) (n : Nat) (v : Option (Word × Bool)) (b : Bool) : Woken s (s.answerAccess n v b) :=
  ⟨.rfl, .rfl, Eq.refl _⟩

theorem Woken.fresh (s : State) : Woken s s.fresh.2 := ⟨.rfl, .rfl, Eq.refl _⟩

/-- A debug write changes contexts and clusters alone. -/
theorem TwinSt.debugWrite_woken (x : TwinSt) (isl : Nat) (l : DbgLoc) (v : Word) (tag : Bool) :
    WokenOnly x (x.debugWrite isl l v tag) := by
  have h : ∀ (c : Prop) [Decidable c] (y : TwinSt), WokenOnly x y → WokenOnly x (if c then y else x) := by
    intro c _ y hy
    split
    · exact hy
    · exact .rfl
  unfold TwinSt.debugWrite
  cases l with
  | word n i => exact h _ _ (h _ _ (Eq.refl _))
  | special n r => exact h _ _ (Eq.refl _)
  | mem n a => exact h _ _ (Eq.refl _)
  | sram k a => exact h _ _ (Eq.refl _)
  | other k => exact .rfl

theorem Woken.halted (s : State) (t : Tbl Nat) : Woken s { s with life := { s.life with halted := t } } := ⟨.rfl, .rfl, Eq.refl _⟩

/-- A debug act (R402, R403). -/
theorem Woken.debugAct (s : State) (isl : Nat) (act : DbgKind) : Woken s (s.debugAct isl act) := by
  unfold State.debugAct
  cases act with
  | halt => exact (Woken.halted s _).trans (.answerAccess _ _ _ _)
  | step =>
    dsimp only
    split
    · exact (Woken.halted s _).trans (.answerAccess _ _ _ _)
    · exact .answerAccess _ _ _ _
  | resume => exact (Woken.halted s _).trans (.answerAccess _ _ _ _)
  | read l =>
    dsimp only
    split
    · exact .answerAccess _ _ _ _
    · exact (Woken.fresh s).trans (.answerAccess _ _ _ _)
  | write l v tag =>
    dsimp only
    refine Woken.trans ?_ (.answerAccess _ _ _ _)
    split
    · exact .updTwin _ (TwinSt.debugWrite_woken _ _ _ _ _)
    · exact .rfl

/-- An access served (R419). -/
theorem Woken.serveAccess (s : State) (n : Nat) (a : GateAcc) : Woken s (s.serveAccess n a) := by
  unfold State.serveAccess
  split
  · exact .answerAccess _ _ _ _
  · exact (Woken.fresh s).trans (.answerAccess _ _ _ _)
  · exact .debugAct _ _ _

/-- A domain that returns to Run (R415, R419, R421). -/
theorem Woken.toRun (s : State) (n : Nat) : Woken s (s.toRun n) := by
  have h1 : ∀ (c : Prop) [Decidable c] (u : State) (f : Power → Power), Woken s u → Woken s (if c then u.updPower f else u) := by
    intro c _ u f h
    split
    · exact h.trans (.updPower _ _)
    · exact h
  have h2 : ∀ (o : Option Twin) (u : State) (f : TwinSt → Tbl Ctx), Woken s u →
      Woken s (match o with | some w => u.updTwin w (fun x => { x with ctxs := f x }) | none => u) := by
    intro o u f h
    cases o with
    | none => exact h
    | some w => exact h.trans (.updTwin w (Eq.refl (u.twin w)))
  unfold State.toRun
  exact (h2 _ _ _ (h1 _ _ _ (.setDomain _ _ _))).trans (.foldl (fun s a => .serveAccess s n a) _ _)

theorem Woken.wakeDom (s : State) (n : Nat) : Woken s (s.wakeDom n) := by
  unfold State.wakeDom
  dsimp only
  split
  · exact .updDomain _ _ _
  · exact .toRun _ _

theorem Woken.wakeDoms (s : State) (l : List Nat) : Woken s (s.wakeDoms l) := .foldl Woken.wakeDom l s

theorem Woken.abortOne (s : State) (n : Nat) : Woken s (s.abortOne n) := by
  unfold State.abortOne
  dsimp only
  split
  · exact .rfl
  · exact (Woken.updDomain _ _ _).trans ((Woken.foldl Woken.toRun _ _).trans (.wakeDoms _ _))

theorem Woken.abortEntry (s : State) (n : Nat) : Woken s (s.abortEntry n) := by
  unfold State.abortEntry
  split
  · exact .foldl Woken.abortOne _ _
  · exact .abortOne _ _

theorem Woken.wakeNow (s : State) (n : Nat) : Woken s (s.wakeNow n) := by
  unfold State.wakeNow
  dsimp only
  refine Woken.trans ?_ ((Woken.abortEntry _ n).trans (.toRun _ _))
  split
  · exact .abortEntry _ _
  · exact .rfl

/-- A record that is not evidence, handed to the Relay. -/
theorem Woken.note (s : State) (e : EvReq) (h : e.sev ≠ sevEvid) : Woken s (s.note e) := by
  unfold State.note
  rw [if_neg h]
  split
  · exact ⟨.rfl, .rfl, Eq.refl s⟩
  · exact ⟨.rfl, .rfl, Eq.refl s⟩

/-- A module state entered (R422). -/
theorem Woken.enterMod (s : State) (m : ModPower) : Woken s (s.enterMod m) := by
  unfold State.enterMod
  split
  · exact .rfl
  · have h : ∀ (u : State) d, Woken u (u.event (0xC000 + 425) 0 3 d) := by
      intro u d
      have hi : u.issuer (0xC000 + 425) 3 d = 425 := by
        unfold State.issuer
        simp [powerManager]
      unfold State.event
      rw [hi]
      exact Woken.trans (t := u.stamped 425) ⟨.rfl, .rfl, Eq.refl u⟩ (.note _ _ (show (0 : Nat) ≠ 3 by decide))
    exact Woken.trans (t := { s with power := { s.power with mod := m } }) ⟨.rfl, .rfl, Eq.refl s⟩ (h _ _)

theorem Woken.exitStandby (s : State) : Woken s s.exitStandby := by
  unfold State.exitStandby
  split
  · exact .rfl
  · exact (Woken.foldl Woken.toRun _ _).trans ((Woken.updPower _ _).trans (.enterMod _ _))

theorem Woken.wakeCluster (s : State) (w : Twin) (k : Nat) : Woken s (s.wakeCluster w k) := by
  unfold State.wakeCluster
  split
  · exact .rfl
  · have h : Woken s ((s.updTwin w (fun x => x.setTrimmed k false)).wakeDoms (trimDoms w k)) :=
      (Woken.updTwin w (f := fun x => x.setTrimmed k false) (Eq.refl (s.twin w))).trans (.wakeDoms _ _)
    dsimp only
    split
    · exact h
    · exact h.trans (.enterMod _ _)

theorem Woken.untrim (s : State) (w : Twin) : Woken s (s.untrim w) := by
  unfold State.untrim
  refine .foldl (fun s k => ?_) _ _
  split
  · exact .rfl
  · exact .wakeCluster _ _ _

/-- Every domain of a twin woken (Table 18-5, last row): the twins' requests, stores and units, NVM and the rest of the module are
as before. -/
theorem Woken.wakeTwin (s : State) (w : Twin) : Woken s (s.wakeTwin w) := by
  unfold State.wakeTwin
  exact ((Woken.exitStandby s).trans (.abortEntry _ _)).trans ((Woken.foldl Woken.wakeNow _ _).trans (.untrim _ _))

end Sys2Proof.Machine
end

