-- ==== Sys2Proof/Laws/Requests.lean ====
section
/-! SUPPORT. What ending a request leaves: its end record stands in the twin, and nothing but its tasks has moved. -/

namespace Sys2Proof.Machine

/-- An entry changed reads back changed, and every other entry is as before. -/
theorem Tbl.find?_upd {α : Type} (t : Tbl α) (i j : Nat) (f : α → α) :
    Tbl.find? (Tbl.upd t i f) j = if j = i then (Tbl.find? t j).map f else Tbl.find? t j := by
  unfold Tbl.upd
  split
  · next x h =>
    rw [Tbl.find?_put]
    by_cases hj : j = i
    · subst hj; simp [h]
    · simp [hj]
  · next h =>
    by_cases hj : j = i
    · subst hj; simp [h]
    · simp [hj]

/-- A request of a twin changed. -/
theorem TwinSt.find?_updReq (x : TwinSt) (p q : Nat) (f : Req → Req) :
    Tbl.find? (x.updReq p f).reqs q = if q = p then (Tbl.find? x.reqs q).map f else Tbl.find? x.reqs q :=
  Tbl.find?_upd x.reqs p q f

/-- A request without its read log and what its tasks, the application of its effects and the ends of its predecessors move. -/
def Req.core (r : Req) : Req := { r with log := none, tasks := [], gens := [], ran := 0, applied := false, undo := [], told := [] }

/-- A request stands as before but for its tasks. -/
def SameReq (q : Nat) (x y : TwinSt) : Prop := (Tbl.find? y.reqs q).map Req.core = (Tbl.find? x.reqs q).map Req.core

theorem SameReq.rfl {q : Nat} {x : TwinSt} : SameReq q x x := Eq.refl _

theorem SameReq.trans {q : Nat} {x y z : TwinSt} (h : SameReq q x y) (k : SameReq q y z) : SameReq q x z :=
  Eq.trans k h

/-- A change that leaves the core of a request. -/
theorem SameReq.updReq {q p : Nat} (x : TwinSt) (f : Req → Req) (h : ∀ r, (f r).core = r.core) :
    SameReq q x (x.updReq p f) := by
  unfold SameReq
  rw [TwinSt.find?_updReq]
  split
  · cases Tbl.find? x.reqs q <;> simp [h]
  · exact Eq.refl _

theorem SameReq.updTask {q p i : Nat} (x : TwinSt) (f : Task → Task) : SameReq q x (x.updTask p i f) :=
  SameReq.updReq x _ (fun _ => Eq.refl _)

/-- A change of anything but the requests. -/
theorem SameReq.of_reqs {q : Nat} {x y : TwinSt} (h : y.reqs = x.reqs) : SameReq q x y := by
  unfold SameReq
  rw [h]

theorem SameReq.foldl {α : Type} {q : Nat} (f : TwinSt → α → TwinSt) (h : ∀ x a, SameReq q x (f x a)) (l : List α)
    (x : TwinSt) : SameReq q x (l.foldl f x) := by
  induction l generalizing x with
  | nil => exact SameReq.rfl
  | cons a l ih => exact (h x a).trans (ih (f x a))

theorem SameReq.stopCharge {q : Nat} (x : TwinSt) (now p i : Nat) : SameReq q x (x.stopCharge now p i) := by
  unfold TwinSt.stopCharge
  split
  · split
    · exact (SameReq.updTask x _).trans (SameReq.of_reqs (Eq.refl _))
    · exact SameReq.rfl
  · exact SameReq.rfl

theorem SameReq.recharge {q : Nat} (x : TwinSt) (isl now : Nat) : SameReq q x (x.recharge isl now) := by
  unfold TwinSt.recharge
  have h : ∀ (l : List (Nat × Nat × Nat)) (n : Option (Nat × Nat)) (x : TwinSt), SameReq q x
      (l.foldl (fun x e => if n = some (e.1, e.2.1) then x else x.stopCharge now e.1 e.2.1) x) := by
    intro l n x
    refine SameReq.foldl _ (fun x e => ?_) l x
    split
    · exact SameReq.rfl
    · exact SameReq.stopCharge x _ _ _
  dsimp only
  split
  · exact (h _ _ x).trans (SameReq.updTask _ _)
  · exact h _ _ x

theorem SameReq.wakeMem {q : Nat} (x : TwinSt) (now : Nat) (ends : Cid → Ctx → Bool) : SameReq q x (x.wakeMem now ends) := by
  unfold TwinSt.wakeMem
  refine SameReq.foldl _ (fun y k => SameReq.trans (SameReq.of_reqs ?_) (SameReq.recharge _ _ _)) _ x
  rfl

/-- Tasks dropped leave the rest of every request. -/
theorem SameReq.dropTasks {q : Nat} (x : TwinSt) (now p : Nat) (sel : Nat → Bool) (wipe : Bool) :
    SameReq q x (x.dropTasks now p sel wipe) := by
  unfold TwinSt.dropTasks
  dsimp only
  refine SameReq.trans ?_ (SameReq.foldl _ (fun x k => SameReq.wakeMem x now _) _ _)
  refine SameReq.trans ?_ (SameReq.foldl _ (fun x i => SameReq.recharge x i now) _ _)
  refine SameReq.trans ?_ (SameReq.updReq _ _ (fun r => ?_))
  · refine SameReq.trans (SameReq.foldl _ (fun x i => SameReq.foldl _ (fun x e => ?_) _ x) _ x) (SameReq.of_reqs (Eq.refl _))
    split
    · exact SameReq.stopCharge x _ _ _
    · exact SameReq.rfl
  · exact Eq.refl _

/-- A change of every entry reads back as the entry's change. -/
theorem Tbl.find?_map {α : Type} (f : α → α) (t : Tbl α) (j : Nat) :
    Tbl.find? (t.map (fun (e : Nat × α) => (e.1, f e.2))) j = (Tbl.find? t j).map f := by
  induction t with
  | nil => rfl
  | cons a t ih => simp only [List.map_cons, Tbl.find?, ih]; split <;> simp

theorem SameReq.notify {q : Nat} (x : TwinSt) (p st : Nat) : SameReq q x (x.notify p st) := by
  unfold SameReq TwinSt.notify
  dsimp only
  rw [Tbl.find?_map (fun r : Req =>
    if (r.preds.contains p && !r.told.contains p && r.fin.isNone) = true then { r with told := p :: r.told } else r)]
  cases Tbl.find? x.reqs q with
  | none => rfl
  | some r => simp only [Option.map_some]; congr 1; split <;> rfl

theorem SameReq.applyFin {q : Nat} (x : TwinSt) (p : Nat) : SameReq q x (x.applyFin p) := by
  unfold TwinSt.applyFin
  split
  · split
    · split
      · exact SameReq.rfl
      · dsimp only
        refine SameReq.trans (SameReq.trans (SameReq.of_reqs ?_) (SameReq.updReq _ _ ?_)) (SameReq.notify _ _ _)
        · rfl
        · exact fun _ => Eq.refl _
    · exact SameReq.rfl
  · exact SameReq.rfl

theorem SameReq.sweep {q : Nat} (x : TwinSt) : SameReq q x x.sweep := SameReq.of_reqs (Eq.refl _)

theorem SameReq.taskDone {q : Nat} (x : TwinSt) (now p : Nat) : SameReq q x (x.taskDone now p).2 := by
  unfold TwinSt.taskDone
  split <;> exact SameReq.of_reqs (Eq.refl _)

theorem SameReq.keepLog {q : Nat} (x : TwinSt) (p : Nat) : SameReq q x (x.keepLog p) := by
  unfold TwinSt.keepLog
  split
  · split
    · exact SameReq.updReq _ _ (fun _ => Eq.refl _)
    · exact SameReq.rfl
  · exact SameReq.rfl

theorem SameReq.stampEvs {q : Nat} (now l : Nat) (es : List EvReq) (x : TwinSt) : SameReq q x (x.stampEvs now l es).2 := by
  induction es generalizing x with
  | nil => exact SameReq.rfl
  | cons e es ih => exact SameReq.trans (SameReq.of_reqs (Eq.refl _)) (ih (x.stamped now l))

theorem SameReq.stampEnd {q : Nat} (x : TwinSt) (now p : Nat) (es : List EvReq) : SameReq q x (x.stampEnd now p es).2 :=
  ((SameReq.taskDone x now p).trans (SameReq.of_reqs (Eq.refl _))).trans (SameReq.stampEvs _ _ _ _)

/-- A request not yet ended: after its end its record is the one that `endOf` forms, and the rest of it stands. -/
theorem TwinSt.finish_fin {x : TwinSt} {act : Bool} {st q : Nat} {e : EndRec} {r : Req}
    (h : Tbl.find? x.reqs q = some r) (hf : r.fin = none) :
    ∃ r', Tbl.find? (x.finish act st q e).reqs q = some r' ∧
      r'.core = ({ r with fin := some (x.endOf act st q r e) } : Req).core := by
  unfold TwinSt.finish
  simp only [h, hf, Option.isSome_none, Bool.false_eq_true, if_false]
  generalize hy : ((x.stampEnd st q e.evs).2.keepLog q).dropTasks st q (fun _ => true) false = y at *
  have h1 : SameReq q x y := by
    rw [← hy]
    exact ((SameReq.stampEnd x st q e.evs).trans (SameReq.keepLog _ _)).trans (SameReq.dropTasks _ _ _ _ _)
  rw [SameReq, h] at h1
  obtain ⟨r1, hr1, hc1⟩ : ∃ r1, Tbl.find? y.reqs q = some r1 ∧ r1.core = r.core := by
    cases hh : Tbl.find? y.reqs q with
    | none => rw [hh] at h1; cases h1
    | some r1 => rw [hh] at h1; exact ⟨r1, Eq.refl _, Option.some.inj h1⟩
  generalize he : x.endOf act st q r e = e' at *
  have h2 : Tbl.find? (y.updReq q (fun r => { r with fin := some e' })).reqs q = some { r1 with fin := some e' } := by
    rw [TwinSt.find?_updReq]
    simp [hr1]
  have hcore : ({ r1 with fin := some e' } : Req).core = ({ r with fin := some e' } : Req).core :=
    congrArg (fun r : Req => ({ r with fin := some e' } : Req)) hc1
  have key : ∀ z : TwinSt, SameReq q (y.updReq q (fun r => { r with fin := some e' })) z →
      ∃ r', Tbl.find? z.reqs q = some r' ∧ r'.core = ({ r with fin := some e' } : Req).core := by
    intro z hz
    rw [SameReq, h2] at hz
    cases hh : Tbl.find? z.reqs q with
    | none => rw [hh] at hz; cases hz
    | some r' => rw [hh] at hz; exact ⟨r', Eq.refl _, (Option.some.inj hz).trans hcore⟩
  refine key _ (SameReq.trans ?_ (SameReq.sweep _))
  split
  · exact SameReq.trans (SameReq.of_reqs (Eq.refl _)) (SameReq.applyFin _ _)
  · exact SameReq.of_reqs (Eq.refl _)

/-- The end record that ending a request in a twin of the state leaves, and the header and the space of the request. -/
theorem State.finish_fin {s : State} {w : Twin} {q : Nat} {e : EndRec} {r : Req}
    (h : Tbl.find? (s.twin w).reqs q = some r) (hf : r.fin = none) :
    ∃ r', Tbl.find? ((s.finish w q e).twin w).reqs q = some r' ∧
      r'.fin = some ((s.twin w).endOf (s.isActive w) s.now q r e) ∧ r'.hdr = r.hdr ∧ r'.space = r.space := by
  obtain ⟨r', h1, h2⟩ := TwinSt.finish_fin (act := s.isActive w) (st := s.now) (e := e) h hf
  refine ⟨r', ?_, congrArg Req.fin h2, (congrArg Req.hdr h2 : r'.core.hdr = _), (congrArg Req.space h2 : r'.core.space = _)⟩
  unfold State.finish State.updTwin
  rw [State.twin_setTwin]
  exact h1

end Sys2Proof.Machine
end

