-- ==== Sys2Proof/Laws/Services.lean ====
section
/-! SUPPORT. What a service of `svc` can do, said once. -/

namespace Sys2Proof.Machine

/-- Results written leave the pc. -/
@[simp] theorem setResults_pc (c : Ctx) (vs : List Nat) : (setResults c vs).pc = c.pc := by
  unfold setResults
  generalize vs.zipIdx = l
  induction l generalizing c with
  | nil => rfl
  | cons a l ih => simp [ih]

/-- A service that completes goes on at the next instruction. -/
theorem kSvc_ok {s : State} {t fn : Nat} {c : Cid} {e : KEnv} {op : KEnv → KRes} {x : TwinSt} {k : Ctx}
    (h : Fetches (s.at t) c 4 e) (hz : e.zenith = false) (ho : op e = .ok x k) (hp : k.pc = e.c.pc) :
    kSvc t c 0 fn op s = .next (settle s (((s.at t).takeStep e.cid.island).putCtx e x { k with pc := e.c.pc + 4 })) := by
  unfold kSvc ev
  rw [kstep_run h rfl]
  simp [hz, ho, KRes.land, hp]

/-- A service that changes the whole state. -/
theorem kSvc_leave {s : State} {t fn : Nat} {c : Cid} {e : KEnv} {op : KEnv → KRes} {f : State → State}
    (h : Fetches (s.at t) c 4 e) (hz : e.zenith = false) (ho : op e = .leave f) :
    kSvc t c 0 fn op s = .next (settle s (f ((s.at t).takeStep e.cid.island))) := by
  unfold kSvc ev
  rw [kstep_run h rfl]
  simp [hz, ho, KRes.land]

end Sys2Proof.Machine
end

