-- ==== Sys2Proof/WellFormed.lean ====
section
/-! DEFINITION. Which commands are well formed: operands that name things the block has. -/

namespace Sys2Proof

/-- The physical function 0 and the virtual functions 1 to 255 (R36). -/
def fnOk (fn : Nat) : Bool := decide (fn < 256)

/-- An access of 4 or 8 bytes to BAR0, BAR2 or the configuration space, of a value that it holds (R36, R41, assumption 197). -/
def regOk (off width val : Nat) : Bool :=
  decide (off < 0x21000) && (width == 4 || width == 8) && decide (val < 2 ^ (8 * width))

/-- A transaction core or a cipher engine (R18). -/
def unitOk (island : Nat) : Bool := decide (island < 412) && decide (island % 206 < 192)

/-- An island, or a cluster memory sub-domain (R408), or 0xFFFF for the module's state (Table 18-8). -/
def domOk (dom : Nat) : Bool := decide (dom < 460) || dom == 0xFFFF

/-- A triple-redundant function of the Relay by its code in event 0x600C (R11). -/
def funcOk (func : Nat) : Bool := decide (1 ≤ func) && decide (func ≤ 5)

/-- A tamper class (Table 15-1). -/
def classOk (cls : Nat) : Bool := decide (1 ≤ cls) && decide (cls ≤ 11)

/-- A cause of Table 14-4. -/
def causeOk (cause : Nat) : Bool := decide (1 ≤ cause) && decide (cause ≤ 13)

/-- A reason for which a row or a bank of SRAM is replaced (Table 19-5). -/
def reasonOk (reason : Nat) : Bool := reason == 1 || reason == 3 || reason == 4

/-- An octet string of a given length. -/
def lenIs (n : Nat) (b : Bytes) : Bool := b.length == n

/-- One to eight entries of 64 or 256 bytes (R50, R60). -/
def entriesOk (l : List Bytes) : Bool :=
  decide (1 ≤ l.length) && decide (l.length ≤ 8) && l.all (fun b => b.length == 64 || b.length == 256)

/-- A context of a transaction core, or Zenith's (R18, R200). -/
def Cid.wf (c : Cid) : Bool :=
  decide (c.island < 412) &&
  ((decide (c.island % 206 < 192) && decide (c.island % 206 % 12 < 9) && decide (c.ctx < 2)) ||
   (c.island % 206 == 198 && c.ctx == 0))

/-- Eight samples of a monitor of a class (R364). -/
def MonSample.wf (x : MonSample) : Bool := classOk x.cls && decide (x.mon < 256) && x.hits.length == 8

/-- Whether a command is well formed. -/
def Instr.wf : Instr → Bool
  | .registerWrite _ fn off width val => fnOk fn && regOk off width val
  | .highWordLatchRead _ fn off width => fnOk fn && regOk off width 0
  | .mbxEnable _ fn val | .mbxDisable _ fn val => fnOk fn && decide (val < 2 ^ 32)
  | .sqTailDoorbell _ fn i val | .rqHead _ fn i val => fnOk fn && decide (i < 4096) && decide (val < 2 ^ 32)
  | .almCursor _ val => decide (val < 2 ^ 32)
  | .almWindowLoaded _ | .ptmDialogue _ _ | .perst _ | .linkDown _ | .laneRetrainX8 _ _
  | .payloadReadFailed _ _ | .payloadStoreRead _ _ _ _ _ | .resultRelease _ _ | .broadcastEntryArrival _ _ _
  | .useAssignment _ _ _ _ | .taskDispatch _ _ | .preemption _ _ | .dependenceCompletion _ _
  | .deadlineReached _ _ | .timeoutExitLimit _ _ _ | .runBudgetReached _ _ | .streamTimeout _ _ _ _
  | .discardedIdExpiry _ _ _ _ | .disciplinePulse _ _ | .epochBatch _ _ | .batchReceived _ _
  | .reexecutionComplete _ _ _ _ | .standbyDigestLate _ _ | .batchesMissing _ _ | .egressIsolation _
  | .promotion _ | .discardedReplyPost _ | .newWorkAccept _ | .twinSelftestComplete _ _ _ | .resyncSnapshot _
  | .resyncJoin _ | .resyncHealthy _ | .healthReportSnapshot _ | .endRecordAtRelay _ _ _
  | .entropyStartupTestEnd _ _ _ | .seedProposal _ | .seedAck _ | .seedRenewalEffect _ | .rngServiceStop _
  | .almanacAppend _ _ | .mergeWrite _ _ | .opSecondsRecord _ | .tamperResponseEffect _ | .cmkErased _ _
  | .compZeroized _ _ | .mainPowerLoss _ | .resetNAssert _ | .resetNRelease _ _ | .twinBootTimeout _ _
  | .bootComplete _ | .trialBootTimeout _ | .lcSelfReset _ | .approvalExpiry _ _ | .componentSetExpiry _ _
  | .admNop _ _ _ | .admStatus _ _ _ | .attnAck _ _ _ | .healthGet _ _ _ | .healthNow _ _ _
  | .cfgShadowWrite _ _ _ | .cfgShadowValidate _ _ _ | .cfgSwap _ _ _ | .cfgSwapEffect _ | .cfgRead _ _ _
  | .fwSlotWrite _ _ _ | .fwSlotActivate _ _ _ | .compCreate _ _ _ | .compSuspend _ _ _ | .compResume _ _ _
  | .compZeroize _ _ _ | .officerEnrol _ _ _ | .officerRemove _ _ _ | .approvalSubmit _ _ _
  | .cardExchange _ _ _ | .componentEnter _ _ _ | .unlock _ _ _ | .lcTransition _ _ _ | .debugCertLoad _ _ _
  | .selftestRequest _ _ _ | .attestReport _ _ _ | .almRead _ _ _ | .almExport _ _ _ | .keyGenerate _ _ _
  | .keyImport _ _ _ | .keyExport _ _ _ | .keyPairGenerate _ _ _ | .pubkeyImport _ _ _ | .keyLoad _ _ _
  | .keyUnload _ _ _ | .keyRevoke _ _ _ | .keyInfo _ _ _ | .keySave _ _ _ | .pinTranslate _ _ _
  | .pinVerifyOffset _ _ _ | .pinOffsetGenerate _ _ _ | .pinVerifyReference _ _ _ | .macGenerate _ _ _
  | .macVerify _ _ _ | .dataEncrypt _ _ _ | .dataDecrypt _ _ _ | .sivSeal _ _ _ | .sivOpen _ _ _
  | .kdfDerive _ _ _ | .dukptPinTranslate _ _ _ | .dukptMacVerify _ _ _ | .dukptDataDecrypt _ _ _
  | .dukptIkExport _ _ _ | .sigVerify _ _ _ | .sign _ _ _ | .ecdhDerive _ _ _ | .rngGet _ _ _
  | .drawCertified _ _ _ | .drawLast _ _ _ | .ticketIssue _ _ _ | .ticketValidate _ _ _
  | .ownerImageCommand _ _ _ | .blockE _ _ _ _ | .blockD _ _ _ _ | .xctr _ _ _ _ | .chain _ _ _ _
  | .cv _ _ _ _ | .kdf _ _ _ _ | .hash _ _ _ _ | .kcv _ _ _ _ | .install _ _ _ | .stgBuild _ _ _
  | .holdAlloc _ _ _ | .holdRegionGranted _ _ _ | .holdRelease _ _ _ _ | .holdFree _ _ _
  | .engineOpComplete _ _ _ | .orreryCallStoreAdmit _ _ | .rsaPub _ _ _ | .ecdsaVerify _ _ _
  | .ed25519Verify _ _ _ | .mldsaVerify _ _ _ | .shake256 _ _ _ | .orreryCallComplete _ _ _
  | .orrerySlotBoundary _ _ | .orreryQuantumExpiry _ _ | .wakeEvent _ _ _ | .padHoldRelease _
  | .clusterTrim _ _ _ | .clusterTrimWake _ _ | .standbyHotEntry _ _ | .standbyHotExit _ | .lcStatus _
  | .dbgStatus _ | .bypass _ | .samplePreload _ | .extest _ | .clamp _ | .highz _ | .idcode _ | .tapReset _
  | .smbusHealthSummary _ | .smbusTemperature _ | .smbusAlertResponse _ | .ptmEnable _ _ | .thermalWarning _ _
  | .lcWipeComplete _ | .vnwSourceSwitch _ _ => true
  | .functionLevelReset _ fn | .d3hotEntry _ fn | .d3hotExit _ fn => fnOk fn
  | .submissionFetch _ fn i entries => fnOk fn && decide (i < 4096) && entriesOk entries
  | .entryAcceptance _ pre => decide (pre.length ≤ 64)
  | .fetchError _ fn i | .coalesceTimeout _ fn i => fnOk fn && decide (i < 4096)
  | .relinquish _ _ cause island => causeOk cause && decide (island < 428)
  | .relayCopyDisagree _ func copy => funcOk func && decide (copy < 3)
  | .noiseSourceFail _ _ src _ _ => decide (src < 32)
  | .spareSourceJoin _ _ group => decide (group < 3)
  | .conditionedBlock _ _ group raw => decide (group < 3) && lenIs 256 raw
  | .maskingReseed _ _ island dp => unitOk island && decide (dp < 2)
  | .alarmQualify _ cls mon _ _ | .alarmDeassert _ cls mon _ => classOk cls && decide (mon < 256)
  | .backupWindow _ window => window.samples.all MonSample.wf
  | .cardInserted _ port | .cardRemoved _ port | .cardApduResponse _ port _ | .cardTimeout _ port => decide (port < 2)
  | .add c _ _ _ _ | .sub c _ _ _ _ | .kAnd c _ _ _ _ | .kOr c _ _ _ _ | .kXor c _ _ _ _ | .andn c _ _ _ _
  | .sll c _ _ _ _ | .srl c _ _ _ _ | .sra c _ _ _ _ | .rol c _ _ _ _ | .ror c _ _ _ _ | .slt c _ _ _ _
  | .sltu c _ _ _ _ | .seq c _ _ _ _ | .kMin c _ _ _ _ | .kMax c _ _ _ _ | .minu c _ _ _ _ | .maxu c _ _ _ _
  | .csel c _ _ _ _ | .mul c _ _ _ _ | .mulhu c _ _ _ _ | .mulh c _ _ _ _ | .div c _ _ _ _ | .divu c _ _ _ _
  | .kRem c _ _ _ _ | .remu c _ _ _ _ | .clz c _ _ _ | .ctz c _ _ _ | .popc c _ _ _ | .bswap c _ _ _
  | .adc c _ _ _ _ | .sbb c _ _ _ _ | .macc c _ _ _ | .macc2 c _ _ _ | .accsh c _ _ | .accclr c _
  | .accadd c _ _ | .maccm c _ _ _ | .mmov c _ _ _ | .mfs c _ _ _ | .mts c _ _ _ | .addi c _ _ _
  | .andi c _ _ _ | .ori c _ _ _ | .xori c _ _ _ | .slti c _ _ _ | .sltiu c _ _ _ | .lui c _ _ _
  | .slli c _ _ _ _ | .srli c _ _ _ _ | .srai c _ _ _ _ | .rori c _ _ _ _ | .ld c _ _ _ | .ldw c _ _ _
  | .ldws c _ _ _ | .ldh c _ _ _ | .ldhs c _ _ _ | .ldb c _ _ _ | .ldbs c _ _ _ | .st c _ _ _ | .stw c _ _ _
  | .sth c _ _ _ | .stb c _ _ _ | .beq c _ _ _ | .bne c _ _ _ | .blt c _ _ _ | .bge c _ _ _ | .bltu c _ _ _
  | .bgeu c _ _ _ | .j c _ | .call c _ | .jr c _ _ | .callr c _ _ | .ret c _ | .rep c _ | .li c _ _ _
  | .lih c _ _ _ | .addl c _ _ _ _ | .andl c _ _ _ _ | .orl c _ _ _ _ | .xorl c _ _ _ _ | .ldl c _ _ _ _
  | .stl c _ _ _ _ | .wait c _ | .eng c _ _ | .orr c _ _ | .dcl c _ _ _ | .fence c _ | .eret c _ | .halt c _
  | .brk c _ | .exit _ c _ | .child _ c _ | .payloadRead _ c _ | .resultWrite _ c _ | .rng _ c _
  | .keyAttr _ c _ | .keyNew _ c _ | .keyPut _ c _ | .keyGet _ c _ | .sramAlloc _ c _ | .sramFree _ c _ => c.wf
  | .engineQueueAdmit _ _ cluster | .spareRotation _ _ cluster _ | .rotationPoint _ _ cluster _ => decide (cluster < 16)
  | .domainIdleEntry _ dom _ | .entryRefuseTimeout _ dom | .gatekeeperAccess _ dom _ => domOk dom
  | .coreIdleEntry _ island | .unitSelftestComplete _ island _ _ _ | .spareWaitTimeout _ island => unitOk island
  | .loadClassChange _ island _ | .dvfsTableStale _ island _ | .dvfsTraining _ island _ _
  | .canaryAlarm _ island | .scrubRead _ island _ _ _ | .dbgAccess _ island _ => decide (island < 428)
  | .sramRowRemap _ _ cluster bank _ reason => decide (cluster < 16) && decide (bank < 18) && reasonOk reason
  | .nvmSectorReplace _ sector _ => decide (sector < 8192)
  | .skyglowStimulusTest _ die _ _ => decide (die < 3)
  | .lcReq _ target _ token => decide (target < 16) && lenIs 32 token
  | .dbgCert _ cert => lenIs 192 cert
  | .vfEnable _ numVfs _ => decide (numVfs < 256)
  | .msixVectorUnmask _ fn vec => fnOk fn && decide (vec < 2048)
  | .imageCacheFill _ _ quadrant _ page => decide (quadrant < 4) && decide (page < 1024)

end Sys2Proof
end

