-- ==== Sys2Proof/Tests/Slice0.lean ====
section
/-! SUPPORT. Tests: each check of WellFormed refuses an ill-formed command, and for each statement a state and operands that
meet its hypotheses. -/

set_option Elab.async false

namespace Sys2Proof.Machine.Tests

open Sys2Proof Sys2Proof.Machine

/-- A header of request 7. -/
def hdr (op plen param : Nat) (sc : Bool) : Hdr :=
  { flags := b2n sc, opcode := op, target := 3, id := 7, plen := plen, param := param, rlen := 4096 }

/-- A root task running on core 0, context 0. -/
def running : Task := { st := .running, ctx := some ⟨0, 0⟩, chargeOn := some 0 }

/-- A request of compartment 3 in vendor image 1, with its payload there and its root task running. -/
def vreq (op param : Nat) (p : Bytes) : Req :=
  { hdr := hdr op p.length param false, space := 3, image := 1, chunks := [(0, p)], tasks := [(0, running)],
    keyStatus := [0, 0], newH := [9, 10], base := [0, 0, 0, 0, 0] }

/-- A compartment with keys. -/
def comp (keys : Tbl KeyRec) : Comp :=
  { st := .active, gen := 1, pxk := zeros 32, cmk := zeros 32, handleCtr := 11, handleRec := 4096, keys := keys }

/-- A store: compartment 3 with keys, and limits that leave room. -/
def store (keys : Tbl KeyRec) : Store :=
  { comps := [(3, comp keys)], cfgA := ({} : CfgSet).wr 1 120 ([1, 0, 1, 0] ++ zeros 6 ++ toLe 2 1024 ++ zeros 4 ++ toLe 4 64 ++ toLe 4 64 ++ toLe 4 64) }

/-- A twin that executes, with its first seed. -/
def twin (st : Store) (reqs : Tbl Req) : TwinSt :=
  { role := .active, booted := true, store := st, reqs := reqs, ent := { seeds := [(0, 1, zeros 32)] } }

/-- The module ready, with Twin A active. -/
def ready (x : TwinSt) : State :=
  { State.reset with
    boot := { up := true, ready := true }, active := some .a, egress := some .a, twinA := x, nvm := x.store, resetN := true,
    power := { mod := .active } }

/-- A state with one vendor request, accepted at stamp 5. -/
def vst (keys : Tbl KeyRec) (r : Req) : State := ready (twin (store keys) [(5, r)])

/-- Keys: AES-128 and TDEA two-key, each with every symmetric usage. -/
def aes (usage : Nat) : KeyRec := { alg := 3, usage := usage, material := zeros 16, kcv := zeros 5, gen := 1 }
/-- A TDEA key. -/
def tdea (usage : Nat) : KeyRec := { alg := 1, usage := usage, material := zeros 16, kcv := zeros 5, gen := 1 }


/-! Kaibas: a context that executes, with its registers, memory and mode as each statement asks. -/

/-- An image package of one page, readable, executable and declassify-capable, with 16 KiB of local memory. -/
def image : Slot :=
  { st := .ready, data := zeros 20 ++ [1, 0, 0, 0, 16, 0, 64, 0] ++ zeros 100 ++ [7, 0, 0, 0] }
/-- The same without the declassify-capable flag. -/
def plainImage : Slot := { image with data := image.data.take 128 ++ [3, 0, 0, 0] }
/-- A request that runs the image in compartment 3. -/
def kreq : Req := { hdr := hdr 0x0F00 0 0 false, space := 3, image := 9, tasks := [(0, running)], base := [0, 0, 0, 0, 0],
                    newH := [9, 10] }
/-- A context of that request at the first address of the code region. -/
def ctx0 : Ctx := { occ := true, task := some (5, 0), comp := 3, pc := 0x40000000 }
/-- The module with that context on core 0. -/
def kst (sl : Slot) (r : Req) (c : Ctx) : State :=
  let st := store [(9, aes 0x60)]
  ready { twin { st with images := [(9, { slot0 := sl, inForce := some 0 })] } [(5, r)] with ctxs := [(0, c)], cache := [(0, 18, 0)] }
/-- Core 0, context 0. -/
abbrev k0 : Cid := ⟨0, 0⟩
/-- What an instruction of that context sees. -/
def env (s : State) : KEnv := (s.kenv? k0).getD { w := .a, cid := k0, x := {}, c := {} }
/-- A context with g1 and g2 tagged or not. -/
def regs (a b : Word × Bool) : Ctx := { ctx0 with regs := [(1, a), (2, b)] }

theorem test_fetches (len : Nat) : Fetches (kst image kreq ctx0) k0 len (env (kst image kreq ctx0)) := by
  refine ⟨rfl, rfl, rfl, ?_, ?_, ?_, fun _ => ?_⟩ <;> decide +kernel
theorem test_page_miss :
    let s := (kst image kreq ctx0).updTwin .a (fun x => { x with cache := [] })
    let e := env s
    s.boot.up = true ∧ s.kenv? k0 = some e ∧ e.c.rep = none ∧ e.canFetch e.c.pc.toNat = true ∧ e.c.pc.toNat % 4 = 0 ∧
    e.missing e.c.pc.toNat = some 0 := by
  refine ⟨rfl, rfl, rfl, ?_, ?_, ?_⟩ <;> decide +kernel
theorem test_loads :
    let e := env (kst image kreq { regs (0, false) (8, false) with lmem := [(0, 255), (8, 1)] })
    (e.c.reg 1).2 = false ∧ e.load 0 8 = some (255, false) ∧ e.load 0 1 = some (255, false) ∧ e.load 8 8 = some (1, false) ∧
    e.load 0x40000000 4 = some (0, false) ∧ (e.load 0x70000000 8).isSome = true ∧ e.missing 0 = none ∧
    e.missing 0x40000000 = none ∧ e.missing 0x70000000 = none := by
  decide +kernel
theorem test_stores :
    let c : Cluster := { sram := [(65536, (64, 5, 0))] }
    let e := env (kst image kreq (regs (8, false) (16, false)))
    e.region 8 8 = some .lmem ∧ e.region 16383 1 = some .lmem ∧ e.load 8 8 = some (0, false) ∧
    ({ e with x := { e.x with clusters := [(0, c)] } } : KEnv).region 65536 8 = some .sram := by
  decide +kernel
theorem test_branches : let e := env (kst image kreq (regs (4, false) (8, false)))
    (e.c.reg 1) = (4, false) ∧ (e.c.reg 2) = (8, false) := by decide +kernel
theorem test_calls :
    let e := env (kst image kreq { regs (0x40000004, false) (0, false) with lk := 0x40000008, sr := setBits (setBits 0 20 4 1) 32 16 1 })
    (e.c.word 6).2 = false ∧ e.c.depth = 1 ∧ e.c.windows = 2 ∧ e.canFetch 0x40000004 = true ∧ e.canFetch e.c.lk.toNat = true ∧
    (e.c.reg 1) = (0x40000004, false) := by
  decide +kernel
theorem test_spill_and_fill :
    let e := env (kst image kreq { ctx0 with sr := setBits (setBits 0 20 4 13) 32 16 13 })
    let f := env (kst image kreq { ctx0 with lk := 0x40000008, sr := setBits 0 32 16 1 })
    (e.c.word 6).2 = false ∧ e.c.depth = 13 ∧ e.c.windows = 14 ∧ e.saveArea (e.c.anchor ((e.c.wold + 1) % 15)).toNat = true ∧
    f.c.windows = 1 ∧ f.c.depth = 1 ∧ f.saveArea (f.c.anchor f.c.cwp).toNat = true ∧
    f.c.ltag ((f.c.anchor f.c.cwp).toNat + 128) 8 = false ∧ f.canFetch f.c.lk.toNat = true := by
  decide +kernel
theorem test_repeats : Repeats (kst image kreq { ctx0 with rep := some 0x40000000, rc := 1, pc := 0x40000004 }) k0 0x40000000
    (env (kst image kreq { ctx0 with rep := some 0x40000000, rc := 1, pc := 0x40000004 })) := by
  refine ⟨rfl, rfl, rfl, ?_, ?_, ?_, ?_⟩ <;> decide +kernel
theorem test_system : let e := env (kst image kreq { ctx0 with sr := setBits 0 31 1 1 })
    (e.special 0x002).isSome = true ∧ (e.special 0x017).isSome = true ∧ e.dclPage e.c.pc.toNat = true ∧ e.c.exc = true ∧
    e.c.cwp = bits e.c.esr.toNat 23 20 ∧ e.c.depth = bits e.c.esr.toNat 47 32 := by
  decide +kernel
theorem test_exceptions : let e := env (kst plainImage kreq { regs (0, true) (0, false) with ev := 0x40000000 })
    e.c.ev ≠ 0 ∧ e.c.exc = false ∧ e.dclPage e.c.pc.toNat = false ∧ (e.c.reg 1).2 = true := by
  decide +kernel
theorem test_own_words : ownWord 0x00000020 = true ∧ (0x00000020 : BitVec 32) ≠ brkWord ∧ opOf 0x00000020 ≠ 5 ∧
    ownWord 0x14000003 = true ∧ opOf 0x14000003 = 5 ∧ bits (0x14000003 : BitVec 32).toNat 25 16 = 0 ∧ ownWord brkWord = true := by
  decide
/-- The words that Chapter 9 spells out under Table 9-7 and Table 9-9. -/
theorem test_word_add : kaibasWord 0 k0 0x02095000 0 = some (.add k0 16 9 10 0) := by decide +kernel
theorem test_word_ld : kaibasWord 0 k0 0x42280008 0 = some (.ld k0 17 8 8) := by decide +kernel
theorem test_word_li : kaibasWord 0 k0 0xFE000000 0xFFFFFFFE = some (.li k0 16 0xFFFFFFFE 0) := by decide +kernel
theorem test_word_nop : kaibasWord 0 k0 0x20000000 0 = some (.addi k0 0 0 0) := by decide +kernel
/-- Words of other formats: a branch, a jump through a register, a shift, a service, and an undefined major opcode. -/
theorem test_word_formats : kaibasWord 0 k0 0x8443FFFF 0 = some (.bne k0 2 3 0xFFFF) ∧
    kaibasWord 0 k0 0xA9A00001 0 = some (.callr k0 13 0) ∧ kaibasWord 0 k0 0x3C418003 0 = some (.srai k0 2 1 3 0) ∧
    kaibasWord 7 k0 0x14000012 0 = some (.rng 7 k0 0) ∧ kaibasWord 0 k0 0x1C000000 0 = none := by decide +kernel
theorem test_wait : let e := env (kst image kreq ctx0)
    e.zenith = false ∧ e.x.task? e.q e.i = some running := by decide +kernel
/-- Zenith of Twin A, asked to arm `HSTATE` DOZE. -/
def zst (pwm : BitVec 32) : State :=
  let x := twin (store []) []
  ready { x with ctxs := [(ctxKey ⟨198, 0⟩, { occ := true, pc := 0x40000000 })], pwm := pwm }
/-- What its instruction sees. -/
def zenv (pwm : BitVec 32) : KEnv := ((zst pwm).kenv? ⟨198, 0⟩).getD { w := .a, cid := ⟨198, 0⟩, x := {}, c := {} }
theorem test_zenith (pwm : BitVec 32) : Fetches (zst pwm) ⟨198, 0⟩ 4 (zenv pwm) := by
  have h : 0 < max 1 (Config.vendorPages 0).toNat := Nat.lt_of_lt_of_le Nat.zero_lt_one (Nat.le_max_left _ _)
  have hp : KEnv.page? (zenv pwm) 0x40000000 = some 0 := if_pos ⟨by decide, h⟩
  refine ⟨rfl, rfl, rfl, ?_, (show (0x40000000 : BitVec 64).toNat % 4 = 0 by decide), ?_, fun h => by cases h⟩
  rotate_left
  · show KEnv.missing (zenv pwm) 0x40000000 = none
    unfold KEnv.missing
    rw [hp]
    rfl
  show KEnv.canFetch _ 0x40000000 = true
  unfold KEnv.canFetch
  rw [hp]
  show bit ((Config.vendorPageFlags 0 0).toNat ||| 1) 0 = true
  simp [bit]
theorem test_halt : (zenv 0x101).zenith = true ∧ (zenv 0x101).x.pwm.getLsbD 8 = true ∧ (zenv 0x101).x.zenithWork = false ∧
    (zenv 0).x.pwm.getLsbD 8 = false := by decide +kernel
theorem test_issue : let e := env (kst image kreq (regs (0, false) (0, false)))
    e.x.task? e.q e.i = some running ∧ e.region 0 64 = some .lmem ∧ e.c.ltag 0 56 = false ∧ e.x.orrery.calls.countP
      (fun (o : Nat × OrrCall) => o.2.admitted && o.2.ctx == e.cid && o.2.q == e.q && o.2.task == e.i) < 2 ∧
    e.x.engRoom e.cid (islandCluster e.cid.island) = true ∧ e.owns 0 0 = true ∧
    e.x.orrery.used + 64 + (e.bytesAt 0 0).length ≤ 524288 ∧ e.req.space ≠ adminSpace := by
  decide +kernel

/-! The services: with every argument 0 but those named. -/

/-- A child of the request. -/
def child : Req := { kreq with tasks := [(0, { st := .waiting, dep := 1 }), (1, running)] }
theorem test_exit : (env (kst image kreq ctx0)).req.dcl = 0 ∧ (env (kst image kreq ctx0)).arg 0 = 0 ∧
    (env (kst image kreq ctx0)).req.tasks.length ≤ 1 ∧ (env (kst image kreq ctx0)).arg 1 ≤ 24 ∧
    (env (kst image child { ctx0 with task := some (5, 1) })).i = 1 ∧
    ((kst image child { ctx0 with task := some (5, 1) }).kenv? k0).isSome = true := by decide +kernel
theorem test_services : let e := env (kst image kreq { ctx0 with regs := [(25, (1, false))] })
    e.i = 0 ∧ (e.c.reg 25).2 = false ∧ e.req.children < 3 ∧ e.arg 1 = 1 ∧ e.arg 2 = 0 ∧ e.arg 3 = 0 ∧
    e.owns (e.arg 2) (e.arg 1) = true ∧ (e.x.raiseDep e.q e.i id).isSome = true ∧ e.c.ltag (e.arg 0) (e.arg 1) = false ∧
    e.region (e.arg 0) (e.arg 1) = some .lmem := by
  decide +kernel
theorem test_service_rng : let e := env (kst image kreq ctx0)
    (match e.x.rng 5 0 1 with | .ok _ _ => true | _ => false) = true := by decide +kernel
theorem test_service_keys :
    let e := env (kst image { kreq with allowed := [9] } { ctx0 with regs := [(24, (9, false))] })
    e.x.keyFor e.q e.req (e.arg 0) = some (aes 0x60) := by decide +kernel
/-- Attribute blocks in local memory: an AES-128 key, and an ML-DSA-65 public key. -/
def attrs (l : Tbl Byte) : KEnv := env (kst image kreq { ctx0 with lmem := l })
theorem test_service_new :
    let e := attrs [(0, 0x60), (4, 3)]
    attrOf true (e.bytesAt 0 24) = .inr { usage := 0x60, alg := 3 } ∧ e.x.rngCalled 5 0 = false ∧ e.req.newUsed < e.req.newH.length ∧
    (e.x.quota 5 1 0 0).isSome = true ∧
    (e.x.createKey 5 (some 0) { usage := 0x60, alg := 3 } 0 (zeros 16)).any (fun (v : Nat ⊕ (Nat × TwinSt)) => v.isRight) = true := by
  decide +kernel
theorem test_service_put :
    let e := attrs [(1, 0x20), (4, 0x30)]
    attrOf false (e.bytesAt 0 24) = .inr { usage := 0x2000, alg := 0x30 } ∧ e.region (e.arg 1) 1952 = some .lmem ∧
    (e.x.createKey 5 (some 0) { usage := 0x2000, alg := 0x30 } 1 (zeros 1952)).any (fun (v : Nat ⊕ (Nat × TwinSt)) => v.isRight) = true := by
  decide +kernel
theorem test_service_get : let r := { kreq with allowed := [2 ^ 30 + 9] }
    let x := twin (store [(2 ^ 30 + 9, { alg := 0x22, material := zeros 32 })]) [(5, r)]
    (x.keyFor 5 r (2 ^ 30 + 9)).any (fun (k : KeyRec) => k.material.length == 32) = true ∧ handleClass (2 ^ 30 + 9) ≠ 0 := by
  decide +kernel
theorem test_service_sram : let e := env (kst image kreq { ctx0 with regs := [(24, (64, false))] })
    e.arg 0 = 64 ∧ e.cluster.sram.filter (fun a => a.2.2 == (e.q, e.i)) = [] ∧ e.arg 0 ≤ 1024 * e.slot.sramKib ∧ (placeSram (e.cluster.lost.length + e.cluster.held.length) e.cluster.sram 64).isSome = true ∧
    Tbl.find? ({ sram := [(64, (64, 5, 0))] } : Cluster).sram 64 = some (64, 5, 0) := by
  decide +kernel


/-! The host interface. -/

/-- The module ready: mailbox 0 of function 0 is the admin mailbox. -/
def host : State := ready (twin { cfgA := ({} : CfgSet).wr 2 0 [1] } [])
/-- Mailbox 0 enabled, with rings of 64 entries, four replies written and two entries submitted. -/
def open_ : Mbx := { cfg := 0x86060800#32, coal := 0x00010002#32, state := .enabled, sqTail := 2, written := 4, slot := 4,
                     unsig := 1, infl := 0 }
/-- The module with that mailbox. -/
def hostOpen : State := { host with
  mbxs := [(0, open_)], fns := [(0, { vecSize := 4, unmasked := [0], pci := { msixEn := true } }), (1, { enabled := true, d3hot := true, vecSize := 2 })] }
theorem test_access : host.fnOn 0 = true ∧ accessOk 0x102 4 = false ∧ accessOk 0x100 2 = false ∧ wideReg 0x18 = true ∧
    host.selected 0 = some 0 ∧ hostLimit ≤ 0x100000 ∧ 0x10000 < hostLimit ∧ 2 < (hostOpen.fn 0).vecSize ∧ (host.mbx 0 0).state = .disabled ∧ hostOpen.fnOn 1 = true ∧
    (host.mbx 0 0).freshAt ≠ (host.at 9).now ∧ (host.mbx 0 0).freshAt = (host.at 0).now ∧
    Tbl.find? (({ host with fns := [(0, { latch := [(0x18, 7)] })] } : State).fn 0).latch 0x18 = some 7 := by decide +kernel
theorem test_enable : host.enableBad 0 0 { open_ with cfg := 0x06060000#32 } = false ∧
    host.enableBad 0 0 { open_ with cfg := 0 } = true ∧ bit 0x86060000 31 = true ∧
    (BitVec.ofNat 32 0x06060800 &&& cfgMask ^^^ open_.cfg) &&& 0x7FFFFFFF#32 = 0 ∧ hostOpen.waiting 0 0 = 0 := by decide +kernel
theorem test_doorbell : (host.nvm.activeSet.mbox? 0 0).isSome = true ∧ host.nvm.activeSet.mbox? 0 1 = none ∧
    open_.sqSize = 64 ∧ open_.rqSize = 64 := by decide +kernel
theorem test_fetch : (host.nvm.activeSet.mbox? 0 0).isSome = true ∧ hostOpen.mayFetch 0 0 2 = true ∧ open_.stride = 64 ∧
    (host.nvm.activeSet.mbox? 0 0).any (fun a => hostOpen.nextLane == some (a.lane % 8)) = true ∧ host.nextLane = none ∧
    (hostOpen.mbx 0 0).state = .enabled := by
  decide +kernel
theorem test_interrupts : open_.vecEn = true ∧ open_.timeUs = 1 ∧ open_.vector < (hostOpen.fn 0).vecSize ∧ hostOpen.failStop = false ∧ (hostOpen.at 4000).now = 4000 ∧ open_.vector = 0 ∧
    (hostOpen.fn 0).open_ 0 = true ∧ (hostOpen.fn 0).pci.msixEn = true ∧ (hostOpen.fn 0).pci.fnMask = false ∧ (hostOpen.fn 0).pends = [] ∧
    (hostOpen.fn 0).unmasked.contains 0 = true ∧ (hostOpen.fn 0).unmasked.contains 3 = false := by decide +kernel
theorem test_hostUnits : host.fnOn 0 = true ∧ host.ptm.due 0 = true ∧ ({ host.ptm with last := some 0 } : Ptm).due 4000 = false ∧ host.ptm.en = false ∧ host.win.loading = false ∧ (let h : State := { host with ptm := { en := true }, win := { loading := true } }
      h.ptm.en = true ∧ h.win.loading = true) ∧
    host.fns.any (fun (e : Nat × Fn) => e.1 != 0 && e.2.enabled) = false := by decide +kernel
theorem test_functionResets : hostOpen.fnOn 0 = true ∧ hostOpen.fnOn 1 = true ∧ (hostOpen.fn 1).d3hot = true := by decide +kernel


/-! Acceptance, scheduling and time limits. -/

/-- A submission entry of 64 bytes. -/
def entry (ver op comp : Nat) : Bytes := [byte ver, 0] ++ toLe 2 op ++ toLe 2 comp ++ [0, 0] ++ toLe 8 7 ++ zeros 48
/-- An entry of the admin mailbox at the front of the ingress. -/
def ing (ver op : Nat) : Ingress := { fn := 0, idx := 0, comp := 0, lane := 0, entry := entry ver op 0 }
/-- The module with that entry fetched. -/
def sIng (ver : Nat) : State := { hostOpen with ingress := [ing ver 0x0100] }
theorem test_acceptance : (ing 1 0x0100).check false = none ∧ (ing 1 0x0100).check true = none ∧
    (ing 2 0x0100).check false = some stBadVersion ∧ (ing 1 0x0200).check false = some stWrongMailbox ∧
    (sIng 1).boot.ready = true ∧ (sIng 1).sw.accepting = true ∧ (sIng 1).rreqs.length < 65536 ∧
    (sIng 1).boot.up = true ∧ (sIng 1).swapDue = false ∧ ((sIng 1).at 4000).swapDue = false ∧ (sIng 1).ingress = ing 1 0x0100 :: [] ∧ (sIng 1).failStop = false ∧ ((sIng 2).fn 0).d3hot = false ∧ ((sIng 2).fn 1).d3hot = true ∧
    ({ ing 2 0x0100 with fn := 1 } : Ingress).check false = some stBadVersion := by decide +kernel
theorem test_acceptance_order : let h := Hdr.parse (entry 1 0x0100 0)
    h.version = 1 ∧ h.rsv7 = 0 ∧ h.rsv55 = 0 ∧ h.flags < 16 ∧ h.pred < 8 ∧ h.target < 8192 ∧ h.segCtrl < 4 ∧
    h.comp = (ing 1 0x0100).comp % 1024 ∧ h.lane = (ing 1 0x0100).lane % 8 ∧ (ing 1 0x0100).entryBad = false ∧
    (ing 1 0x0100).bufferBad = false ∧ (ing 1 0x0100).predIds.contains h.id = false ∧ (opGroup 0x0100).1 = true ∧
    (opGroup 0x0200).1 = false ∧ (Hdr.parse (entry 1 0x0100 5)).comp ≠ 0 := by decide +kernel

/-- A request at the Relay that goes to Twin A: an admin request, or one of compartment 3. -/
def rr (admin : Bool) : RReq :=
  let e := entry 1 (if admin then 0x0100 else 0x0208) (if admin then 0 else 3)
  { hdr := Hdr.parse e, entry := e, fn := if admin then 0 else 1, idx := 0, toA := true }
/-- The module with it in service, not yet arrived; in LOCK or not. -/
def sArr (admin lock : Bool) : State :=
  { host with rreqs := [(5, rr admin)], tamper := { State.reset.tamper with lock := lock, lockCause := 1 } }
theorem test_arrival : ∀ a ∈ [true, false], (rr a).to .a = true ∧ (sArr a false).executes .a = true ∧
    Tbl.find? (sArr a false).twinA.reqs 5 = none ∧ (rr a).readFail = false ∧ (sArr a false).power.mod ≠ .standbyHot ∧
    ((sArr a false).domain moduleDomain).entry = none ∧ (sArr a false).coachyardAwake .a = true ∧
    (sArr a false).rreqs.all (fun (e : Nat × RReq) => !decide (e.1 < 5) || !e.2.to .a || (Tbl.find? (sArr a false).twinA.reqs e.1).isSome) = true ∧
    (sArr a false).twinB.outBatch.any (fun b => decide (4000 * b.epoch < 5)) = false := by decide +kernel
theorem test_arrival_cases : (sArr false true).noService 5 { hdr := (rr false).hdr, space := (rr false).space } = some stTamper ∧
    (rr true).space = adminSpace ∧ adminOps.contains (rr true).hdr.opcode = true ∧ (rr true).hdr = Hdr.parse (rr true).entry ∧
    (rr true).hdr.predCount = 0 ∧ (rr true).hdr.flow = 0 ∧ (rr true).hdr.segmented = false ∧ (rr true).hdr.stateChange = false ∧
    (rr true).hdr.deadline = 0 ∧ (Tbl.getD (sArr true false).twinA.store.flows (flowKey adminSpace 0) {}).fence = false := by decide +kernel

/-- A request with a deferred use claim and a nonce claim. -/
def rClaim : Req := { vreq 0x0500 0 [] with claims := [{ decl := 0, handle := 9, use := true, nonce := false },
  { decl := 1, handle := 10, use := false, nonce := true }] }
/-- Its state. -/
def sClaim : State := vst [(9, { aes 0x20 with useLimit := 1 }), (10, { aes 0x20 with nonceEn := true })] rClaim
theorem test_claims : rClaim.claims.length = 2 ∧ sClaim.twinA.claimWaits 5 3 9 = false ∧ sClaim.twinA.claimWaits 5 3 10 = false ∧
    (sClaim.twinA.store.key? 3 9 5).any (fun (k : KeyRec) => !k.exhausted && k.useCount == 0 && k.useLimit == 1) = true ∧
    (sClaim.twinA.store.key? 3 10 5).any (fun (k : KeyRec) => !k.exhausted && k.nonce == 0) = true := by decide +kernel
/-- A request whose payload is in host memory. -/
def rPay : RReq := { hdr := hdr 0x0400 100 0 false, fn := 1, toA := true }
theorem test_payload : rPay.hdr.isInline = false ∧ rPay.hdr.plen ≠ 0 ∧ (vst [] (vreq 0x0400 0 (zeros 100))).payStore = [] ∧
    (vst [] (vreq 0x0400 0 (zeros 100))).shares .a 5 = false ∧ (vst [] (vreq 0x0400 0 (zeros 100))).twinA.asyncs = [] ∧ (vreq 0x0400 0 (zeros 100)).mismatch = false ∧
    (vreq 0x0400 0 (zeros 100)).hdr.isInline = false ∧ (vst [] (vreq 0x0400 0 (zeros 100))).failStop = false ∧ (vreq 0x0400 0 (zeros 100)).fin = none ∧
    (vreq 0x0400 0 (zeros 100)).timedOut = none ∧ Tbl.find? (vst [] (vreq 0x0400 0 (zeros 100))).rreqs 5 = none ∧ Tbl.find? ({ vst [] (vreq 0x0400 0 (zeros 100)) with rreqs := [(5, rPay)] } : State).rreqs 5 = some rPay := by
  decide +kernel

/-- A request that waits for a core, whose root task is not yet dispatched. -/
def rWait (lane : Nat) : Req :=
  { hdr := { hdr 0x0F00 0 0 false with target := 3 + 1024 * lane }, space := 3, image := 9, tasks := [(0, {})] }
/-- The twin that has it in service beside a running one of lane 0, when core 0 alone serves. -/
def xWait : TwinSt :=
  let st := store []
  { twin { st with images := [(9, { slot0 := image, inForce := some 0 })] }
      [(5, { vreq 0x0F00 0 [] with image := 9 }), (6, rWait 1)] with
    ctxs := [(0, ctx0)]
    clusters := ((List.range 16).drop 1).map (fun k => (k, { trimmed := true }))
    units := ((List.range 9).drop 1).map (fun i => (i, { role := .retired })) }
theorem test_dispatch : let s := ready (twin (store []) [(5, { rWait 0 with hdr := hdr 0x0208 0 9 false })])
    let x := s.twinA.prepare .a true 0
    s.executes .a = true ∧ s.coachyardAwake .a = true ∧ (x.target .a 1).any (fun (c : Nat × Nat) => (s.domain c.1).held == []) = true ∧ (x.chooseTask .a true 0).any (fun (c : Ready) => c.q == 5 && c.i == 0) = true ∧
    (x.target .a 1).isSome = true ∧ ((Tbl.find? x.reqs 5).any (fun (r : Req) => (Tbl.find? r.tasks 0).isSome)) = true := by
  decide +kernel
theorem test_preemption : let x := xWait.prepare .a true 0
    (x.chooseTask .a true 0).any (fun (c : Ready) => c.q == 6 && c.i == 0 && c.comp == 3 && c.lane == 1) = true ∧
    x.target .a 9 = none ∧ ((ready xWait).domain 0).held = [] ∧ (ready xWait).coachyardAwake .a = true ∧ (x.victims .a 0).map (fun v => (v.q, v.i, v.lane, v.isl, v.free)) = [(5, 0, 0, 0, 1)] ∧
    (leastBy Victim.before ((x.victims .a 0).filter (fun v => v.reserved (x.standing .a 0 3) ||
      (v.st.comp == 3 && decide (v.lane < 1))))).any (fun v => v.q == 5) = true := by
  decide +kernel

/-- A request whose root task waits for `n` completions. -/
def rDep (n : Nat) (ctx : Option Cid) (begun : Bool) : Req :=
  { vreq 0x0F00 0 [] with tasks := [(0, { st := .running, dep := n, ctx := ctx })], begun := begun }
/-- The twin with a completion for it. -/
def xDep (n : Nat) (ctx : Option Cid) (begun : Bool) (k : DoneKind) : TwinSt :=
  { twin (store []) [(5, rDep n ctx begun)] with dones := [{ q := 5, task := 0, kind := k }], ctxs := [(0, ctx0)] }
/-- What that twin is when its services have been served. -/
def served (n : Nat) (ctx : Option Cid) (begun : Bool) (k : DoneKind) : TwinSt :=
  (((ready (xDep n ctx begun k)).at 0).serve .a).twin .a
theorem test_dependence :
    (ready (xDep 2 (some ⟨0, 0⟩) true .engine)).coachyardAwake .a = true ∧
    (served 2 (some ⟨0, 0⟩) true .engine).dones = [{ q := 5, task := 0, kind := .engine }] ∧
    Tbl.find? (served 2 (some ⟨0, 0⟩) true .engine).reqs 5 = some (rDep 2 (some ⟨0, 0⟩) true) ∧
    (served 1 (some ⟨0, 0⟩) true .engine).dones = [{ q := 5, task := 0, kind := .engine }] ∧
    Tbl.find? (served 1 (some ⟨0, 0⟩) true .engine).reqs 5 = some (rDep 1 (some ⟨0, 0⟩) true) ∧
    (served 1 (some ⟨0, 0⟩) true .engine).held ⟨0, 0⟩ = false ∧ (rDep 1 none false).failMark = false ∧
    (served 1 none false (.pred false)).dones = [{ q := 5, task := 0, kind := .pred false }] ∧
    Tbl.find? (served 1 none false (.pred false)).reqs 5 = some (rDep 1 none false) ∧
    Timely (served 1 none false (.pred false)) 0 5 (rDep 1 none false) := by
  unfold Timely; decide +kernel

/-- A request in no context whose deadline was stamp 4,000; one timed out whose task has run 20 µs since; and one whose run
budget of 1 is spent. -/
def rDue : Req := { rWait 0 with hdr := { hdr 0x0F00 0 0 false with deadline := 4000 } }
/-- The timed-out request. -/
def rOver : Req := { vreq 0x0F00 0 [] with timedOut := some 0, tasks := [(0, { running with timedOut := true, used := 80000 })] }
theorem test_deadline : let x := (vst [] rDue).twinA.markCap .a true 4000
    (vst [] rDue).coachyardAwake .a = true ∧ Tbl.find? x.reqs 5 = some rDue ∧ rDue.denied = 0 ∧ x.rngHeld 5 rDue = false ∧
    rDue.hdr.deadline ≤ clockAt (vst [] rDue).twinA.offs 4000 coachyard ∧ (vst [] rDue).twinA.rngHeld 5 rDue = false ∧ (∀ k ∈ rDue.tasks, k.2.ctx = none) ∧
    rDue.hdr.deadline ≤ ((vst [] rDue).at 4000).now ∧ rDue.matched = none ∧ (vst [] rDue).active = some .a ∧ rOver.timedOut.isSome = true ∧
    (∃ k ∈ rOver.tasks, k.2.timedOut = true ∧ k.2.usedAt + 80000 ≤ k.2.ranFor 0) := by decide +kernel
/-- An image package with one dispatch entry, for opcode 0x0F00, whose run budget is 1. -/
def budget : Slot :=
  { st := .ready, data := zeros 20 ++ [1, 0, 1, 0, 16, 0, 64, 0] ++ zeros 100 ++ toLe 2 0x0F00 ++ zeros 12 ++ toLe 2 1 ++ zeros 16 ++
    [7, 0, 0, 0] }
/-- A request under that entry whose tasks have used its budget. -/
def rSpent : Req := { rWait 0 with image := 1, ran := 4000000 }
theorem test_budget : let x := twin { store [] with images := [(1, { slot0 := budget, inForce := some 0 })] } [(5, rSpent)]
    (x.entryOf 5 rSpent).any (fun (d : Nat × DispEntry) => d.2.runMax == 1) = true ∧ rSpent.forZenith = false ∧
    x.rngHeld 5 rSpent = false ∧ Tbl.find? (x.markCap .a true 0).reqs 5 = some rSpent ∧
    4000000 ≤ rSpent.tasks.foldl (fun (n : Nat) (k : Nat × Task) => n + k.2.ranFor 0) rSpent.ran := by decide +kernel
theorem test_limits : (Stream.at_ { isOpen := true, last := 0 } 120000000000).failed = true ∧
    0 + 120000000000 ≤ 4000 * epochOf 120000000000 ∧ flowKey 3 6 = 2 ^ 32 * 3 + 6 ∧
    (let x := twin { store [] with flows := [(flowKey 3 6, { stream := { isOpen := true } })], discarded := [(discKey 3 7, 0)] } []
     (Tbl.find? x.store.flows (flowKey 3 6)).any (fun (f : Flow) => f.stream.isOpen && f.stream.last == 0) = true ∧
     Tbl.find? x.store.flows (flowKey 3 6) = some { stream := { isOpen := true } } ∧ x.reqs = [] ∧ Tbl.find? x.store.discarded (discKey 3 7) = some 0 ∧ 0 + 120000000000 ≤ ((ready x).at 120000000000).now) := by
  decide +kernel


/-! The twins, and the entropy block. -/

/-- Both twins in step, Twin A active, Twin B HEALTHY, with the requests given in each and at the Relay. -/
def duo (xa xb : TwinSt) (l : Tbl RReq) : State := { ready xa with twinB := xb, rreqs := l }
/-- A HEALTHY twin. -/
def standby (reqs : Tbl Req) : TwinSt := { twin (store []) reqs with role := .healthy }
/-- A request that has ended, compared or not. -/
def rFin (compared mismatch : Bool) : Req :=
  { hdr := hdr 0x0208 0 9 false, space := 3, fin := some { commits := true, digest := [1] }, applied := true, compared := compared,
    mismatch := mismatch, sent := some 0 }
/-- The same request at the Relay. -/
def rrFin (first : Option Twin) : RReq := { hdr := hdr 0x0208 0 9 false, fn := 1, toA := true, toB := true, first := first }
/-- The module with it in both twins. -/
def sFin (first : Option Twin) (r : Req) : State := duo (twin (store []) [(5, r)]) (standby [(5, r)]) [(5, rrFin first)]
theorem test_release : let s := sFin (some .a) (rFin true false)
    s.active = some .a ∧ s.egress = some .a ∧ (s.at 9).holdOver .none = true ∧ (s.fn 1).d3hot = false ∧
    (sFin none (rFin true false)).alm.draws = [] ∧ (sFin (some .a) (rFin false false)).mustCompare .a (rrFin (some .a)) = true ∧
    (rFin false false).peerDig = none ∧ s.lc ≠ .scrapped ∧ s.failStop = false ∧ s.alm.draws = [] ∧ (rFin true false).applied = true ∧
    (let e := (rFin true false).fin.getD {}
     let v := ((s.at 9).updTwin .a (fun x => x.compareReq true 5)).wakeMismatch .a
     let u : State := { s with alm := { s.alm with ev := { s.alm.ev with
       queue := List.replicate 1024 ⟨0x3004, sevEvid, 0, 0, []⟩ } } }
     s.roomFor 5 e = true ∧ s.forestalled e = false ∧ e.effects = [] ∧ e.evs = [] ∧ v.egress = some .a ∧ v.failStop = false ∧
     (v.twin .a).giveUp = false ∧ Tbl.find? v.rreqs 5 = some (rrFin (some .a)) ∧ Tbl.find? (v.twin .a).reqs 5 = some (rFin true false) ∧
     v.lc ≠ .scrapped ∧ (v.fn 1).d3hot = false ∧ v.holdOver e.hold = true ∧ (rrFin (some .a)).drop = false ∧
     u.roomFor 6 { e with evs := [⟨0x3004, sevEvid, 0, 0, []⟩] } = false) := by decide +kernel
/-- A request of a twin that no payload is to be read again for, in a mismatch, with its re-execution on the first core. -/
def rAgain (begun : Bool) : Req := { rFin false true with reexecOn := some 0, begun := begun }
theorem test_reexecution : let s := sFin (some .a) (rAgain false)
    let r := rAgain false
    s.twinA.exchanges = true ∧ Tbl.find? s.rreqs 5 = some (rrFin (some .a)) ∧ (rrFin (some .a)).to .a = true ∧ s.failStop = false ∧
    Tbl.find? (s.twinA.takeReexec .a).reqs 5 = some r ∧ r.mismatch = true ∧ r.reexec = none ∧ r.reexecOn.isSome = true ∧
    r.atBeginning.complete = true ∧
    ((s.at 0).updTwin .a (fun x => x.takeReexec .a)).rerunDigest .a 5 r (r.fin.getD {}) = some [1] := by decide +kernel
theorem test_batches : let s := sFin none (rFin false false)
    let b : Batch := { epoch := 1, digests := [(5, [1])] }
    s.twinA.exchanges = true ∧ s.twinB.exchanges = true ∧ s.twinA.lastBatch < epochOf (s.at 4000).now ∧
    (rFin false false).digFrom < b.epoch ∧ b.verdicts = [] ∧ b.fx = [] ∧ (∀ c ∈ s.twinA.store.comps, c.2.suspendAt = none) ∧
    s.twinA.sentBatch = [] ∧ (s.at 4000).now % 4000 = 0 ∧ b.health = [] ∧ b.tests = [] ∧ s.debugHalted (twinBase .a + 198) = false ∧ s.debugHalted (linkIsland .a) = false ∧
    (rFin false false).compared = false ∧ (rFin false false).mismatch = false ∧ { s.twinB with outBatch := [b] }.outBatch = b :: [] ∧ s.twinA.unbindAt = none ∧
    (rFin false false).sent.isSome = true ∧ (rFin false true).mismatch = true ∧ (rFin false true).reexec = none ∧
    ({ rFin false true with reexecOn := some 3 } : Req).reexecOn.isSome = true ∧ s.sw.discards = [] := by decide +kernel
theorem test_causes : let s := sFin none (rFin false false)
    s.twinB.role = .healthy ∧ s.lc ≠ .scrapped ∧ s.boot.up = true ∧ s.failStop = false ∧ s.active = some .a ∧ s.twinA.giveUp = false ∧ s.sw.switching = false ∧ s.twinB.lastBatch + 3 ≤ epochOf (s.at 12000).now ∧
    0 + max 80000 ((rFin false false).ran / 4) ≤ (s.at 80000).now ∧ (rrFin none).to .b = true ∧
    (ready (twin (store []) [])).twinB.role ≠ .healthy ∧ s.tmr.retired = [] ∧ (s.at 4000).now % 4000 = 0 ∧
    Tbl.getD ({ retired := [(1, [0])] } : Tmr).retired 1 [] = [0] ∧ s.twinA.role = .active ∧ s.twinA.giveUp = false ∧
    islandTwin 206 = some .b ∧ islandTwin 207 = some .b ∧ s.awake 206 = true ∧ s.awake 207 = true := by decide +kernel
theorem test_switchOver :
    let s := { sFin (some .a) (rFin false false) with active := none, sw := { switching := true, old := some .a, accepting := false } }
    s.twinB.role = .healthy ∧ s.nvm.swap = none ∧ (s.rreqs.map Prod.fst).Nodup ∧ (∀ p ∈ s.twinB.reqs, p.2.mismatch = false) ∧
    (∀ e ∈ s.rreqs, (Tbl.find? s.twinB.reqs e.1).any (fun (r : Req) => !r.secure && r.applied && r.fin.any (fun f => f.commits)) &&
      e.2.first.isSome) := by decide +kernel
theorem test_discards : let s := { sFin (some .a) (rFin false false) with active := some .b, sw := { switching := true, discards := [5] } }
    s.sw.discards = [5] ∧ (Tbl.find? s.rreqs 5).any (fun (r : RReq) => !r.drop) = true ∧ (s.fn 1).d3hot = false ∧
    s.sw.detected + 24000 ≤ (s.at 24000).now := by decide +kernel
theorem test_resync : let s := duo (twin (store []) []) { role := .degraded, inTest := true } []
    let r := duo (twin (store []) []) { role := .resync, resyncEs := some 0 } []
    s.twinB.role = .degraded ∧ s.twinB.inTest = true ∧ islandTwin 206 = some .b ∧ s.twinB.ent.actives < 12 ∧ r.twinB.resyncEs = some 0 ∧ (s.at 4000).now % 4000 = 0 ∧ r.twinB.resyncEj = none ∧ 0 < epochOf (r.at 4000).now ∧
    r.rreqs.all (fun (e : Nat × RReq) => (Tbl.find? r.twinA.reqs e.1).isSome) = true ∧ r.twinB.ent.actives < 12 := by decide +kernel

/-- The entropy block with twelve sources active. -/
def twelve : Entropy := { sources := (List.range 12).map (fun i => (i, { role := .active 0 })) }
theorem test_resync_sources :
    let s := duo (twin (store []) []) { role := .degraded, ent := twelve } []
    let r := duo (twin (store []) [(5, rFin false false)]) { role := .resync, resyncEs := some 0, resyncEj := some 1, ent := twelve } []
    s.twinB.inTest = false ∧ s.sw.switching = false ∧ 12 ≤ s.twinB.ent.actives ∧ 12 ≤ r.twinB.ent.actives ∧
    r.twinA.reqs.all (fun (p : Nat × Req) => decide (4000 * 1 ≤ p.1) || p.2.fin.isSome) = true ∧
    r.twinB.reqs.all (fun (p : Nat × Req) => decide (4000 * 1 ≤ p.1)) = true := by decide +kernel

/-- A twin with sources 0 to 11 active in group 0, source 12 a spare, and four blocks formed. -/
def xEnt : TwinSt := { twin (store []) [] with
  ent := { sources := (List.range 13).map (fun i => (i, { role := if i < 12 then .active 0 else .spare })), joinWait := [0],
           blocks := (List.range 4).map (fun i => { group := 0, data := zeros 32, stamp := i }) } }
theorem test_sources : (Tbl.find? xEnt.ent.sources 3).any (fun (c : NSource) => c.role == .active 0) = true ∧
    xEnt.ent.joinWait.contains 0 = true ∧
    (List.find? (fun (c : Nat × NSource) => c.2.role == NRole.spare) xEnt.ent.sources).isSome = true ∧
    xEnt.ent.sources.any (fun c => c.2.role == .active 0) = true ∧ isEngine 9 = true ∧ islandTwin 9 = some .a ∧ State.reset.wear.noiseOut = [] ∧ State.reset.wear.quarant = [] ∧
    xEnt.role = .active ∧ (Tbl.find? xEnt.ent.sources 3).isSome = true ∧ xEnt.ent.blocks ≠ [] ∧
    State.reset.twinA.ent.sources = [] ∧ State.reset.twinA.role = .booting ∧ xEnt.ent.groupSrcs 0 ≠ [] ∧
    cutoffReached 1 0 = false ∧ cutoffReached 1 200 = true ∧ cutoffReached 2 900 = true := by decide +kernel
theorem test_seeds : let s := duo xEnt (standby []) []
    s.seedTwin = .a ∧ xEnt.ent.proposal = none ∧ 12 ≤ xEnt.ent.actives ∧ xEnt.ent.seeds = [] ∧ s.seeded .b = true ∧
    s.healthyStandby = some .b ∧ (twin (store []) []).ent.seeds.getLast? = some (0, 1, zeros 32) ∧
    (xEnt.ent.makeSeed .a 256000 0).isSome = true := by decide +kernel
/-- The same entropy block with a first seed, a proposal, and the next renewal at an epoch. -/
def entSeeded (p : Option (Nat × Nat × Bytes × Bool)) (n : Nat) : Entropy :=
  { xEnt.ent with seeds := [(0, 1, zeros 32)], proposal := p, nextEpoch := n }
theorem test_seed_cases : let s := duo { xEnt with ent := entSeeded none 114 } (standby []) []
    let v := duo { xEnt with ent := entSeeded (some (2, 4, zeros 32, false)) 4 } (standby []) []
    let f := duo { xEnt with ent := { xEnt.ent with proposal := some (1, 4, zeros 32, false) } } (standby []) []
    let d := duo { xEnt with ent := { sources := xEnt.ent.sources.take 11 } } (standby []) []
    s.seedTwin = .a ∧ s.seedPeer = some .b ∧ (entSeeded none 114).nextEpoch = epochOf (s.at 256000).now + 50 ∧
    ((entSeeded none 114).makeSeed .a 256000 0).isSome = true ∧ s.failStop = false ∧ s.sw.switching = false ∧
    v.seedTwin = .a ∧ v.seedPeer.isSome = true ∧ 4 ≤ epochOf (v.at 16000).now ∧ f.seedTwin = .a ∧ f.seedPeer.isSome = true ∧
    (duo xEnt { role := .degraded } []).seedPeer = none ∧ (duo xEnt { role := .degraded } []).seedTwin = .a ∧ (duo xEnt { role := .degraded } []).seeded .a = true ∧ (entSeeded none 114).stopped = false ∧
    d.seedTwin = .a ∧ d.active = some .a ∧ d.twinA.ent.sources ≠ [] ∧ d.twinA.ent.actives < 12 ∧ d.twinA.ent.stopped = false := by
  decide +kernel


/-! The module: Almanac, resets and boot, life cycle and TAP, tamper response, cards, swap and sidebands. -/

/-- A record to append. -/
def evq (sev : Nat) : EvReq := { id := 0x6002, sev := sev, origin := 3, stamp := 9, detail := zeros 16 }
/-- The module with one record received, after a first one of each region. -/
def sAlm (p : AlmRec) : State :=
  { ready (twin {} []) with
    alm := { gen := { recs := [(0, p)], next := 1, queue := [evq 1] }, ev := { next := 0, queue := [evq 3] }, highDone := true } }
/-- The same occurrence as the record received. -/
def same : AlmRec := { id := 0x6002, sev := 1, origin := 3, detail := zeros 16 }
theorem test_append : let s := sAlm {}
    s.almRuns = true ∧ s.alm.waiting = [] ∧ s.alm.gen.queue = [evq 1] ∧ (evq 1).sev ≠ sevEvid ∧ s.alm.dropped = 0 ∧
    (Tbl.find? s.alm.gen.recs (seqPrev s.alm.gen.next)).all (fun (p : AlmRec) => !p.merges (s.recOf (evq 1))) = true ∧
    (s.alm.gen.next + 2 ^ 32 - s.alm.gen.oldest) % 2 ^ 32 ≠ 1048576 ∧
    s.alm.ev.queue = [evq 3] ∧ (evq 3).sev = sevEvid ∧ s.alm.draws = [] ∧ s.alm.highDone = true ∧ s.alm.ev.next < 130815 ∧
    Tbl.find? s.alm.ev.recs (seqPrev s.alm.ev.next) = none := by decide +kernel
theorem test_merge : (sAlm same).alm.gen.next ≠ (sAlm same).alm.gen.oldest ∧
    (Tbl.find? (sAlm same).alm.gen.recs (seqPrev (sAlm same).alm.gen.next)).any
      (fun (p : AlmRec) => p.merges ((sAlm same).recOf (evq 1))) = true := by decide +kernel
theorem test_lastEvidence : let s : State := { sAlm {} with
      alm := { gen := { pend := true }, ev := { next := 130815, queue := [evq 3] }, highDone := true } }
    s.almRuns = true ∧ s.alm.ev.next = 130815 ∧ Tbl.find? s.alm.ev.recs (seqPrev s.alm.ev.next) = none ∧
    s.alm.gen.pend = true ∧ s.alm.gen.lastWr = none ∧ s.boot.up = true ∧ ({ s.alm.gen with lastWr := some 0 } : AlmReg).lastWr = some 0 ∧
    0 + 4000000 ≤ (s.at 4000000).now ∧ (s.at 9).now < 0 + 4000000 ∧
    s.alm.opsNvm + 64 ≤ (s.at 256000000000).opSeconds := by decide +kernel
theorem test_report : let s : State := { ready (twin {} []) with health := { due := [(0, 3)] } }
    let d : State := { s with twinB := standby [] }
    s.active = some .a ∧ s.failStop = false ∧ s.health.due = [(0, 3)] ∧
    (s.at 400000).now % 4000 = 0 ∧ epochOf (s.at 400000).now % reportStep 3 = 0 ∧ 0 ≤ epochOf (s.at 400000).now ∧
    epochOf (s.at 400000).now / 100000 * 100000 ≤ s.health.schedAt ∧ s.healthyStandby = none ∧ d.healthyStandby = some .b := by
  decide +kernel

/-- NVM with the firmware as shipped. -/
def shipped : Store := { comp1 := shippedComponent 1, comp2 := shippedComponent 2 }
/-- The module as it boots, in a life-cycle state. -/
def boots (st : Store) (l : List LcState) : State :=
  { State.reset with nvm := st, tamper := {}, boot := { up := true }, resetN := true, life := { fused := l } }
theorem test_resets : (ready (twin {} [])).boot.up = true ∧ (ready (twin {} [])).boot.mainOn = true ∧ (ready (twin {} [])).powered = true ∧
    (ready (twin {} [])).alm.ev.queue = [] ∧ (ready (twin {} [])).alm.waiting = [] ∧ (ready (twin {} [])).alm.draws = [] ∧
    (ready (twin {} [])).life.journal = none ∧ (ready (twin {} [])).tamper.pendResp = none ∧
    (ready (twin {} [])).tamper.progress = none ∧ State.reset.resetN = false ∧ State.reset.boot.selfHeld = false := by
  decide +kernel
theorem test_boot : let s := boots shipped [.production, .test]
    s.booting = true ∧ s.nvm.verified (firmwareLc s.lc) 2 = some 0 ∧ s.twinA.role = .booting ∧
    s.boot.from_ ≤ (s.at 0).now ∧ s.boot.released + 1600000000 ≤ (s.at 1600000000).now := by decide +kernel
theorem test_boot_none : let s := boots {} [.production, .test]
    s.booting = true ∧ s.nvm.verified (firmwareLc s.lc) 2 = none ∧ s.twinA.role = .booting ∧ s.twinB.role = .booting := by
  decide +kernel
theorem test_boot_timeouts : let s : State := { boots shipped [.production, .test] with
      boot := { up := true, trialBoot := true }, life := { fused := [.test], selfReset := some 9 } }
    s.boot.up = true ∧ s.boot.trialBoot = true ∧ s.boot.ready = false ∧ s.boot.from_ + 8000000000 ≤ (s.at 8000000000).now ∧
    s.life.selfReset = some 9 ∧ 9 ≤ (s.at 9).now ∧ s.life.journal = none ∧ s.boot.selfHeld = false ∧ s.failStop = false ∧
    (let h : State := { s with boot := { selfHeld := true } }
     h.boot.up = false ∧ h.boot.selfHeld = true) := by decide +kernel

theorem test_lcReq : let s := boots shipped [.test]
    lcOf 2 = some .production ∧ LcState.production ≠ s.lc ∧ s.lc ≠ .scrapped ∧ s.lcAllowed .production = true ∧
    lcPair s.lc .production = some (1, false, true) ∧ s.life.tokFails < 4 ∧
    (boots shipped [.production, .test]).lc = .production := by decide +kernel
theorem test_wipe : let s : State := { boots shipped [.test] with life := { fused := [.test], journal := some (.test, .production, 1, false) } }
    s.boot.up = true ∧ s.life.journal = some (.test, .production, 1, false) ∧ s.lc = .test := by decide +kernel
/-- The debug access port open on island 5, up to reads. -/
def sDebug : State := { boots shipped [.test] with life := { fused := [.test], ports := 1, access := 3, islands := [5] } }
theorem test_debug : sDebug.lc = .test ∧ sDebug.debugOpen 5 (.read (.word 0 1)) = true ∧ sDebug.debugOpen 5 .halt = true ∧
    sDebug.closed 5 = none ∧ isProcessor 5 = true ∧ islandTwin 5 = some .a ∧
    Tbl.find? ({ sDebug.life with halted := [(5, 0)] } : Life).halted 5 = some 0 ∧
    (let w : State := { sDebug with life := { sDebug.life with access := 7 } }
     w.debugOpen 5 (.write (.word 0 1) 5 false) = true ∧ w.closed 5 = none) ∧
    (let d : State := { sDebug with power := { sDebug.power with domains := [(5, { st := .nap })] } }
     d.closed 5 = some .nap ∧ (d.domain 5).woa = false ∧ d.debugOpen 5 (.read (.word 0 1)) = true) ∧
    bit sDebug.debugPorts 0 = true ∧ sDebug.debugOpen 6 .halt = false ∧
    bit (boots shipped [.production, .test]).debugPorts 0 = false := by decide +kernel
theorem test_tap : (boots {} [.scrapped]).lc = .scrapped ∧ (boots {} [.test]).lc ≠ .scrapped := by decide +kernel

/-- The alarm section's entry of class 4: its response, and a filter of 3 samples with a backup filter of 2. -/
def sTam (resp : Nat) (m : Tamper) : State :=
  ready (twin { (store []) with cfgA := ({} : CfgSet).wr 7 128 [byte resp, 2, 3, 0, 15] } []) |> fun s =>
    { s with tamper := { m with retained := s.alarms } }
/-- A monitor asserted. -/
def hot : Tbl Monitor := [(monKey 4 1, { asserted := true })]
theorem test_alarm : let s := sTam 1 {}
    let e := classEntry s.alarms 4
    s.boot.up = true ∧ (∀ i < 428, islandTwin i = meridianDie 1 → (s.at 0).clockAlarm i = false) ∧
    s.mainSampling = true ∧ s.awake 418 = true ∧ monitorExists 4 1 = true ∧ monitored e 4 1 = true ∧ s.sensorOut 4 1 = false ∧
    s.condition e 4 1 0 = none ∧ readingTrue e 4 1 0 = none ∧ (Tbl.getD s.tamper.monitors (monKey 4 1) ({} : Monitor)).asserted = false ∧ 2 < fld e 2 2 ∧
    fld e 2 2 ≤ 3 ∧ s.alm.ev.queue.length < 1024 ∧
    (Tbl.getD (sTam 1 { monitors := hot }).tamper.monitors (monKey 4 1) ({} : Monitor)).asserted = true := by decide +kernel
theorem test_response : let s := sTam 2 { pendResp := some (2, [3]) }
    s.tamper.pendResp = some (2, [3]) ∧ s.mainSampling = true ∧ s.rreqs = [] ∧ [3].contains 3 = true ∧
    (s.nvm.comp 3).st = .active := by decide +kernel
/-- A window in which the monitor's condition holds at each sample. -/
def win4 : MonSample := { cls := 4, mon := 1, hits := List.replicate 8 true, reading := 0 }
theorem test_window : let s : State := { sTam 3 {} with boot := { mainOn := false } }
    let v : State := { s with tamper := { s.tamper with windows := 1 } }
    s.mainSampling = false ∧ s.powered = false ∧
    (v.windowMon win4).2.any (fun v => decide (v.1 < 8) && v.2.2.1 == 3) = true ∧
    (v.windowMon { win4 with hits := List.replicate 8 false }).2 = [] ∧
    ({ s with boot := { s.boot with railsBack := true } } : State).powered = true := by decide +kernel
theorem test_zeroizing : let c : Comp := { comp [] with st := .zeroizing, wrapped := [1] }
    let s : State := { sTam 1 {} with nvm := { comps := [(3, c), (4, { c with wrapped := [] })] } }
    s.boot.up = true ∧ (s.nvm.comp 3).st = .zeroizing ∧ (s.nvm.comp 3).wrapped ≠ [] ∧ (s.nvm.comp 4).st = .zeroizing ∧
    (s.nvm.comp 4).wrapped = [] := by decide +kernel

/-- An admin request of the service, in Zenith's hands. -/
def areq (op plen : Nat) (p : Bytes) (param : Nat) : Req :=
  { hdr := { hdr op plen param true with target := 0 }, space := adminSpace, image := 0, chunks := [(0, p)], keyStatus := [] }
/-- A dialogue of request 5 at port 1. -/
def dlg (st : CardStage) : CardDlg := { q := 5, stage := st }
/-- A card in port 1, in that dialogue. -/
def sCard (st : CardStage) : State :=
  { ready (twin (store []) [(5, { areq 0x0143 56 ([1, 1] ++ zeros 54) 0 with begun := true })]) with
    port1 := { pres := true, active := true, dlg := some (dlg st) } }
theorem test_cards : let s := sCard .identity
    (s.port 0).pres = false ∧ (({ s with port1 := { pres := true } } : State).port 1).dlg = none ∧
    (s.port 1).dlg = some (dlg .identity) ∧ s.active = some .a ∧ s.executes .a = true ∧ (s.port 1).pres = true ∧
    (s.at 0).now < (dlg .identity).start + cardLongest ∧ (dlg .identity).start + cardLongest ≤ (s.at cardLongest).now ∧
    (Tbl.find? s.twinA.reqs 5).any (fun (r : Req) => r.hdr.opcode == 0x0143 && fld r.payload 1 1 == 1 && r.fin.isNone &&
      r.timedOut.isNone && r.hdr.deadline == 0) = true := by
  decide +kernel
/-- The same dialogue on its line: before the answer to reset, waiting for the answer to S(IFS request), and among blocks. -/
def onLine (st : CardStage) (l : CardLine) : CardDlg := { dlg st with line := l }
theorem test_card_line :
    (atrRead [0x3B, 0x80, 0x81, 0x01, 0x00]).any (fun a => a.ta1.isNone) = true ∧ atrRead [] = none ∧
    (dlg .select).line.stage = .atr ∧ (0 : Nat) ≤ (dlg .select).atrDue ∧
    (let d := onLine .select { stage := .ifs, sent := ifsRequest }
     d.line.sent = ifsRequest ∧ d.held = none ∧ d.apdu = [] ∧ 14 ≤ d.line.ifsc ∧ 0 ≤ d.line.sentAt + d.line.bwt + 5 * d.line.cwt) ∧
    (let d := onLine .select { stage := .blocks, sent := [1], owed := true }
     d.line.sent ≠ resynchRequest ∧ d.line.rest = [] ∧ d.line.rx ++ [0x90, 0x00] = [0x90, 0x00] ∧ 4 ≤ d.line.ifsc ∧
     (sCard .select).dlgReady 5 = true) ∧ apduData [1] = none := by
  decide +kernel
theorem test_identity : (identityOf (zeros 16 ++ [0x21] ++ zeros 97)).isSome = true := by decide +kernel
theorem test_expiry : let a : Approval := { expiry := 9 }
    let st : Store := { comps := [(3, { comp [] with cset := some { last := 0 } })], approvals := [(1, a)] }
    Tbl.find? (ready (twin st [])).twinA.store.approvals 1 = some a ∧ a.expiry < ((ready (twin st [])).at 10).now ∧
    (ready (twin st [])).adminSince a.expiry = false ∧ (ready (twin st [])).adminSince 2399999999999 = false ∧
    ((ready (twin st [])).nvm.comp 3).cset = some { last := 0 } ∧
    0 + 2400000000000 ≤ ((ready (twin st [])).at 2400000000000).now := by decide +kernel

theorem test_swap : let s := ready (twin { (store []) with swap := some (2, [7]) } [])
    let v : State := { sFin none (rFin false false) with nvm := s.nvm }
    s.boot.up = true ∧ s.nvm.swap = some (2, [7]) ∧ (s.at 8000).now = 4000 * 2 ∧ s.active.isSome = true ∧ (s.at 7999).now < 4000 * 2 ∧
    v.boot.up = true ∧ v.nvm.swap = some (2, [7]) ∧ v.active.isSome = true ∧ 4000 * 2 < (v.at 8001).now ∧ v.unexchanged 2 = true := by
  decide +kernel
/-- An owner image of one page, in force. -/
def owner : Component := { inForce := some 0, slot0 := { data := zeros 20 ++ [1, 0], st := .ready } }
theorem test_fill : let s := ready (twin { images := [(300, owner)] } [])
    s.executes .a = true ∧ s.twinA.missedVersions 0 300 0 = [600] ∧ 0 < ((s.twinA.store.component 3 300).slot 0).pageCount := by
  decide +kernel
theorem test_fill_waits : let s := kst image kreq { ctx0 with waiting := true, wants := .page 0 }
    s.executes .a = true ∧ s.twinA.missedVersions 0 9 0 = [18] ∧ 0 < ((s.twinA.store.component 3 9).slot 0).pageCount ∧
    Tbl.find? s.twinA.ctxs 0 = some { ctx0 with waiting := true, wants := .page 0 } ∧ islandCluster (0 / 2) / 4 = 0 ∧
    Tbl.find? s.twinA.reqs 5 = some kreq ∧ kreq.image = 9 := by decide +kernel
theorem test_smbus : ({ ready (twin {} []) with smbAlert := true } : State).smbAlert = true ∧ (ready (twin {} [])).boot.up = true := by
  decide


/-! The admin commands. -/

/-- A store: the quorum of every class is 1, one officer of the module, and what is given. -/
def admStore (cls op param : Nat) (p : Bytes) (comps : Tbl Comp) : Store :=
  { comps := comps, cfgA := ({} : CfgSet).wr 5 0 (List.replicate 8 1), msos := [(0, {})],
    approvals := [(1, { cls := cls, digest := sha384 (toLe 2 op ++ toLe 8 param ++ p), expiry := 1000 })] }
/-- The module with an admin request that Zenith of Twin A may run. -/
def sAdm (st : Store) (op param : Nat) (p : Bytes) : State :=
  let r : Req := { areq op p.length p param with tasks := [(0, {})] }
  { ready (twin st [(5, r)]) with rreqs := [(5, { hdr := r.hdr, toA := true })] }
/-- The request. -/
def rAdm (op param : Nat) (p : Bytes) : Req := { areq op p.length p param with tasks := [(0, {})] }
/-- Whether no configuration or firmware work of an earlier request, and no swap, stands in a request's way. -/
def shadowFree (s : State) (q : Nat) : Bool :=
  (Tbl.find? s.rreqs q).all (fun rr => !rr.behind) && decide (s.nvm.swap = none) && decide (s.twinA.store.swap = none) &&
  decide (s.twinB.store.swap = none)
/-- Whether a request of these fields is asked of Zenith. -/
def isAsked (st : Store) (op param : Nat) (p : Bytes) : Bool :=
  let s := sAdm st op param p
  let r := rAdm op param p
  decide (Tbl.find? (s.twin .a).reqs 5 = some r) && s.executes .a && s.awake (twinBase .a + 198) && (s.at 0).admReady .a op 5 r &&
  decide ((s.twin .a).replayOf r = none) && (Tbl.find? s.rreqs 5).all (fun (rr : RReq) => rr.given.isNone) &&
  decide (r.payload = p) && shadowFree s 5
theorem asked_of_isAsked {st : Store} {op param : Nat} {p : Bytes} (h : isAsked st op param p = true) :
    Asked (sAdm st op param p) 0 op .a 5 (rAdm op param p) ∧ (rAdm op param p).hdr.plen = p.length ∧
    (rAdm op param p).hdr.param = param ∧ (rAdm op param p).hdr.stateChange = true ∧ (rAdm op param p).payload = p ∧
    shadowFree (sAdm st op param p) 5 = true := by
  simp only [isAsked, Bool.and_eq_true, decide_eq_true_eq] at h
  obtain ⟨⟨⟨⟨⟨⟨⟨h1, h2⟩, ha⟩, h3⟩, h4⟩, h5⟩, h6⟩, h7⟩ := h
  exact ⟨⟨h1, h2, ⟨rfl, rfl, .inl rfl⟩, ha, h3, h4, h5⟩, rfl, rfl, by simp [rAdm, areq, hdr, Hdr.stateChange, b2n, bit], h6, h7⟩
/-- What the quorum check of a request finds. -/
def grants (st : Store) (cls op param : Nat) (p : Bytes) (scopes : List QScope) : Bool :=
  let a : Approval := { cls := cls, digest := sha384 (toLe 2 op ++ toLe 8 param ++ p), expiry := 1000 }
  (VEnv.of .a 5 (rAdm op param p)).approved (sAdm st op param p) cls scopes [(1, a)]
theorem test_queries : isAsked {} 0x0100 0 [] = true ∧ isAsked {} 0x0101 0 [] = true ∧ isAsked {} 0x0102 0x200 [] = true ∧
    isAsked {} 0x0103 0 [] = true ∧ isAsked {} 0x0104 0 [] = true ∧ isAsked {} 0x0110 0 (zeros 8) = true ∧
    isAsked {} 0x0110 0 ([2, 0, 0, 0] ++ toLe 4 8 ++ [1]) = true ∧ isAsked {} 0x0111 0 [] = true ∧
    isAsked {} 0x0113 0 ([0, 1, 0, 0] ++ toLe 4 0 ++ toLe 4 4) = true ∧ isAsked {} 0x0A00 1 (zeros 32) = true ∧
    isAsked {} 0x0A01 (2 ^ 32) [] = true := by decide +kernel
theorem test_query_values : let s := sAdm {} 0x0100 0 []
    ({ s with health := { latest := some [1] } } : State).health.latest = some [1] ∧ Fits (rAdm 0x0103 0 []) [1] ∧
    ({} : Store).cfgFault {} true ≠ none ∧ isAsked {} 0x0170 5 [] = true ∧ isCore 5 = true ∧ s.testNow .a 5 = [] ∧
    ((sAdm {} 0x0170 5 []).updTwin .a (fun x => { x with units := [(5, { role := .retired })] })).testNow .a 5 ≠ [] ∧
    ((VEnv.of .a 5 (rAdm 0x0A00 1 (zeros 32))).drawn (sAdm {} 0x0A00 1 (zeros 32)) 48).isSome = true ∧
    secSize 1 ≥ 4 := by unfold Fits; decide +kernel

theorem test_swapCmd : let st := { admStore 1 0x0112 20 (zeros 48) [] with validated := some (zeros 48) }
    isAsked st 0x0112 20 (zeros 48) = true ∧ st.validated = some (rAdm 0x0112 20 (zeros 48)).payload ∧
    epochOf ((sAdm st 0x0112 20 (zeros 48)).at 0).now + 20 ≤ 20 ∧ 20 ≤ epochOf 5 + 1000000000 ∧
    grants st 1 0x0112 20 (zeros 48) [msoScope] = true := by decide +kernel
/-- A write of one byte to slot 1 of the Relay's firmware, and of an owner image. -/
def pSlot (comp image : Nat) : Bytes := [byte comp, 1, 0, 0] ++ toLe 4 image ++ toLe 4 64 ++ [9]
theorem test_slotWrite : isAsked shipped 0x0120 0 (pSlot 1 0) = true ∧ slotNamed 1 1 0 false = true ∧
    (shipped.component 1 0).inForce ≠ some 1 ∧ (shipped.component 1 0).forceAt 5 ≠ some 1 ∧
    (sAdm shipped 0x0120 0 (pSlot 3 300)).slotUsed 300 1 5 = false ∧ (shipped.component 3 300).forceAt 5 = none ∧
    isAsked shipped 0x0120 0 (pSlot 3 300) = true ∧ slotNamed 3 1 300 false = true ∧ shipped.ownersHeld.length < 32 := by
  decide +kernel
/-- Two firmware slots, both shipped. -/
def cFw : Component := { shippedComponent 1 with slot1 := { st := .ready, shipped := 1 } }
/-- Its store. -/
def stFw : Store := { admStore 2 0x0121 0 [1, 1, 0, 0, 0, 0, 0, 0] [] with comp1 := cFw }
theorem test_slotActivate : isAsked stFw 0x0121 0 [1, 1, 0, 0, 0, 0, 0, 0] = true ∧ slotNamed 1 1 0 true = true ∧
    stFw.slotStatus .production 1 0 1 = 0 ∧ grants stFw 2 0x0121 0 [1, 1, 0, 0, 0, 0, 0, 0] [msoScope] = true ∧
    (stFw.component 1 0).inForce = some 0 ∧ (stFw.component 1 0).inForce ≠ some 1 ∧ (sAdm stFw 0x0121 0 []).lc = .production ∧
    isAsked stFw 0x0121 0 [1, 0, 0, 0, 0, 0, 0, 0] = true ∧ slotNamed 1 0 0 true = true := by decide +kernel
/-- A definition of compartment 3: Stagecoach, a share of cores and of the Orrery, one mailbox. -/
def pComp : Bytes := [3, 0, 1, 0] ++ zeros 4 ++ [1, 0, 1, 0, 0, 1, 1, 0] ++ zeros 24
/-- Its store. -/
def stComp : Store := admStore 3 0x0130 0 pComp []
theorem test_create : isAsked stComp 0x0130 0 pComp = true ∧ (sAdm stComp 0x0130 0 pComp).lcDenied = false ∧
    firstFault (entryFaults stComp (CfgSet.wr {} 1 120 pComp) 120) = none ∧ (stComp.comp 3).st = .undefined ∧
    stComp.sumsOk (stComp.cfgA.wr 1 120 pComp) = true ∧ stComp.sumsOk (stComp.cfgB.wr 1 120 pComp) = true ∧
    grants stComp 3 0x0130 0 pComp [msoScope] = true ∧
    ((VEnv.of .a 5 (rAdm 0x0130 0 pComp)).drawn (sAdm stComp 0x0130 0 pComp) 32).isSome = true := by decide +kernel
/-- Stores for the commands that suspend, resume and zeroize compartment 3. -/
def stState (op : Nat) (c : CompState) : Store := admStore 3 op 3 [] [(3, { comp [] with st := c })]
theorem test_states : isAsked (stState 0x0131 .active) 0x0131 3 [] = true ∧ isAsked (stState 0x0132 .suspended) 0x0132 3 [] = true ∧
    isAsked (stState 0x0133 .active) 0x0133 3 [] = true ∧ grants (stState 0x0131 .active) 3 0x0131 3 [] (compScopes 3) = true ∧
    grants (stState 0x0132 .suspended) 3 0x0132 3 [] (compScopes 3) = true ∧
    grants (stState 0x0133 .zeroized) 3 0x0133 3 [] (compScopes 3) = true ∧ ((stState 0x0131 .active).comp 3).st = .active ∧
    ((stState 0x0131 .suspended).comp 3).st = .suspended ∧ ((stState 0x0133 .zeroized).comp 3).st = .zeroized := by decide +kernel
/-- The enrolment of an officer of compartment 3. -/
def pOff : Bytes := [1, 1, 3, 0, 0x30, 0, 0, 0] ++ zeros (16 + 1952)
/-- Its store. -/
def stOff : Store := admStore 4 0x0140 0 pOff [(3, comp [])]
theorem test_enrol : isAsked stOff 0x0140 0 pOff = true ∧ pOff.length = 24 + officerKeyLen 0x30 ∧ (stOff.comp 3).st = .active ∧
    (stOff.officers 1 3).any (fun k => k.2.serial == zeros 16 || k.2.pub == zeros 1952) = false ∧
    (List.range 16).find? (fun i => (Tbl.find? (stOff.officers 1 3) i).isNone) = some 0 ∧
    grants stOff 4 0x0140 0 pOff (compScopes 3) = true := by decide +kernel
/-- The removal of officer 2 of compartment 3. -/
def stOut : Store := { admStore 4 0x0141 (2 + 256 + 65536 * 3) [] [(3, { comp [] with officers := [(1, { role := 1 }), (2, { role := 1 })] })] with
  cfgA := ({} : CfgSet).wr 5 0 (List.replicate 8 1) }
theorem test_remove : isAsked stOut 0x0141 (2 + 256 + 65536 * 3) [] = true ∧
    Tbl.find? (stOut.officers 1 3) 2 = some { role := 1 } ∧ stOut.spares (stOut.officers 1 3) 1 = true ∧
    grants stOut 4 0x0141 (2 + 256 + 65536 * 3) [] (officerScopes 1 3) = true := by decide +kernel
/-- A signed approval of class 1 by officer 0 of the module. -/
def pApp : Bytes := [1, 0, 0, 0, 0, 1, 5, 0] ++ toLe 8 0 ++ toLe 4 0 ++ zeros 4 ++ toLe 8 99 ++ zeros 48 ++ toLe 2 96 ++ zeros 6 ++ zeros 96
/-- Its store. -/
def stApp : Store := { msos := [(0, { alg := 0x21 })] }
theorem test_approval : isAsked stApp 0x0142 0 pApp = true ∧ pApp.length = 88 + fld pApp 80 2 ∧
    Tbl.find? (stApp.officers 0 0) 0 = some { alg := 0x21 } ∧ roleCounts 0 1 = true ∧ cardsOnly 1 = false ∧
    fld pApp 16 4 = (sAdm stApp 0x0142 0 pApp).pcycle ∧ 5 < fld pApp 24 8 ∧ stApp.remoteSeen = [] ∧ stApp.pool 5 < 64 := by decide +kernel
/-- The export of record 0 of the general region. -/
def stExp : Store := admStore 8 0x0A02 0 (zeros 12) []
theorem test_export : let s : State := { sAdm stExp 0x0A02 0 (zeros 12) with alm := { gen := { recs := [(0, {})], next := 1 } } }
    Asked s 0 0x0A02 .a 5 (rAdm 0x0A02 0 (zeros 12)) ∧
    s.exportBody false 0 0 5 (VEnv.of .a 5 (rAdm 0x0A02 0 (zeros 12))).action ≠ [] ∧
    grants stExp 8 0x0A02 0 (zeros 12) [msoScope] = true ∧
    ((VEnv.of .a 5 (rAdm 0x0A02 0 (zeros 12))).drawn s 48).isSome = true := by unfold Asked Timely; decide +kernel

/-- Dialogues at port 0. -/
def pCard (purpose : Nat) : Bytes := [0, byte purpose] ++ zeros 54
theorem test_dialogues : let st : Store := { comps := [(3, comp [])], cfgA := ({} : CfgSet).wr 5 0 (List.replicate 8 1) }
    let s := sAdm st 0x0144 0 [0, 0, 3, 0, 3, 2, 1, 0]
    isAsked st 0x0143 0 (pCard 1) = true ∧ isAsked st 0x0143 0 (pCard 2) = true ∧ (s.port 0).dlg = none ∧ s.power.padHold = none ∧
    ((VEnv.of .a 5 (rAdm 0x0143 0 (pCard 2))).drawn (sAdm st 0x0143 0 (pCard 2)) 32).isSome = true ∧
    isAsked st 0x0144 0 [0, 0, 3, 0, 3, 2, 1, 0] = true ∧ st.activeSet.quorum 5 ≤ 2 ∧ ((comp []).setFor 5 3 2 1).isSome = true ∧ s.awake 422 = true ∧ (Tbl.find? s.rreqs 5).any (fun (r : RReq) => r.dlgEnd.isNone) = true ∧
    (match s.twinA.rng 5 0 32 with | .ok _ y => (match y.rng 5 0 56 with | .ok _ _ => true | _ => false) | _ => false) = true := by
  decide +kernel
/-- The two approvals of `UNLOCK`. -/
def two (i p : Nat) : Nat × Approval :=
  (i, { cls := 6, officer := i, digest := sha384 (toLe 2 0x0150 ++ toLe 8 0), expiry := 1000, port := some p })
theorem test_unlock : let st : Store := { msos := [(1, {}), (2, {})], approvals := [two 1 0, two 2 1] }
    let s : State := { sAdm st 0x0150 0 [] with port0 := { pres := true }, port1 := { pres := true }, tamper := { lock := true } }
    Asked s 0 0x0150 .a 5 (rAdm 0x0150 0 []) ∧ s.lockAsserted = false ∧ s.alm.full = false ∧ s.tamper.mrkLost = false ∧
    ((VEnv.of .a 5 (rAdm 0x0150 0 [])).drawn ({ s with tamper := { lock := true, mrkLost := true } } : State) 64).isSome = true ∧
    unlockPair (st.approvals.filter (fun (a : Nat × Approval) => a.2.cls == 6 &&
      a.2.digest == (VEnv.of .a 5 (rAdm 0x0150 0 [])).action && decide (5 ≤ a.2.expiry) && st.counts msoScope a.2)) =
      some (two 1 0, two 2 1) := by unfold Asked Timely; decide +kernel
/-- A transition to ANALYSIS, with one card approval, and one from TEST. -/
def pLc (target : Nat) : Bytes := [byte target] ++ zeros 39
theorem test_transition : let st := admStore 7 0x0160 0 (pLc 3) []
    let a : Approval := { cls := 7, digest := sha384 (toLe 2 0x0160 ++ toLe 8 0 ++ pLc 3), expiry := 1000, port := some 0 }
    let st1 := { st with approvals := [(1, a)] }
    let s := sAdm st1 0x0160 0 (pLc 3)
    isAsked st1 0x0160 0 (pLc 3) = true ∧ lcOf 3 = some .analysis ∧ s.lcAllowed .analysis = true ∧ lcCode s.lc ≠ 3 ∧
    lcPair s.lc .analysis = some (2, true, false) ∧
    (VEnv.of .a 5 (rAdm 0x0160 0 (pLc 3))).approved s 7 [msoScope] [(1, a)] = true ∧ s.life.tokFails < 4 := by decide +kernel
theorem test_transition_test : let s : State := { sAdm {} 0x0160 0 (pLc 4) with life := { fused := [.test] } }
    Asked s 0 0x0160 .a 5 (rAdm 0x0160 0 (pLc 4)) ∧ s.lcAllowed .scrapped = true ∧ lcPair s.lc .scrapped = some (3, false, true) ∧
    isAsked {} 0x0161 0 (zeros 192) = true ∧ (sAdm {} 0x0161 0 []).lc ≠ .analysis := by unfold Asked Timely; decide +kernel


/-! The engines and the Orrery. -/

/-- An image with 16 KiB of local memory. -/
def img : Component := { inForce := some 0, slot0 := { data := zeros 24 ++ [16], st := .ready } }
/-- A command block (Table 11-2): operation, function, flags, key kind, source kinds, destination kind, output length. -/
def cblk (op func fl key src dst out : Nat) (aLen : Nat) (aux : Nat) : Bytes :=
  [byte op, byte func, byte fl, byte (16 * key)] ++ toLe 4 (if key = 1 then 9 else 0) ++
  [byte src, byte (16 * dst), byte out, 0] ++ toLe 4 0 ++ toLe 4 aLen ++ zeros 12 ++ toLe 4 aux ++ zeros 20
/-- An operation on engine 9 of cluster 0. -/
def eop (b : Bytes) : EngOp := { blk := b, q := 5, admitted := true, engine := some 9 }
/-- A twin with an operation, the key at handle 9, sixteen bytes of payload, and the masks of engine 9. -/
def engTwin (usage : Nat) (o : EngOp) : TwinSt :=
  let m : MaskGen := { inst := true }
  { twin { (store [(9, aes usage)]) with images := [(1, img)] } [(5, { vreq 0x0300 0 (zeros 16) with allowed := [9] })] with
    ops := [(1, o)], ctxs := [(ctxKey ⟨0, 0⟩, { occ := true, task := some (5, 0), waiting := true, lmem := [(64 + 6, 0)] })],
    ent := { seeds := [(0, 1, zeros 32)], masks := [(18, m), (19, m)] } }
/-- Whether an operation of a code may run, and is refused or not. -/
def runs (x : TwinSt) (code : Nat) (refused : Bool) : Bool :=
  x.engEnv? 1 |>.any (fun e => e.o.code == code && e.payloadThere && e.refusal.isSome == refused && e.o.engine == some 9 &&
    !e.o.waits && e.o.done.isNone && (x.masksOf 9).all (fun m => !m.tainted && !x.ent.maskDue 0 m) &&
    !x.ent.seeds.isEmpty && (ready x).awake 9 && !x.masksSpent 9 (e.blockWork (e.firstUse 9)) 0 &&
    decide (x.maskNeed 9 (e.blockWork (e.firstUse 9)) ≤ x.ent.blocks.length))
theorem test_engine_refused : runs (engTwin 0 (eop (cblk 1 0 0 1 0x30 1 0 16 0))) 1 true = true ∧
    runs (engTwin 0 (eop (cblk 5 0 0 1 0x30 1 0 16 0))) 5 true = true ∧ runs (engTwin 0 (eop (cblk 0x11 0 0 1 0x30 1 0 16 0))) 0x11 true = true := by
  decide +kernel
theorem test_engine_runs : runs (engTwin 2 (eop (cblk 1 0 0 1 0x30 1 0 16 0))) 1 false = true ∧
    runs (engTwin 1 (eop (cblk 2 0 0 1 0x30 1 0 16 0))) 2 false = true ∧
    runs (engTwin 0x20 (eop (cblk 3 0 0 1 0x30 1 0 16 0))) 3 false = true ∧
    runs (engTwin 2 (eop (cblk 4 0 0 1 0x30 1 0 16 0))) 4 false = true ∧
    runs (engTwin 8 (eop (cblk 5 1 0 1 0x30 1 16 16 0))) 5 false = true ∧
    runs (engTwin 8 (eop (cblk 5 1 128 1 0x30 0 16 16 64))) 5 false = true ∧
    runs (engTwin 0x200 (eop (cblk 6 1 0 1 0x30 5 16 16 0))) 6 false = true ∧
    runs (engTwin 0 (eop (cblk 7 0x21 0 0 0x30 1 0 16 0))) 7 false = true ∧
    runs (engTwin 0 (eop (cblk 8 0 0 1 0 1 0 0 0))) 8 false = true ∧
    runs (engTwin 0 (eop (cblk 10 0 0 0 0x10 5 0 16 0))) 10 false = true ∧
    runs (engTwin 0 (eop (cblk 0x10 0 0 0 0 0 0 16 0))) 0x10 false = true ∧
    runs (engTwin 0 (eop (cblk 0x12 0 0 0 0 0 0 0 0))) 0x12 false = true := by decide +kernel
/-- A hold region of the task, and a full hold buffer. -/
def holding (n : Nat) (x : TwinSt) : TwinSt := { x with clusters := [(0, { hold := [(7, { q := if n = 4096 then 5 else 6, size := n, data := zeros 16 })] })] }
theorem test_engine_hold : runs (holding 4096 (engTwin 8 (eop (cblk 0x11 1 128 1 0x40 1 16 16 64)))) 0x11 false = true ∧
    ((holding 524288 (engTwin 0 (eop (cblk 0x10 0 0 0 0 0 0 16 0)))).engEnv? 1).any
      (fun e => e.refusal.isNone && !e.k.holdRoom e.o.aLen) = true ∧
    ((engTwin 0 { eop (cblk 0x10 0 0 0 0 0 0 16 0) with waits := true }).engEnv? 1).any (fun e => e.o.waits && e.region.isNone && e.k.holdRoom e.o.aLen) = true := by
  decide +kernel
/-- The attributes of an AES-128 key in the auxiliary block at 64, and its material in staging entry 0. -/
def engInstall : TwinSt :=
  let x := engTwin 0 (eop (cblk 9 0 0 0 0x50 9 0 16 64))
  { x with ctxs := [(0, { occ := true, task := some (5, 0), lmem := [(64, 8), (68, 3)] })],
           staging := [(0, { alg := 3, usage := 8, data := zeros 16 })] }
theorem test_engine_install : runs engInstall 9 false = true ∧ (engInstall.engEnv? 1).any (fun e => e.o.dKind == 9 &&
    e.attr.any (fun a => (engInstall.createKey 5 none a 0 e.a).any (fun (v : Nat ⊕ (Nat × TwinSt)) => v.isRight))) = true := by
  decide +kernel
theorem test_engine_ends : let x := engTwin 0 { eop (cblk 8 0 0 1 0 1 0 0 0) with done := some {} }
    let y := engTwin 0 { eop (cblk 8 0 0 1 0 1 0 0 0) with admitted := false, engine := none }
    (x.engEnv? 1).any (fun e => e.o.admitted && e.o.done == some {}) = true ∧ (Tbl.find? x.ctxs (ctxKey ⟨0, 0⟩)).isSome = true ∧
    (List.find? (fun (p : Nat × EngOp) => p.2.cluster == 0 && !p.2.admitted && y.engRoom p.2.ctx 0) y.ops).isSome = true ∧
    (y.task? 5 0).any (fun k => decide (k.dep < 65535)) = true := by decide +kernel

/-- A call block (Table 12-2): operation, parameter set, flags, digits, input and output lengths, and `MLEN`. -/
def oblk (op ps fl d il ol ml : Nat) : Bytes :=
  [byte op, byte ps, byte fl, 0] ++ toLe 2 d ++ zeros 6 ++ toLe 4 il ++ toLe 4 0 ++ toLe 4 ol ++ toLe 4 3 ++ toLe 4 ml ++ zeros 32
/-- A call of compartment 3 in the store. -/
def call (b : Bytes) (n : Nat) : OrrCall := { blk := b, input := zeros n, owner := 3, q := 5, admitted := true }
/-- A twin with a call and a slice of its compartment. -/
def orr (k : OrrCall) : TwinSt :=
  { twin (store []) [(5, vreq 0x0700 0 [])] with
    ctxs := [(0, { occ := true, task := some (5, 0), waiting := true })],
    orrery := { calls := [(1, k)], slice := some (3, 0, 100000, 0, false) } }
theorem test_orrery_starts :
    (orr (call (oblk 0x01 0 0 1 16 8 0) 16)).orrery.canStart 0 1 (call (oblk 0x01 0 0 1 16 8 0) 16) = true ∧
    (orr (call (oblk 0x10 0x20 0 0 160 32 0) 160)).orrery.canStart 0 1 (call (oblk 0x10 0x20 0 0 160 32 0) 160) = true ∧
    (orr (call (oblk 0x11 0x22 0 0 160 0 0) 160)).orrery.canStart 0 1 (call (oblk 0x11 0x22 0 0 160 0 0) 160) = true ∧
    (orr (call (oblk 0x20 0x30 4 0 5325 0 0) 5325)).orrery.canStart 0 1 (call (oblk 0x20 0x30 4 0 5325 0 0) 5325) = true ∧
    (orr (call (oblk 0x30 0 3 0 200 32 0) 200)).orrery.canStart 0 1 (call (oblk 0x30 0 3 0 200 32 0) 200) = true := by decide +kernel
/-- A set that gives compartment 3 one slot of a frame, and at most one. -/
def shares : CfgSet := ({} : CfgSet).wr 1 120 [3, 0, 1, 0, 0, 0, 0, 0, 0, 0, 0, 0, 1, 1]
theorem test_orrery : let k := call (oblk 0x30 0 3 0 200 32 0) 200
    let x := orr { k with admitted := false }
    let y := orr { k with done := some (0, 1, [], 9) }
    (List.find? (fun (p : Nat × OrrCall) => !p.2.admitted && x.orrery.room p.2) x.orrery.calls).isSome = true ∧
    (x.task? 5 0).any (fun d => decide (d.dep < 65535)) = true ∧ (Tbl.find? y.ctxs (ctxKey ⟨0, 0⟩)).isSome = true ∧
    ({ (orr k).orrery with slice := none } : Orrery).nextOwner shares = some 3 ∧ ({} : Orrery).nextOwner shares = none ∧
    (ready (orr k)).awake (twinBase .a + 197) = true ∧ k.owner ≠ adminSpace ∧ k.blkAddr + 64 ≤ 65536 ∧ k.done = none ∧
    (orr k).orrery.slice = some (3, 0, 100000, 0, false) ∧ k.admitted = true ∧ (ready (orr k)).active = some .a ∧ 100000 ≤ ((ready (orr k)).at 100000).now ∧
    ((orr k).orrery.running 100000).length = 0 := by decide +kernel
theorem test_engine_reruns : let o := eop (cblk 1 0 0 1 0x30 1 0 16 0)
    runs (engTwin 2 { o with rerun := true }) 1 false = true ∧ o.rerun = false ∧ o.kkind = 1 ∧
    (ready (engTwin 2 o)).active = some .a := by decide +kernel


/-! Power and wear. -/

/-- A domain of engine 9 and of core 5 with an entry in progress. -/
def sEntry (n : Nat) : State := { ready (twin (store []) []) with
  power := { mod := .active, domains := [(n, { entry := some (.nap, 0), busy := 9 })] } }
/-- Engine 9 asleep. -/
def sDown : State := { ready (twin (store []) []) with power := { mod := .active, domains := [(9, { st := .sleep })] } }
/-- Engine 9 asleep with `WOA` 1. -/
def sGate : State := { ready (twin (store []) []) with power := { mod := .active, domains := [(9, { st := .sleep, woa := true })] } }
theorem test_entries : let s := ready (twin (store []) [])
    domainKind 9 = some 1 ∧ s.voted 9 = false ∧ (s.domain 9).st = .run ∧ (s.at 0).idled 9 1 = true ∧ (s.at 0).afresh 9 = true ∧
    ((s.updTwin .a (fun x => { x with units := [(9, { role := .selftest })] }))).voted 9 = true ∧
    (s.domain 9).latched = [] ∧ (s.domain 9).entry = none ∧ islandTwin 5 = some .a ∧ isCore 5 = true ∧ (s.domain 5).st = .run ∧
    s.entering 5 = false ∧ (s.domain 5).latched = [] ∧ (s.at 0).idled 5 0 = true ∧ (s.at 0).afresh 5 = true ∧
    s.twinA.ctxFree 5 0 = true ∧ s.twinA.ctxFree 5 1 = true ∧ (s.twinA.unit 5).role ≠ .selftest ∧ s.closed 9 = none ∧
    s.boot.ready = true ∧ s.boot.up = true ∧ s.awake 422 = true := by decide +kernel
/-- Engine 9 with an entry of Nap in progress, where the set gives `REFUSE_WAIT` 9 us. -/
def sWait : State := { ready (twin { (store []) with cfgA := ({} : CfgSet).wr 8 2 [9, 0] } []) with
  power := { mod := .active, domains := [(9, { entry := some (.nap, 0), busy := 9, woa := true })] } }
theorem test_wakes : sDown.power.mod ≠ .standbyHot ∧ (sDown.domain 9).entry = none ∧ sDown.entering 9 = false ∧
    (sDown.domain 9).st ≠ .run ∧ ((sEntry 9).domain 9).entry = some (.nap, 0) ∧ (sEntry 9).power.mod ≠ .standbyHot ∧
    ((sEntry 9).domain moduleDomain).entry = none ∧ (∀ k < 16, (sEntry 9).twinA.trimmed k = false) ∧
    0 + (sEntry 9).refuseWait ≤ ((sEntry 9).at 0).now ∧ (sDown.domain 422).st = .run ∧ (sWait.at 0).now < 0 + sWait.refuseWait ∧
    (sWait.domain 9).latched = [] ∧ trimEntry 9 .nap = false ∧ (sWait.domain 9).st = .run := by decide +kernel
theorem test_gates : sDown.closed 9 = some .sleep ∧ (sDown.domain 9).woa = false ∧ sGate.closed 9 = some .sleep ∧
    (sGate.domain 9).woa = true ∧ sGate.entering 9 = false ∧ (sGate.domain 9).held = [] ∧ sWait.closed 9 = some .nap ∧
    sWait.entering 9 = true ∧ (sWait.domain 9).woa = true := by decide +kernel
/-- The trimming of cluster 15 in progress, where the set gives `REFUSE_WAIT` 9 us. -/
def sTrim : State := { ready (twin { (store []) with cfgA := ({} : CfgSet).wr 8 2 [9, 0] } []) with
  power := { mod := .active, domains := (trimDoms .a 15).map (fun i => (i, { st := .doze, entry := some (.sleep, 0), stopped := true })) } }
theorem test_trim : let s := ready (twin (store []) [])
    s.executes .a = true ∧ s.power.mod ≠ .standbyHot ∧ (s.domain moduleDomain).entry = none ∧ s.trimming .a = none ∧
    s.powerFld 8 1 + 1 < (List.range 16).countP (fun k => !s.twinA.trimmed k) ∧ (s.at 0).trimTarget .a = some 15 ∧
    s.twinA.trimBusy .a 15 = [] ∧ (trimDoms .a 15).all (fun i => decide ((s.domain i).latched = [])) = true ∧
    sTrim.trimming .a = some 15 ∧ sTrim.trimSince .a 15 = some 0 ∧ (sTrim.at 0).now < 0 + sTrim.refuseWait ∧
    sTrim.twinA.trimBusy .a 15 = [] ∧ (trimDoms .a 15).all (fun i => decide ((sTrim.domain i).latched = [])) = true := by
  decide +kernel
/-- Every cluster trimmed, and a request whose root task is ready. -/
def sStuck : State := ready { twin (store []) [(5, { hdr := hdr 0x0300 0 0 false, space := 3, image := 1, tasks := [(0, { st := .ready })] })] with
  clusters := (List.range 16).map (fun k => (k, { trimmed := true })) }
theorem test_trimWake : sStuck.executes .a = true ∧
    (sStuck.twinA.prepare .a (sStuck.isActive .a) (sStuck.at 0).now).stuck .a (sStuck.isActive .a) (sStuck.at 0).now = true ∧
    (List.range 16).find? (fun k => (sStuck.twinA.prepare .a (sStuck.isActive .a) (sStuck.at 0).now).trimmed k) = some 0 := by
  decide +kernel
theorem test_standby : let s : State := ready (twin { (store []) with cfgA := ({} : CfgSet).wr 8 4 [1] } [])
    let h : State := { s with power := { mod := .standbyHot }, rreqs := [(5, {})] }
    s.failStop = false ∧ s.power.mod ≠ .standbyHot ∧ s.power.mod ≠ .off ∧ s.powerFld 4 4 ≠ 0 ∧ s.rreqs = [] ∧ s.ingress = [] ∧
    Tbl.getD s.used moduleDomain 0 + 4000000 * s.powerFld 4 4 ≤ (s.at 4000000).now ∧ (s.at 4000000).afresh moduleDomain = true ∧
    (s.domain moduleDomain).entry = none ∧ (s.domain moduleDomain).latched = [] ∧ s.twinDoms = [] ∧ h.rreqs ≠ [] ∧
    h.power.mod = .standbyHot := by decide +kernel
/-- Island 5 on a trained table of its class, with an alarm at stamp 4. -/
def sDvfs : State := { ready (twin (store []) []) with
  power := { mod := .active, dvfs := [(5, { light := { trained := true, mv := [700] }, lastAlarm := some 4 })] } }
/-- The same island in the heavy class, and below its bound since stamp 0. -/
def sBelow : State := { sDvfs with power := { mod := .active, dvfs := [(5, { cls := .heavy, below := some 0 })] } }
theorem test_dvfs : (sDvfs.island 5).cls = .light ∧ (sDvfs.island 5).guarded (sDvfs.at 4000004).opSeconds = false ∧
    4 + 4000000 ≤ (sDvfs.at 4000004).now ∧ (sDvfs.at 9).now < 4 + 4000000 ∧ classOf 10 = .light ∧ classOf 50 = .medium ∧
    classCode .light < classCode .medium ∧ (sBelow.island 5).cls = .heavy ∧ (sBelow.island 5).below = some 0 ∧
    (sBelow.at 9).now < 0 + 400000 ∧ 0 + 400000 ≤ (sBelow.at 400000).now ∧
    40000000 ≤ ((sDvfs.island 5).table .light).spent + ((sDvfs.at 40000000).now - (sDvfs.island 5).since) ∧
    pointsOf 5 = 5 ∧ pointsOf 196 = 1 := by decide +kernel

/-- Core 8 in the spare role, and what is given of others. -/
def sWear (l : Tbl UnitRec) : State := ready { twin (store []) [] with units := l }
theorem test_rotation : let s := sWear [(8, { role := .spare })]
    islandTwin 8 = some .a ∧ epochOf (s.at 0).now % (rotationPeriod .core).1 = (rotationPeriod .core).2 * 0 ∧
    s.twinA.trimmed 0 = false ∧ (clusterUnits .a 0 .core).find? s.twinA.freeSpare = some 8 ∧
    s.twinA.nextUnit .a 8 = some 0 ∧ (s.twinA.unit 0).role = .active ∧ (s.twinA.unit 0).draining = false ∧ s.power.mod ≠ .standbyHot ∧
    (let x : TwinSt := { s.twinA with reqs := [(5, { rFin false true with reexecOn := some 8 })] }
     (clusterUnits .a 0 .core).any x.freeSpare = false ∧ (clusterUnits .a 0 .core).any x.reexecCores.contains = true ∧
     x.trimmed 0 = false) := by decide +kernel
theorem test_units : let s := sWear [(3, { draining := true }), (5, { role := .selftest }), (6, { spareWait := some 0 })]
    (clusterUnits .a 0 .core).find? (fun i => (s.twinA.unit i).draining && s.twinA.drained .a i) = some 3 ∧
    s.errorsOver .a 3 = false ∧ isEngine 6 = false ∧ (s.twinA.unit 5).role = .selftest ∧ (s.twinA.unit 5).why ≠ 5 ∧
    (s.twinA.unit 6).spareWait = some 0 ∧ 0 + 400000000 ≤ (s.at 400000000).now ∧ (s.twinA.unit 6).role = .active := by
  decide +kernel
theorem test_wear : let s := sWear []
    let x : TwinSt := { twin (store []) [] with clusters := [(0, { repairs := [(2, List.range 16)], banks := [1] }), (1, { banks := [1, 2] })] }
    (Tbl.getD (Tbl.getD s.twinA.clusters 0 ({} : Cluster)).repairs 2 []).length < 16 ∧ 0 < s.wear.sectors ∧
    16 ≤ (Tbl.getD (Tbl.getD x.clusters 0 ({} : Cluster)).repairs 2 []).length ∧ (Tbl.getD x.clusters 0 ({} : Cluster)).banks.length < 2 ∧
    2 ≤ (Tbl.getD x.clusters 1 ({} : Cluster)).banks.length ∧ (Tbl.getD x.clusters 1 ({} : Cluster)).held = [] ∧
    (Tbl.getD s.wear.sensors (1024 + 7) ((0, false) : Nat × Bool)).2 = false ∧ 7 < (skyglowDie 1).1 ∧ (s.domain 5).st ≠ .sleep ∧
    ({ s with wear := { s.wear with sectors := 0 } } : State).wear.sectors = 0 ∧ s.linkUp = true ∧ s.wear.lanes = [] ∧
    (∀ i ∈ ([] : List Nat) ++ [9], 8 ≤ i) ∧ ¬ ((∀ i ∈ ([] : List Nat) ++ [3, 9], 8 ≤ i) ∨ (∀ i ∈ ([] : List Nat) ++ [3, 9], i < 8)) ∧
    ({ s with linkUp := false } : State).linkUp = false := by decide +kernel
theorem test_repairs : let s := sWear []
    let v : State := { vst [] (vreq 0x0300 0 []) with wear := { sectors := 0 } }
    ({ s with wear := { rowUnc := [rowKey (quadrantOf .a 0) (quadrantBank 0 2) 3] } } : State).remapDue .a
      (rowKey (quadrantOf .a 0) (quadrantBank 0 2) 3) 3 = true ∧ s.remapDue .a (rowKey (quadrantOf .a 0) (quadrantBank 0 2) 3) 1 = true ∧
    v.wear.sectors = 0 ∧ Tbl.find? v.twinA.reqs 5 = some (vreq 0x0300 0 []) ∧ s.executes .a = true := by decide +kernel


/-! The vendor commands: requests and keys that meet the hypotheses of the statements about them. -/

/-- Whether a new key can be made for a request. -/
def makes (s : State) (a : KeyAttr) (cls : Nat) (m : Bytes) : Bool :=
  ((s.twin .a).createKey 5 (some 0) a cls m).any (fun (v : Nat ⊕ (Nat × TwinSt)) => v.isRight)

/-- `KEY_GENERATE` of an AES-128 key. -/
def rGen : Req := vreq 0x0200 0 (toLe 4 0x60 ++ [3, 1, 1, 0] ++ toLe 8 5)
theorem test_keyGenerate : Served (vst [] rGen) 0 0x0200 .a 5 rGen ∧ rGen.hdr.plen = 16 ∧ fld rGen.payload 0 4 < 0x1000 ∧
    ((VEnv.of .a 5 rGen).drawn (vst [] rGen) 16).isSome = true ∧
    makes (vst [] rGen) { usage := 0x60, alg := 3, expt := true, nonceEn := true, limit := 5 } 0 (zeros 16) = true := by
  unfold Served Timely; decide +kernel

/-- A key block of an AES PIN encryption key of zeros under an AES key of zeros. -/
def block : String := "D0112P0AB00E0000F7C7ED36F2BB25615A8396552A14310933520C30B209DC10A03DA1E40B79B4A3144FEDA1F16607DB29D95513" ++
  "4EBADDBB"
/-- `KEY_IMPORT` of a block under the key at handle 9. -/
def rImp (b : Bytes) : Req := vreq 0x0201 9 b
/-- The wrapping key at handle 9, and an exportable key at handle 10. -/
def wraps : Tbl KeyRec := [(9, aes 0x180), (10, { aes 0x3 with exportable := true })]
theorem test_keyImport_header : Served (vst wraps (rImp (ascii block))) 0 0x0201 .a 5 (rImp (ascii block)) ∧
    (parseHeader (ascii block)).any (fun h => h.isD && h.expt && h.len == 16) = true ∧
    (VEnv.of .a 5 (rImp (ascii block))).keyed (vst wraps (rImp (ascii block))) 0 9 (kbpkFits true) (aes 0x180) = true := by
  unfold Served Timely; decide +kernel
theorem test_keyImport_opens : (kbOpen 3 (zeros 16) (ascii block) 16).any (fun c => kbKeyOf 0x41 c == some (3, zeros 16)) = true := by
  decide +kernel
theorem test_keyImport_denied : (parseHeader ((ascii block).dropLast ++ [0x5A])).isSome = true ∧
    kbOpen 3 (zeros 16) ((ascii block).dropLast ++ [0x5A]) 16 = none := by decide +kernel

/-- `KEY_EXPORT` of the key at handle 10 under the one at 9. -/
def rExp : Req := vreq 0x0202 9 (toLe 4 10)
theorem test_keyExport : Served (vst wraps rExp) 0 0x0202 .a 5 rExp ∧ rExp.hdr.plen = 4 ∧
    (VEnv.of .a 5 rExp).keyed (vst wraps rExp) 0 9 (fun k => isTdea k.alg || isAes k.alg) (aes 0x180) = true ∧
    (VEnv.of .a 5 rExp).keyed (vst wraps rExp) 1 10 (fun k => handleClass 10 == 0 && k.exportable && (exportForm k).isSome &&
      decide (strength k.alg ≤ strength 3)) { aes 0x3 with exportable := true } = true ∧
    (exportForm (aes 0x3)).isSome = true := by
  unfold Served Timely; decide +kernel

/-- `KEY_PAIR_GENERATE` of an Ed25519 pair. -/
def rPair : Req := vreq 0x0203 0 (toLe 4 0x1000 ++ [0x22, 0, 0, 0])
theorem test_keyPairGenerate : Served (vst [] rPair) 0 0x0203 .a 5 rPair ∧ pairUsageOk 0x1000 0x22 = true ∧
    ((vst [] rPair).twinA.quota 5 2 2 0).isSome = true ∧
    (ranTo ((VEnv.of .a 5 rPair).pairMaterial 0x22) (vst [] rPair)).isSome = true ∧
    makes (vst [] rPair) { usage := 0x1000, alg := 0x22 } 2 (zeros 64) = true := by
  unfold Served Timely; decide +kernel

/-- `PUBKEY_IMPORT` of an ML-DSA-65 key. -/
def rPub : Req := vreq 0x0204 0 ([0x30, 0, 0, 0] ++ toLe 4 0x2000 ++ zeros 1952)
theorem test_pubkeyImport : Served (vst [] rPub) 0 0x0204 .a 5 rPub ∧ rPub.hdr.plen = 8 + pubEncLen 0x30 ∧
    makes (vst [] rPub) { usage := 0x2000, alg := 0x30 } 1 (zeros 1952) = true := by
  unfold Served Timely; decide +kernel
theorem test_pubkeyImport_verdict : pubValid 0x30 [] = true ∧ pubValid 0x10 (zeros 260) = false := by decide +kernel

/-- `KEY_LOAD` of a PX key block of the key at handle 12: an AES key of zeros, under a PXK of zeros. -/
def px : Bytes :=
  [1, 3, 0, 0, 3, 0, 88, 0, 1, 0, 0, 0, 12, 0, 0, 0, 96, 0, 0, 0] ++ zeros 36 ++
  [230, 186, 89, 129, 119, 53, 55, 110, 116, 72, 73, 200, 237, 103, 112, 145, 25, 108, 157, 127, 236, 28, 155, 104, 237, 204,
   70, 116, 252, 36, 94, 6]
/-- Its request. -/
def rLoad : Req := vreq 0x0205 0 px
theorem test_keyLoad_form : Served (vst [] rLoad) 0 0x0205 .a 5 rLoad ∧ pxForm px = true ∧ fld px 4 2 = 3 ∧
    fld px 8 4 = 1 ∧ fld px 12 4 = 12 := by
  unfold Served Timely; decide +kernel
theorem test_keyLoad_opens : sivOpenB (zeros 32) [px.take 56] (px.drop 56) = some (zeros 16) := by decide +kernel
theorem test_keyLoad_denied : sivOpenB (zeros 32) [px.take 55] (px.drop 56) = none := by decide +kernel
theorem test_keyLoad_room : ((vst [] rLoad).twinA.quota 5 1 0 0).isSome = true ∧
    (vst [] rLoad).twinA.store.key? 3 12 5 = none := by decide +kernel

/-- The management commands of the key at handle 9. -/
def rMg (op : Nat) : Req := vreq op 9 []
theorem test_keyManagement : (∀ op ∈ [0x0206, 0x0207, 0x0208, 0x0209], Served (vst wraps (rMg op)) 0 op .a 5 (rMg op) ∧
    (vst wraps (rMg op)).twinA.store.key? 3 9 5 = some (aes 0x180) ∧
    ((vst wraps (rMg op)).twinA.revokeEntry 5 (rMg op) 9).isSome = true ∧
    (vst wraps (rMg op)).twinA.claimWaits 5 3 9 = false) := by
  unfold Served Timely; decide +kernel

/-- A PAN of 12 digits, and the format 4 block of PIN 1234 with it under an AES key of zeros. -/
def pan12 : Bytes := [0x12, 0x34, 0x56, 0x78, 0x90, 0x12, 0xFF, 0xFF, 0xFF, 0xFF]
/-- The block. -/
def pin4 : Bytes := [82, 94, 177, 245, 157, 38, 116, 221, 185, 158, 156, 245, 142, 119, 137, 174]
/-- `PIN_TRANSLATE` of a format 4 block to format 4. -/
def rPin : Req := vreq 0x0300 0 (toLe 4 9 ++ toLe 4 10 ++ [4, 4, 12, 0] ++ pan12 ++ [0, 0] ++ pin4)
/-- The keys of the PIN commands. -/
def pins : Tbl KeyRec := [(9, aes 0x3), (10, aes 0x3), (11, tdea 0x3)]
theorem test_pinTranslate : Served (vst pins rPin) 0 0x0300 .a 5 rPin ∧ rPin.hdr.plen = 40 ∧ pinPair 4 4 = true ∧
    panReserved (VEnv.of .a 5 rPin) 12 [4, 4] = true ∧ panLenOk 12 [4, 4] = true ∧ panOk (slice rPin.payload 12 10) 12 = true ∧
    (VEnv.of .a 5 rPin).halfZero 24 4 = true ∧
    (VEnv.of .a 5 rPin).keyed (vst pins rPin) 0 9 (pinAlg 4) (aes 0x3) = true ∧
    (VEnv.of .a 5 rPin).keyed (vst pins rPin) 1 10 (pinAlg 4) (aes 0x3) = true ∧
    ((VEnv.of .a 5 rPin).drawn (vst pins rPin) 8).isSome = true := by
  unfold Served Timely; decide +kernel
theorem test_pin_read : pinRead 4 3 (zeros 16) pan12 12 pin4 = some [1, 2, 3, 4] := by decide +kernel
theorem test_pin_malformed : pinRead 4 3 (zeros 16) pan12 12 (zeros 16) = none := by decide +kernel

/-- `PIN_VERIFY_OFFSET` and `PIN_OFFSET_GENERATE` of the same PIN. -/
def rOff (op len : Nat) (off : Bytes) : Req := vreq op 0 (toLe 4 9 ++ toLe 4 11 ++ [4, 12, byte len, 0] ++ pan12 ++ [0, 0] ++
  pin4 ++ zeros 8 ++ [0x01, 0x23, 0x45, 0x67, 0x89, 0, 0x12, 0x34] ++ off ++ zeros 2)
theorem test_pinOffsets : (∀ r ∈ [rOff 0x0301 4 [0x12, 0x34, 0xFF, 0xFF, 0xFF, 0xFF], rOff 0x0302 0 (zeros 6)],
    Served (vst pins r) 0 r.hdr.opcode .a 5 r ∧ r.hdr.plen = 64 ∧ isPinFormat 4 = true ∧ panLenOk 12 [4] = true ∧
    panReserved (VEnv.of .a 5 r) 12 [4] = true ∧ panOk (slice r.payload 12 10) 12 = true ∧
    (VEnv.of .a 5 r).halfZero 24 4 = true ∧ decTableOk (nibbles (slice r.payload 48 8)) = true ∧
    (VEnv.of .a 5 r).keyed (vst pins r) 0 9 (pinAlg 4) (aes 0x3) = true ∧
    (VEnv.of .a 5 r).keyed (vst pins r) 1 11 (fun k => isTdea k.alg || isAes k.alg) (tdea 0x3) = true) := by
  unfold Served Timely; decide +kernel

/-- `PIN_VERIFY_REFERENCE` of two format 4 blocks, and `DUKPT_PIN_TRANSLATE` under TDEA. -/
def rRef : Req := vreq 0x0303 0 (toLe 4 9 ++ toLe 4 10 ++ [4, 4, 12, 0] ++ pan12 ++ [0, 0] ++ pin4 ++ pin4)
/-- `DUKPT_PIN_TRANSLATE`. -/
def rDuk : Req := vreq 0x0601 0 (toLe 4 11 ++ [2, 0, 0, 0] ++ [0xFF, 0xFF, 0x98, 0x76, 0x54, 0x32, 0x10, 0xE0, 0, 1, 0, 0] ++
  toLe 4 11 ++ [1, 1, 0, 0] ++ zeros 28)
theorem test_pinReference : Served (vst pins rRef) 0 0x0303 .a 5 rRef ∧ rRef.hdr.plen = 56 ∧
    (VEnv.of .a 5 rRef).halfZero 24 4 = true ∧ (VEnv.of .a 5 rRef).halfZero 40 4 = true ∧ panLenOk 12 [4, 4] = true ∧
    panReserved (VEnv.of .a 5 rRef) 12 [4, 4] = true ∧
    (VEnv.of .a 5 rRef).keyed (vst pins rRef) 0 9 (pinAlg 4) (aes 0x3) = true ∧
    (VEnv.of .a 5 rRef).keyed (vst pins rRef) 1 10 (pinAlg 4) (aes 0x3) = true := by
  unfold Served Timely; decide +kernel
theorem test_dukptPinTranslate : Served (vst pins rDuk) 0 0x0601 .a 5 rDuk ∧ rDuk.hdr.plen = 56 ∧
    (VEnv.of .a 5 rDuk).ksnOk = true ∧ pinPair 1 1 = true ∧ panLenOk 0 [1, 1] = true ∧
    panReserved (VEnv.of .a 5 rDuk) 28 [1, 1] = true ∧
    (VEnv.of .a 5 rDuk).keyed (vst pins rDuk) 0 11 (fun k => isTdea k.alg) (tdea 0x3) = true ∧
    (VEnv.of .a 5 rDuk).keyed (vst pins rDuk) 1 11 (pinAlg 1) (tdea 0x3) = true := by
  unfold Served Timely; decide +kernel

/-- `MAC_GENERATE` and `MAC_VERIFY` with CMAC, 4 bytes. -/
def rMac (op : Nat) : Req := vreq op 0 (toLe 4 9 ++ [1, 4, 0, 0] ++ zeros 20)
theorem test_mac : (∀ op ∈ [0x0400, 0x0401], Served (vst [(9, aes 0x1C)] (rMac op)) 0 op .a 5 (rMac op) ∧
    macLenOk 1 4 = true ∧ (VEnv.of .a 5 (rMac op)).keyed (vst [(9, aes 0x1C)] (rMac op)) 0 9 (macKeyOk 1) (aes 0x1C) = true) := by
  unfold Served Timely; decide +kernel

/-- `DATA_ENCRYPT` and `DATA_DECRYPT` in CBC. -/
def rData (op : Nat) : Req := vreq op 0 (toLe 4 9 ++ [2, 0, 0, 0] ++ zeros 32)
/-- `DATA_ENCRYPT` in counter mode with the key's nonce. -/
def rNonce : Req := let r := vreq 0x0500 0 (toLe 4 9 ++ [3, 0, 1, 0] ++ zeros 20)
  { r with hdr := { r.hdr with flags := 1 }, nonce := 8 }
theorem test_data : (∀ op ∈ [0x0500, 0x0501], Served (vst [(9, aes 0x60)] (rData op)) 0 op .a 5 (rData op) ∧
    (rData op).hdr.plen = 40 ∧ ((rData op).payload.drop 24).length % blkLen 3 = 0 ∧
    (VEnv.of .a 5 (rData op)).keyed (vst [(9, aes 0x60)] (rData op)) 0 9
      (fun k => isAes k.alg || (isTdea k.alg && (0 : Nat) == 0)) (aes 0x60) = true) := by
  unfold Served Timely; decide +kernel
theorem test_data_nonce : Served (vst [(9, aes 0x60)] rNonce) 0 0x0500 .a 5 rNonce ∧ rNonce.hdr.stateChange = true ∧
    allZero (slice rNonce.payload 8 16) = true ∧
    (VEnv.of .a 5 rNonce).keyed (vst [(9, aes 0x60)] rNonce) 0 9
      (fun k => isAes k.alg || (isTdea k.alg && (1 : Nat) == 0)) (aes 0x60) = true := by
  unfold Served Timely; decide +kernel
theorem test_data_padding : unpad2 16 (pad2 16 [1]) = some [1] ∧ unpad2 16 (zeros 16) = none := by decide +kernel

/-- `SIV_SEAL` and `SIV_OPEN` of the first segment of a stream. -/
def rSiv (op : Nat) (text : Bytes) : Req := let r := vreq op 0 (toLe 4 9 ++ zeros 20 ++ text)
  { r with hdr := { r.hdr with flags := 4, segCtrl := 1, flow := 6 } }
/-- An AES-SIV key of zeros. -/
def sivKey : KeyRec := { alg := 6, usage := 0x60, material := zeros 32, kcv := zeros 5, gen := 1 }
theorem test_siv : (∀ r ∈ [rSiv 0x0502 [1, 2], rSiv 0x0503 (zeros 16)],
    Served (vst [(9, sivKey)] r) 0 r.hdr.opcode .a 5 r ∧ segStatus r.hdr ({} : Stream) = 0 ∧
    (VEnv.of .a 5 r).keyed (vst [(9, sivKey)] r) 0 9 (fun k => k.alg == 6 || k.alg == 7) sivKey = true) := by
  unfold Served Timely; decide +kernel
theorem test_siv_open : sivOpenB (zeros 32) []
      [168, 80, 138, 146, 112, 9, 24, 18, 185, 233, 152, 72, 40, 227, 230, 96, 10, 201] = some [1, 2] ∧
    sivOpenB (zeros 32) [] (zeros 16) = none := by decide +kernel

/-- `DUKPT_MAC_VERIFY` under TDEA and `DUKPT_DATA_DECRYPT` under AES. -/
def rDmac : Req := vreq 0x0602 0 (toLe 4 9 ++ [2, 0, 0, 0] ++ [0xFF, 0xFF, 0x98, 0x76, 0x54, 0x32, 0x10, 0xE0, 0, 1, 0, 0] ++
  [4, 4, 0, 0] ++ zeros 12)
/-- `DUKPT_DATA_DECRYPT`. -/
def rDdat : Req := vreq 0x0603 0 (toLe 4 9 ++ [1, 3, 0, 0] ++ zeros 11 ++ [1] ++ [2, 0, 0, 0] ++ zeros 32)
theorem test_dukptMac : Served (vst [(9, tdea 0x400)] rDmac) 0 0x0602 .a 5 rDmac ∧ (VEnv.of .a 5 rDmac).ksnOk = true ∧
    macLenOk 4 4 = true ∧ (VEnv.of .a 5 rDmac).keyed (vst [(9, tdea 0x400)] rDmac) 0 9
      (fun k => if fld rDmac.payload 4 1 = 1 then isAes k.alg else isTdea k.alg) (tdea 0x400) = true := by
  unfold Served Timely; decide +kernel
theorem test_dukptData : Served (vst [(9, aes 0x400)] rDdat) 0 0x0603 .a 5 rDdat ∧ (VEnv.of .a 5 rDdat).ksnOk = true ∧
    ((rDdat.payload.drop 40).length % 16 = 0) ∧ (VEnv.of .a 5 rDdat).keyed (vst [(9, aes 0x400)] rDdat) 0 9
      (fun k => if fld rDdat.payload 4 1 = 1 then isAes k.alg else isTdea k.alg) (aes 0x400) = true := by
  unfold Served Timely; decide +kernel

/-- `KDF_DERIVE` with CMAC, of an AES-128 key. -/
def rKdf : Req := vreq 0x0600 0 (toLe 4 9 ++ [1, 3, 0, 0] ++ toLe 4 0x60 ++ zeros 8 ++ [1, 0, 1, 0] ++ [1, 2])
theorem test_kdf : Served (vst [(9, aes 0x800)] rKdf) 0 0x0600 .a 5 rKdf ∧ rKdf.hdr.plen = 26 ∧
    (VEnv.of .a 5 rKdf).keyed (vst [(9, aes 0x800)] rKdf) 0 9
      (fun k => macKeyOk 1 k && (!((0 : Nat) == 1) || k.exportable)) (aes 0x800) = true ∧
    makes (vst [(9, aes 0x800)] rKdf) { usage := 0x60, alg := 3 } 0 (zeros 16) = true := by
  unfold Served Timely; decide +kernel

/-- A P-256 key pair's private half at handle 2^31 + 9, and its public half at 2^30 + 9. -/
def ecKey (cls : Nat) : KeyRec :=
  { alg := 0x20, usage := 0x4000, material := (if cls = 2 then toBe 32 1 else []) ++ toBe 32 (p256.gx) ++ toBe 32 (p256.gy),
    kcv := zeros 5, gen := 1 }
/-- `ECDH_DERIVE` with the generator as the peer's point. -/
def rEcdh : Req := vreq 0x0702 0 (toLe 4 (2 ^ 31 + 9) ++ [3, 0, 0, 0] ++ toLe 4 0x60 ++ zeros 8 ++ [65, 0, 0, 0] ++ zeros 32 ++
  [4] ++ toBe 32 (p256.gx) ++ toBe 32 (p256.gy))
/-- The handles of a private and a public key. -/
abbrev prv : Nat := 2 ^ 31 + 9
/-- A public key's handle. -/
abbrev pubH : Nat := 2 ^ 30 + 9
theorem test_ecdh : Served (vst [(prv, ecKey 2)] rEcdh) 0 0x0702 .a 5 rEcdh ∧ rEcdh.hdr.plen = 56 + 65 ∧
    (VEnv.of .a 5 rEcdh).keyed (vst [(prv, ecKey 2)] rEcdh) 0 prv (fun k => isEcc k.alg && handleClass prv == 2) (ecKey 2) = true ∧
    makes (vst [] rEcdh) { usage := 0x60, alg := 3 } 0 (zeros 16) = true ∧
    (ecDec p256 (slice rEcdh.payload 56 65)).isSome = true ∧ ecDec p256 (4 :: zeros 64) = none := by
  unfold Served Timely; decide +kernel

/-- `DUKPT_IK_EXPORT` of a TDEA initial key. -/
def rIk : Req := vreq 0x0604 0 (toLe 4 9 ++ [2, 0, 0, 0] ++ [0xFF, 0xFF, 0x98, 0x76, 0x54, 0x32, 0x10, 0xE0, 0, 0, 0, 0] ++
  toLe 4 10)
/-- Its keys. -/
def bdks : Tbl KeyRec := [(9, tdea 0x400), (10, tdea 0x180)]
theorem test_ikExport : Served (vst bdks rIk) 0 0x0604 .a 5 rIk ∧ (VEnv.of .a 5 rIk).ksnCtr = 0 ∧
    (VEnv.of .a 5 rIk).keyed (vst bdks rIk) 0 9
      (fun k => if fld rIk.payload 4 1 = 1 then isAes k.alg else isTdea k.alg) (tdea 0x400) = true ∧
    (VEnv.of .a 5 rIk).keyed (vst bdks rIk) 1 10
      (fun k => (isTdea k.alg || isAes k.alg) && decide (strength 1 ≤ strength k.alg)) (tdea 0x180) = true := by
  unfold Served Timely; decide +kernel

/-- `SIG_VERIFY` of an ECDSA signature of zeros, and `SIGN` with Ed25519. -/
def rVer : Req := vreq 0x0700 0 (toLe 4 pubH ++ [4, 0] ++ toLe 2 64 ++ zeros 64 ++ [1])
/-- `SIGN`. -/
def rSign : Req := vreq 0x0701 0 (toLe 4 prv ++ [6, 0, 0, 0, 1])
/-- An Ed25519 private key. -/
def edKey : KeyRec := { alg := 0x22, usage := 0x1000, material := zeros 64, kcv := zeros 5, gen := 1 }
theorem test_sigVerify : Served (vst [(pubH, ecKey 1)] rVer) 0 0x0700 .a 5 rVer ∧ digestOk 4 0 1 = true ∧
    (VEnv.of .a 5 rVer).keyed (vst [(pubH, ecKey 1)] rVer) 0 pubH
      (fun k => (sigKeys 4).contains k.alg && handleClass pubH == 1) (ecKey 1) = true := by
  unfold Served Timely; decide +kernel
theorem test_sign : Served (vst [(prv, edKey)] rSign) 0 0x0701 .a 5 rSign ∧ digestOk 6 0 1 = true ∧
    (VEnv.of .a 5 rSign).keyed (vst [(prv, edKey)] rSign) 0 prv
      (fun k => (sigKeys 6).contains k.alg && handleClass prv == 2) edKey = true ∧
    (ranTo ((VEnv.of .a 5 rSign).sign 6 0 edKey [1]) (vst [(prv, edKey)] rSign)).isSome = true := by
  unfold Served Timely; decide +kernel

/-- `RNG_GET` of one byte and of 65,536 bytes. -/
def rRng (n : Nat) : Req := vreq 0x0800 n []
theorem test_rng : Served (vst [] (rRng 1)) 0 0x0800 .a 5 (rRng 1) ∧
    ((VEnv.of .a 5 (rRng 1)).drawn (vst [] (rRng 1)) 1).isSome = true ∧
    ((VEnv.of .a 5 (rRng 65536)).drawn (vst [] (rRng 65536)) 65536).isSome = true := by
  unfold Served Timely; decide +kernel

/-- A task generator in use. -/
def gen0 : Drbg := { key := zeros 32, v := zeros 16 }
/-- `DRAW_CERTIFIED` of one number out of two. -/
def rDraw : Req := { vreq 0x0801 0 (toLe 4 1 ++ toLe 4 1 ++ toLe 4 0 ++ toLe 4 1 ++ toLe 2 1 ++ [0, 0] ++ toLe 4 prv ++ zeros 32)
  with gens := [(0, (gen0, 1))] }
/-- A P-384 signing key. -/
def drawKey : KeyRec := { alg := 0x21, usage := 0x1000, material := toBe 48 1 ++ zeros 96, kcv := zeros 5, gen := 1 }
/-- Its state. -/
def sDraw : State := vst [(prv, drawKey)] rDraw
theorem test_draw : Served sDraw 0 0x0801 .a 5 rDraw ∧ sDraw.lc = .production ∧ rDraw.hdr.plen = 56 ∧
    (VEnv.of .a 5 rDraw).keyed sDraw 0 prv (fun k => k.alg == 0x21 && handleClass prv == 2) drawKey = true ∧
    (sDraw.twinA.quota 5 1 0 0).isSome = true := by
  unfold Served Timely; decide +kernel
/-- The drawing after the reservation: the state it leaves and the signature there. -/
def drawEnd : Option State :=
  match ((VEnv.of .a 5 rDraw).reserve 6).run (sDraw.setTwin .a ((sDraw.twinA.quota 5 1 0 0).getD sDraw.twinA)) with
  | .ok (_, v) => (match ((VEnv.of .a 5 rDraw).numbers false 0 2 (2 ^ 20) 1 [] [] []).run v with
    | .ok (_, u) => some u
    | .error _ => none)
  | .error _ => none
theorem test_draw_signs : drawEnd.any (fun v => (ranTo ((VEnv.of .a 5 rDraw).sign 5 0 drawKey []) v).isSome &&
    (Tbl.find? v.twinA.reqs 5).any (fun (r : Req) => r.fin.isNone && r.timedOut.isNone && r.hdr.deadline == 0 &&
      decide (r.hdr.rlen = 4096))) = true := by
  decide +kernel

/-- `DRAW_LAST` of game 1, `TICKET_ISSUE` and `TICKET_VALIDATE`. -/
def rLast : Req := vreq 0x0802 1 []
/-- `TICKET_ISSUE`. -/
def rTick : Req := { vreq 0x0900 0 (toLe 4 9 ++ toLe 2 1 ++ [0, 0, 7]) with nonce := 3 }
/-- `TICKET_VALIDATE`. -/
def rVal : Req := vreq 0x0901 0 (toLe 4 9 ++ toLe 2 1 ++ zeros 26 ++ [7])
/-- A ticket key. -/
def ticket : KeyRec := { aes 0x800 with nonceEn := true, nonce := 3 }
theorem test_drawLast : Served (vst [] rLast) 0 0x0802 .a 5 rLast ∧ rLast.hdr.plen = 0 := by unfold Served Timely; decide +kernel
theorem test_tickets : (∀ r ∈ [rTick, rVal], Served (vst [(9, ticket)] r) 0 r.hdr.opcode .a 5 r ∧
    (VEnv.of .a 5 r).keyed (vst [(9, ticket)] r) 0 9 (fun k => isAes k.alg && k.nonceEn) ticket = true ∧
    (vst [(9, ticket)] r).twinA.claimWaits 5 3 9 = false) := by
  unfold Served Timely; decide +kernel


/-! The queue, and the states of the statements about every step. -/

theorem test_front : ({ State.reset with pending := [.bypass 0] } : State).pending = .bypass 0 :: [] ∧ State.reset.pending = [] := by
  constructor <;> rfl
theorem test_quiet : ResetQuiet State.reset ∧ ∃ t, step State.reset = .next t := ⟨fun _ => ⟨rfl, rfl⟩, _, rfl⟩
theorem test_attention : (ready (twin {} [])).boot.up = true ∧ (∃ t, exec (.bypass 0) (ready (twin {} [])) = .next t ∧ t.boot.up = true) ∧
    State.reset.boot.up = false ∧ ∃ t, exec (.bypass 0) State.reset = .next t ∧ t.boot.up = false :=
  ⟨rfl, ⟨_, rfl, rfl⟩, rfl, ⟨_, rfl, rfl⟩⟩
theorem test_noBits : decodeTableWord 32 5 = none ∧ State.reset.withFetchWord 32 5 = State.reset := by constructor <;> rfl
/-- An owner image's request: its root task is ready to run. -/
def sOwner : State :=
  ready (twin { (store []) with images := [(300, img)] } [(5, { hdr := hdr 0x0F00 0 0 false, space := 3, image := 300, tasks := [(0, { st := .ready })] })])
theorem test_ownerImage : let y := sOwner.twinA.prepare .a (sOwner.isActive .a) (sOwner.at 0).now
    sOwner.executes .a = true ∧ (y.chooseTask .a (sOwner.isActive .a) 0).any (fun c => c.q == 5 && c.i == 0) = true ∧
    (Tbl.find? y.reqs 5).any (fun (r : Req) => (Tbl.find? r.tasks 0).isSome && r.hdr.opcode == 0x0F00) = true ∧
    (y.target .a 300).isSome = true := by decide +kernel

/-! Each check of WellFormed refuses a command. -/

/-- A register access, for its checks. -/
def rw (fn off width val : Nat) : Bool := (Instr.registerWrite 0 fn off width val).wf
theorem test_wf_registers : rw 255 65535 8 5 = true ∧ rw 256 0 4 0 = false ∧ rw 0 0x20014 4 0 = true ∧ rw 0 0x21000 4 0 = false ∧ rw 0 0 2 0 = false ∧
    rw 0 0 4 (2 ^ 32) = false ∧ (Instr.mbxEnable 0 0 (2 ^ 32)).wf = false ∧ (Instr.rqHead 0 0 4096 0).wf = false ∧
    (Instr.functionLevelReset 0 256).wf = false ∧ (Instr.almCursor 0 (2 ^ 32)).wf = false ∧ (Instr.vfEnable 0 256 true).wf = false ∧
    (Instr.msixVectorUnmask 0 0 2048).wf = false ∧ (Instr.highWordLatchRead 0 0 0 3).wf = false := by decide
theorem test_wf_entries : (Instr.submissionFetch 0 0 0 []).wf = false ∧ (Instr.submissionFetch 0 0 0 [zeros 65]).wf = false ∧
    (Instr.submissionFetch 0 0 0 (List.replicate 9 (zeros 64))).wf = false ∧ (Instr.fetchError 0 0 4096).wf = false ∧
    (Instr.entryAcceptance 0 (zeros 65)).wf = false ∧ (Instr.submissionFetch 0 0 0 [zeros 64]).wf = true := by decide
theorem test_wf_units : (Instr.coreIdleEntry 0 192).wf = false ∧ (Instr.coreIdleEntry 0 412).wf = false ∧
    (Instr.domainIdleEntry 0 460 []).wf = false ∧ (Instr.gatekeeperAccess 0 0xFFFF true).wf = true ∧
    (Instr.relayCopyDisagree 0 0 0).wf = false ∧ (Instr.relayCopyDisagree 0 6 0).wf = false ∧ (Instr.relayCopyDisagree 0 1 3).wf = false ∧
    (Instr.relinquish 0 .a 0 0).wf = false ∧ (Instr.relinquish 0 .a 14 0).wf = false ∧ (Instr.relinquish 0 .a 1 428).wf = false ∧
    (Instr.engineQueueAdmit 0 .a 16).wf = false ∧ (Instr.canaryAlarm 0 428).wf = false ∧ (Instr.cardTimeout 0 2).wf = false := by decide
theorem test_wf_tamper : (Instr.alarmDeassert 0 0 0 ⟨0, 0⟩).wf = false ∧ (Instr.alarmDeassert 0 12 0 ⟨0, 0⟩).wf = false ∧
    (Instr.alarmDeassert 0 1 256 ⟨0, 0⟩).wf = false ∧ (Instr.backupWindow 0 ⟨false, [{ win4 with hits := [] }]⟩).wf = false ∧
    (Instr.backupWindow 0 ⟨false, [win4]⟩).wf = true := by decide
theorem test_wf_wear : (Instr.sramRowRemap 0 .a 0 0 0 2).wf = false ∧ (Instr.sramRowRemap 0 .a 0 18 0 1).wf = false ∧
    (Instr.nvmSectorReplace 0 8192 ⟨true, none⟩).wf = false ∧ (Instr.skyglowStimulusTest 0 3 0 true).wf = false ∧
    (Instr.noiseSourceFail 0 .a 32 1 0).wf = false ∧ (Instr.spareSourceJoin 0 .a 3).wf = false ∧
    (Instr.conditionedBlock 0 .a 0 (zeros 255)).wf = false ∧ (Instr.maskingReseed 0 .a 9 2).wf = false := by decide +kernel
theorem test_wf_tap : (Instr.lcReq 0 16 0 (zeros 32)).wf = false ∧ (Instr.lcReq 0 1 0 []).wf = false ∧ (Instr.dbgCert 0 []).wf = false ∧
    (Instr.imageCacheFill 0 .a 4 0 0).wf = false ∧ (Instr.imageCacheFill 0 .a 0 0 1024).wf = false := by decide
theorem test_wf_contexts : (Instr.ret ⟨9, 0⟩ 0).wf = false ∧ (Instr.ret ⟨0, 2⟩ 0).wf = false ∧ (Instr.ret ⟨412, 0⟩ 0).wf = false ∧
    (Instr.ret ⟨198, 0⟩ 0).wf = true ∧ (Instr.ret ⟨198, 1⟩ 0).wf = false ∧ (Instr.ret ⟨8, 1⟩ 0).wf = true := by decide

end Sys2Proof.Machine.Tests
end

section
/-! What a host access of a function's registers does (R8, R36, R41, Table 3-2). -/

namespace Sys2Proof.Machine

/-! The accesses of the host, by the range that the offset lies in. -/

@[simp] theorem State.at_fnOn (s : State) (t n : Nat) : (s.at t).fnOn n = s.fnOn n := rfl

theorem exec_registerWrite (t fn off width val : Nat) (s : State) :
    exec (.registerWrite t fn off width val) s = execRegisterWrite t fn off width val s := rfl

theorem exec_highWordLatchRead (t fn off width : Nat) (s : State) :
    exec (.highWordLatchRead t fn off width) s = execHighWordLatchRead t fn off width s := rfl

section
variable {s : State} {t fn off width val : Nat}

theorem exec_registerWrite_outside (h : hostLimit ≤ off) :
    exec (.registerWrite t fn off width val) s = .fault .outsideBar0 := by
  simp [exec_registerWrite, execRegisterWrite, h]

theorem exec_highWordLatchRead_outside (h : hostLimit ≤ off) :
    exec (.highWordLatchRead t fn off width) s = .fault .outsideBar0 := by
  simp [exec_highWordLatchRead, execHighWordLatchRead, h]

theorem exec_registerWrite_bar0 (hf : s.fnOn fn = true) (h : off < 0x10000) :
    exec (.registerWrite t fn off width val) s = .next (settle s ((s.at t).barWrite fn off width val)) := by
  have hl : ¬ hostLimit ≤ off := Nat.not_le.mpr (Nat.lt_trans h (by decide))
  simp [exec_registerWrite, execRegisterWrite, ev, hl, hf, h]

theorem exec_registerWrite_other (hf : s.fnOn fn = true) (h : 0x10000 ≤ off) (hl : off < hostLimit) :
    exec (.registerWrite t fn off width val) s = .next (settle s ((s.at t).otherWrite fn off width val)) := by
  simp [exec_registerWrite, execRegisterWrite, ev, Nat.not_le.mpr hl, hf, Nat.not_lt.mpr h]

theorem exec_highWordLatchRead_bar0 (hf : s.fnOn fn = true) (h : off < 0x10000) :
    exec (.highWordLatchRead t fn off width) s =
      let r := (s.at t).barRead fn off width
      .next (settle s { r.2 with out := r.2.out ++ [.barRead fn off r.1] }) := by
  have hl : ¬ hostLimit ≤ off := Nat.not_le.mpr (Nat.lt_trans h (by decide))
  simp [exec_highWordLatchRead, execHighWordLatchRead, ev, hl, hf, h]

theorem exec_highWordLatchRead_other (hf : s.fnOn fn = true) (h : 0x10000 ≤ off) (hl : off < hostLimit) :
    exec (.highWordLatchRead t fn off width) s =
      .next (settle s { s.at t with out := (s.at t).out ++ [.barRead fn off ((s.at t).otherRead fn off width)] }) := by
  simp [exec_highWordLatchRead, execHighWordLatchRead, ev, Nat.not_le.mpr hl, hf, Nat.not_lt.mpr h]

end

/-! Tables of functions and mailboxes. -/

/-- A function just changed reads back changed. -/
@[simp] theorem State.fn_updFn (s : State) (n : Nat) (f : Fn → Fn) : (s.updFn n f).fn n = f (s.fn n) := by
  simp [State.fn, State.updFn]

@[simp] theorem settle_fn (s u : State) (n : Nat) : (settle s u).fn n = u.fn n := rfl

/-- A change of a mailbox depends on what it makes of the mailbox as it stands. -/
theorem State.updMbx_congr {s : State} {n i : Nat} {f g : Mbx → Mbx} (h : f (s.mbx n i) = g (s.mbx n i)) :
    s.updMbx n i f = s.updMbx n i g := by
  simp [State.updMbx, h]

/-- With no error bit set in this unit of time, every bit written 1 clears (R8). -/
theorem Mbx.clearErrs_stale {m : Mbx} {now : Nat} (v : BitVec 6) (h : m.freshAt ≠ now) :
    m.clearErrs now v = { m with errs := m.errs &&& ~~~v } := by
  simp [Mbx.clearErrs, h, show v &&& 63#6 = v from BitVec.and_allOnes]

/-- An error bit set in this unit of time stays (R8). -/
theorem Mbx.clearErrs_fresh {m : Mbx} {now : Nat} (v : BitVec 6) (h : m.freshAt = now) :
    m.clearErrs now v = { m with errs := m.errs &&& ~~~(v &&& ~~~m.fresh) } := by
  simp [Mbx.clearErrs, h]

/-! Reads of BAR0. -/

theorem accessOk_word {off : Nat} (h : off % 4 = 0) : accessOk off 4 = true := by simp [accessOk, h]

theorem accessOk_pair {off : Nat} (h : off % 8 = 0) : accessOk off 8 = true := by simp [accessOk, h]

/-- The low words of 64-bit registers lie at multiples of 8 within BAR0. -/
theorem wideReg_place {off : Nat} (h : wideReg off = true) : off % 8 = 0 ∧ off + 4 < 0x10000 := by
  simp only [wideReg, List.contains_iff_mem, List.mem_cons, List.not_mem_nil, or_false] at h
  omega

/-- A high word is no low word. -/
theorem wideReg_high {off : Nat} (h : wideReg off = true) : wideReg (off + 4) = false := by
  refine Bool.eq_false_iff.mpr fun hh => ?_
  have hlow := (wideReg_place h).1
  have hhigh := (wideReg_place hh).1
  omega

section
variable (s : State) {fn off width : Nat}

theorem State.barRead_misaligned (h : accessOk off width = false) : s.barRead fn off width = (0, s) := by
  simp [State.barRead, h]

theorem State.barRead_pair (h : off % 8 = 0) :
    s.barRead fn off 8 = (s.reg32 fn off + 2 ^ 32 * s.reg32 fn (off + 4), s) := by
  simp [State.barRead, accessOk_pair h]

/-- A read of a low word latches the high word (R41). -/
theorem State.barRead_low (h : wideReg off = true) :
    s.barRead fn off 4 = (s.reg32 fn off,
      s.updFn fn (fun f => { f with latch := Tbl.put f.latch off (BitVec.ofNat 32 (s.reg32 fn (off + 4))) })) := by
  have h4 : off % 4 = 0 := by have := (wideReg_place h).1; omega
  simp [State.barRead, accessOk_word h4, h]

/-- A read of a latched high word gives the latch and empties it (R41). -/
theorem State.barRead_latched {v : BitVec 32} (h : wideReg off = true) (hv : Tbl.find? (s.fn fn).latch off = some v) :
    s.barRead fn (off + 4) 4 = (v.toNat, s.updFn fn (fun f => { f with latch := Tbl.del f.latch off })) := by
  have h4 : (off + 4) % 4 = 0 := by have := (wideReg_place h).1; omega
  simp [State.barRead, accessOk_word h4, wideReg_high h, hv]

/-! Writes of BAR0. -/

theorem State.barWrite_misaligned {val : Nat} (h : accessOk off width = false) : s.barWrite fn off width val = s := by
  simp [State.barWrite, h]

theorem State.barWrite_word {val : Nat} (h : off % 4 = 0) : s.barWrite fn off 4 val = s.write32 fn off val := by
  simp [State.barWrite, accessOk_word h]

theorem State.write32_mbxSel (fn val : Nat) :
    s.write32 fn 0x0100 val = s.updFn fn (fun f => { f with mbxSel := BitVec.ofNat 12 val }) := by
  simp [State.write32, show BitVec.ofNat 12 (val % 4294967296) = BitVec.ofNat 12 val from BitVec.eq_of_toNat_eq (by simp)]

theorem State.write32_mbxStat {fn i : Nat} (val : Nat) (h : s.selected fn = some i) :
    s.write32 fn 0x0120 val = s.updMbx fn i (fun m => m.clearErrs s.now (BitVec.ofNat 6 val)) := by
  simp [State.write32, h, show BitVec.ofNat 6 (val % 4294967296) = BitVec.ofNat 6 val from BitVec.eq_of_toNat_eq (by simp)]

theorem State.write32_mbxStat_stale {fn i : Nat} (val : Nat) (h : s.selected fn = some i) (hm : (s.mbx fn i).freshAt ≠ s.now) :
    s.write32 fn 0x0120 val = s.updMbx fn i (fun m => { m with errs := m.errs &&& ~~~(BitVec.ofNat 6 val) }) :=
  (s.write32_mbxStat val h).trans (State.updMbx_congr (Mbx.clearErrs_stale _ hm))

theorem State.write32_mbxStat_fresh {fn i : Nat} (val : Nat) (h : s.selected fn = some i) (hm : (s.mbx fn i).freshAt = s.now) :
    s.write32 fn 0x0120 val = s.updMbx fn i (fun m => { m with errs := m.errs &&& ~~~(BitVec.ofNat 6 val &&& ~~~m.fresh) }) :=
  (s.write32_mbxStat val h).trans (State.updMbx_congr (Mbx.clearErrs_fresh _ hm))

theorem State.write32_sqBaseLow {fn i : Nat} (val : Nat) (h : s.selected fn = some i) :
    s.write32 fn 0x0110 val = s.writeIdle fn i (fun m =>
      { m with sqBase := halfOf m.sqBase false (val % 2 ^ 32) &&& 0xFFFFFFFFFFFFF000#64 }) := by
  simp [State.write32, h]

/-- A disabled mailbox takes the write of a register that an enabled one would refuse (R44). -/
theorem State.writeIdle_disabled {fn i : Nat} {f : Mbx → Mbx} (h : (s.mbx fn i).state = .disabled) :
    s.writeIdle fn i f = s.updMbx fn i f :=
  State.updMbx_congr (by simp [h])

end

/-! BAR2 and the configuration space. -/

/-- The high half just written reads back. -/
theorem halfOf_high_toNat (old : BitVec 64) {v : Nat} (h : v < 2 ^ 32) : (halfOf old true v).toNat / 2 ^ 32 = v := by
  simp only [halfOf, if_true, BitVec.toNat_ofNat]
  omega

section
variable (s : State) {fn : Nat} (val : Nat)

/-- The high word of the base address of BAR0. -/
theorem State.otherWrite_bar0High : s.otherWrite fn 0x20014 4 val =
    s.updFn fn (fun f => { f with pci := { f.pci with bar0 := halfOf f.pci.bar0 true (val % 2 ^ 32) } }) := by
  simp [State.otherWrite, State.cfgWrite, accessOk]

theorem State.otherRead_bar0High : s.otherRead fn 0x20014 4 = (s.fn fn).pci.bar0.toNat / 2 ^ 32 := by
  simp [State.otherRead, State.cfgRead, accessOk]

/-- Where the data word of a vector's entry lies in the MSI-X table (Table 3-1). -/
theorem vecData_place {n : Nat} (hn : n < 2048) : accessOk (0x10000 + 16 * n + 8) 4 = true ∧
    0x10000 + 16 * n + 8 < 0x20000 ∧ 0x10000 + 16 * n + 8 - 0x10000 = 16 * n + 8 ∧ 16 * n + 8 < 0x8000 ∧
    (16 * n + 8) / 16 = n ∧ (16 * n + 8) % 16 / 4 = 2 :=
  ⟨accessOk_word (by omega), by omega, by omega, by omega, by omega, by omega⟩

theorem State.otherWrite_vecData {n : Nat} (hn : n < 2048) (hv : n < (s.fn fn).vecSize) :
    s.otherWrite fn (0x10000 + 16 * n + 8) 4 val = s.updFn fn (fun f => { f with pci := { f.pci with
      vecs := Tbl.put f.pci.vecs n ((Tbl.getD f.pci.vecs n (0, 0)).1, BitVec.ofNat 32 (val % 2 ^ 32)) } }) := by
  obtain ⟨ha, hbar2, hoff, htable, hentry, hword⟩ := vecData_place hn
  have hin : ¬ (0x8000 ≤ 16 * n + 8 ∨ (s.fn fn).vecSize ≤ n) := by omega
  simp only [State.otherWrite, ha, hbar2, hoff, State.writeBar2, hentry, hword, hin]
  simp [State.updFn]

theorem State.otherRead_vecData {n : Nat} (hn : n < 2048) (hv : n < (s.fn fn).vecSize) :
    s.otherRead fn (0x10000 + 16 * n + 8) 4 = (Tbl.getD (s.fn fn).pci.vecs n (0, 0)).2.toNat := by
  obtain ⟨ha, hbar2, hoff, htable, hentry, hword⟩ := vecData_place hn
  simp only [State.otherRead, ha, hbar2, hoff, State.bar2, hentry, hword, htable, Nat.not_le.mpr hv]
  simp

end

/-! The statement, clause by clause. -/

section
variable {s : State} {t fn off width val : Nat}

theorem hostAccess_misaligned (hf : s.fnOn fn = true) (h : off < 0x10000) (ha : accessOk off width = false) :
    exec (.registerWrite t fn off width val) s = .next (settle s (s.at t)) ∧
    exec (.highWordLatchRead t fn off width) s =
      .next (settle s { s.at t with out := (s.at t).out ++ [.barRead fn off 0] }) := by
  rw [exec_registerWrite_bar0 hf h, exec_highWordLatchRead_bar0 hf h, State.barWrite_misaligned _ ha,
    State.barRead_misaligned _ ha]
  exact ⟨rfl, rfl⟩

/-- A write of a word of the register window. -/
theorem exec_registerWrite_word (hf : s.fnOn fn = true) (h : off < 0x10000) (ha : off % 4 = 0) :
    exec (.registerWrite t fn off 4 val) s = .next (settle s ((s.at t).write32 fn off val)) := by
  rw [exec_registerWrite_bar0 hf h, State.barWrite_word _ ha]

/-- A read gives its value on the link, and moves the latches of its function alone. -/
theorem hostRead_bar0 (hf : s.fnOn fn = true) (h : off < 0x10000) :
    Completes (.highWordLatchRead t fn off width) s (fun t' =>
      t'.out = ((s.at t).barRead fn off width).2.out ++ [.barRead fn off ((s.at t).barRead fn off width).1] ∧
      t'.fn fn = ((s.at t).barRead fn off width).2.fn fn) :=
  ⟨_, exec_highWordLatchRead_bar0 hf h, rfl, rfl⟩

theorem hostRead_low (hf : s.fnOn fn = true) (h : wideReg off = true) :
    Completes (.highWordLatchRead t fn off 4) s (fun t' =>
      t'.out = s.out ++ [.barRead fn off ((s.at t).reg32 fn off)] ∧
      Tbl.find? (t'.fn fn).latch off = some (BitVec.ofNat 32 ((s.at t).reg32 fn (off + 4)))) := by
  obtain ⟨t', ht, hout, hfn⟩ := hostRead_bar0 (t := t) (width := 4) hf (Nat.lt_of_add_right_lt (wideReg_place h).2)
  rw [State.barRead_low _ h] at hout hfn
  refine ⟨t', ht, hout, ?_⟩
  rw [hfn, State.fn_updFn]
  exact Tbl.find?_put_same _ _ _

theorem hostRead_latched {v : BitVec 32} (hf : s.fnOn fn = true) (h : wideReg off = true)
    (hv : Tbl.find? (s.fn fn).latch off = some v) :
    Completes (.highWordLatchRead t fn (off + 4) 4) s (fun t' =>
      t'.out = s.out ++ [.barRead fn (off + 4) v.toNat] ∧ Tbl.find? (t'.fn fn).latch off = none) := by
  obtain ⟨t', ht, hout, hfn⟩ := hostRead_bar0 (t := t) (width := 4) hf (wideReg_place h).2
  rw [State.barRead_latched (s.at t) h hv] at hout hfn
  refine ⟨t', ht, hout, ?_⟩
  rw [hfn, State.fn_updFn]
  exact (Tbl.find?_del _ _ _).trans (if_pos rfl)

theorem hostWrite_bar0High (hf : s.fnOn fn = true) : Completes (.registerWrite t fn 0x20014 4 val) s (fun t' =>
    t'.otherRead fn 0x20014 4 = val % 2 ^ 32) := by
  refine ⟨_, exec_registerWrite_other hf (by decide) (by decide), ?_⟩
  show (settle s _).otherRead fn 0x20014 4 = _
  rw [State.otherWrite_bar0High, State.otherRead_bar0High, settle_fn, State.fn_updFn]
  exact halfOf_high_toNat _ (Nat.mod_lt _ (by decide))

theorem hostWrite_vecData {n : Nat} (hf : s.fnOn fn = true) (hn : n < 2048) (hv : n < (s.fn fn).vecSize) :
    Completes (.registerWrite t fn (0x10000 + 16 * n + 8) 4 val) s (fun t' =>
      (Tbl.getD (t'.fn fn).pci.vecs n (0, 0)).2 = BitVec.ofNat 32 val ∧
      t'.otherRead fn (0x10000 + 16 * n + 8) 4 = val % 2 ^ 32) := by
  have hlim : 0x10000 + 16 * n + 8 < hostLimit := Nat.lt_trans (vecData_place hn).2.1 (by decide)
  refine ⟨_, exec_registerWrite_other hf (by omega) hlim, ?_⟩
  rw [State.otherWrite_vecData (s.at t) val hn hv]
  generalize hu : settle s ((s.at t).updFn fn _) = u
  have hfn : (u.fn fn).vecSize = (s.fn fn).vecSize ∧
      Tbl.getD (u.fn fn).pci.vecs n (0, 0) = ((Tbl.getD (s.fn fn).pci.vecs n (0, 0)).1, BitVec.ofNat 32 (val % 2 ^ 32)) := by
    rw [← hu, settle_fn, State.fn_updFn]
    exact ⟨rfl, Tbl.getD_put_same _ _ _ _⟩
  rw [State.otherRead_vecData u hn (hfn.1.symm ▸ hv), hfn.2]
  exact ⟨BitVec.eq_of_toNat_eq (by simp), by simp⟩

end

/-- Settles O18, by the range of the access and, within BAR0, by the register. -/
theorem hostRegisterAccess : Obligations.HostRegisterAccess := by
  intro s t fn off width val u
  refine ⟨fun h => ⟨exec_registerWrite_outside h, exec_highWordLatchRead_outside h⟩, hostAccess_misaligned,
    fun hf => ⟨?mbxSel, ?mbxStatStale, ?mbxStatFresh, ?sqBase⟩, ?pair,
    fun hf h => ⟨hostRead_low hf h, fun v => hostRead_latched hf h⟩,
    fun hf => ⟨exec_highWordLatchRead_other hf, hostWrite_bar0High hf, fun n => hostWrite_vecData hf⟩⟩
  case mbxSel => rw [exec_registerWrite_word hf (by decide) (by decide), State.write32_mbxSel]
  case mbxStatStale =>
    intro i hi hm
    rw [exec_registerWrite_word hf (by decide) (by decide), State.write32_mbxStat_stale _ val hi hm]
  case mbxStatFresh =>
    intro i hi hm
    rw [exec_registerWrite_word hf (by decide) (by decide), State.write32_mbxStat_fresh _ val hi hm]
  case sqBase =>
    intro i hi hm
    rw [exec_registerWrite_word hf (by decide) (by decide), State.write32_sqBaseLow _ val hi, State.writeIdle_disabled _ hm]
  case pair =>
    intro hf h h8
    rw [exec_highWordLatchRead_bar0 hf h, State.barRead_pair _ h8]

end Sys2Proof.Machine
end

section
/-! How a run of a vendor image ends its request (R87 to R91, R241, R330). -/

namespace Sys2Proof.Machine

/-! The steps of a run. -/

theorem VM.run_bind_ok {α β : Type} {m : VM α} {g : α → VM β} {s u : State} {a : α} (h : m.run s = .ok (a, u)) :
    (m >>= g).run s = (g a).run u := by
  rw [StateT.run_bind, h]
  rfl

/-- A run of two parts that ends well ran the first to its end, and the second from there. -/
theorem VM.of_run_bind {α β : Type} {m : VM α} {g : α → VM β} {s v : State} {b : β} (h : (m >>= g).run s = .ok (b, v)) :
    ∃ a u, m.run s = .ok (a, u) ∧ (g a).run u = .ok (b, v) := by
  cases hm : m.run s with
  | error x => rw [StateT.run_bind, hm] at h; cases h
  | ok p => exact ⟨p.1, p.2, rfl, (VM.run_bind_ok hm).symm.trans h⟩

theorem run_of_ranTo {α : Type} {m : VM α} {s : State} {a : α} (h : ranTo m s = some a) : ∃ u, m.run s = .ok (a, u) := by
  unfold ranTo at h
  split at h
  · next b u hb => exact ⟨u, Option.some.inj h ▸ hb⟩
  · cases h

/-- Every part of a run that ends well relates the state before it to the one after it. -/
def VM.Keeps (R : State → State → Prop) {α : Type} (m : VM α) : Prop := ∀ s a u, m.run s = .ok (a, u) → R s u

section
variable {R : State → State → Prop} {α β : Type}

theorem VM.Keeps.pure (hr : ∀ s, R s s) (a : α) : VM.Keeps R (Pure.pure a : VM α) := by
  rintro s _ _ ⟨⟩
  exact hr s

theorem VM.Keeps.fail (n : Nat) : VM.Keeps R (vfail n : VM α) := by
  rintro s a u ⟨⟩

theorem VM.Keeps.bind (ht : ∀ s u v, R s u → R u v → R s v) {m : VM α} {g : α → VM β} (hm : VM.Keeps R m)
    (hg : ∀ a, VM.Keeps R (g a)) : VM.Keeps R (m >>= g) := by
  intro s b v h
  obtain ⟨a, u, h1, h2⟩ := VM.of_run_bind h
  exact ht s u v (hm s a u h1) (hg a u b v h2)

theorem VM.Keeps.need (hr : ∀ s, R s s) (b : Bool) (n : Nat) : VM.Keeps R (Machine.need b n) := by
  cases b
  · exact .fail n
  · exact .pure hr ()

end

theorem need_run {b : Bool} (n : Nat) (s : State) (h : b = true) : (need b n).run s = .ok ((), s) := by
  subst h
  rfl

theorem vstate_run (s : State) : vstate.run s = .ok (s, s) := rfl

section
variable (e : VEnv) (s : State)

theorem VEnv.x_run : e.x.run s = .ok (s.twin e.w, s) := rfl

theorem VEnv.put_run (x : TwinSt) : (e.put x).run s = .ok ((), s.setTwin e.w x) := rfl

theorem VEnv.stage_run (f : Effect) : (e.stage f).run s = .ok ((), s.setTwin e.w
    ((s.twin e.w).updReq e.q (fun r => { r with staged := r.staged ++ [f] }))) := rfl

theorem VEnv.shape_run {lenOk paramOk : Bool} {reserved : List (Nat × Nat)} (hl : lenOk = true) (hp : paramOk = true)
    (hz : reserved.all (fun r => allZero (e.b r.1 r.2)) = true) : (e.shape lenOk paramOk reserved).run s = .ok ((), s) := by
  unfold VEnv.shape
  rw [VM.run_bind_ok (need_run _ s (by rw [hl, hp]; rfl)), need_run _ s hz]

/-- A check of a declared key reads the state and leaves it. -/
theorem VEnv.key_reads (i h : Nat) (fits : KeyRec → Bool) : VM.Keeps Eq (e.key i h fits) := by
  have hr : ∀ s : State, s = s := fun _ => rfl
  have ht : ∀ s u v : State, s = u → u = v → s = v := fun _ _ _ => Eq.trans
  unfold VEnv.key VEnv.keyThen
  refine .bind ht (.need hr _ _) fun _ => .bind ht (.need hr _ _) fun _ => .bind ht ?_ fun x => ?_
  · rintro s _ _ ⟨⟩
    rfl
  · cases x.store.key? e.r.space h e.q with
    | none => exact .fail _
    | some k =>
      exact .bind ht (.need hr _ _) fun _ => .bind ht (.pure hr _) fun _ => .bind ht (.need hr _ _) fun _ => .pure hr k

theorem VEnv.key_run {i h : Nat} {fits : KeyRec → Bool} {k : KeyRec} (hk : e.keyed s i h fits k = true) :
    (e.key i h fits).run s = .ok (k, s) := by
  unfold VEnv.keyed at hk
  split at hk
  · next r u hr =>
    rw [hr, ← VEnv.key_reads e i h fits s r u hr, eq_of_beq hk]
  · cases hk

end

/-- A consumer call that gives bytes. -/
theorem VEnv.draw_run {e : VEnv} {s : State} {n : Nat} {b : Bytes} {x : TwinSt} (h : (s.twin e.w).rng e.q 0 n = .ok b x) :
    (e.draw n).run s = .ok (b, s.setTwin e.w x) := by
  change e.draw n s = _
  unfold VEnv.draw
  rw [h]

theorem VEnv.rng_of_draw_run {e : VEnv} {s u : State} {n : Nat} {b : Bytes} (h : (e.draw n).run s = .ok (b, u)) :
    ∃ x, (s.twin e.w).rng e.q 0 n = .ok b x ∧ u = s.setTwin e.w x := by
  change e.draw n s = _ at h
  unfold VEnv.draw at h
  split at h
  · next b' x hx => cases h; exact ⟨x, hx, rfl⟩
  all_goals cases h

theorem VEnv.rng_of_drawn {e : VEnv} {s : State} {n : Nat} {b : Bytes} (h : e.drawn s n = some b) :
    ∃ x, (s.twin e.w).rng e.q 0 n = .ok b x := by
  unfold VEnv.drawn at h
  split at h
  · next b' x hx => exact ⟨x, Option.some.inj h ▸ hx⟩
  · cases h

/-! What a run leaves of its request and of the stamps of its die: what decides whether it still ends in time. -/

/-- What a request's end in time depends on (R189, R191), with its header. -/
def Req.duty (r : Req) : Hdr × Option EndRec × Option Nat × Tbl Task := (r.hdr, r.fin, r.timedOut, r.tasks)

/-- A request stands as before in all that decides whether it ends in time. -/
def SameDuty (q : Nat) (x y : TwinSt) : Prop :=
  y.stamps = x.stamps ∧ y.offs = x.offs ∧ (Tbl.find? y.reqs q).map Req.duty = (Tbl.find? x.reqs q).map Req.duty

theorem SameDuty.rfl {q : Nat} {x : TwinSt} : SameDuty q x x := ⟨Eq.refl _, Eq.refl _, Eq.refl _⟩

theorem SameDuty.trans {q : Nat} {x y z : TwinSt} (h : SameDuty q x y) (k : SameDuty q y z) : SameDuty q x z :=
  ⟨k.1.trans h.1, k.2.1.trans h.2.1, k.2.2.trans h.2.2⟩

theorem SameDuty.updReq {q p : Nat} (x : TwinSt) (f : Req → Req) (h : ∀ r, (f r).duty = r.duty) :
    SameDuty q x (x.updReq p f) := by
  refine ⟨Eq.refl _, Eq.refl _, ?_⟩
  rw [TwinSt.find?_updReq]
  split
  · cases Tbl.find? x.reqs q <;> simp [h]
  · rfl

/-- A consumer call moves the generators of its request alone (R320, R321). -/
theorem TwinSt.rng_updReq {x y : TwinSt} {p i n : Nat} {b : Bytes} (h : x.rng p i n = .ok b y) :
    ∃ f : Req → Req, y = x.updReq p f ∧ ∀ r, (f r).duty = r.duty := by
  unfold TwinSt.rng at h
  split at h
  · cases h
  split at h
  · cases h
  split at h
  · cases h
  dsimp only at h
  split at h
  · split at h
    · cases h
    · cases h
      exact ⟨_, rfl, fun _ => rfl⟩
  · split at h
    · cases h
    · cases h
      exact ⟨_, rfl, fun _ => rfl⟩

theorem SameDuty.rng {q p i n : Nat} {x y : TwinSt} {b : Bytes} (h : x.rng p i n = .ok b y) : SameDuty q x y := by
  obtain ⟨f, rfl, hf⟩ := TwinSt.rng_updReq h
  exact .updReq x f hf

/-- The commit stamp depends on the request's tasks and on the stamps of the die. -/
theorem SameDuty.commitStamp {q now : Nat} {x y : TwinSt} {r r' : Req} (h : SameDuty q x y)
    (hx : Tbl.find? x.reqs q = some r) (hy : Tbl.find? y.reqs q = some r') (ht : r'.tasks = r.tasks) :
    y.commitStamp now q = x.commitStamp now q := by
  obtain ⟨hs, ho, -⟩ := h
  have hk : y.task? q 0 = x.task? q 0 := by simp [TwinSt.task?, hx, hy, ht]
  unfold TwinSt.commitStamp TwinSt.taskDone
  rw [hk]
  split <;> simp [TwinSt.stampOf, TwinSt.stamped, hs, ho]

/-- A request that would end in time still does. -/
theorem SameDuty.timely {q now : Nat} {x y : TwinSt} {r : Req} (h : SameDuty q x y) (hx : Tbl.find? x.reqs q = some r)
    (ht : Timely x now q r) : ∃ r', Tbl.find? y.reqs q = some r' ∧ r'.hdr = r.hdr ∧ Timely y now q r' := by
  obtain ⟨r', hy, hd⟩ : ∃ r', Tbl.find? y.reqs q = some r' ∧ r'.duty = r.duty := by
    have h3 := h.2.2
    rw [hx] at h3
    cases hy : Tbl.find? y.reqs q with
    | none => rw [hy] at h3; cases h3
    | some r' => rw [hy] at h3; exact ⟨r', Eq.refl _, Option.some.inj h3⟩
  simp only [Req.duty, Prod.mk.injEq] at hd
  obtain ⟨hh, hf, ho, hk⟩ := hd
  obtain ⟨tf, tt, td⟩ := ht
  refine ⟨r', hy, hh, hf.trans tf, ho.trans tt, ?_⟩
  rw [hh, h.commitStamp hx hy hk]
  exact td

/-- The same for a state that a run leaves, at the same time. -/
def DutyKept (w : Twin) (q : Nat) (s u : State) : Prop := u.now = s.now ∧ SameDuty q (s.twin w) (u.twin w)

theorem DutyKept.rfl {w : Twin} {q : Nat} (s : State) : DutyKept w q s s := ⟨Eq.refl _, .rfl⟩

theorem DutyKept.trans {w : Twin} {q : Nat} (s u v : State) (h : DutyKept w q s u) (k : DutyKept w q u v) : DutyKept w q s v :=
  ⟨k.1.trans h.1, h.2.trans k.2⟩

theorem DutyKept.setTwin {w : Twin} {q : Nat} {s : State} {x : TwinSt} (h : SameDuty q (s.twin w) x) :
    DutyKept w q s (s.setTwin w x) := ⟨by simp, by simpa using h⟩

/-- A request that would end in time still does after the run. -/
theorem DutyKept.timely {w : Twin} {q : Nat} {s u : State} {r : Req} (h : DutyKept w q s u)
    (hr : Tbl.find? (s.twin w).reqs q = some r) (ht : Timely (s.twin w) s.now q r) :
    ∃ r', Tbl.find? (u.twin w).reqs q = some r' ∧ r'.hdr = r.hdr ∧ Timely (u.twin w) u.now q r' := by
  rw [h.1]
  exact h.2.timely hr ht

theorem VEnv.draw_keepsDuty (e : VEnv) (n : Nat) : VM.Keeps (DutyKept e.w e.q) (e.draw n) := by
  intro s b u h
  obtain ⟨x, hx, rfl⟩ := VEnv.rng_of_draw_run h
  exact .setTwin (.rng hx)

/-- A signature takes randomness and nothing else (R94, R118). -/
theorem VEnv.sign_keepsDuty (e : VEnv) (code kind : Nat) (k : KeyRec) (m : Bytes) :
    VM.Keeps (DutyKept e.w e.q) (e.sign code kind k m) := by
  have hdraw : ∀ (n : Nat) (f : Bytes → Bytes), VM.Keeps (DutyKept e.w e.q) (do let b ← e.draw n; pure (f b)) :=
    fun n f => .bind DutyKept.trans (e.draw_keepsDuty n) fun b => .pure DutyKept.rfl (f b)
  unfold VEnv.sign
  dsimp only
  split
  · exact .pure DutyKept.rfl _
  · exact hdraw _ _
  · exact hdraw _ _
  · exact hdraw _ _
  · exact hdraw _ _
  · exact .pure DutyKept.rfl _

/-! The end record. -/

/-- An end record with the status, the result and whether it commits of another, and at least its effects. -/
def EndRec.Extends (a b : EndRec) : Prop :=
  b.status = a.status ∧ b.result = a.result ∧ b.commits = a.commits ∧ a.effects ⊆ b.effects

theorem EndRec.Extends.rfl {a : EndRec} : a.Extends a := ⟨Eq.refl _, Eq.refl _, Eq.refl _, List.Subset.refl _⟩

theorem EndRec.Extends.trans {a b c : EndRec} (h : a.Extends b) (k : b.Extends c) : a.Extends c :=
  ⟨k.1.trans h.1, k.2.1.trans h.2.1, k.2.2.1.trans h.2.2.1, List.Subset.trans h.2.2.2 k.2.2.2⟩

/-- Effects added. -/
theorem EndRec.Extends.addEffects (a : EndRec) (l : List Effect) : a.Extends { a with effects := a.effects ++ l } :=
  ⟨Eq.refl _, Eq.refl _, Eq.refl _, List.subset_append_left _ _⟩

theorem Req.segEffects_extends (r : Req) (st : Store) (q : Nat) (e : EndRec) : e.Extends (r.segEffects st q e) := by
  unfold Req.segEffects
  dsimp only
  split
  · exact .rfl
  split
  · exact .addEffects e _
  split
  · exact .addEffects e _
  · exact .rfl

/-- A result that goes to the host is delivered (R65). -/
theorem Req.fit_extends {r : Req} {e : EndRec} (h : Fits r e.result) : e.Extends (r.fit e) := by
  have hf : ¬ (24 < e.result.length ∧ r.hdr.rlen < e.result.length) := by unfold Fits at h; omega
  unfold Req.fit
  rw [if_neg hf]
  split
  · exact .rfl
  · exact ⟨rfl, rfl, rfl, List.Subset.refl _⟩

/-- The end record of a request that ends in time (R189, R191). -/
theorem Req.endRec_extends {r : Req} {act : Bool} {stamp q : Nat} {e : EndRec} (ho : r.timedOut = none)
    (hd : r.hdr.deadline = 0 ∨ stamp < r.hdr.deadline) (hf : Fits r e.result) : e.Extends (r.endRec act stamp q e) := by
  have hlate : (r.timedOut.isSome || (act && e.commits && r.hdr.deadline != 0 && decide (r.hdr.deadline ≤ stamp))) = false := by
    rcases hd with h | h <;> simp [ho, h]
  unfold Req.endRec
  simp only [hlate, Bool.false_eq_true, if_false]
  refine (Req.fit_extends hf).trans ?_
  generalize r.fit e = a
  generalize hb : (if a.commits ∧ r.hdr.stateChange then
    { a with effects := a.effects ++ [.replayPut r.space (r.replayEntry q a)] } else a) = b
  have hab : a.Extends b := by
    rw [← hb]
    split
    · exact .addEffects a _
    · exact .rfl
  exact hab.trans ⟨rfl, rfl, rfl, List.subset_append_left _ _⟩

/-- The end record that a twin forms of a request that ends in time. -/
theorem TwinSt.endOf_extends {x : TwinSt} {act : Bool} {now q : Nat} {r : Req} {e : EndRec} (ht : Timely x now q r)
    (hf : Fits r e.result) : e.Extends (x.endOf act now q r e) := by
  obtain ⟨-, ho, hd⟩ := ht
  have h1 : e.Extends (r.segEffects x.store q { e with evs := (x.stampEnd now q e.evs).1 }) :=
    EndRec.Extends.trans (b := { e with evs := (x.stampEnd now q e.evs).1 }) ⟨rfl, rfl, rfl, List.Subset.refl _⟩
      (r.segEffects_extends x.store q _)
  have h2 := Req.endRec_extends (r := r) (act := act) (q := q) ho (hd.imp_right And.right) (h1.2.1.symm ▸ hf)
  exact (h1.trans h2).trans ⟨rfl, rfl, rfl, List.Subset.refl _⟩

/-! A formed end record stays. -/

/-- The end record of a request in a twin. -/
def TwinSt.finOf (x : TwinSt) (q : Nat) : Option EndRec := (Tbl.find? x.reqs q).bind Req.fin

theorem TwinSt.finOf_eq_some {x : TwinSt} {q : Nat} {e : EndRec} :
    x.finOf q = some e ↔ ∃ r, Tbl.find? x.reqs q = some r ∧ r.fin = some e := Option.bind_eq_some_iff

theorem SameReq.finOf {q : Nat} {x y : TwinSt} (h : SameReq q x y) : y.finOf q = x.finOf q := by
  have hc : ∀ z : TwinSt, z.finOf q = ((Tbl.find? z.reqs q).map Req.core).bind Req.fin := by
    intro z
    unfold TwinSt.finOf
    cases Tbl.find? z.reqs q <;> rfl
  rw [hc, hc, show _ = _ from h]

theorem SameDuty.finOf {q : Nat} {x y : TwinSt} (h : SameDuty q x y) : y.finOf q = x.finOf q := by
  have hc : ∀ z : TwinSt, z.finOf q = ((Tbl.find? z.reqs q).map Req.duty).bind (fun d => d.2.1) := by
    intro z
    unfold TwinSt.finOf
    cases Tbl.find? z.reqs q <;> rfl
  rw [hc, hc, h.2.2]

/-- A change of a request that leaves its end record. -/
theorem TwinSt.finOf_updReq {q p : Nat} (x : TwinSt) (f : Req → Req) (h : ∀ r, (f r).fin = r.fin) :
    (x.updReq p f).finOf q = x.finOf q := by
  unfold TwinSt.finOf
  rw [TwinSt.find?_updReq]
  split
  · cases Tbl.find? x.reqs q <;> simp [h]
  · rfl

/-- Once formed, an end record is not formed again: no other request's end moves it. -/
theorem TwinSt.finOf_finish {x : TwinSt} {act : Bool} {now q p : Nat} {e f : EndRec} (h : x.finOf q = some e) :
    (x.finish act now p f).finOf q = some e := by
  obtain ⟨r, hr, hf⟩ := TwinSt.finOf_eq_some.mp h
  unfold TwinSt.finish
  split
  · next r' hr' =>
    split
    · exact h
    · next hnone =>
      have hne : q ≠ p := by
        rintro rfl
        rw [hr] at hr'
        cases hr'
        simp [hf] at hnone
      have hput : ∀ (y : TwinSt) (g : Req → Req), (y.updReq p g).finOf q = y.finOf q := by
        intro y g
        unfold TwinSt.finOf
        rw [TwinSt.find?_updReq, if_neg hne]
      have hprep : (((x.stampEnd now p f.evs).2.keepLog p).dropTasks now p (fun _ => true) false).finOf q = some e :=
        (((SameReq.stampEnd x now p f.evs).trans (.keepLog _ _)).trans (.dropTasks _ _ _ _ _)).finOf.trans h
      dsimp only
      rw [(SameReq.sweep _).finOf]
      split
      · rw [(SameReq.applyFin _ _).finOf]
        exact (hput _ _).trans hprep
      · exact (hput _ _).trans hprep
  · exact h

/-- Nothing but the requests decides on their end records. -/
theorem TwinSt.finOf_congr {x y : TwinSt} {q : Nat} (h : y.reqs = x.reqs) : y.finOf q = x.finOf q := by
  unfold TwinSt.finOf
  rw [h]

theorem TwinSt.finOf_awaitRng (x : TwinSt) (p i q : Nat) : (x.awaitRng p i).finOf q = x.finOf q := by
  unfold TwinSt.awaitRng
  dsimp only
  rw [TwinSt.finOf_updReq]
  · split <;> rfl
  · exact fun _ => rfl

theorem TwinSt.deposit_reqs (x : TwinSt) (c : Cid) (a : Nat) (b : Bytes) (tag : Bool) : (x.deposit c a b tag).reqs = x.reqs := by
  unfold TwinSt.deposit
  split <;> rfl

section
variable {w : Twin} {q : Nat} {e : EndRec}

theorem State.finOf_endWith {s : State} (h : (s.twin w).finOf q = some e) (p st : Nat) :
    ((s.endWith w p st).twin w).finOf q = some e := by
  unfold State.endWith State.finish State.updTwin
  rw [State.twin_setTwin]
  exact TwinSt.finOf_finish h

/-- One service carried out leaves every end record. -/
theorem State.finOf_serveOne {s : State} (h : (s.twin w).finOf q = some e) (a : Async) :
    ((State.serveOne w s a).twin w).finOf q = some e := by
  cases a with
  | payload p i off len dst c =>
    unfold State.serveOne
    dsimp only
    split
    · exact h
    · split
      · rw [State.twin_setTwin]
        exact (TwinSt.finOf_congr (TwinSt.deposit_reqs _ _ _ _ _)).trans h
      · rw [State.updTwin, State.twin_setTwin]
        exact h
  | rng p i dst len tag c =>
    unfold State.serveOne State.updTwin
    dsimp only
    split
    · exact h
    · split
      · next b y hy =>
        rw [State.twin_setTwin]
        exact (TwinSt.finOf_congr (TwinSt.deposit_reqs _ _ _ _ _)).trans ((SameDuty.rng hy).finOf.trans h)
      · rw [State.twin_setTwin, State.twin_setTwin, TwinSt.finOf_awaitRng]
        exact h
      · split
        · exact State.finOf_endWith h _ _
        · rw [State.twin_setTwin, State.twin_setTwin, TwinSt.finOf_awaitRng]
          exact h
      · exact State.finOf_endWith h _ _
  | keyGet p i k dst c =>
    unfold State.serveOne
    dsimp only
    split
    · exact h
    · split
      · rw [State.twin_setTwin]
        exact (TwinSt.finOf_congr (TwinSt.deposit_reqs _ _ _ _ _)).trans h
      · rw [State.twin_setTwin]
        exact h

theorem State.finOf_serveAll (l : List Async) {s : State} (h : (s.twin w).finOf q = some e) :
    ((l.foldl (State.serveOne w) s).twin w).finOf q = some e := by
  induction l generalizing s with
  | nil => exact h
  | cons a l ih => exact ih (State.finOf_serveOne h a)

/-- The services that complete leave every end record. -/
theorem State.finOf_serve {s : State} (h : (s.twin w).finOf q = some e) : ((s.serve w).twin w).finOf q = some e := by
  unfold State.serve
  rw [State.updTwin, State.twin_setTwin, (SameReq.wakeMem _ _ _).finOf]
  refine State.finOf_serveAll _ ?_
  rw [State.updTwin, State.twin_setTwin]
  exact h

end

/-! The end of a vendor command. -/

theorem State.at_executes (s : State) (t : Nat) (w : Twin) : (s.at t).executes w = s.executes w := by cases w <;> rfl

theorem State.at_coreAwake (s : State) (t : Nat) (w : Twin) (q : Nat) : (s.at t).coreAwake w q = s.coreAwake w q := by
  cases w <;> rfl

/-- What the exit of a root task with a status and a result leaves of its request (R241). -/
def ExitRec (r : Req) (st : Nat) (res : Bytes) (v : EndRec) : Prop :=
  v.status = st ∧ (commitsAt st = true → v.result = res ∧ r.staged ⊆ v.effects) ∧ (commitsAt st = false → v.result = [])

theorem ExitRec.of_extends {r : Req} {st : Nat} {res : Bytes} {v : EndRec} (h : (r.outcome st res).Extends v) :
    ExitRec r st res v := by
  obtain ⟨hs, hr, -, he⟩ := h
  unfold Req.outcome at *
  cases hc : commitsAt st
  · simp only [hc, Bool.false_eq_true, if_false] at hs hr
    exact ⟨hs, by simp [hc], fun _ => hr⟩
  · simp only [hc, if_true] at hs hr he
    exact ⟨hs, fun _ => ⟨hr, he⟩, by simp [hc]⟩

/-- A vendor command that is served and runs to its end brings its request to an end with its status and its result, when the
request then still ends in time and the result goes to the host. -/
theorem vendor_ends {i : Instr} {s v : State} {t op : Nat} {w : Twin} {q st : Nat} {r r' : Req} {res : Bytes}
    {cmd : VEnv → VM (Nat × Bytes)} (hi : exec i s = vendor t op w q cmd s) (hs : Served s t op w q r)
    (hrun : (cmd (VEnv.of w q r)).run (s.at t) = .ok ((st, res), v))
    (hr' : Tbl.find? (v.twin w).reqs q = some r') (ht : Timely (v.twin w) v.now q r') (hf : Fits r' res) :
    Ends i s w q (ExitRec r' st res) := by
  obtain ⟨hr, hx, -, hready, hcore⟩ := hs
  have hfits : Fits r' (r'.outcome st res).result := by
    unfold Req.outcome
    split
    · exact hf
    · exact .inl (Nat.zero_le _)
  obtain ⟨r'', hfind, hfin, -, -⟩ := State.finish_fin (e := r'.outcome st res) hr' ht.1
  have hend : (s.at t).runVendor op w q cmd = (v.finish w q (r'.outcome st res)).serve w := by
    have hrun' : (cmd (VEnv.mk w q r r.payload)).run (s.at t) = .ok ((st, res), v) := hrun
    unfold State.runVendor
    rw [State.at_twin, hr]
    simp only [hready, State.at_executes, hx, State.at_coreAwake, hcore, hrun', hr', not_true_eq_false, or_self, if_false,
      Option.getD_some]
  obtain ⟨r3, h3, hf3⟩ := TwinSt.finOf_eq_some.mp (State.finOf_serve (TwinSt.finOf_eq_some.mpr ⟨r'', hfind, hfin⟩))
  refine ⟨_, hi.trans (congrArg (fun u => Host.Outcome.next (settle s u)) hend), r3, _, (settle_twin _ _ _).symm ▸ h3, hf3, ?_⟩
  exact .of_extends (TwinSt.endOf_extends ht hfits)

/-- A consequence of what an end record is. -/
theorem Ends.imp {i : Instr} {s : State} {w : Twin} {q : Nat} {p p' : EndRec → Prop} (h : Ends i s w q p)
    (hp : ∀ v, p v → p' v) : Ends i s w q p' := by
  obtain ⟨t, ht, r, e, hr, he, h⟩ := h
  exact ⟨t, ht, r, e, hr, he, hp e h⟩

/-- A served request as the event finds it. -/
theorem Served.request {s : State} {t op : Nat} {w : Twin} {q : Nat} {r : Req} (h : Served s t op w q r) :
    Tbl.find? ((s.at t).twin w).reqs q = some r ∧ Timely ((s.at t).twin w) (s.at t).now q r := by
  rw [State.at_twin]
  exact ⟨h.1, h.2.2.1⟩

end Sys2Proof.Machine
end

section
/-! The random numbers, certified draws and tickets of the vendor images (R121 to R125, R323). -/

namespace Sys2Proof.Machine

/-! The runs of the commands that read the state, or take randomness alone. -/

section
variable {s : State} {k : KeyRec} (e : VEnv)

/-- Random bytes of a length in range are one consumer call (R121). -/
theorem runRngGet_run {d : Bytes} {x : TwinSt} (hl : e.r.hdr.plen = 0) (h1 : 1 ≤ e.r.hdr.param) (h2 : e.r.hdr.param ≤ 65536)
    (hx : (s.twin e.w).rng e.q 0 e.r.hdr.param = .ok d x) : (runRngGet e).run s = .ok ((0, d), s.setTwin e.w x) := by
  unfold runRngGet
  rw [VM.run_bind_ok (e.shape_run s (by simp [VEnv.len, hl]) (by simp [h1, h2]) rfl), VM.run_bind_ok (VEnv.draw_run hx)]
  rfl

/-- What `DRAW_LAST` returns of a register (R122). -/
def Draw.bytes (d : Draw) : Bytes := toLe 4 d.last ++ toLe 4 d.evSeq ++ toLe 4 d.pcycle

theorem runDrawLast_run (hl : e.r.hdr.plen = 0) (hp : e.r.hdr.param < 2 ^ 32) : (runDrawLast e).run s =
    .ok ((0, (Tbl.getD ((s.twin e.w).store.comp e.r.space).draws e.r.hdr.param {}).bytes), s) := by
  have hn : e.named = e.r.hdr.param := Nat.mod_eq_of_lt hp
  have hok : e.namedOk = true := decide_eq_true hp
  unfold runDrawLast
  rw [VM.run_bind_ok (e.shape_run s (by simp [VEnv.len, hl]) hok rfl), VM.run_bind_ok (e.x_run s), hn]
  rfl

/-- The key of a ticket command, past its checks. -/
theorem ticketKey_run {head : Nat} {reserved : List (Nat × Nat)} (hlo : 1 ≤ e.f 4 2) (hhi : e.f 4 2 ≤ 1024)
    (hl : e.r.hdr.plen = head + e.f 4 2) (hp : e.r.hdr.param = 0)
    (hz : reserved.all (fun z => allZero (e.b z.1 z.2)) = true)
    (hk : e.keyed s 0 (e.f 0 4) (fun k => isAes k.alg && k.nonceEn) k = true) :
    (ticketKey e head reserved).run s = .ok (k, s) := by
  unfold ticketKey
  rw [VM.run_bind_ok (e.shape_run s (by simp [VEnv.len, hl, hlo, hhi]) (by simp [hp]) hz)]
  exact e.key_run s hk

/-- A ticket's serial is the nonce assigned to the request (R125). -/
theorem runTicketIssue_run (hlo : 1 ≤ e.f 4 2) (hhi : e.f 4 2 ≤ 1024) (hl : e.r.hdr.plen = 8 + e.f 4 2)
    (hp : e.r.hdr.param = 0) (hz : allZero (e.b 6 2) = true)
    (hk : e.keyed s 0 (e.f 0 4) (fun k => isAes k.alg && k.nonceEn) k = true) : (runTicketIssue e).run s =
    .ok ((0, toLe 12 e.r.nonce ++ ticketCode k (toLe 12 e.r.nonce) (e.from_ 8) ++ [0, 0]), s) := by
  unfold runTicketIssue
  rw [VM.run_bind_ok (ticketKey_run e hlo hhi hl hp (by simp [hz]) hk)]
  rfl

/-- A key whose earlier claims are all assigned takes the counters that its request found (R125, R146). -/
theorem VEnv.asAccepted_run {h : Nat} (hr : Tbl.find? (s.twin e.w).reqs e.q = some e.r)
    (hw : (s.twin e.w).claimWaits e.q e.r.space h = false) :
    let o := (Tbl.find? e.r.snaps h).getD k
    (e.asAccepted h k).run s =
      .ok ({ k with useCount := o.useCount, nonce := o.nonce, exhausted := o.exhausted }, s) := by
  unfold VEnv.asAccepted
  rw [VM.run_bind_ok (e.x_run s), hw, hr]
  rfl

/-- A ticket is good when its code matches and its serial has been issued (R125). -/
theorem runTicketValidate_run (hlo : 1 ≤ e.f 4 2) (hhi : e.f 4 2 ≤ 1024) (hl : e.r.hdr.plen = 32 + e.f 4 2)
    (hp : e.r.hdr.param = 0) (hz : allZero (e.b 6 2) = true) (hz' : allZero (e.b 30 2) = true)
    (hk : e.keyed s 0 (e.f 0 4) (fun k => isAes k.alg && k.nonceEn) k = true)
    (hr : Tbl.find? (s.twin e.w).reqs e.q = some e.r) (hw : (s.twin e.w).claimWaits e.q e.r.space (e.f 0 4) = false) :
    (runTicketValidate e).run s = .ok ((
      if ticketCode k (e.b 8 12) (e.from_ 32) = e.b 20 10 ∧ e.f 8 12 ≠ 0 ∧
        e.f 8 12 ≤ ((Tbl.find? e.r.snaps (e.f 0 4)).getD k).nonce then 0 else stVerify, []), s) := by
  unfold runTicketValidate
  rw [VM.run_bind_ok (ticketKey_run e hlo hhi hl hp (by simp [hz, hz']) hk), VM.run_bind_ok (e.asAccepted_run hr hw)]
  rfl

end

/-! Their ends. -/

section
variable {s : State} {t : Nat} {w : Twin} {q : Nat} {r : Req}

/-- The end of a command whose status is `OK`. -/
theorem ExitRec.ok {res : Bytes} {v : EndRec} (h : ExitRec r 0 res v) : v.status = 0 ∧ v.result = res :=
  ⟨h.1, (h.2.1 rfl).1⟩

/-- The end of a command without a result, whatever its status. -/
theorem ExitRec.noResult {st : Nat} {v : EndRec} (h : ExitRec r st [] v) : v.result = [] ∧ v.status = st := by
  obtain ⟨hs, hc, hn⟩ := h
  refine ⟨?_, hs⟩
  cases hst : commitsAt st
  · exact hn hst
  · exact (hc hst).1

/-- A run that leaves the state ends its request as it stands. -/
theorem vendor_ends_same {i : Instr} {op st : Nat} {res : Bytes} {cmd : VEnv → VM (Nat × Bytes)}
    (hi : exec i s = vendor t op w q cmd s) (hs : Served s t op w q r)
    (hrun : (cmd (VEnv.of w q r)).run (s.at t) = .ok ((st, res), s.at t)) (hf : Fits r res) :
    Ends i s w q (ExitRec r st res) :=
  vendor_ends hi hs hrun hs.request.1 hs.request.2 hf

theorem rngGet_ends {d : Bytes} (hs : Served s t 0x0800 w q r) (hl : r.hdr.plen = 0) (h1 : 1 ≤ r.hdr.param)
    (h2 : r.hdr.param ≤ 65536) (hd : (VEnv.of w q r).drawn (s.at t) r.hdr.param = some d) (hf : Fits r d) :
    Ends (.rngGet t w q) s w q (fun v => v.status = 0 ∧ v.result = d) := by
  obtain ⟨x, hx⟩ := VEnv.rng_of_drawn hd
  obtain ⟨hr, ht⟩ := hs.request
  obtain ⟨r', hr', hh, ht'⟩ := (DutyKept.setTwin (w := w) (SameDuty.rng (q := q) hx)).timely hr ht
  refine (vendor_ends (i := .rngGet t w q) rfl hs (runRngGet_run (VEnv.of w q r) hl h1 h2 hx) hr' ht' ?_).imp
    fun v => ExitRec.ok
  unfold Fits
  rw [hh]
  exact hf

end

end Sys2Proof.Machine
end

section
/-! The certified draw (R122 to R124, R323). -/

namespace Sys2Proof.Machine

/-- The register of the game that a draw names. -/
def VEnv.drawReg (e : VEnv) (s : State) : Option Draw := Tbl.find? ((s.twin e.w).store.comp e.r.space).draws (e.f 0 4)

/-- The state after the quota step of a draw. -/
def VEnv.drawPaid (e : VEnv) (s : State) : State :=
  if (e.drawReg s).isNone ∧ e.r.slotsTaken = 0 then
    s.setTwin e.w (((s.twin e.w).quota e.q 1 0 0).getD (s.twin e.w)) else s

/-- The record of a draw that is signed and returned (R124). -/
def VEnv.drawBody (e : VEnv) (pcycle first : Nat) (used : Bytes) (nums : List Nat) : Bytes :=
  e.b 0 8 ++ toLe 8 e.q ++ toLe 4 pcycle ++ toLe 4 first ++ sha256 used ++ e.b 24 32 ++ e.b 8 8 ++ e.b 16 4 ++
    toLe 4 used.length ++ nums.flatMap (toLe 4)

/-- The numbers as they are reported: ascending where the mode asks for it (R124). -/
def VEnv.drawOrder (e : VEnv) (drawn : List Nat) : List Nat :=
  if bit (e.f 18 1) 1 then drawn.foldl (fun l v => insertUp v l) [] else drawn

/-- A certified draw passes the checks that precede its reservation (R91, R123). -/
structure VEnv.DrawChecks (e : VEnv) (s : State) (k : KeyRec) : Prop where
  production : s.lc = .production
  plen : e.r.hdr.plen = 56
  param : e.r.hdr.param = 0
  reserved : allZero (e.b 19 1) = true
  mode : e.f 18 1 < 4
  last : ∀ d, e.drawReg s = some d → d.last < e.f 4 4
  low : e.f 8 4 < e.f 12 4
  span : e.f 12 4 - e.f 8 4 ≤ 0xFFFFFFFE
  fewest : 1 ≤ e.f 16 2
  most : e.f 16 2 ≤ 256
  without : bit (e.f 18 1) 0 = true → e.f 16 2 ≤ e.f 12 4 - e.f 8 4 + 1
  key : e.keyed s 0 (e.f 20 4) (fun k => k.alg == 0x21 && handleClass (e.f 20 4) == 2) k = true
  quota : e.drawReg s = none → e.r.slotsTaken = 0 → (s.twin e.w).quota e.q 1 0 0 ≠ none

/-- A change of a request that leaves its duty, in the state. -/
theorem DutyKept.updReq {w : Twin} {q : Nat} (s : State) (f : Req → Req) (h : ∀ r, (f r).duty = r.duty) :
    DutyKept w q s (s.setTwin w ((s.twin w).updReq q f)) := .setTwin (.updReq _ f h)

/-- A request changed reads back changed. -/
theorem TwinSt.find?_updReq_same {x : TwinSt} {q : Nat} {r : Req} (h : Tbl.find? x.reqs q = some r) (f : Req → Req) :
    Tbl.find? (x.updReq q f).reqs q = some (f r) := by
  rw [TwinSt.find?_updReq, if_pos rfl, h]
  rfl

/-- A request in service with a staged effect, in the state that a run leaves. -/
def Staged (w : Twin) (q : Nat) (hdr : Hdr) (f : Effect) (s : State) : Prop :=
  ∃ r, Tbl.find? (s.twin w).reqs q = some r ∧ r.hdr = hdr ∧ Timely (s.twin w) s.now q r ∧ f ∈ r.staged

theorem Staged.stage {w : Twin} {q : Nat} {s : State} {r : Req} (hr : Tbl.find? (s.twin w).reqs q = some r)
    (ht : Timely (s.twin w) s.now q r) (f : Effect) :
    Staged w q r.hdr f (s.setTwin w ((s.twin w).updReq q (fun r => { r with staged := r.staged ++ [f] }))) := by
  obtain ⟨r', hr', hh, ht'⟩ := (DutyKept.updReq (w := w) (q := q) s (fun r => { r with staged := r.staged ++ [f] })
    (fun _ => rfl)).timely hr ht
  refine ⟨r', hr', hh, ht', ?_⟩
  rw [State.twin_setTwin, TwinSt.find?_updReq_same hr] at hr'
  cases hr'
  simp

/-- A change that leaves the staged effects. -/
theorem Staged.updReq {w : Twin} {q : Nat} {hdr : Hdr} {f : Effect} {s : State} (h : Staged w q hdr f s) (g : Req → Req)
    (hd : ∀ r, (g r).duty = r.duty) (hs : ∀ r, (g r).staged = r.staged) :
    Staged w q hdr f (s.setTwin w ((s.twin w).updReq q g)) := by
  obtain ⟨r, hr, hh, ht, hf⟩ := h
  obtain ⟨r', hr', hh', ht'⟩ := (DutyKept.updReq (w := w) (q := q) s g hd).timely hr ht
  refine ⟨r', hr', hh'.trans hh, ht', ?_⟩
  rw [State.twin_setTwin, TwinSt.find?_updReq_same hr] at hr'
  cases hr'
  rw [hs]
  exact hf

section
variable {e : VEnv} {s v1 v2 : State} {k : KeyRec} {first : Nat} {drawn : List Nat} {used sig : Bytes} {r2 : Req}

/-- The run of a certified draw: checks, quota, reservation, numbers, signature, and the register staged. -/
theorem runDrawCertified_run (hc : e.DrawChecks s k)
    (hres : (e.reserve (5 + ceilDiv (e.f 16 2) 4)).run (e.drawPaid s) = .ok (first, v1))
    (hnum : (e.numbers (bit (e.f 18 1) 0) (e.f 8 4) (e.f 12 4 - e.f 8 4 + 1) (2 ^ 20) (e.f 16 2) [] [] []).run v1 =
      .ok ((drawn, used), v2))
    (hsig : ranTo (e.sign 5 0 k (e.drawBody s.pcycle first used (e.drawOrder drawn))) v2 = some sig)
    (hr : Tbl.find? (v2.twin e.w).reqs e.q = some r2) (ht : Timely (v2.twin e.w) v2.now e.q r2) :
    ∃ v, (runDrawCertified e).run s = .ok ((0, e.drawBody s.pcycle first used (e.drawOrder drawn) ++ sig), v) ∧
      Staged e.w e.q r2.hdr (.drawPut e.r.space (e.f 0 4) { last := e.f 4 4, evSeq := first, pcycle := s.pcycle }) v := by
  obtain ⟨v3, hsign⟩ := run_of_ranTo hsig
  obtain ⟨r3, hr3, hh3, ht3⟩ := (e.sign_keepsDuty 5 0 k _ v2 sig v3 hsign).timely hr ht
  refine ⟨_, ?_, hh3 ▸ (Staged.stage hr3 ht3 _).updReq
    (fun r => { r with
      stagedEv := r.stagedEv ++ drawGroup e (5 + ceilDiv (e.f 16 2) 4) (((v3.twin e.w).seedFor e.q).elim 0 Prod.fst)
        (sha256 used) used (e.drawOrder drawn) })
    (fun _ => rfl) (fun _ => rfl)⟩
  unfold runDrawCertified
  rw [VM.run_bind_ok (vstate_run s), VM.run_bind_ok (need_run _ s (by rw [hc.production]; rfl))]
  extract_lets low high picks mode game span n
  rw [VM.run_bind_ok (e.x_run s)]
  extract_lets reg
  have hreg : reg = e.drawReg s := rfl
  clear_value reg
  subst hreg
  rw [VM.run_bind_ok (e.shape_run s (by simp [VEnv.len, hc.plen]) (by simp [hc.param]) (by simp [hc.reserved])),
    VM.run_bind_ok (need_run _ s (decide_eq_true hc.mode)),
    VM.run_bind_ok (need_run _ s ?last), VM.run_bind_ok (need_run _ s ?range), VM.run_bind_ok (e.key_run s hc.key)]
  case last =>
    cases hreg : e.drawReg s with
    | none => rfl
    | some d => exact decide_eq_true (hc.last d hreg)
  case range =>
    have hw : (bit mode 0 && decide (span < picks)) = false := by
      cases hb : bit mode 0
      · rfl
      · exact decide_eq_false (Nat.not_lt.mpr (hc.without hb))
    rw [hw]
    simp [low, high, picks, hc.low, hc.span, hc.fewest, hc.most]
  extract_lets jp
  refine Eq.trans (b := (jp ()).run (e.drawPaid s)) ?_ ?_
  · unfold VEnv.drawPaid
    by_cases hq : (e.drawReg s).isNone ∧ e.r.slotsTaken = 0
    · obtain ⟨x, hx⟩ := Option.ne_none_iff_exists'.mp (hc.quota (Option.isNone_iff_eq_none.mp hq.1) hq.2)
      rw [if_pos hq, if_pos hq, hx]
      rfl
    · rw [if_neg hq, if_neg hq]
  · rw [VM.run_bind_ok hres, VM.run_bind_ok hnum]
    refine (VM.run_bind_ok hsign).trans ?_
    rw [VM.run_bind_ok (e.x_run v3), VM.run_bind_ok (e.stage_run v3 _), VM.run_bind_ok (e.x_run _),
      VM.run_bind_ok (e.put_run _ _)]
    rfl

end

section
variable {s : State} {t : Nat} {w : Twin} {q : Nat} {r : Req} {k : KeyRec}

/-- A certified draw that is served: its receipt, and the register of its game staged for the commit. -/
theorem drawCertified_ends {v1 v2 : State} {first : Nat} {drawn : List Nat} {used sig : Bytes} {r2 : Req}
    (hs : Served s t 0x0801 w q r) (hc : (VEnv.of w q r).DrawChecks (s.at t) k)
    (hres : ((VEnv.of w q r).reserve (5 + ceilDiv (fld r.payload 16 2) 4)).run ((VEnv.of w q r).drawPaid (s.at t)) =
      .ok (first, v1))
    (hnum : ((VEnv.of w q r).numbers (bit (fld r.payload 18 1) 0) (fld r.payload 8 4)
      (fld r.payload 12 4 - fld r.payload 8 4 + 1) (2 ^ 20) (fld r.payload 16 2) [] [] []).run v1 = .ok ((drawn, used), v2))
    (hsig : ranTo ((VEnv.of w q r).sign 5 0 k
      ((VEnv.of w q r).drawBody s.pcycle first used ((VEnv.of w q r).drawOrder drawn))) v2 = some sig)
    (hr : Tbl.find? (v2.twin w).reqs q = some r2) (ht : Timely (v2.twin w) v2.now q r2)
    (hf : Fits r2 ((VEnv.of w q r).drawBody s.pcycle first used ((VEnv.of w q r).drawOrder drawn) ++ sig)) :
    Ends (.drawCertified t w q) s w q (fun v => v.status = 0 ∧
      v.result = (VEnv.of w q r).drawBody s.pcycle first used ((VEnv.of w q r).drawOrder drawn) ++ sig ∧
      Effect.drawPut r.space (fld r.payload 0 4) { last := fld r.payload 4 4, evSeq := first, pcycle := s.pcycle } ∈
        v.effects) := by
  obtain ⟨v, hrun, r', hr', hh, ht', hput⟩ := runDrawCertified_run hc hres hnum hsig hr ht
  refine (vendor_ends (i := .drawCertified t w q) rfl hs hrun hr' ht' ?_).imp fun v hv => ?_
  · unfold Fits
    rw [hh]
    exact hf
  · obtain ⟨hres, heff⟩ := hv.2.1 rfl
    exact ⟨hv.1, hres, heff hput⟩

end

end Sys2Proof.Machine
end

section
/-! The dispatch of an owner image's root task (R3, R184 to R186). -/

namespace Sys2Proof.Machine

/-- A task of a request runs on a context since a stamp. -/
def Placed (q i isl n stamp : Nat) (x : TwinSt) : Prop :=
  ∃ r k, Tbl.find? x.reqs q = some r ∧ r.begun = true ∧ Tbl.find? r.tasks i = some k ∧
    k.ctx = some ⟨isl, n⟩ ∧ k.st = .running ∧ k.dispatch = stamp

section
variable {q i isl n stamp : Nat} {x : TwinSt}

/-- Nothing but the requests decides. -/
theorem Placed.congr {y : TwinSt} (h : Placed q i isl n stamp x) (hr : y.reqs = x.reqs) : Placed q i isl n stamp y := by
  unfold Placed
  rw [hr]
  exact h

/-- A change of a request that leaves its tasks. -/
theorem Placed.updReq (h : Placed q i isl n stamp x) (p : Nat) {f : Req → Req}
    (hf : ∀ r, (f r).begun = r.begun ∧ (f r).tasks = r.tasks) : Placed q i isl n stamp (x.updReq p f) := by
  obtain ⟨r, k, hr, hb, hk, hp⟩ := h
  by_cases hq : q = p
  · subst hq
    exact ⟨f r, k, TwinSt.find?_updReq_same hr f, (hf r).1.trans hb, (hf r).2.symm ▸ hk, hp⟩
  · refine ⟨r, k, ?_, hb, hk, hp⟩
    rw [TwinSt.find?_updReq, if_neg hq]
    exact hr

/-- A change of a task that leaves where and since when it runs. -/
theorem Placed.updTask (h : Placed q i isl n stamp x) (p j : Nat) {f : Task → Task}
    (hf : ∀ k, k.st = .running → (f k).ctx = k.ctx ∧ (f k).st = .running ∧ (f k).dispatch = k.dispatch) :
    Placed q i isl n stamp (x.updTask p j f) := by
  obtain ⟨r, k, hr, hb, hk, hc, hs, hd⟩ := h
  obtain ⟨fc, fs, fd⟩ := hf k hs
  by_cases hq : q = p
  · subst hq
    have hr' := TwinSt.find?_updReq_same hr (fun r => r.updTask j f)
    have hfind := Tbl.find?_upd r.tasks j i f
    rw [hk] at hfind
    split at hfind
    · exact ⟨_, f k, hr', hb, hfind, fc.trans hc, fs, fd.trans hd⟩
    · exact ⟨_, k, hr', hb, hfind, hc, hs, hd⟩
  · refine ⟨r, k, ?_, hb, hk, hc, hs, hd⟩
    rw [TwinSt.updTask, TwinSt.find?_updReq, if_neg hq]
    exact hr

theorem Placed.stopCharge (h : Placed q i isl n stamp x) (now p j : Nat) : Placed q i isl n stamp (x.stopCharge now p j) := by
  unfold TwinSt.stopCharge
  split
  · split
    · refine Placed.congr (h.updTask p j ?_) rfl
      exact fun _ hs => ⟨rfl, hs, rfl⟩
    · exact h
  · exact h

theorem Placed.foldl {α : Type} {f : TwinSt → α → TwinSt} (hf : ∀ x a, Placed q i isl n stamp x → Placed q i isl n stamp (f x a))
    (l : List α) (h : Placed q i isl n stamp x) : Placed q i isl n stamp (l.foldl f x) := by
  induction l generalizing x with
  | nil => exact h
  | cons a l ih => exact ih (hf x a h)

/-- The core's choice of the task that it executes moves charges, and takes a suspended task up again. -/
theorem Placed.recharge (h : Placed q i isl n stamp x) (core now : Nat) : Placed q i isl n stamp (x.recharge core now) := by
  unfold TwinSt.recharge
  dsimp only
  generalize x.executing core = nxt
  have hone : ∀ (x : TwinSt) (e : Nat × Nat × Nat), Placed q i isl n stamp x →
      Placed q i isl n stamp (if nxt = some (e.1, e.2.1) then x else x.stopCharge now e.1 e.2.1) := by
    intro x e hx
    split
    · exact hx
    · exact hx.stopCharge now _ _
  have hstop := Placed.foldl hone (x.onCore core) h
  split
  · exact hstop.updTask _ _ (fun k hs => ⟨rfl, by simp [hs], rfl⟩)
  · exact hstop

theorem Placed.keepLog (h : Placed q i isl n stamp x) (p : Nat) : Placed q i isl n stamp (x.keepLog p) := by
  unfold TwinSt.keepLog
  split
  · split
    · exact h.updReq p (fun _ => ⟨rfl, rfl⟩)
    · exact h
  · exact h

/-- A task placed runs where it was placed, since its dispatch stamp (R186). -/
theorem TwinSt.place_placed {r : Req} {k : Task} (hr : Tbl.find? x.reqs q = some r) (hk : Tbl.find? r.tasks i = some k)
    (now : Nat) (pre : Bool) : Placed q i isl n stamp (x.place now stamp q i isl n pre) := by
  have ht : x.task? q i = some k := by simp [TwinSt.task?, hr, hk]
  unfold TwinSt.place
  simp only [hr, ht]
  refine ((Placed.keepLog ?_ q).recharge isl now)
  refine ⟨_, { k with st := .running, dispatch := stamp, ctx := some ⟨isl, n⟩, preempting := pre },
    TwinSt.find?_updReq_same hr _, rfl, ?_, rfl, rfl, rfl⟩
  exact (Tbl.find?_upd r.tasks i i _).trans (by rw [if_pos rfl, hk]; rfl)

end

/-- Coachyard's island in the module (R18). -/
theorem islandTwin_coachyard (w : Twin) : islandTwin (twinBase w + 196) = some w := by cases w <;> rfl

theorem coachyard_local (w : Twin) : (twinBase w + 196) % 206 = coachyard := by cases w <;> rfl

theorem State.stampOf_coachyard (s : State) (w : Twin) :
    s.stampOf (twinBase w + 196) = (s.twin w).stampOf s.now coachyard := by
  unfold State.stampOf
  rw [islandTwin_coachyard, coachyard_local]

/-- A stamp of Coachyard leaves the requests of its twin. -/
theorem State.stamped_coachyard_reqs (s : State) (w : Twin) : ((s.stamped (twinBase w + 196)).twin w).reqs = (s.twin w).reqs := by
  unfold State.stamped
  rw [islandTwin_coachyard]
  simp only [State.updTwin, State.twin_setTwin]
  rfl

/-- What wake events leave of a twin keeps its requests. -/
theorem WokenOnly.reqs {x y : TwinSt} (h : WokenOnly x y) : y.reqs = x.reqs := by
  unfold WokenOnly at h
  have hr := congrArg TwinSt.reqs h
  exact hr

/-- A task dispatched runs on its context, since Coachyard's stamp (R33, R186). -/
theorem State.dispatchTo_placed {s : State} {w : Twin} {c : Ready} {r : Req} {k : Task} {isl n : Nat}
    (hr : Tbl.find? (s.twin w).reqs c.q = some r) (hk : Tbl.find? r.tasks c.i = some k) (pre : Bool) :
    Placed c.q c.i isl n ((s.twin w).stampOf s.now coachyard) ((s.dispatchTo w c isl n pre).twin w) := by
  unfold State.dispatchTo
  dsimp only
  rw [State.stampOf_coachyard]
  refine Placed.congr ?_ ((Woken.wakeDoms _ _).twin w).reqs
  rw [State.twin_setTwin]
  refine Placed.congr (TwinSt.place_placed ?_ hk _ pre) rfl
  exact (congrArg (Tbl.find? · c.q) (State.stamped_coachyard_reqs s w)).trans hr

/-- A twin replaced leaves which twin is active. -/
theorem State.setTwin_isActive (s : State) (v w : Twin) (x : TwinSt) : (s.setTwin v x).isActive w = s.isActive w := by
  cases v <;> rfl

theorem State.at_coachyardAwake (s : State) (t : Nat) (w : Twin) : (s.at t).coachyardAwake w = s.coachyardAwake w := rfl

/-- The owner image's command dispatches its root task when Coachyard's choice falls on it. -/
theorem ownerImageCommand_dispatches {s : State} {t : Nat} {w : Twin} {q isl n : Nat} {y : TwinSt} {c : Ready} {r : Req}
    {k : Task} (hy : ((s.at t).twin w).prepare w ((s.at t).isActive w) (s.at t).now = y) (hx : s.executes w = true)
    (hc : s.coachyardAwake w = true) (hchoice : y.chooseTask w ((s.at t).isActive w) (s.at t).now = some c) (hq : c.q = q)
    (hi : c.i = 0) (hr : Tbl.find? y.reqs q = some r) (hk : Tbl.find? r.tasks 0 = some k) (hlo : 0x0F00 ≤ r.hdr.opcode)
    (hhi : r.hdr.opcode ≤ 0x0FFF) (htarget : y.target w r.image = some (isl, n)) :
    Completes (.ownerImageCommand t w q) s (fun t' =>
      Placed q 0 isl n (y.stampOf (s.at t).now coachyard) (t'.twin w)) := by
  have hgo : ¬ (¬ (s.at t).executes w = true ∨ ¬ (s.at t).coachyardAwake w = true) := by
    simp [State.at_executes, State.at_coachyardAwake, hx, hc]
  have hthis : ¬ (c.q ≠ q ∨ c.i ≠ 0 ∨ r.hdr.opcode < 0x0F00 ∨ 0x0FFF < r.hdr.opcode) := by omega
  have hexec : exec (.ownerImageCommand t w q) s =
      .next (settle s (((s.at t).setTwin w y).dispatchTo w c isl n false)) := by
    change execOwnerImageCommand t w q s = _
    unfold execOwnerImageCommand ev
    dsimp only
    rw [if_neg hgo]
    simp only [State.updTwin, State.twin_setTwin, State.setTwin_isActive, State.setTwin_now, hy, hchoice, hr, if_neg hthis,
      htarget]
  refine ⟨_, hexec, ?_⟩
  show Placed q 0 isl n _ ((settle s _).twin w)
  rw [settle_twin]
  have hp := State.dispatchTo_placed (s := (s.at t).setTwin w y) (w := w) (c := c) (isl := isl) (n := n)
    (by rw [State.twin_setTwin, hq]; exact hr) (by rw [hi]; exact hk) false
  rw [State.twin_setTwin, State.setTwin_now, hq, hi] at hp
  exact hp

end Sys2Proof.Machine
end

section
/-! O55: random bytes, certified draws, tickets and owner images. -/

namespace Sys2Proof.Machine

/-- Settles O55, command by command. -/
theorem drawsAndTickets : Obligations.DrawsAndTickets := by
  intro s t w q r k u x e b f zero gives
  have hx : u.twin w = x := State.at_twin s t w
  refine ⟨?rng, ?draw, ?last, ?tickets, ?owner⟩
  case rng =>
    intro d hs hl h1 h2 hd hf
    exact rngGet_ends hs hl h1 h2 hd hf
  case draw =>
    intro low picks span without reg u1 first v1 drawn used v2 sig hs hlc hlen hp hz hmode hlast hlow hspan hsome hmost hwo hk
      hquota hres hnum nums body hsig hreq
    obtain ⟨r2, hr2, ht2, hf2⟩ := hreq
    have hreg : e.drawReg u = reg := congrArg (fun y : TwinSt => Tbl.find? (y.store.comp r.space).draws (f 0 4)) hx
    have hchecks : e.DrawChecks u k :=
      { production := hlc, plen := hlen, param := hp, reserved := hz, mode := hmode, last := fun d hd => hlast d (hreg ▸ hd),
        low := hlow, span := hspan, fewest := hsome, most := hmost, without := hwo, key := hk,
        quota := fun h0 h1 => hx.symm ▸ hquota (hreg ▸ h0) h1 }
    have hpaid : e.drawPaid u = u1 := by
      unfold VEnv.drawPaid
      rw [hreg, show u.twin e.w = x from hx]
      rfl
    exact drawCertified_ends hs hchecks (hpaid ▸ hres) hnum hsig hr2 ht2 hf2
  case last =>
    intro hs hl hp d hf
    have hrun := runDrawLast_run (s := u) e hl hp
    rw [show u.twin e.w = x from hx] at hrun
    exact (vendor_ends_same (i := .drawLast t w q) rfl hs hrun hf).imp fun v => ExitRec.ok
  case tickets =>
    intro hlo hhi hp hz hk
    refine ⟨fun hs hl hf => ?_, fun hs hl hz' hw => ?_⟩
    · exact (vendor_ends_same (i := .ticketIssue t w q) rfl hs (runTicketIssue_run e hlo hhi hl hp hz hk) hf).imp
        fun v => ExitRec.ok
    · exact (vendor_ends_same (i := .ticketValidate t w q) rfl hs
        (runTicketValidate_run e hlo hhi hl hp hz hz' hk hs.request.1 (by rw [show u.twin e.w = x from hx]; exact hw))
        (.inl (Nat.zero_le _))).imp fun v => ExitRec.noResult
  case owner =>
    intro c r' task isl n y hexe hawake hchoice hq hi hr hk hlo hhi htarget
    obtain ⟨t', ht', r'', k', hr'', hb, hk', hctx, hst, hdisp⟩ :=
      ownerImageCommand_dispatches rfl hexe hawake hchoice hq hi hr hk hlo hhi htarget
    exact ⟨t', ht', r'', k', hr'', hb, by simp [TwinSt.task?, hr'', hk'], hctx, hst, hdisp⟩

end Sys2Proof.Machine
end

section
/-! What the rules on causes go by, and that records, wake events and ends of requests keep it (R28, R337, R339, R347). -/

namespace Sys2Proof.Machine

/-- What every step of a fold keeps, the fold keeps. -/
theorem foldl_keeps {σ α β : Type} {p : σ → β} {f : σ → α → σ} (h : ∀ s a, p (f s a) = p s) (l : List α) (s : σ) :
    p (l.foldl f s) = p s := by
  induction l generalizing s with
  | nil => rfl
  | cons a l ih => exact (ih (f s a)).trans (h s a)

/-! The operating time at which the power cycle began stands through every wake event. -/

@[simp] theorem State.updTwin_opsBase (s : State) (w : Twin) (f : TwinSt → TwinSt) :
    (s.updTwin w f).alm.opsBase = s.alm.opsBase := by cases w <;> rfl

@[simp] theorem State.stamped_opsBase (s : State) (isl : Nat) : (s.stamped isl).alm.opsBase = s.alm.opsBase := by
  unfold State.stamped
  cases islandTwin isl with
  | none => rfl
  | some w => exact s.updTwin_opsBase w _

@[simp] theorem State.note_opsBase (s : State) (e : EvReq) : (s.note e).alm.opsBase = s.alm.opsBase := by
  unfold State.note
  by_cases hev : e.sev = sevEvid
  · rw [if_pos hev]
    split
    · rfl
    · split <;> rfl
  · rw [if_neg hev]
    split <;> rfl

@[simp] theorem State.event_opsBase (s : State) (id sev origin : Nat) (d : Bytes) :
    (s.event id sev origin d).alm.opsBase = s.alm.opsBase := by
  unfold State.event
  rw [State.note_opsBase, State.stamped_opsBase]

theorem State.setVid_opsBase (s : State) : s.setVid.alm.opsBase = s.alm.opsBase := by
  unfold State.setVid
  split <;> rfl

@[simp] theorem State.setDomain_opsBase (s : State) (n : Nat) (d : Domain) : (s.setDomain n d).alm.opsBase = s.alm.opsBase := by
  have hpower : ∀ (c : Prop) [Decidable c] (p : Power),
      (if c then { s with power := p } else State.setVid { s with power := p }).alm.opsBase = s.alm.opsBase := by
    intro c _ p
    split
    · rfl
    · exact State.setVid_opsBase _
  exact hpower _ _

@[simp] theorem State.serveAccess_opsBase (s : State) (n : Nat) (a : GateAcc) :
    (s.serveAccess n a).alm.opsBase = s.alm.opsBase := by
  cases a with
  | zenith b => cases b <;> rfl
  | debug act =>
    unfold State.serveAccess State.debugAct
    cases act with
    | halt | resume => rfl
    | step => dsimp only; split <;> rfl
    | read l => dsimp only; split <;> rfl
    | write l v tag =>
      dsimp only [State.answerAccess]
      split
      · exact s.updTwin_opsBase _ _
      · rfl

@[simp] theorem State.toRun_opsBase (s : State) (n : Nat) : (s.toRun n).alm.opsBase = s.alm.opsBase := by
  unfold State.toRun
  dsimp only
  rw [foldl_keeps (p := fun s : State => s.alm.opsBase) (fun s a => s.serveAccess_opsBase n a)]
  split
  · rw [State.updTwin_opsBase]
    split <;> exact s.setDomain_opsBase _ _
  · split <;> exact s.setDomain_opsBase _ _

@[simp] theorem State.wakeDom_opsBase (s : State) (n : Nat) : (s.wakeDom n).alm.opsBase = s.alm.opsBase := by
  unfold State.wakeDom
  dsimp only
  split
  · exact s.setDomain_opsBase _ _
  · exact s.toRun_opsBase n

@[simp] theorem State.wakeDoms_opsBase (s : State) (l : List Nat) : (s.wakeDoms l).alm.opsBase = s.alm.opsBase :=
  foldl_keeps (p := fun s : State => s.alm.opsBase) State.wakeDom_opsBase l s

@[simp] theorem State.toRuns_opsBase (s : State) (l : List Nat) : (l.foldl State.toRun s).alm.opsBase = s.alm.opsBase :=
  foldl_keeps (p := fun s : State => s.alm.opsBase) State.toRun_opsBase l s

@[simp] theorem State.abortOne_opsBase (s : State) (n : Nat) : (s.abortOne n).alm.opsBase = s.alm.opsBase := by
  unfold State.abortOne
  dsimp only
  split
  · rfl
  · rw [State.wakeDoms_opsBase, State.toRuns_opsBase]
    exact s.setDomain_opsBase _ _

@[simp] theorem State.abortEntry_opsBase (s : State) (n : Nat) : (s.abortEntry n).alm.opsBase = s.alm.opsBase := by
  unfold State.abortEntry
  split
  · exact foldl_keeps (p := fun s : State => s.alm.opsBase) State.abortOne_opsBase _ s
  · exact s.abortOne_opsBase n

@[simp] theorem State.wakeNow_opsBase (s : State) (n : Nat) : (s.wakeNow n).alm.opsBase = s.alm.opsBase := by
  unfold State.wakeNow
  dsimp only
  rw [State.toRun_opsBase, State.abortEntry_opsBase]
  split
  · exact s.abortEntry_opsBase moduleDomain
  · rfl

@[simp] theorem State.enterMod_opsBase (s : State) (m : ModPower) : (s.enterMod m).alm.opsBase = s.alm.opsBase := by
  unfold State.enterMod
  split
  · rfl
  · exact State.event_opsBase _ _ _ _ _

@[simp] theorem State.exitStandby_opsBase (s : State) : s.exitStandby.alm.opsBase = s.alm.opsBase := by
  unfold State.exitStandby
  split
  · rfl
  · rw [State.enterMod_opsBase]
    exact s.toRuns_opsBase _

@[simp] theorem State.wakeCluster_opsBase (s : State) (w : Twin) (k : Nat) :
    (s.wakeCluster w k).alm.opsBase = s.alm.opsBase := by
  unfold State.wakeCluster
  split
  · rfl
  · dsimp only
    split
    · simp
    · simp

@[simp] theorem State.untrim_opsBase (s : State) (w : Twin) : (s.untrim w).alm.opsBase = s.alm.opsBase := by
  unfold State.untrim
  refine foldl_keeps (p := fun s : State => s.alm.opsBase) (fun s k => ?_) _ s
  split
  · rfl
  · exact s.wakeCluster_opsBase w k

@[simp] theorem State.wakeTwin_opsBase (s : State) (w : Twin) : (s.wakeTwin w).alm.opsBase = s.alm.opsBase := by
  unfold State.wakeTwin
  dsimp only
  rw [State.untrim_opsBase, foldl_keeps (p := fun s : State => s.alm.opsBase) State.wakeNow_opsBase]
  simp

/-! What a cause reads and decides. -/

/-- What a cause reads and writes of a twin (R28, R337, R347). -/
structure TwinPosture where
  role     : TwinRole
  cause    : Nat
  causeIsl : Nat
  causeAt  : Nat
  inTest   : Bool
  giveUp   : Bool
  departs  : List Nat

/-- What a twin has to say of causes. -/
def TwinSt.posture (x : TwinSt) : TwinPosture :=
  { role := x.role, cause := x.cause, causeIsl := x.causeIsl, causeAt := x.causeAt, inTest := x.inTest, giveUp := x.giveUp,
    departs := x.departs }

/-- What a cause in a twin reads and writes of the module: the time, the roles, the switch-over, the copies of the Relay's functions,
both twins' posture, and the requests of the twin itself. -/
structure Posture where
  now      : Nat
  ops      : Nat
  active   : Option Twin
  failStop : Bool
  sw       : Switch
  tmr      : Tmr
  own      : TwinPosture
  other    : TwinPosture
  reqs     : Tbl Req

/-- The posture of the module as a twin sees it. -/
def State.posture (s : State) (v : Twin) : Posture :=
  { now := s.now, ops := s.opSeconds, active := s.active, failStop := s.failStop, sw := s.sw, tmr := s.tmr,
    own := (s.twin v).posture, other := (s.twin (otherTwin v)).posture, reqs := (s.twin v).reqs }

@[simp] theorem otherTwin_otherTwin (w : Twin) : otherTwin (otherTwin w) = w := by cases w <;> rfl

theorem otherTwin_ne (w : Twin) : otherTwin w ≠ w := by cases w <;> decide

/-- A change of a twin that moves neither its posture nor its requests. -/
theorem State.updTwin_posture (s : State) (v w : Twin) {f : TwinSt → TwinSt}
    (hf : (f (s.twin w)).posture = (s.twin w).posture) (hr : (f (s.twin w)).reqs = (s.twin w).reqs) :
    (s.updTwin w f).posture v = s.posture v := by
  cases v <;> cases w <;> simp_all [State.posture, State.updTwin, State.setTwin, State.twin, otherTwin, State.opSeconds]

/-- A change of the other twin that keeps its posture. -/
theorem State.updOther_posture (s : State) (v : Twin) {f : TwinSt → TwinSt}
    (hf : (f (s.twin (otherTwin v))).posture = (s.twin (otherTwin v)).posture) :
    (s.updTwin (otherTwin v) f).posture v = s.posture v := by
  cases v <;> simp_all [State.posture, State.updTwin, State.setTwin, State.twin, otherTwin, State.opSeconds]

/-- What wake events leave of a twin keeps its posture. -/
theorem WokenOnly.posture {x y : TwinSt} (h : WokenOnly x y) : y.posture = x.posture := by
  unfold WokenOnly at h
  have hp := congrArg TwinSt.posture h
  exact hp

/-- Wake events leave the posture of the module. -/
theorem Woken.posture {s t : State} (h : Woken s t) (ho : t.alm.opsBase = s.alm.opsBase) (v : Twin) :
    t.posture v = s.posture v := by
  have hnow : t.now = s.now := h.eq State.now (Eq.refl _)
  have hact : t.active = s.active := h.eq State.active (Eq.refl _)
  have hfs : t.failStop = s.failStop := h.eq State.failStop (Eq.refl _)
  have hsw : t.sw = s.sw := h.eq State.sw (Eq.refl _)
  have htmr : t.tmr = s.tmr := h.eq State.tmr (Eq.refl _)
  have htwin : ∀ w, (t.twin w).posture = (s.twin w).posture := fun w => (h.twin w).posture
  simp only [State.posture, State.opSeconds, ho, hnow, hact, hfs, hsw, htmr, htwin, (h.twin v).reqs]

section
variable (s : State) (v : Twin)

@[simp] theorem State.wakeTwin_posture (w : Twin) : (s.wakeTwin w).posture v = s.posture v :=
  (Woken.wakeTwin s w).posture (s.wakeTwin_opsBase w) v

@[simp] theorem State.wakeZenith_posture (w : Twin) : (s.wakeZenith w).posture v = s.posture v := by
  unfold State.wakeZenith
  dsimp only
  split
  · rfl
  · exact (Woken.wakeDom s _).posture (s.wakeDom_opsBase _) v

@[simp] theorem State.roleReport_posture : s.roleReport.posture v = s.posture v := by
  unfold State.roleReport
  rw [State.wakeZenith_posture, State.wakeZenith_posture]
  rfl

/-! Stamps and records. -/

@[simp] theorem State.stamped_posture (isl : Nat) : (s.stamped isl).posture v = s.posture v := by
  unfold State.stamped
  cases islandTwin isl with
  | none => rfl
  | some w => exact s.updTwin_posture v w rfl rfl

@[simp] theorem State.note_posture (e : EvReq) : (s.note e).posture v = s.posture v := by
  unfold State.note
  by_cases hev : e.sev = sevEvid
  · rw [if_pos hev]
    split
    · rfl
    · split <;> rfl
  · rw [if_neg hev]
    split <;> rfl

@[simp] theorem State.event_posture (id sev origin : Nat) (d : Bytes) : (s.event id sev origin d).posture v = s.posture v := by
  unfold State.event
  rw [State.note_posture, State.stamped_posture]

@[simp] theorem State.eventU_posture (id origin : Nat) (d : Bytes) : (s.eventU id origin d).posture v = s.posture v :=
  s.event_posture v _ _ _ _

@[simp] theorem State.voidDraws_posture (also : Bool) (p : Nat → Bool) (status : Nat) :
    (s.voidDraws also p status).posture v = s.posture v := by
  unfold State.voidDraws
  refine foldl_keeps (p := (State.posture · v)) (fun s d => ?_) _ s
  exact s.stamped_posture v almanacIsl

/-- A fail-stop sets its flag and nothing else that a cause reads (R351). -/
theorem State.doFailStop_posture (cause : Nat) : (s.doFailStop cause).posture v = { s.posture v with failStop := true } := by
  unfold State.doFailStop
  by_cases hf : s.failStop = true
  · rw [if_pos hf]
    simp [State.posture, hf]
  · rw [if_neg hf, State.voidDraws_posture, State.eventU_posture]
    rfl

end

/-! The end of a request leaves its twin's posture. -/

section
variable (x : TwinSt)

theorem TwinSt.stopCharge_posture (now q i : Nat) : (x.stopCharge now q i).posture = x.posture := by
  unfold TwinSt.stopCharge
  split
  · split <;> rfl
  · rfl

theorem TwinSt.recharge_posture (isl now : Nat) : (x.recharge isl now).posture = x.posture := by
  unfold TwinSt.recharge
  dsimp only
  have hstop := foldl_keeps (p := TwinSt.posture)
    (f := fun (y : TwinSt) e => if x.executing isl = some (e.1, e.2.1) then y else y.stopCharge now e.1 e.2.1)
    (fun y e => by
      split
      · rfl
      · exact y.stopCharge_posture _ _ _) (x.onCore isl) x
  split <;> exact hstop

theorem TwinSt.wakeMem_posture (now : Nat) (ends : Cid → Ctx → Bool) : (x.wakeMem now ends).posture = x.posture := by
  unfold TwinSt.wakeMem
  refine foldl_keeps (p := TwinSt.posture) (fun y k => ?_) _ x
  exact TwinSt.recharge_posture _ _ _

theorem TwinSt.dropTasks_posture (now q : Nat) (sel : Nat → Bool) (wipe : Bool) :
    (x.dropTasks now q sel wipe).posture = x.posture := by
  unfold TwinSt.dropTasks
  dsimp only
  rw [foldl_keeps (p := TwinSt.posture) (f := fun (y : TwinSt) k => y.wakeSram now k) (fun y k => y.wakeMem_posture now _),
    foldl_keeps (p := TwinSt.posture) (f := fun (y : TwinSt) i => y.recharge i now) (fun y i => y.recharge_posture i now)]
  refine foldl_keeps (p := TwinSt.posture) (fun y i => ?_) _ x
  refine foldl_keeps (p := TwinSt.posture) (fun z e => ?_) _ y
  split
  · exact z.stopCharge_posture _ _ _
  · rfl

theorem TwinSt.applyFin_posture (q : Nat) : (x.applyFin q).posture = x.posture := by
  unfold TwinSt.applyFin
  split
  · split
    · split <;> rfl
    · rfl
  · rfl

theorem TwinSt.keepLog_posture (q : Nat) : (x.keepLog q).posture = x.posture := by
  unfold TwinSt.keepLog
  split
  · split <;> rfl
  · rfl

theorem TwinSt.stampEvs_posture (now l : Nat) (es : List EvReq) : (x.stampEvs now l es).2.posture = x.posture := by
  induction es generalizing x with
  | nil => rfl
  | cons e es ih => exact ih (x.stamped now l)

theorem TwinSt.stampEnd_posture (now q : Nat) (es : List EvReq) : (x.stampEnd now q es).2.posture = x.posture := by
  unfold TwinSt.stampEnd
  rw [TwinSt.stampEvs_posture]
  unfold TwinSt.taskDone
  split <;> rfl

theorem TwinSt.finish_posture (act : Bool) (now q : Nat) (e : EndRec) : (x.finish act now q e).posture = x.posture := by
  unfold TwinSt.finish
  split
  · split
    · rfl
    · next r _ _ =>
      dsimp only
      have hend : (((x.stampEnd now q e.evs).2.keepLog q).dropTasks now q (fun _ => true) false).posture = x.posture := by
        rw [TwinSt.dropTasks_posture, TwinSt.keepLog_posture, TwinSt.stampEnd_posture]
      refine Eq.trans ?_ hend
      change (if _ then _ else _ : TwinSt).posture = _
      split
      · rw [TwinSt.applyFin_posture]
        rfl
      · rfl
  · rfl

end

end Sys2Proof.Machine
end

section
/-! What a cause does: an active that gives up, a standby that leaves service, a module that stops, and a core retired with it
(R28, R337, R339, R347, R351, R436). -/

namespace Sys2Proof.Machine

/-! The departure of a standby. -/

/-- The posture of a twin that has left service for a cause (R347). -/
def TwinPosture.departed (x : TwinPosture) (now ops code isl : Nat) : TwinPosture :=
  let left := x.role = .active ∨ x.role = .healthy
  let d := if left then (x.departs.filter (fun o => decide (ops < o + opDay))) ++ [ops] else x.departs
  { role := if 3 ≤ d.length ∨ code = 0x0D then .offline else .degraded
    cause := code, causeIsl := isl, causeAt := now, inTest := true, giveUp := false, departs := d }

/-- A twin that departs at a stamp. -/
def TwinSt.departAt (x : TwinSt) (w : Twin) (now ops code isl : Nat) : TwinSt :=
  { x.depart w ops code isl with causeAt := now }

theorem TwinSt.departAt_posture (x : TwinSt) (w : Twin) (now ops code isl : Nat) :
    (x.departAt w now ops code isl).posture = x.posture.departed now ops code isl := rfl

/-- A twin that departs has no request left. -/
theorem TwinSt.departAt_reqs (x : TwinSt) (w : Twin) (now ops code isl : Nat) : (x.departAt w now ops code isl).reqs = [] := by
  refine foldl_keeps (p := TwinSt.reqs) (fun y i => ?_) (x.idle.units.map Prod.fst) x.idle
  rfl

section
variable (s : State) (v : Twin)

/-- A twin replaced in its own view. -/
theorem State.updTwin_posture_same (f : TwinSt → TwinSt) : (s.updTwin v f).posture v =
    { s.posture v with own := (f (s.twin v)).posture, reqs := (f (s.twin v)).reqs } := by
  cases v <;> rfl

@[simp] theorem State.mismatchEvent_posture (q comp row : Nat) : (s.mismatchEvent q comp row).posture v = s.posture v := by
  unfold State.mismatchEvent
  rw [State.eventU_posture]
  rfl

/-- A mismatch settled for the other twin. -/
theorem State.settleMismatch_posture (q row : Nat) : (s.settleMismatch (otherTwin v) q row).posture v = s.posture v := by
  unfold State.settleMismatch
  split
  · rfl
  · extract_lets u rr fx back
    rw [State.wakeTwin_posture, State.wakeTwin_posture, State.updOther_posture]
    · change (if _ then _ else u : State).posture v = _
      split
      · exact s.mismatchEvent_posture v _ _ _
      · exact s.mismatchEvent_posture v _ _ _
    · rfl

theorem State.releaseOwn_posture : (s.releaseOwn (otherTwin v)).posture v = s.posture v :=
  foldl_keeps (p := (State.posture · v)) (fun u q => u.settleMismatch_posture v q 2) _ s

/-- A request of the other twin ended. -/
theorem State.finish_posture (q : Nat) (e : EndRec) : (s.finish (otherTwin v) q e).posture v = s.posture v :=
  s.updOther_posture v (TwinSt.finish_posture _ _ _ _ _)

theorem State.deliverIn_posture (h : Hold) (b : Bytes) : (s.deliverIn (otherTwin v) h b).posture v = s.posture v := by
  unfold State.deliverIn
  extract_lets qs u
  refine foldl_keeps (p := (State.posture · v)) (fun y q => ?_) qs u
  split
  · exact y.finish_posture v q _
  · rfl

theorem State.abandonTests_posture : (s.abandonTests v).posture v = s.posture v :=
  foldl_keeps (p := (State.posture · v)) (fun u _ => u.deliverIn_posture v _ _) _ s

theorem State.noteOffline_posture (code isl : Nat) : (s.noteOffline v code isl).posture v = s.posture v := by
  unfold State.noteOffline
  split
  · exact s.eventU_posture v _ _ _
  · rfl

end

/-- A healthy twin that is degraded departs, and nothing else that a cause reads changes. -/
theorem State.degrade_posture {s : State} {v : Twin} (hr : (s.twin v).role = .healthy) (code isl : Nat) :
    (s.degrade v code isl).posture v =
      { s.posture v with own := (s.twin v).posture.departed s.now s.opSeconds code isl, reqs := [] } := by
  have hrel := s.releaseOwn_posture v
  have hnow : (s.releaseOwn (otherTwin v)).now = s.now := congrArg Posture.now hrel
  have hops : (s.releaseOwn (otherTwin v)).opSeconds = s.opSeconds := congrArg Posture.ops hrel
  have hown : ((s.releaseOwn (otherTwin v)).twin v).posture = (s.twin v).posture := congrArg Posture.own hrel
  unfold State.degrade
  rw [if_neg (by simp [hr])]
  extract_lets u u1 u2
  rw [State.abandonTests_posture, State.roleReport_posture, State.noteOffline_posture, State.eventU_posture]
  change (u.updTwin v (fun x => x.departAt v u.now u.opSeconds code isl)).posture v = _
  rw [State.updTwin_posture_same, TwinSt.departAt_posture, TwinSt.departAt_reqs, hrel, hown, hnow, hops]

/-! Changes within a twin. -/

/-- A change within twin `w`: its posture and requests stand, and the other twin is as before. -/
def Inside (w : Twin) (s t : State) : Prop := t.posture w = s.posture w ∧ t.twin (otherTwin w) = s.twin (otherTwin w)

theorem Inside.rfl {w : Twin} {s : State} : Inside w s s := ⟨Eq.refl _, Eq.refl _⟩

theorem Inside.trans {w : Twin} {s t u : State} (h : Inside w s t) (k : Inside w t u) : Inside w s u :=
  ⟨k.1.trans h.1, k.2.trans h.2⟩

theorem Inside.updTwin (s : State) (w : Twin) {f : TwinSt → TwinSt} (hf : (f (s.twin w)).posture = (s.twin w).posture)
    (hr : (f (s.twin w)).reqs = (s.twin w).reqs) : Inside w s (s.updTwin w f) :=
  ⟨s.updTwin_posture w w hf hr, s.other_setTwin w _⟩

@[simp] theorem State.note_twin (s : State) (e : EvReq) (w : Twin) : (s.note e).twin w = s.twin w := by
  have h : (s.note e).twinA = s.twinA ∧ (s.note e).twinB = s.twinB := by
    unfold State.note
    by_cases hev : e.sev = sevEvid
    · rw [if_pos hev]
      split
      · exact ⟨Eq.refl _, Eq.refl _⟩
      · split <;> exact ⟨Eq.refl _, Eq.refl _⟩
    · rw [if_neg hev]
      split <;> exact ⟨Eq.refl _, Eq.refl _⟩
  cases w
  · exact h.1
  · exact h.2

/-- A record that an island of a twin stamps. -/
theorem Inside.event {s : State} {w : Twin} {id origin : Nat} {d : Bytes} (h : islandTwin (s.issuer id origin d) = some w)
    (sev : Nat) : Inside w s (s.event id sev origin d) := by
  refine ⟨s.event_posture w id sev origin d, ?_⟩
  unfold State.event State.stamped
  dsimp only
  rw [State.note_twin, h]
  exact s.other_setTwin w _

/-- The islands of a twin are numbered below 412 (Table 1-6). -/
theorem islandTwin_eq_some {isl : Nat} {w : Twin} :
    islandTwin isl = some w ↔ twinBase w ≤ isl ∧ isl < twinBase w + 206 := by
  unfold islandTwin
  cases w <;> (simp only [twinBase]; split)
  · simp; omega
  · split <;> simp <;> omega
  · simp; omega
  · split <;> simp <;> omega

theorem islandTwin_powerManager {isl : Nat} {w : Twin} (h : islandTwin isl = some w) :
    islandTwin (powerManager isl) = some w := by
  rw [islandTwin_eq_some] at h ⊢
  unfold powerManager
  cases w
  · simp only [twinBase] at h ⊢
    rw [if_pos (by omega)]
    omega
  · simp only [twinBase] at h ⊢
    rw [if_neg (by omega), if_pos (by omega)]
    omega

/-- An island of a twin that may not stamp leaves it to the power manager of its die. -/
theorem islandTwin_awakeOr (s : State) {isl : Nat} {w : Twin} (h : islandTwin isl = some w) :
    islandTwin (if 425 < isl then 418 else if s.awake isl then isl else powerManager isl) = some w := by
  have hlt : ¬ 425 < isl := by
    have hr := (islandTwin_eq_some.mp h).2
    cases w <;> simp only [twinBase] at hr <;> omega
  rw [if_neg hlt]
  split
  · exact h
  · exact islandTwin_powerManager h

/-- A wear record of a unit is stamped in its twin (R33, R449). -/
theorem islandTwin_issuer_wear (s : State) {isl : Nat} {w : Twin} (h : islandTwin isl = some w) (d : Bytes) :
    islandTwin (s.issuer (0xC1AC + isl) (islandOrigin isl) d) = some w := by
  have hlt : isl < 412 := by
    have hr := (islandTwin_eq_some.mp h).2
    cases w <;> simp only [twinBase] at hr <;> omega
  have hcls : (0xC1AC + isl) / 4096 = 12 := by omega
  have hmod : (0xC1AC + isl) % 4096 = 428 + isl := by omega
  have horigin : islandOrigin isl = twinCode w := by simp [islandOrigin, h]
  unfold State.issuer
  rw [hcls, hmod, horigin]
  refine islandTwin_awakeOr s ?_
  have hown : islandTwin (if 428 + isl < 428 then 428 + isl else 428 + isl - 428) = some w := by
    rwa [if_neg (by omega), Nat.add_sub_cancel_left]
  cases w
  · exact hown
  · exact hown

/-- The record of a relinquish is stamped in its twin (R33, R339). -/
theorem islandTwin_issuer_relinquish (s : State) (w : Twin) (d : Bytes) :
    islandTwin (s.issuer 0x6001 (twinCode w) d) = some w := by
  unfold State.issuer
  refine islandTwin_awakeOr s ?_
  have hown : ∀ n, n / 206 = twinBase w / 206 → islandTwin n = some w := by
    intro n hn
    rw [islandTwin_eq_some]
    cases w <;> simp only [twinBase] at hn ⊢ <;> omega
  cases w
  · change islandTwin (if true = true ∧ fld d 2 2 / 206 = 0 / 206 then fld d 2 2 else 196) = some .a
    split
    · next h => exact hown _ h.2
    · rfl
  · change islandTwin (if true = true ∧ fld d 2 2 / 206 = 206 / 206 then fld d 2 2 else 402) = some .b
    split
    · next h => exact hown _ h.2
    · rfl

/-! A cause that is acted on already. -/

/-- Twin `w` is acted on already for a cause of an island not above `isl`, or the module has stopped: the active has given up, or has
no HEALTHY standby and the module has stopped; a standby is out of service. -/
def Posture.ActedOn (p : Posture) (w : Twin) (isl : Nat) : Prop :=
  (p.active = some w ∧ p.own.giveUp = true ∧ p.own.causeIsl ≤ isl) ∨
  (p.active = some w ∧ p.own.giveUp = false ∧ p.other.role ≠ .healthy ∧ p.failStop = true) ∨
  (p.active = some (otherTwin w) ∧ p.other.giveUp = false ∧ (p.own.role = .degraded ∨ p.own.role = .offline) ∧
    p.own.causeIsl ≤ isl)

/-- A cause no lower than the one that a twin is acted on for changes nothing (R28). -/
theorem State.firstCause_of_le {s : State} {w : Twin} {isl : Nat} (h : (s.twin w).causeIsl ≤ isl) (code : Nat) :
    s.firstCause w code isl = s := by
  unfold State.firstCause
  exact if_pos (.inr h)

/-- A cause in the active is its own (R337). -/
theorem State.cause_active {s : State} {w : Twin} (ha : s.active = some w) (code isl : Nat) :
    s.cause w code isl = s.giveUp w code isl := if_pos ha

/-- Without a HEALTHY standby a cause in the active stops the module (R337). -/
theorem State.cause_stops {s : State} {w : Twin} (ha : s.active = some w) (hg : (s.twin w).giveUp = false)
    (ho : (s.twin (otherTwin w)).role ≠ .healthy) (code isl : Nat) : s.cause w code isl = s.doFailStop code := by
  have hnone : s.healthyStandby.isNone = true := by simp [State.healthyStandby, ha, ho]
  rw [State.cause_active ha]
  unfold State.giveUp
  rw [if_neg (by simp [hg]), if_pos (.inl hnone)]

/-- With the other twin active and not giving up, a cause degrades a twin (R337). -/
theorem State.cause_degrades {s : State} {w : Twin} (ha : s.active = some (otherTwin w))
    (hg : (s.twin (otherTwin w)).giveUp = false) (code isl : Nat) : s.cause w code isl = s.degrade w code isl := by
  unfold State.cause
  simp [ha, hg, otherTwin_ne]

theorem State.cause_of_actedOn {s : State} {w : Twin} {isl : Nat} (h : (s.posture w).ActedOn w isl) (code : Nat) :
    s.cause w code isl = s := by
  obtain ⟨ha, hg, hi⟩ | ⟨ha, hg, ho, hf⟩ | ⟨ha, hg, hr, hi⟩ := h
  · exact (State.cause_active ha code isl).trans ((if_pos hg).trans (State.firstCause_of_le hi code))
  · rw [State.cause_stops ha hg ho]
    exact if_pos hf
  · rw [State.cause_degrades ha hg]
    exact (if_pos hr).trans (State.firstCause_of_le hi code)

/-! A core retired with the cause. -/

section
variable (s : State) (w : Twin) (isl : Nat)

theorem Inside.leaveActive (role : URole) (reason : Nat) : Inside w s (s.leaveActive w isl role reason) := by
  have hmove : ∀ x : TwinSt, (x.moveOps w isl).posture = x.posture ∧ (x.moveOps w isl).reqs = x.reqs := by
    intro x
    unfold TwinSt.moveOps
    split <;> exact ⟨Eq.refl _, Eq.refl _⟩
  unfold State.leaveActive
  refine Inside.updTwin s w ?_ ?_
  · dsimp only
    split
    · exact (hmove _).1
    · exact Eq.refl _
  · dsimp only
    split
    · exact (hmove _).2
    · exact Eq.refl _

variable {w isl} (hw : islandTwin isl = some w)
include hw

theorem Inside.wearEvent (kind reason unit ageing b67 spares : Nat) :
    Inside w s (s.wearEvent isl kind reason unit ageing b67 spares) :=
  Inside.event (islandTwin_issuer_wear s hw _) _

theorem Inside.fillPlace (reason : Nat) (left : Bool) : Inside w s (s.fillPlace w isl reason left) := by
  unfold State.fillPlace
  dsimp only
  split
  · exact .rfl
  · split
    · exact .updTwin s w (Eq.refl _) (Eq.refl _)
    · split
      · exact .wearEvent s hw _ _ _ _ _ _
      · exact .rfl

/-- A unit retired in a twin that is acted on already. -/
theorem Inside.retire (ha : (s.posture w).ActedOn w isl) (reason ageing : Nat) : Inside w s (s.retire isl reason ageing) := by
  unfold State.retire
  rw [hw]
  dsimp only
  split
  · exact .rfl
  · generalize hu : State.wearEvent _ isl 0x22 reason _ ageing 0 _ = u
    have hin : Inside w s u := by
      rw [← hu]
      exact ((Inside.leaveActive s w isl _ _).trans (.fillPlace _ hw _ _)).trans (.wearEvent _ hw _ _ _ _ _ _)
    generalize hv : (if isEngine isl = true then _ else u : State) = v
    have hcount : Inside w s v := by
      rw [← hv]
      split
      · exact hin.trans (.updTwin u w (Eq.refl _) (Eq.refl _))
      · exact hin
    have hidle : ∀ code, v.cause w code isl = v := fun code => State.cause_of_actedOn (by rwa [hcount.1]) code
    rw [hidle, hidle]
    split
    · exact hcount
    · split <;> exact hcount

end

theorem Inside.retireIf {s : State} {w : Twin} {isl : Nat} (ha : (s.posture w).ActedOn w isl) (p : Bool) :
    Inside w s (s.retireIf (p && islandTwin isl == some w) isl) := by
  unfold State.retireIf
  split
  · next h => exact .retire s (eq_of_beq (Bool.and_eq_true_iff.mp h).2) ha _ _
  · exact .rfl

/-! The active gives up. -/

/-- The active with a HEALTHY standby asserts relinquish, and leaves the standby as it is (R337, R339). -/
theorem State.giveUp_asserts {s : State} {w : Twin} (ha : s.active = some w) (hg : (s.twin w).giveUp = false)
    (ho : (s.twin (otherTwin w)).role = .healthy) (hsw : s.sw.switching = false) (code isl : Nat) :
    (s.cause w code isl).posture w = { s.posture w with
      sw := { s.sw with detected := s.now }
      own := { (s.twin w).posture with giveUp := true, cause := code, causeIsl := isl, causeAt := s.now } } ∧
    (s.cause w code isl).twin (otherTwin w) = s.twin (otherTwin w) := by
  have hstandby : s.healthyStandby = some (otherTwin w) := by simp [State.healthyStandby, ha, ho]
  have hno : ¬ (s.healthyStandby.isNone = true ∨ s.sw.switching = true) := by simp [hstandby, hsw]
  rw [State.cause_active ha]
  unfold State.giveUp
  rw [if_neg (by simp [hg]), if_neg hno]
  extract_lets u sw health u1
  obtain ⟨hp, ht⟩ := Inside.event (islandTwin_issuer_relinquish u1 w (toLe 2 code ++ toLe 2 isl)) (Config.eventSev 0x6001).toNat
  refine ⟨hp.trans ?_, ht.trans ?_⟩
  · cases w <;> rfl
  · cases w <;> rfl

end Sys2Proof.Machine
end

section
/-! O33: what a cause does to a twin, and when the module stops. -/

namespace Sys2Proof.Machine

/-- A twin in service executes outside SCRAPPED (Table 14-1). -/
theorem State.executes_of_role {s : State} {w : Twin} (hl : s.lc ≠ .scrapped)
    (hr : (s.twin w).role = .active ∨ (s.twin w).role = .healthy) : s.executes w = true := by
  unfold State.executes
  obtain hr | hr := hr <;> simp [hl, hr]

/-- What an event makes of the state at its stamp settles. -/
theorem ev_of_eq {t : Nat} {f : State → State} {s v : State} (h : f (s.at t) = v) : ev t f s = .next (settle s v) :=
  congrArg (fun v => Host.Outcome.next (settle s v)) h

/-! A standby that leaves service. -/

/-- Twin `o`, which stood as `x` before, has left service for a cause, and the active `w` serves on (R337, R347). -/
def LeftService (x : TwinSt) (w o : Twin) (ops code isl : Nat) (t : State) : Prop :=
  (t.twin o).cause = code ∧ (t.twin o).causeIsl = isl ∧ (t.twin o).reqs = [] ∧ (t.twin o).inTest = true ∧
  t.active = some w ∧ t.failStop = false ∧
  (t.twin o).role = (if 2 ≤ (x.departs.filter (fun d => decide (ops < d + opDay))).length ∨ code = 0x0D
    then .offline else .degraded)

theorem TwinPosture.departed_role {x : TwinPosture} (hr : x.role = .healthy) (now ops code isl : Nat) :
    (x.departed now ops code isl).role =
      if 2 ≤ (x.departs.filter (fun d => decide (ops < d + opDay))).length ∨ code = 0x0D then .offline else .degraded := by
  simp [TwinPosture.departed, hr]

/-- The module serves with twin `w` active and not giving up, and its standby HEALTHY. -/
structure Paired (s : State) (w : Twin) : Prop where
  active  : s.active = some w
  serving : s.failStop = false
  holding : (s.twin w).giveUp = false
  healthy : (s.twin (otherTwin w)).role = .healthy

section
variable {s u : State} {t : Nat} {w : Twin}

theorem Paired.at (h : Paired s w) (t : Nat) : Paired (s.at t) w :=
  ⟨h.active, h.serving, by simpa using h.holding, by simpa using h.healthy⟩

/-- Nothing but the posture decides. -/
theorem Paired.congr (h : Paired s w) (hu : u.posture (otherTwin w) = s.posture (otherTwin w)) : Paired u w := by
  have hg : (u.twin (otherTwin (otherTwin w))).giveUp = (s.twin (otherTwin (otherTwin w))).giveUp :=
    congrArg (fun p : Posture => p.other.giveUp) hu
  rw [otherTwin_otherTwin] at hg
  exact ⟨(congrArg Posture.active hu).trans h.active, (congrArg Posture.failStop hu).trans h.serving, hg.trans h.holding,
    (congrArg (fun p : Posture => p.own.role) hu).trans h.healthy⟩

/-- The posture that a cause in the standby leaves. -/
theorem Paired.cause_posture (h : Paired u w) (code isl : Nat) : (u.cause (otherTwin w) code isl).posture (otherTwin w) =
    { u.posture (otherTwin w) with
      own := (u.twin (otherTwin w)).posture.departed u.now u.opSeconds code isl, reqs := [] } := by
  rw [State.cause_degrades (by simpa using h.active) (by simpa using h.holding)]
  exact State.degrade_posture h.healthy code isl

/-- A state of the posture that a cause in the standby leaves. -/
theorem Paired.left {v : State} (h : Paired u w) {code isl : Nat}
    (hv : v.posture (otherTwin w) = (u.cause (otherTwin w) code isl).posture (otherTwin w)) :
    LeftService (u.twin (otherTwin w)) w (otherTwin w) u.opSeconds code isl v := by
  rw [h.cause_posture] at hv
  have hown : (v.twin (otherTwin w)).posture = _ := congrArg Posture.own hv
  exact ⟨congrArg TwinPosture.cause hown, congrArg TwinPosture.causeIsl hown, congrArg Posture.reqs hv,
    congrArg TwinPosture.inTest hown, (congrArg Posture.active hv).trans h.active,
    (congrArg Posture.failStop hv).trans h.serving,
    (congrArg TwinPosture.role hown).trans (TwinPosture.departed_role h.healthy _ _ _ _)⟩

/-- A standby that has left service is acted on. -/
theorem Paired.actedOn (h : Paired u w) (code isl : Nat) :
    ((u.cause (otherTwin w) code isl).posture (otherTwin w)).ActedOn (otherTwin w) isl := by
  rw [h.cause_posture]
  refine .inr (.inr ⟨by simpa [State.posture] using h.active, by simpa [State.posture, TwinSt.posture] using h.holding, ?_,
    Nat.le_refl _⟩)
  rw [TwinPosture.departed_role h.healthy]
  split
  · exact .inr rfl
  · exact .inl rfl

/-- A command whose event is a cause in the standby: what it changes before the cause leaves the posture, and so does what it
changes after it. -/
theorem Paired.leaves {i : Instr} {v : State} (h : Paired s w) (code isl : Nat) (hexec : exec i s = .next (settle s v))
    (hu : u.posture (otherTwin w) = (s.at t).posture (otherTwin w))
    (hv : v.posture (otherTwin w) = (u.cause (otherTwin w) code isl).posture (otherTwin w)) :
    Completes i s (LeftService (s.twin (otherTwin w)) w (otherTwin w) (s.at t).opSeconds code isl) := by
  refine ⟨_, hexec, ?_⟩
  have hleft := ((h.at t).congr hu).left (v := settle s v) hv
  have hdeparts : (u.twin (otherTwin w)).departs = (s.twin (otherTwin w)).departs :=
    (congrArg (fun p : Posture => p.own.departs) hu).trans (by rw [State.posture, State.at_twin]; rfl)
  have hops : u.opSeconds = (s.at t).opSeconds := congrArg Posture.ops hu
  unfold LeftService at hleft ⊢
  rwa [hdeparts, hops] at hleft

end

/-! The causes of a standby. -/

section
variable {s : State} {t : Nat} {w : Twin}

/-- The standby's digest comes late (R336). -/
theorem standbyDigestLate_leaves {q : Nat} {rr : RReq} {r : Req} {e : EndRec} (h : Paired s w)
    (hrr : Tbl.find? s.rreqs q = some rr) (hr : Tbl.find? (s.twin w).reqs q = some r) (he : r.fin = some e)
    (hp : r.peerDig = none) (hc : r.compared = false) (hto : rr.to (otherTwin w) = true)
    (hlate : e.stamp + max 80000 (r.ran / 4) ≤ (s.at t).now) :
    Completes (.standbyDigestLate t q) s
      (LeftService (s.twin (otherTwin w)) w (otherTwin w) (s.at t).opSeconds 7 (digestIsland (otherTwin w))) := by
  have hmust : (s.at t).mustCompare w rr = true := by simp [State.mustCompare, h.healthy, hto]
  refine h.leaves (t := t) 7 _ ?_ (u := (s.at t).updTwin w (fun x =>
    { x with ctr := { x.ctr with digestLate := satAdd 32 x.ctr.digestLate 1 } })) (State.updTwin_posture _ _ _ rfl rfl) rfl
  change execStandbyDigestLate t q s = _
  unfold execStandbyDigestLate ev
  simp [h.active, h.serving, hrr, hr, he, hp, hc, hmust, hlate]

/-- The standby's batches stay away (R338). -/
theorem batchesMissing_leaves (h : Paired s w) (hlate : (s.twin (otherTwin w)).lastBatch + 3 ≤ epochOf (s.at t).now) :
    Completes (.batchesMissing t (otherTwin w)) s
      (LeftService (s.twin (otherTwin w)) w (otherTwin w) (s.at t).opSeconds 0x0A (linkIsland (otherTwin w))) := by
  refine h.leaves (t := t) 0x0A _ ?_ (u := s.at t) rfl rfl
  exact ev_of_eq (if_pos (by simpa [TwinSt.exchanges, h.healthy, h.serving] using hlate))

/-- A cause found in a twin that executes (R337): its counts, the cause, and the retirement of a core. -/
theorem exec_relinquish {v : Twin} {c isl : Nat} (hup : s.boot.up = true) (hf : s.failStop = false) (hx : s.executes v = true)
    (h0 : c ≠ 0) (hc : c ≤ 13) (hact : s.active = some v → c ≠ 7 ∧ c ≠ 9) :
    ∃ u, Inside v (s.at t) u ∧ exec (.relinquish t v c isl) s =
      .next (settle s ((u.cause v c isl).retireIf ((c == 1 && isCore isl) && islandTwin isl == some v) isl)) := by
  have hgo : ¬ (c = 0 ∨ 13 < c ∨ ¬ ((s.at t).executes v = true ∨ ((s.at t).twin v).role = .booting) ∨
      (s.at t).failStop = true ∨ ¬ (s.at t).boot.up = true ∨ ((c = 7 ∨ c = 9) ∧ (s.at t).isActive v = true)) := by
    rintro (hz | hz | hz | hz | hz | ⟨h79, hz⟩)
    · exact h0 hz
    · omega
    · exact hz (.inl ((s.at_executes t v).trans hx))
    · exact Bool.false_ne_true (hf.symm.trans hz)
    · exact hz hup
    · have := hact (eq_of_beq hz)
      omega
  refine ⟨(s.at t).updTwin v (fun x => { x with ctr := { x.ctr with
      eccUnc := satAdd 32 x.ctr.eccUnc (b2n (c == 1))
      watchdog := satAdd 32 x.ctr.watchdog (if c = 3 then 4 else 0) } }), Inside.updTwin _ v rfl rfl, ?_⟩
  change execRelinquish t v c isl s = _
  refine ev_of_eq ?_
  exact if_neg hgo

/-- A cause found in the standby (R337). -/
theorem relinquish_leaves {c isl : Nat} (h : Paired s w) (hup : s.boot.up = true) (hl : s.lc ≠ .scrapped) (h0 : c ≠ 0)
    (hc : c ≤ 13) : Completes (.relinquish t (otherTwin w) c isl) s
      (LeftService (s.twin (otherTwin w)) w (otherTwin w) (s.at t).opSeconds c isl) := by
  have hact : s.active = some (otherTwin w) → c ≠ 7 ∧ c ≠ 9 := fun ha =>
    absurd (Option.some.inj (ha.symm.trans h.active)) (otherTwin_ne w)
  obtain ⟨u, hu, hexec⟩ := exec_relinquish (t := t) (isl := isl) hup h.serving (State.executes_of_role hl (.inr h.healthy)) h0 hc
    hact
  exact h.leaves (t := t) c isl hexec hu.1 (Inside.retireIf (((h.at t).congr hu.1).actedOn c isl) _).1

/-! A cause in the active. -/

/-- With a HEALTHY standby the active gives up, and the standby is as it was (R337, R339). -/
theorem relinquish_asserts {c isl : Nat} (h : Paired s w) (hup : s.boot.up = true) (hl : s.lc ≠ .scrapped)
    (hsw : s.sw.switching = false) (h0 : c ≠ 0) (hc : c ≤ 13) (h7 : c ≠ 7) (h9 : c ≠ 9) (hr : (s.twin w).role = .active) :
    Completes (.relinquish t w c isl) s (fun t' => (t'.twin w).giveUp = true ∧ (t'.twin w).cause = c ∧
      t'.sw.detected = (s.at t).now ∧ t'.failStop = false ∧ t'.twin (otherTwin w) = s.twin (otherTwin w)) := by
  obtain ⟨u, ⟨hpost, hut⟩, hexec⟩ := exec_relinquish (t := t) (isl := isl) hup h.serving
    (State.executes_of_role hl (.inl hr)) h0 hc (fun _ => ⟨h7, h9⟩)
  have ha : u.active = some w := (congrArg Posture.active hpost).trans h.active
  have hg : (u.twin w).giveUp = false :=
    (congrArg (fun p : Posture => p.own.giveUp) hpost).trans (by simpa [State.posture, TwinSt.posture] using h.holding)
  have husw : u.sw = s.sw := congrArg Posture.sw hpost
  have hother : u.twin (otherTwin w) = s.twin (otherTwin w) := hut.trans (State.at_twin s t _)
  obtain ⟨hp, ho⟩ := State.giveUp_asserts ha hg (hother ▸ h.healthy) (husw ▸ hsw) c isl
  have hacted : ((u.cause w c isl).posture w).ActedOn w isl := by
    rw [hp]
    exact .inl ⟨ha, rfl, Nat.le_refl _⟩
  obtain ⟨hkeep, hbeside⟩ := Inside.retireIf hacted (c == 1 && isCore isl)
  have hfin := hkeep.trans hp
  have hown := congrArg Posture.own hfin
  refine ⟨_, hexec, ?_⟩
  simp only [settle_twin, settle_sw, settle_failStop]
  exact ⟨congrArg TwinPosture.giveUp hown, congrArg TwinPosture.cause hown,
    (congrArg (fun p : Posture => p.sw.detected) hfin).trans (congrArg Posture.now hpost),
    (congrArg Posture.failStop hfin).trans ((congrArg Posture.failStop hpost).trans h.serving), (hbeside.trans ho).trans hother⟩

/-- Without a HEALTHY standby the module stops (R337, R351). -/
theorem relinquish_stops {c isl : Nat} (hup : s.boot.up = true) (hf : s.failStop = false) (ha : s.active = some w)
    (hg : (s.twin w).giveUp = false) (hl : s.lc ≠ .scrapped) (ho : (s.twin (otherTwin w)).role ≠ .healthy) (h0 : c ≠ 0)
    (hc : c ≤ 13) (h7 : c ≠ 7) (h9 : c ≠ 9) (hr : (s.twin w).role = .active) :
    Completes (.relinquish t w c isl) s (fun t' => t'.failStop = true) := by
  obtain ⟨u, ⟨hpost, hut⟩, hexec⟩ := exec_relinquish (t := t) (isl := isl) hup hf (State.executes_of_role hl (.inl hr)) h0 hc
    (fun _ => ⟨h7, h9⟩)
  have hua : u.active = some w := (congrArg Posture.active hpost).trans ha
  have hug : (u.twin w).giveUp = false :=
    (congrArg (fun p : Posture => p.own.giveUp) hpost).trans (by simpa [State.posture, TwinSt.posture] using hg)
  have huo : (u.twin (otherTwin w)).role ≠ .healthy := by rwa [hut, State.at_twin]
  have hp : (u.cause w c isl).posture w = { u.posture w with failStop := true } := by
    rw [State.cause_stops hua hug huo, State.doFailStop_posture]
  have hacted : ((u.cause w c isl).posture w).ActedOn w isl := by
    rw [hp]
    exact .inr (.inl ⟨hua, hug, huo, rfl⟩)
  exact ⟨_, hexec, congrArg Posture.failStop ((Inside.retireIf hacted (c == 1 && isCore isl)).1.trans hp)⟩

/-! The copies of a Relay function. -/

/-- The first copy of a function that disagrees is retired (R11). -/
theorem relayCopyDisagree_retires {f c : Nat} (hup : s.boot.up = true) (hf : s.failStop = false) (h1 : 1 ≤ f) (h5 : f ≤ 5)
    (hc : c ≤ 2) (hgone : Tbl.getD s.tmr.retired f [] = []) : Completes (.relayCopyDisagree t f c) s (fun t' =>
      Tbl.getD t'.tmr.retired f [] = [c] ∧ t'.failStop = false) := by
  have hexec : exec (.relayCopyDisagree t f c) s = .next (settle s (({ s.at t with
      tmr := { s.tmr with retired := Tbl.put s.tmr.retired f [c] } } : State).event 0x600C sevEvid 3 [byte f, byte c])) := by
    change execRelayCopyDisagree t f c s = _
    unfold execRelayCopyDisagree ev
    have hgo : ¬ (f = 0 ∨ 5 < f ∨ 2 < c ∨ ([] : List Nat).contains c = true ∨ ¬ s.boot.up = true) := by
      simp [hup]; omega
    simp only [State.at_tmr, State.at_boot, hgone, if_neg hgo, List.isEmpty_nil, if_true]
  refine ⟨_, hexec, ?_⟩
  have hp := State.event_posture { s.at t with tmr := { s.tmr with retired := Tbl.put s.tmr.retired f [c] } } .a 0x600C sevEvid 3
    [byte f, byte c]
  constructor
  · exact (congrArg (fun p : Posture => Tbl.getD p.tmr.retired f []) hp).trans (Tbl.getD_put_same _ _ _ _)
  · exact (congrArg Posture.failStop hp).trans hf

/-- A disagreement of the two copies left stops the module (R11). -/
theorem relayCopyDisagree_stops {f c k : Nat} (hup : s.boot.up = true) (h1 : 1 ≤ f) (h5 : f ≤ 5) (hc : c ≤ 2)
    (hgone : Tbl.getD s.tmr.retired f [] = [k]) (hk : k ≠ c) : Completes (.relayCopyDisagree t f c) s (fun t' =>
      t'.failStop = true ∧ t'.tmr.failed = s.tmr.failed ++ [f]) := by
  have hexec : exec (.relayCopyDisagree t f c) s = .next (settle s (({ s.at t with
      tmr := { s.tmr with failed := s.tmr.failed ++ [f] } } : State).doFailStop 0)) := by
    change execRelayCopyDisagree t f c s = _
    unfold execRelayCopyDisagree ev
    have hgo : ¬ (f = 0 ∨ 5 < f ∨ 2 < c ∨ [k].contains c = true ∨ ¬ s.boot.up = true) := by
      simp [hup, hk.symm]; omega
    simp only [State.at_tmr, State.at_boot, hgone, if_neg hgo, List.isEmpty_cons, Bool.false_eq_true, if_false]
  refine ⟨_, hexec, ?_⟩
  have hp := State.doFailStop_posture { s.at t with tmr := { s.tmr with failed := s.tmr.failed ++ [f] } } .a 0
  exact ⟨congrArg Posture.failStop hp, congrArg (fun p : Posture => p.tmr.failed) hp⟩

/-! The discipline pulse. -/

/-- What a pulse notes of the counters of awake islands, and of the domains that wait for one (R24 to R26). -/
def State.pulsed (s : State) (l : List (Nat × Int)) : State :=
  { s with
    offs := pulseOffs none s.now s.offs l
    twinA := { s.twinA with offs := pulseOffs (some .a) s.now s.twinA.offs l }
    twinB := { s.twinB with offs := pulseOffs (some .b) s.now s.twinB.offs l }
    power := { s.power with domains := s.power.domains.map (fun (d : Nat × Domain) => (d.1, d.2.pulsed s.now)) } }

/-- The cause of an island whose counter is off by more than 4 units (R26). -/
def State.clockCause (s : State) (i : Nat) : State :=
  match islandTwin i with
  | some w => if s.executes w then s.cause w 0x05 i else s
  | none => s

/-- The islands that a pulse finds off by more than 4 units, the lowest first (R28). -/
def farIslands (l : List (Nat × Int)) : List Nat :=
  rising ((l.filter (fun p => decide (4 < p.2.natAbs))).map Prod.fst)

/-- The offsets of a pulse that count: those of disciplined islands that are awake. -/
def State.heard (s : State) (offs : List (Nat × Int)) : List (Nat × Int) :=
  offs.filter (fun p => decide (p.1 < 426) && s.awake p.1)

theorem exec_disciplinePulse {offs : List (Nat × Int)} (hup : s.boot.up = true) (ht : (s.at t).now % 4000 = 0) :
    exec (.disciplinePulse t offs) s =
      .next (settle s ((farIslands (s.heard offs)).foldl State.clockCause ((s.at t).pulsed (s.heard offs)))) := by
  have hgo : ¬ ((s.at t).now % 4000 ≠ 0 ∨ ¬ (s.at t).boot.up = true) := by simp [hup, ht]
  change execDisciplinePulse t offs s = _
  refine ev_of_eq ?_
  exact if_neg hgo

/-- A pulse that finds no counter off by more than 4 units is no cause. -/
theorem farIslands_of_near {l : List (Nat × Int)} (h : ∀ p ∈ l, p.2.natAbs ≤ 4) : farIslands l = [] := by
  have hnone : l.filter (fun p => decide (4 < p.2.natAbs)) = [] :=
    List.filter_eq_nil_iff.mpr fun p hp => by simpa using h p hp
  simp [farIslands, hnone, rising]

theorem State.heard_near {offs : List (Nat × Int)} (h : ∀ p ∈ offs, p.2.natAbs ≤ 4) :
    ∀ p ∈ s.heard offs, p.2.natAbs ≤ 4 := fun p hp => h p ((List.mem_filter.mp hp).1)

theorem State.pulsed_posture (l : List (Nat × Int)) (v : Twin) : (s.pulsed l).posture v = s.posture v := by
  cases v <;> rfl

/-- An awake island of a twin is heard. -/
theorem State.heard_cons {i : Nat} {d : Int} {v : Twin} (hi : islandTwin i = some v) (ha : s.awake i = true)
    (l : List (Nat × Int)) : s.heard ((i, d) :: l) = (i, d) :: s.heard l := by
  have hlt : i < 426 := by
    have hr := (islandTwin_eq_some.mp hi).2
    cases v <;> simp only [twinBase] at hr <;> omega
  simp [State.heard, hlt, ha]

theorem farIslands_one {i : Nat} {d : Int} (hd : 4 < d.natAbs) : farIslands [(i, d)] = [i] := by
  simp [farIslands, hd, rising]

theorem farIslands_two {i j : Nat} {d f : Int} (hij : i < j) (hd : 4 < d.natAbs) (hf : 4 < f.natAbs) :
    farIslands [(j, f), (i, d)] = [i, j] := by
  have hle : ¬ j ≤ i := Nat.not_le.mpr hij
  simp [farIslands, hd, hf, rising, List.mergeSort, List.MergeSort.Internal.splitInTwo, hle]

/-- A counter of the standby that is off degrades it (R26). -/
theorem Paired.clockCause (h : Paired s w) (hl : s.lc ≠ .scrapped) {i : Nat} (hi : islandTwin i = some (otherTwin w)) :
    s.clockCause i = s.cause (otherTwin w) 0x05 i := by
  unfold State.clockCause
  rw [hi]
  exact if_pos (State.executes_of_role hl (.inr h.healthy))

/-- A twin out of service executes nothing, and has no more clock causes. -/
theorem State.clockCause_of_left {x : TwinSt} {o : Twin} {ops code isl j : Nat} (hj : islandTwin j = some o)
    (h : LeftService x w o ops code isl s) : s.clockCause j = s := by
  obtain ⟨-, -, -, -, -, -, hrole⟩ := h
  have hout : (s.twin o).role = .offline ∨ (s.twin o).role = .degraded := by
    rw [hrole]
    split
    · exact .inl rfl
    · exact .inr rfl
  have hx : s.executes o = false := by
    unfold State.executes
    obtain hr | hr := hout <;> simp [hr]
  unfold State.clockCause
  rw [hj]
  simp [hx]

theorem State.clockCauses_of_left {x : TwinSt} {o : Twin} {ops code isl : Nat} {js : List Nat}
    (h : LeftService x w o ops code isl s) (hjs : ∀ j ∈ js, islandTwin j = some o) : js.foldl State.clockCause s = s := by
  induction js with
  | nil => rfl
  | cons j js ih =>
    rw [List.foldl_cons, State.clockCause_of_left (hjs j List.mem_cons_self) h]
    exact ih fun k hk => hjs k (List.mem_cons_of_mem j hk)

/-- A pulse that finds the standby's islands off, `i` the lowest (R26, R28). -/
theorem disciplinePulse_leaves {offs : List (Nat × Int)} {i : Nat} {js : List Nat} (h : Paired s w) (hup : s.boot.up = true)
    (hl : s.lc ≠ .scrapped) (ht : (s.at t).now % 4000 = 0) (hi : islandTwin i = some (otherTwin w))
    (hjs : ∀ j ∈ js, islandTwin j = some (otherTwin w)) (hfar : farIslands (s.heard offs) = i :: js) :
    Completes (.disciplinePulse t offs) s
      (LeftService (s.twin (otherTwin w)) w (otherTwin w) (s.at t).opSeconds 5 i) := by
  have hpost := (s.at t).pulsed_posture (s.heard offs) (otherTwin w)
  have hpair : Paired ((s.at t).pulsed (s.heard offs)) w := (h.at t).congr hpost
  have hfirst : (farIslands (s.heard offs)).foldl State.clockCause ((s.at t).pulsed (s.heard offs)) =
      ((s.at t).pulsed (s.heard offs)).cause (otherTwin w) 5 i := by
    rw [hfar, List.foldl_cons, hpair.clockCause hl hi]
    exact State.clockCauses_of_left (hpair.left rfl) hjs
  refine h.leaves (t := t) 5 i ?_ hpost rfl
  rw [exec_disciplinePulse hup ht, hfirst]

end

/-- Settles O33, clause by clause. -/
theorem causesAndFailStop : Obligations.CausesAndFailStop := by
  rintro s t w _ hup hf ha rfl hg hsw hl u out
  have paired : (s.twin (otherTwin w)).role = .healthy → Paired s w := fun ho => ⟨ha, hf, hg, ho⟩
  refine ⟨fun ho => ⟨?digest, ?batches, ?standby, ?active⟩, ?stop, fun f c h1 h5 hc => ⟨?retired, ?failed⟩, ?near, ?far⟩
  case digest =>
    intro q rr r e hrr hr he hp hc hto hlate
    exact standbyDigestLate_leaves (paired ho) hrr hr he hp hc hto hlate
  case batches => exact batchesMissing_leaves (paired ho)
  case standby => exact fun c isl h0 hc => relinquish_leaves (paired ho) hup hl h0 hc
  case active => exact fun c isl h0 hc h7 h9 hr => relinquish_asserts (paired ho) hup hl hsw h0 hc h7 h9 hr
  case stop => exact fun c isl ho h0 hc h7 h9 hr => relinquish_stops hup hf ha hg hl ho h0 hc h7 h9 hr
  case retired => exact relayCopyDisagree_retires hup hf h1 h5 hc
  case failed => exact fun k => relayCopyDisagree_stops hup h1 h5 hc
  case near =>
    intro offs ht hnear
    rw [exec_disciplinePulse hup ht, farIslands_of_near (State.heard_near hnear)]
    rfl
  case far =>
    intro i j d f ht ho hi hj hij hai haj hd hf4
    have hone : s.heard [(i, d)] = [(i, d)] := State.heard_cons hi hai []
    refine ⟨disciplinePulse_leaves (paired ho) hup hl ht hi (js := []) (by simp) ?_,
      disciplinePulse_leaves (paired ho) hup hl ht hi (js := [j]) (by simpa using hj) ?_⟩
    · rw [hone, farIslands_one hd]
    · rw [State.heard_cons hj haj, hone, farIslands_two hij hd hf4]

end Sys2Proof.Machine
end

section
/-! The module while the Relay is in reset (Table 4-8, R22, R476). -/

namespace Sys2Proof.Machine

/-- Nothing drives HEALTH_N low while the Relay is in reset (R490). -/
theorem State.healthLow_of_down {s : State} (h : s.boot.up = false) : s.healthLow = false := by
  simp [State.healthLow, h]

theorem resetQuiet_reset : ResetQuiet State.reset := fun _ => ⟨rfl, rfl⟩

/-- Settles O57, field by field. -/
theorem resetState : Obligations.ResetState :=
  ⟨resetQuiet_reset, rfl, rfl, rfl, rfl, rfl, rfl, rfl, rfl, State.healthLow_of_down rfl, rfl, rfl, rfl⟩

end Sys2Proof.Machine
end

section
/-! The acceptance of entries: the checks, the stamp and the answer to an entry that fails (R29, R57, R63, R236, R327). -/

namespace Sys2Proof.Machine

/-! The checks of R63. -/

/-- The fields of a header that R63 checks for reserved values hold none, and its version is 1. -/
structure Hdr.Plain (h : Hdr) : Prop where
  version : h.version = 1
  rsv7    : h.rsv7 = 0
  rsv55   : h.rsv55 = 0
  flags   : h.flags < 16
  pred    : h.pred < 8
  target  : h.target < 8192
  segCtrl : h.segCtrl < 4

/-- Whether the group of an entry's opcode is accepted on the mailbox that the entry came from (Table 4-6). -/
def Ingress.groupOk (g : Ingress) : Bool :=
  if g.admin then (opGroup (Hdr.parse g.entry).opcode).1 else (opGroup (Hdr.parse g.entry).opcode).2

section
variable {g : Ingress} {locked : Bool}

theorem Ingress.check_version (h : (Hdr.parse g.entry).version ≠ 1) : g.check locked = some stBadVersion := if_pos h

theorem Ingress.check_rsv7 (hv : (Hdr.parse g.entry).version = 1) (h : (Hdr.parse g.entry).rsv7 ≠ 0) :
    g.check locked = some stReserved :=
  (if_neg fun hn => hn hv).trans (if_pos (.inl h))

/-- The checks that follow those of a header's fields (R63). -/
theorem Ingress.check_plain (hp : (Hdr.parse g.entry).Plain) : g.check locked =
    if (Hdr.parse g.entry).comp ≠ g.comp % 1024 ∨ (Hdr.parse g.entry).lane ≠ g.lane % 8 then some stBadTarget
    else if ¬ g.groupOk then some stWrongMailbox
    else if g.entryBad then some stBadEntry
    else if g.bufferBad then some stBadBuffer
    else if g.predIds.contains (Hdr.parse g.entry).id then some stBadPred
    else if locked ∧ ¬ (g.admin ∧ lockServed (Hdr.parse g.entry).opcode) then some stLocked
    else none := by
  obtain ⟨hv, h7, h55, hf, hr, ht, hs⟩ := hp
  refine (if_neg fun hn => hn hv).trans (if_neg ?_)
  omega

theorem Ingress.check_comp (hp : (Hdr.parse g.entry).Plain) (h : (Hdr.parse g.entry).comp ≠ g.comp % 1024) :
    g.check locked = some stBadTarget :=
  (check_plain hp).trans (if_pos (.inl h))

section
variable (hp : (Hdr.parse g.entry).Plain) (hc : (Hdr.parse g.entry).comp = g.comp % 1024)
  (hl : (Hdr.parse g.entry).lane = g.lane % 8)
include hp hc hl

theorem Ingress.check_mailbox (h : g.groupOk = false) : g.check locked = some stWrongMailbox := by
  simp [check_plain hp, hc, hl, h]

/-- The last check, of LOCK (R63). -/
theorem Ingress.check_lock (hg : g.groupOk = true) (he : g.entryBad = false) (hb : g.bufferBad = false)
    (hi : g.predIds.contains (Hdr.parse g.entry).id = false) : g.check locked =
      if locked ∧ ¬ (g.admin ∧ lockServed (Hdr.parse g.entry).opcode) then some stLocked else none := by
  rw [check_plain hp, if_neg (by simp [hc, hl]), if_neg (by simp [hg]), if_neg (by simp [he]), if_neg (by simp [hb]),
    hi, if_neg Bool.false_ne_true]

theorem Ingress.check_locked (hg : g.groupOk = true) (he : g.entryBad = false) (hb : g.bufferBad = false)
    (hi : g.predIds.contains (Hdr.parse g.entry).id = false) :
    g.check true = if g.admin && lockServed (Hdr.parse g.entry).opcode then none else some stLocked := by
  rw [check_lock hp hc hl hg he hb hi]
  simp only [true_and, ite_not, Bool.and_eq_true]

end
end

/-! Stamps of the islands of the Relay. -/

/-- A stamp lies above the last one of its island (R24). -/
theorem lt_nextStamp {last : Tbl Nat} {isl v : Nat} (h : Tbl.find? last isl = some v) (offs : Tbl (Int × Nat × Nat))
    (now : Nat) : v < nextStamp last offs now isl := by
  unfold nextStamp
  rw [h]
  exact Nat.lt_of_succ_le (Nat.le_max_right _ _)

/-- A stamp is no earlier than the counter of its island (R24). -/
theorem clockAt_le_nextStamp (last : Tbl Nat) (offs : Tbl (Int × Nat × Nat)) (now isl : Nat) :
    clockAt offs now isl ≤ nextStamp last offs now isl := by
  unfold nextStamp
  split
  · exact Nat.le_max_left _ _
  · exact Nat.le_refl _

theorem islandTwin_relay {isl : Nat} (h : 412 ≤ isl) : islandTwin isl = none := by
  unfold islandTwin
  rw [if_neg (by omega), if_neg (by omega)]

theorem State.stampOf_relay (s : State) {isl : Nat} (h : 412 ≤ isl) :
    s.stampOf isl = nextStamp s.stamps s.offs s.now isl := by
  unfold State.stampOf
  rw [islandTwin_relay h]

@[simp] theorem State.stamped_fn (s : State) (isl n : Nat) : (s.stamped isl).fn n = s.fn n := by simp [State.fn]

/-! What the vectors and the reply ring of a mailbox leave as they are. -/

/-- A state after reply rings and vectors have moved: the ingress, the requests in service and the counts of dropped replies
stand, and outputs are only added. -/
structure Signalled (s t : State) : Prop where
  ingress : t.ingress = s.ingress
  rreqs   : t.rreqs = s.rreqs
  dropped : ∀ n, (t.fn n).d3count = (s.fn n).d3count
  out     : s.out <+: t.out

section
variable {s t u : State} {n i : Nat}

theorem Signalled.rfl : Signalled s s := ⟨Eq.refl _, Eq.refl _, fun _ => Eq.refl _, ⟨[], List.append_nil _⟩⟩

theorem Signalled.trans (h : Signalled s t) (k : Signalled t u) : Signalled s u :=
  ⟨k.ingress.trans h.ingress, k.rreqs.trans h.rreqs, fun n => (k.dropped n).trans (h.dropped n), h.out.trans k.out⟩

theorem Signalled.updMbx (s : State) (n i : Nat) (f : Mbx → Mbx) : Signalled s (s.updMbx n i f) :=
  ⟨Eq.refl _, Eq.refl _, fun _ => Eq.refl _, ⟨[], List.append_nil _⟩⟩

/-- A change of a function that leaves its count of dropped replies. -/
theorem Signalled.updFn (s : State) (n : Nat) {f : Fn → Fn} (hf : (f (s.fn n)).d3count = (s.fn n).d3count) :
    Signalled s (s.updFn n f) := by
  refine ⟨Eq.refl _, Eq.refl _, fun m => ?_, ⟨[], List.append_nil _⟩⟩
  by_cases hm : m = n
  · rw [hm, State.fn_updFn, hf]
  · simp [State.fn, State.updFn, Tbl.getD_put, hm]

theorem Signalled.sendVector (s : State) (n v : Nat) : Signalled s (s.sendVector n v) := by
  unfold State.sendVector
  dsimp only
  split
  · exact .rfl
  split
  · exact ⟨Eq.refl _, Eq.refl _, fun _ => Eq.refl _, ⟨_, Eq.refl _⟩⟩
  split
  · exact .rfl
  · exact .updFn s n (Eq.refl _)

theorem Signalled.signal (s : State) (n i : Nat) : Signalled s (s.signal n i) :=
  (Signalled.updMbx s n i _).trans (.sendVector _ n _)

theorem Signalled.drained (s : State) (n i : Nat) : Signalled s (s.drained n i) := by
  unfold State.drained
  dsimp only
  split
  · split
    · exact (Signalled.updMbx s n i _).trans (.signal _ n i)
    · exact .updMbx s n i _
  · exact .rfl

/-- A reply without a payload is written to the slot of its ring in two writes (R52). -/
theorem Signalled.writeReply (s : State) (n i : Nat) (r : Reply) :
    let m := s.mbx n i
    let rec_ := r.record s.attention m.phase
    Signalled { s with out := s.out ++ [.dma (m.rqBase.toNat + 64 * m.slot) (rec_.take 56),
      .dma (m.rqBase.toNat + 64 * m.slot + 56) (rec_.drop 56)] } (s.writeReply n i r none) := by
  unfold State.writeReply
  dsimp only
  split
  · exact (Signalled.updMbx _ n i _).trans (.signal _ n i)
  · exact .updMbx _ n i _

end

/-! The entry at the front of the ingress. -/

def State.withIngress (s : State) (l : List Ingress) : State := { s with ingress := l }

/-- The request that the Relay makes of an entry that it accepts (R236, R327). -/
def State.requestOf (s : State) (g : Ingress) (pre : Bytes) : RReq :=
  let h := Hdr.parse g.entry
  let r : RReq :=
    { hdr := h, entry := g.entry, fn := g.fn, idx := g.idx, pre := if h.isInline then [] else fixLen (min 64 h.plen) pre,
      toA := s.twinA.receives (s.stampOf 414), toB := s.twinB.receives (s.stampOf 414) }
  { r with behind := s.rreqs.any (fun e => e.2.meets r) }

/-- The state after an entry has been accepted: its request is in service under its stamp, and its mailbox counts it. -/
def State.accepted (s : State) (g : Ingress) (pre : Bytes) : State :=
  ({ s.stamped 414 with rreqs := Tbl.put s.rreqs (s.stampOf 414) (s.requestOf g pre) } : State).updMbx g.fn g.idx
    (fun m => { m with infl := m.infl + 1 })

/-- The Relay takes the entry at the front of its ingress at a stamp (R176, R495). -/
structure TakesEntry (s : State) (t : Nat) (g : Ingress) (l : List Ingress) : Prop where
  front     : s.ingress = g :: l
  ready     : s.boot.ready = true
  serving   : s.failStop = false
  accepting : s.sw.accepting = true
  room      : s.rreqs.length < 65536
  noSwap    : (s.at t).swapDue = false

section
variable {s : State} {t st : Nat} {pre : Bytes} {g : Ingress} {l : List Ingress}

/-- What the Relay makes of the entry that it takes. -/
theorem TakesEntry.exec (h : TakesEntry s t g l) : exec (.entryAcceptance t pre) s = .next (settle s
    ((g.check s.tamper.lock).elim (((s.at t).withIngress l).accepted g pre)
      fun st => (((s.at t).withIngress l).answerEntry g st).drained g.fn g.idx)) := by
  have hgo : ¬ (¬ (s.at t).boot.ready = true ∨ (s.at t).failStop = true ∨ ¬ (s.at t).sw.accepting = true ∨
      ¬ (s.at t).poolRoom = true ∨ (s.at t).swapDue = true) := by
    simp [h.ready, h.serving, h.accepting, h.noSwap, State.poolRoom, h.room]
  change execEntryAcceptance t pre s = _
  refine ev_of_eq ?_
  simp only [State.at_ingress, h.front]
  refine (if_neg hgo).trans ?_
  simp only [State.at_tamper]
  cases g.check s.tamper.lock <;> rfl

theorem TakesEntry.exec_accepted (h : TakesEntry s t g l) (hc : g.check s.tamper.lock = none) :
    Machine.exec (.entryAcceptance t pre) s =
      .next (settle s (((s.at t).withIngress l).accepted g pre)) := by
  rw [h.exec, hc, Option.elim_none]

theorem TakesEntry.exec_answered (h : TakesEntry s t g l) (hc : g.check s.tamper.lock = some st) :
    Machine.exec (.entryAcceptance t pre) s =
      .next (settle s ((((s.at t).withIngress l).answerEntry g st).drained g.fn g.idx)) := by
  rw [h.exec, hc, Option.elim_some]

/-- While its function is in D3hot an answer is counted as dropped (R57). -/
theorem State.answerEntry_d3hot (h : (s.fn g.fn).d3hot = true) :
    s.answerEntry g st = (s.stamped 415).updFn g.fn (fun f => { f with d3count := f.d3count + 1 }) :=
  if_pos (by rwa [State.stamped_fn])

/-- An answer is a reply that carries its completion stamp (R29, R63). -/
theorem State.answerEntry_written (h : (s.fn g.fn).d3hot = false) : s.answerEntry g st = (s.stamped 415).writeReply g.fn g.idx
    { id := (Hdr.parse g.entry).id, status := st, complete := s.stampOf 415 } none :=
  if_neg (by simp [h])

theorem entryAcceptance_dropped (h : TakesEntry s t g l) (hc : g.check s.tamper.lock = some st)
    (hd : (s.fn g.fn).d3hot = true) : Completes (.entryAcceptance t pre) s (fun t' =>
      t'.ingress = l ∧ t'.rreqs = s.rreqs ∧ (t'.fn g.fn).d3count = (s.fn g.fn).d3count + 1) := by
  refine ⟨_, h.exec_answered hc, ?_⟩
  rw [State.answerEntry_d3hot (s := (s.at t).withIngress l) hd]
  have hs := Signalled.drained ((((s.at t).withIngress l).stamped 415).updFn g.fn
    (fun f => { f with d3count := f.d3count + 1 })) g.fn g.idx
  refine ⟨hs.ingress, hs.rreqs, (hs.dropped g.fn).trans ?_⟩
  rw [State.fn_updFn]
  rfl

theorem entryAcceptance_answered (h : TakesEntry s t g l) (hc : g.check s.tamper.lock = some st)
    (hd : (s.fn g.fn).d3hot = false) : Completes (.entryAcceptance t pre) s (fun t' =>
      let m := s.mbx g.fn g.idx
      let rec_ := ({ id := (Hdr.parse g.entry).id, status := st, complete := (s.at t).stampOf 415 } : Reply).record
        s.attention m.phase
      t'.ingress = l ∧ t'.rreqs = s.rreqs ∧
      ∃ rest, t'.out = s.out ++ [.dma (m.rqBase.toNat + 64 * m.slot) (rec_.take 56),
        .dma (m.rqBase.toNat + 64 * m.slot + 56) (rec_.drop 56)] ++ rest) := by
  refine ⟨_, h.exec_answered hc, ?_⟩
  rw [State.answerEntry_written (s := (s.at t).withIngress l) hd]
  have hs := (Signalled.writeReply (((s.at t).withIngress l).stamped 415) g.fn g.idx
    { id := (Hdr.parse g.entry).id, status := st, complete := (s.at t).stampOf 415 }).trans
    (.drained _ g.fn g.idx)
  obtain ⟨rest, hout⟩ := hs.out
  exact ⟨hs.ingress, hs.rreqs, rest, hout.symm⟩

theorem entryAcceptance_accepted (h : TakesEntry s t g l) (hc : g.check s.tamper.lock = none) :
    let q := (s.at t).stampOf 414
    Completes (.entryAcceptance t pre) s (fun t' => ∃ r : RReq,
      t'.ingress = l ∧ Tbl.find? t'.rreqs q = some r ∧ r.hdr = Hdr.parse g.entry ∧ r.entry = g.entry ∧ r.fn = g.fn ∧
      r.idx = g.idx ∧ r.toA = s.twinA.receives q ∧ r.toB = s.twinB.receives q ∧ r.first = none ∧
      (∀ v, Tbl.find? s.stamps 414 = some v → v < q) ∧ clockAt s.offs (s.at t).now 414 ≤ q ∧
      Tbl.find? t'.stamps 414 = some q ∧
      (t'.mbx g.fn g.idx).infl = (s.mbx g.fn g.idx).infl + 1 ∧ t'.out = s.out) := by
  intro q
  have hq : q = nextStamp s.stamps s.offs (s.at t).now 414 := (s.at t).stampOf_relay (by decide)
  refine ⟨_, h.exec_accepted hc, ((s.at t).withIngress l).requestOf g pre, rfl, Tbl.find?_put_same _ _ _,
    rfl, rfl, rfl, rfl, rfl, rfl, rfl, fun v hv => hq ▸ lt_nextStamp hv _ _, hq ▸ clockAt_le_nextStamp _ _ _ _,
    Tbl.find?_put_same _ _ _, ?_, rfl⟩
  exact congrArg Mbx.infl (Tbl.getD_put_same _ _ _ _)

end

/-- Settles O25: the checks one by one, and then the three fates of the entry that the Relay takes. -/
theorem entryAcceptance : Obligations.EntryAcceptance := by
  refine ⟨?checks, ?front⟩
  case checks =>
    intro g locked h
    refine ⟨Ingress.check_version, Ingress.check_rsv7, fun hv h7 h55 hf hr ht hs => ?_⟩
    have hp : h.Plain := ⟨hv, h7, h55, hf, hr, ht, hs⟩
    refine ⟨Ingress.check_comp hp, fun hc hl => ⟨Ingress.check_mailbox hp hc hl, fun hg he hb hi => ⟨?_, ?_⟩⟩⟩
    · rw [Ingress.check_lock hp hc hl hg he hb hi]
      simp
    · exact Ingress.check_locked hp hc hl hg he hb hi
  case front =>
    intro s t pre g l hfront hready _ hserving haccepting hroom hswap h q
    have ht : TakesEntry s t g l := ⟨hfront, hready, hserving, haccepting, hroom, hswap⟩
    exact ⟨entryAcceptance_accepted ht, fun st => entryAcceptance_dropped ht, fun st => entryAcceptance_answered ht⟩

end Sys2Proof.Machine
end

section
/-! `ATTN_SEQ` over every command: each event settles the state that it leaves (R83, Table 4-8). -/

namespace Sys2Proof.Machine

/-- The state after an event, where there is one, is settled against the state before it. -/
def SettlesFrom (s : State) (o : Host.Outcome State Fault Refusal) : Prop := ∀ t, o = .next t → ∃ u, t = settle s u

theorem SettlesFrom.settled (s u : State) : SettlesFrom s (.next (settle s u)) := by
  rintro _ ⟨⟩
  exact ⟨u, rfl⟩

theorem SettlesFrom.fault (s : State) (x : Fault) : SettlesFrom s (.fault x) := by
  rintro _ ⟨⟩

/-- Every command that leaves a state settles it: but for an access past the registers, which faults, each is one event. -/
theorem exec_settlesFrom (c : Instr) (s : State) : SettlesFrom s (exec c s) := by
  cases c with
  | registerWrite t fn off width val =>
    change SettlesFrom s (execRegisterWrite t fn off width val s)
    unfold execRegisterWrite
    split
    · exact .fault s _
    · exact .settled s _
  | highWordLatchRead t fn off width =>
    change SettlesFrom s (execHighWordLatchRead t fn off width s)
    unfold execHighWordLatchRead
    split
    · exact .fault s _
    · exact .settled s _
  | brk c word =>
    change SettlesFrom s (execBrk c word s)
    unfold execBrk
    split <;> exact .settled s _
  | _ => exact .settled s _

/-- What settling leaves of the count while the Relay is out of reset. -/
theorem settle_seqFollows (s : State) {u : State} (h : u.boot.up = true) : SeqFollows s (settle s u) := by
  unfold SeqFollows
  rw [settle_attnBits]
  exact if_pos h

theorem settle_attnSeq_of_reset (s : State) {u : State} (h : u.boot.up = false) : (settle s u).attnSeq = 0 :=
  if_neg (by simp [h])

/-- Settles O60: every event settles the state that it leaves. -/
theorem attentionCount : Obligations.AttentionCount := by
  intro c s t h
  obtain ⟨u, rfl⟩ := exec_settlesFrom c s t h
  exact ⟨settle_seqFollows s, settle_attnSeq_of_reset s⟩

end Sys2Proof.Machine
end

section
/-! Deadlines, budgets and the limit after a time-out (R189, R191, R192, R247). -/

namespace Sys2Proof.Machine

/-- The end record of a request that its deadline, its budget or its time-out limit brings to an end (R191, R192). -/
def ExpiredRec (r : Req) (e : EndRec) : Prop :=
  e.status = (if r.precMark then stPrecedence else stExpired) ∧ e.result = [] ∧ e.effects = r.sure ∧ e.commits = false

/-- The mark of rank 4 is all that a request may get when Coachyard looks at the caps (R194, R198). -/
theorem TwinSt.find?_markCap (x : TwinSt) (w : Twin) (act : Bool) (now q : Nat) :
    ∃ b : Req → Bool, Tbl.find? (x.markCap w act now).reqs q =
      (Tbl.find? x.reqs q).map (fun r => { r with precMark := b r }) := by
  unfold TwinSt.markCap
  extract_lets l capped
  clear_value capped l
  induction l generalizing x with
  | nil => exact ⟨Req.precMark, by simp⟩
  | cons a l ih =>
    rw [List.foldl_cons]
    split
    · obtain ⟨b, hb⟩ := ih (x.updReq a.q (fun r => { r with precMark := true }))
      rw [hb, TwinSt.find?_updReq]
      split
      · exact ⟨fun r => b { r with precMark := true }, by simp [Option.map_map, Function.comp_def]⟩
      · exact ⟨b, rfl⟩
    · exact ih x

/-- A request as it was before the marks of rank 4. -/
theorem TwinSt.of_find?_markCap {x : TwinSt} {w : Twin} {act : Bool} {now q : Nat} {r : Req}
    (h : Tbl.find? (x.markCap w act now).reqs q = some r) : ∃ b, Tbl.find? x.reqs q = some { r with precMark := b } := by
  obtain ⟨b, hb⟩ := x.find?_markCap w act now q
  rw [hb, Option.map_eq_some_iff] at h
  obtain ⟨r', hr', rfl⟩ := h
  exact ⟨r'.precMark, hr'⟩

/-- Ended with the status of R192, a request commits nothing, whether or not its time-out was indicated before. -/
theorem TwinSt.endOf_expired (x : TwinSt) (act : Bool) (now q : Nat) (r : Req) :
    ExpiredRec r (x.endOf act now q r { status := r.deadlineStatus }) := by
  unfold TwinSt.endOf Req.endRec Req.segEffects Req.fit ExpiredRec Req.deadlineStatus
  cases r.timedOut <;> simp

/-- A twin that ends a request so, whatever else its end moves. -/
theorem TwinSt.finish_expired {x : TwinSt} {act : Bool} {now q : Nat} {r : Req} (h : Tbl.find? x.reqs q = some r)
    (hf : r.fin = none) : ∃ r' e, Tbl.find? (x.finish act now q { status := r.deadlineStatus }).reqs q = some r' ∧
      r'.fin = some e ∧ ExpiredRec r e := by
  obtain ⟨r', hr', hc⟩ := TwinSt.finish_fin (act := act) (st := now) (e := { status := r.deadlineStatus }) h hf
  exact ⟨r', _, hr', congrArg Req.fin hc, x.endOf_expired act now q r⟩

/-- A request that no core runs ends at once when its time is over (R191, R193). -/
theorem TwinSt.timeOut_idle {x : TwinSt} {now q : Nat} {r : Req} (h : Tbl.find? x.reqs q = some r) (hf : r.fin = none)
    (ho : r.timedOut = none) (hm : r.matched = none) (hd : r.denied = 0) (hr : x.rngHeld q r = false)
    (hk : ∀ k ∈ r.tasks, k.2.ctx = none) : x.timeOut now q = x.finish true now q { status := r.deadlineStatus } := by
  have hon : r.tasks.filter (fun k => k.2.ctx.isSome) = [] := by
    rw [List.filter_eq_nil_iff]
    intro k hmem
    simp [hk k hmem]
  unfold TwinSt.timeOut
  simp [h, hf, ho, hm, hd, hr, hon]

section
variable {s : State} {t q : Nat} {w : Twin} {r : Req}

/-- The time-out of a request that no core runs, in the state of the module. -/
theorem State.timeOutIn_idle (h : Tbl.find? ((s.twin w).markCap w true s.now).reqs q = some r) (hf : r.fin = none)
    (ho : r.timedOut = none) (hm : r.matched = none) (hd : r.denied = 0)
    (hr : ((s.twin w).markCap w true s.now).rngHeld q r = false) (hk : ∀ k ∈ r.tasks, k.2.ctx = none) :
    ∃ r' e, Tbl.find? ((s.timeOutIn w q).twin w).reqs q = some r' ∧ r'.fin = some e ∧ ExpiredRec r e := by
  obtain ⟨r', e, hr', he, hx⟩ := TwinSt.finish_expired (act := true) (now := s.now) h hf
  refine ⟨r', e, ?_, he, hx⟩
  rw [← TwinSt.timeOut_idle h hf ho hm hd hr hk] at hr'
  unfold State.timeOutIn State.updTwin
  simp only [State.twin_setTwin, hr', he, Option.isSome_some, if_true]
  rw [← hr']
  cases w <;> rfl

/-- A deadline that the active's Coachyard has reached. -/
theorem deadlineReached_exec (ha : s.active = some w) (hc : s.coachyardAwake w = true)
    (h : Tbl.find? ((s.twin w).markCap w true (s.at t).now).reqs q = some r) (hd0 : r.hdr.deadline ≠ 0)
    (hd : r.hdr.deadline ≤ clockAt (s.twin w).offs (s.at t).now coachyard) :
    exec (.deadlineReached t q) s = .next (settle s ((s.at t).timeOutIn w q)) := by
  obtain ⟨b, hb⟩ := TwinSt.of_find?_markCap h
  change execDeadlineReached t q s = _
  refine ev_of_eq ?_
  simp [ha, hb, hd0, hd, hc, State.at_coachyardAwake]

/-- A budget that the tasks of a request have spent. -/
theorem runBudgetReached_exec {img : Nat} {d : DispEntry} (ha : s.active = some w) (hc : s.coachyardAwake w = true)
    (h : Tbl.find? ((s.twin w).markCap w true (s.at t).now).reqs q = some r) (hz : r.forZenith = false)
    (he : (s.twin w).entryOf q r = some (img, d)) (hm : d.runMax ≠ 0)
    (hran : 4000000 * d.runMax ≤ r.tasks.foldl (fun (n : Nat) (k : Nat × Task) => n + k.2.ranFor (s.at t).now) r.ran) :
    exec (.runBudgetReached t q) s = .next (settle s ((s.at t).timeOutIn w q)) := by
  obtain ⟨b, hb⟩ := TwinSt.of_find?_markCap h
  have he' : (s.twin w).entryOf q { r with precMark := b } = some (img, d) := he
  have hz' : Req.forZenith { r with precMark := b } = false := hz
  change execRunBudgetReached t q s = _
  refine ev_of_eq ?_
  simp [ha, hb, he', hz', hm, hran, hc, State.at_coachyardAwake]

/-- A task still on its core 20 µs after the indication (R191). -/
theorem timeoutExitLimit_exec (hc : s.coachyardAwake w = true) (h : Tbl.find? (s.twin w).reqs q = some r)
    (hf : r.fin = none) (ho : r.timedOut.isSome = true)
    (hk : ∃ k ∈ r.tasks, k.2.timedOut = true ∧ k.2.usedAt + 80000 ≤ k.2.ranFor (s.at t).now) :
    exec (.timeoutExitLimit t w q) s = .next (settle s ((s.at t).updTwin w (fun x =>
      (x.dropTasks (s.at t).now q (fun _ => true) true).finish (s.isActive w) (s.at t).now q
        { status := r.deadlineStatus }))) := by
  have hany : r.tasks.any (fun (k : Nat × Task) =>
      k.2.timedOut && decide (k.2.usedAt + 80000 ≤ k.2.ranFor (s.at t).now)) = true := by
    simpa only [List.any_eq_true, Bool.and_eq_true, decide_eq_true_eq] using hk
  change execTimeoutExitLimit t w q s = _
  refine ev_of_eq ?_
  simp only [State.at_twin, h, hany, hf, ho, hc, State.at_coachyardAwake, Option.isNone_none, true_and, if_true]
  rfl

theorem timeoutExitLimit_ends (hc : s.coachyardAwake w = true) (h : Tbl.find? (s.twin w).reqs q = some r)
    (hf : r.fin = none) (ho : r.timedOut.isSome = true)
    (hk : ∃ k ∈ r.tasks, k.2.timedOut = true ∧ k.2.usedAt + 80000 ≤ k.2.ranFor (s.at t).now) :
    Ends (.timeoutExitLimit t w q) s w q (ExpiredRec r) := by
  refine ⟨_, timeoutExitLimit_exec hc h hf ho hk, ?_⟩
  have hd := SameReq.dropTasks (q := q) (s.twin w) (s.at t).now q (fun _ => true) true
  rw [SameReq, h, Option.map_some, Option.map_eq_some_iff] at hd
  obtain ⟨r', hr', hcore⟩ := hd
  have hfin : r'.fin = none := (congrArg Req.fin hcore : r'.core.fin = _).trans hf
  have hmark : r'.precMark = r.precMark := (congrArg Req.precMark hcore : r'.core.precMark = _)
  have hsure : r'.sure = r.sure := (congrArg Req.sure hcore : r'.core.sure = _)
  obtain ⟨r'', e, hr'', he, hx⟩ := TwinSt.finish_expired (act := s.isActive w) (now := (s.at t).now) hr' hfin
  simp only [ExpiredRec, Req.deadlineStatus, hmark, hsure] at hr'' hx
  refine ⟨r'', e, ?_, he, hx⟩
  rw [settle_twin, State.updTwin, State.twin_setTwin, State.at_twin]
  exact hr''

end

/-- Settles O30, event by event. -/
theorem deadlinesAndLimits : Obligations.DeadlinesAndLimits := by
  refine ⟨?ends, ?limits⟩
  case ends =>
    intro s t q w r hf hc u x ended
    refine ⟨fun ha h ho hm hd hr hk => ?_, fun h ho hk => timeoutExitLimit_ends hc h hf ho hk⟩
    have hidle : ∀ i, exec i s = .next (settle s (u.timeOutIn w q)) → Ends i s w q (ExpiredRec r) := by
      intro i hi
      have hx : (u.twin w).markCap w true u.now = x := by rw [State.at_twin]
      obtain ⟨r', e, hr', he, hrec⟩ := State.timeOutIn_idle (s := u) (hx ▸ h) hf ho hm hd (hx ▸ hr) hk
      exact ⟨_, hi, r', e, (settle_twin _ _ _).symm ▸ hr', he, hrec⟩
    exact ⟨fun h0 hd => hidle _ (deadlineReached_exec ha hc h h0 hd),
      fun img d hz he h0 hran => hidle _ (runBudgetReached_exec ha hc h hz he h0 hran)⟩
  case limits =>
    intro s t sp key d w f u x shut closed
    refine ⟨fun hf ho hl hn => ?_, fun hd hl => ?_⟩
    · change execStreamTimeout t w sp key s = _
      refine ev_of_eq ?_
      simp only [State.at_twin]
      rw [hf]
      exact if_pos ⟨ho, hl, Bool.eq_false_iff.mp hn⟩
    · change execDiscardedIdExpiry t w sp key s = _
      refine ev_of_eq ?_
      simp only [State.at_twin]
      rw [hd]
      exact if_pos hl

end Sys2Proof.Machine
end

section
/-! The MAC, data and SIV commands of the vendor images (R73, R74, R112 to R117, R278, R279). -/

namespace Sys2Proof.Machine

/-! Checks of a run, and runs that fail. -/

section
variable {e : VEnv} {s : State}

theorem VM.of_need_run {b : Bool} {n : Nat} {a : Unit} {u : State} (h : (need b n).run s = .ok (a, u)) : b = true ∧ s = u := by
  cases b
  · cases h
  · cases h
    exact ⟨rfl, rfl⟩

/-- A declared key that passes its checks passes them with a further check that holds of it (R89, R91). -/
theorem VEnv.keyThen_run {i h : Nat} {fits : KeyRec → Bool} {k : KeyRec} {after : KeyRec → VM Unit}
    (hk : e.keyed s i h fits k = true) (ha : (after k).run s = .ok ((), s)) : (e.keyThen i h fits after).run s = .ok (k, s) := by
  have hrun := e.key_run s hk
  unfold VEnv.key VEnv.keyThen at hrun
  obtain ⟨_, _, h1, hrun⟩ := VM.of_run_bind hrun
  obtain ⟨hfound, rfl⟩ := VM.of_need_run h1
  obtain ⟨_, _, h2, hrun⟩ := VM.of_run_bind hrun
  obtain ⟨husage, rfl⟩ := VM.of_need_run h2
  rw [VM.run_bind_ok (e.x_run s)] at hrun
  unfold VEnv.keyThen
  rw [VM.run_bind_ok (need_run _ s hfound), VM.run_bind_ok (need_run _ s husage), VM.run_bind_ok (e.x_run s)]
  cases hkey : (s.twin e.w).store.key? e.r.space h e.q with
  | none => rw [hkey] at hrun; cases hrun
  | some k' =>
    simp only [hkey] at hrun ⊢
    obtain ⟨_, _, h3, hrun⟩ := VM.of_run_bind hrun
    obtain ⟨hfits, rfl⟩ := VM.of_need_run h3
    obtain ⟨_, _, h4, hrun⟩ := VM.of_run_bind hrun
    cases h4
    obtain ⟨_, _, h5, hrun⟩ := VM.of_run_bind hrun
    obtain ⟨hleft, rfl⟩ := VM.of_need_run h5
    cases hrun
    rw [VM.run_bind_ok (need_run _ s hfits), VM.run_bind_ok ha, VM.run_bind_ok (need_run _ s hleft)]
    rfl

end

section
variable {i : Instr} {s : State} {t op : Nat} {w : Twin} {q : Nat} {r : Req} {cmd : VEnv → VM (Nat × Bytes)}

/-- A vendor command whose check fails ends its request with the check's status and no result (R91). -/
theorem vendor_fails {st : Nat} (hi : exec i s = vendor t op w q cmd s) (hs : Served s t op w q r)
    (hrun : (cmd (VEnv.of w q r)).run (s.at t) = .error (.status st (s.at t))) :
    Ends i s w q (fun v => v.status = st ∧ v.result = []) := by
  obtain ⟨hfind, ht⟩ := hs.request
  obtain ⟨-, hx, -, hready, hcore⟩ := hs
  obtain ⟨r', hr', hfin, -, -⟩ := State.finish_fin (e := r.outcome st []) hfind ht.1
  have hend : (s.at t).runVendor op w q cmd = ((s.at t).finish w q (r.outcome st [])).serve w := by
    have hrun' : (cmd (VEnv.mk w q r r.payload)).run (s.at t) = .error (.status st (s.at t)) := hrun
    unfold State.runVendor
    rw [hfind]
    simp only [hready, State.at_executes, hx, State.at_coreAwake, hcore, hrun', not_true_eq_false, or_self, if_false]
  obtain ⟨r2, h2, hf2⟩ := TwinSt.finOf_eq_some.mp (State.finOf_serve (TwinSt.finOf_eq_some.mpr ⟨r', hr', hfin⟩))
  have hfits : Fits r (r.outcome st []).result := by
    unfold Req.outcome
    split <;> exact .inl (Nat.zero_le _)
  refine ⟨_, hi.trans (congrArg (fun u => Host.Outcome.next (settle s u)) hend), r2, _, (settle_twin _ _ _).symm ▸ h2, hf2, ?_⟩
  exact (ExitRec.noResult (.of_extends (TwinSt.endOf_extends ht hfits))).symm

/-- A vendor command that leaves the state and answers `OK`. -/
theorem vendor_gives {res : Bytes} (hi : exec i s = vendor t op w q cmd s) (hs : Served s t op w q r)
    (hrun : (cmd (VEnv.of w q r)).run (s.at t) = .ok ((0, res), s.at t)) (hf : Fits r res) :
    Ends i s w q (fun v => v.status = 0 ∧ v.result = res) :=
  (vendor_ends_same hi hs hrun hf).imp fun _ => ExitRec.ok

/-- A verification that leaves the state and answers with its verdict (R89). -/
theorem vendor_verdict {ok : Prop} [Decidable ok] (hi : exec i s = vendor t op w q cmd s) (hs : Served s t op w q r)
    (hrun : (cmd (VEnv.of w q r)).run (s.at t) = .ok ((if ok then 0 else stVerify, []), s.at t)) :
    Ends i s w q (fun v => (ok → v.status = 0) ∧ (¬ ok → v.status = stVerify) ∧ v.result = []) := by
  refine (vendor_ends_same hi hs hrun (.inl (Nat.zero_le _))).imp fun v hv => ?_
  obtain ⟨hres, hst⟩ := hv.noResult
  exact ⟨fun h => by rw [hst, if_pos h], fun h => by rw [hst, if_neg h], hres⟩

end

/-! MAC commands (R112, R113). -/

section
variable {e : VEnv} {s : State} {k : KeyRec}

/-- A MAC command names an algorithm, a length that it has, and a key that may compute it. -/
structure VEnv.MacChecks (e : VEnv) (s : State) (k : KeyRec) : Prop where
  param : e.r.hdr.param = 0
  lowest : 1 ≤ e.f 4 1
  highest : e.f 4 1 ≤ 10
  length : macLenOk (e.f 4 1) (e.f 5 1) = true
  reserved : allZero (e.b 6 2) = true
  key : e.keyed s 0 (e.f 0 4) (macKeyOk (e.f 4 1)) k = true

theorem runMacGenerate_run (hc : e.MacChecks s k) (hl : 8 ≤ e.r.hdr.plen) :
    (runMacGenerate e).run s = .ok ((0, macTag (e.f 4 1) k (e.from_ 8) (e.f 5 1)), s) := by
  unfold runMacGenerate
  rw [VM.run_bind_ok (e.shape_run s (by simp [VEnv.len, hl]) (by simp [hc.param]) (by simp [hc.reserved])),
    VM.run_bind_ok (need_run _ s (by simp [hc.lowest, hc.highest, hc.length])), VM.run_bind_ok (e.key_run s hc.key)]
  rfl

theorem runMacVerify_run (hc : e.MacChecks s k) (hl : 8 + e.f 5 1 ≤ e.r.hdr.plen) : (runMacVerify e).run s =
    .ok ((if macTag (e.f 4 1) k (e.from_ (8 + e.f 5 1)) (e.f 5 1) = e.b 8 (e.f 5 1) then 0 else stVerify, []), s) := by
  unfold runMacVerify
  rw [VM.run_bind_ok (e.shape_run s (by simp [VEnv.len, hl]) (by simp [hc.param]) (by simp [hc.reserved])),
    VM.run_bind_ok (need_run _ s (by simp [hc.lowest, hc.highest, hc.length])), VM.run_bind_ok (e.key_run s hc.key)]
  rfl

/-! Data commands (R114). -/

/-- A data command's fields are good, and the IV where none is used is zero. -/
structure VEnv.DataChecks (e : VEnv) (s : State) (k : KeyRec) : Prop where
  param : e.r.hdr.param = 0
  plen : 24 ≤ e.r.hdr.plen
  reserved : allZero (e.b 7 1) = true
  lowest : 1 ≤ e.f 4 1
  highest : e.f 4 1 ≤ 3
  pad : e.f 5 1 < 2
  noCtr : e.f 5 1 = 1 → e.f 4 1 ≠ 3
  iv : e.f 4 1 = 1 ∨ e.f 6 1 = 1 → allZero (e.b 8 16) = true
  key : e.keyed s 0 (e.f 0 4) (fun k => isAes k.alg || (isTdea k.alg && e.f 6 1 == 0)) k = true
  half : isTdea k.alg = true → allZero (e.b 16 8) = true

/-- Where the IV comes from: the request itself, or, in counter mode alone, the nonce that the request has been assigned. -/
def VEnv.IvSource (e : VEnv) (enc : Bool) : Prop :=
  e.f 6 1 = 0 ∨ (e.f 6 1 = 1 ∧ e.f 4 1 = 3 ∧ enc = true ∧ e.r.hdr.stateChange = true ∧ e.r.keyStatus.getD 1 0 = 0)

theorem dataKey_run {enc : Bool} (hc : e.DataChecks s k) (hsrc : e.IvSource enc) : (dataKey e enc).run s = .ok (k, s) := by
  have hzero : (!(e.f 4 1 == 1 || e.f 6 1 == 1) || allZero (e.b 8 16)) = true := by
    by_cases h : e.f 4 1 = 1 ∨ e.f 6 1 = 1
    · simp [hc.iv h]
    · simp [not_or.mp h]
  have hsrc1 : e.f 6 1 ≤ 1 := by rcases hsrc with h | ⟨h, -⟩ <;> omega
  have hmode : (!(e.f 5 1 == 1 && e.f 4 1 == 3) && !(e.f 6 1 == 1 && (e.f 4 1 != 3 || !enc)) &&
      !(e.f 6 1 == 1 && !e.r.hdr.stateChange)) = true := by
    have hpad : (e.f 5 1 == 1 && e.f 4 1 == 3) = false := by
      by_cases h : e.f 5 1 = 1 <;> simp [h, hc.noCtr]
    rcases hsrc with h | ⟨h, h3, henc, hsc, -⟩
    · simp [hpad, h]
    · rw [hpad]
      simp [h, h3, henc, hsc]
  have hhalf : (!isTdea k.alg || allZero (e.b 16 8)) = true := by
    cases h : isTdea k.alg
    · rfl
    · exact hc.half h
  unfold dataKey
  rw [VM.run_bind_ok (e.shape_run s (by simp [VEnv.len, hc.plen]) (by simp [hc.param]) (by simp [hc.reserved])),
    VM.run_bind_ok (need_run _ s hzero),
    VM.run_bind_ok (need_run _ s (by simp [hc.lowest, hc.highest, Nat.le_of_lt_succ hc.pad, hsrc1])),
    VM.run_bind_ok (need_run _ s hmode), VM.run_bind_ok (VEnv.keyThen_run hc.key (need_run _ s hhalf))]
  rcases hsrc with h | ⟨h, -, -, -, hst⟩
  · simp only [h]
    rfl
  · simp only [h, hst]
    rfl

/-- Data in whole blocks where the mode asks for them and no padding makes them so. -/
def VEnv.Whole (e : VEnv) (k : KeyRec) : Prop :=
  e.f 4 1 = 3 ∨ e.f 5 1 = 1 ∨ (e.from_ 24).length % blkLen k.alg = 0

theorem runDataEncrypt_run (hc : e.DataChecks s k) (hw : e.Whole k) (h0 : e.f 6 1 = 0) : (runDataEncrypt e).run s =
    .ok ((0, modeE (e.f 4 1) k.alg k.material (e.b 8 16)
      (if e.f 5 1 = 1 then pad2 (blkLen k.alg) (e.from_ 24) else e.from_ 24)), s) := by
  unfold runDataEncrypt
  rw [VM.run_bind_ok (dataKey_run hc (.inl h0)),
    VM.run_bind_ok (need_run _ s (by simpa [VEnv.Whole, or_assoc] using hw)), if_neg (by simp [h0])]
  rfl

theorem runDataEncrypt_nonce_run (hc : e.DataChecks s k) (h1 : e.f 6 1 = 1) (h3 : e.f 4 1 = 3)
    (hsc : e.r.hdr.stateChange = true) (hst : e.r.keyStatus.getD 1 0 = 0) :
    let iv := toBe 12 e.r.nonce ++ zeros 4
    (runDataEncrypt e).run s = .ok ((0, iv ++ ctr32 k.alg k.material iv (e.from_ 24)), s) := by
  unfold runDataEncrypt
  rw [VM.run_bind_ok (dataKey_run hc (.inr ⟨h1, h3, rfl, hsc, hst⟩)),
    VM.run_bind_ok (need_run _ s (by simp [h3])), if_pos h1]
  rfl

theorem runDataDecrypt_run (hc : e.DataChecks s k) (h0 : e.f 6 1 = 0) : (runDataDecrypt e).run s =
    (dataOut (e.f 4 1) (e.f 5 1) k.alg k.material (e.b 8 16) (e.from_ 24)).run s := by
  unfold runDataDecrypt
  rw [VM.run_bind_ok (dataKey_run hc (.inl h0))]

end

/-- A command whose run is a decryption: the data, without its padding where there is one, or `BAD_FORMAT` where the padding
does not conform (R114). -/
theorem vendor_decrypts {i : Instr} {s : State} {t op : Nat} {w : Twin} {q : Nat} {r : Req} {cmd : VEnv → VM (Nat × Bytes)}
    {mode pad alg : Nat} {key iv m : Bytes} (hi : exec i s = vendor t op w q cmd s) (hs : Served s t op w q r)
    (hrun : (cmd (VEnv.of w q r)).run (s.at t) = (dataOut mode pad alg key iv m).run (s.at t))
    (hw : mode = 3 ∨ m.length % blkLen alg = 0) :
    (pad = 0 → Fits r (modeD mode alg key iv m) →
      Ends i s w q (fun v => v.status = 0 ∧ v.result = modeD mode alg key iv m)) ∧
    (pad = 1 → unpad2 (blkLen alg) (modeD mode alg key iv m) = none →
      Ends i s w q (fun v => v.status = stBadFormat ∧ v.result = [])) ∧
    (∀ d, pad = 1 → unpad2 (blkLen alg) (modeD mode alg key iv m) = some d → Fits r d →
      Ends i s w q (fun v => v.status = 0 ∧ v.result = d)) := by
  unfold dataOut at hrun
  rw [VM.run_bind_ok (need_run _ _ (by simpa using hw))] at hrun
  refine ⟨fun hp hf => ?_, fun hp hn => ?_, fun d hp hd hf => ?_⟩
  · rw [if_neg (by simp [hp])] at hrun
    exact vendor_gives hi hs hrun hf
  · rw [if_pos hp] at hrun
    simp only [hn] at hrun
    exact vendor_fails hi hs hrun
  · rw [if_pos hp] at hrun
    simp only [hd] at hrun
    exact vendor_gives hi hs hrun hf

/-! AES-SIV and its streams (R73, R74, R115, R278, R279). -/

section
variable {e : VEnv} {s : State} {k : KeyRec}

/-- The stream that a segment continues, as its judgement finds it. -/
def VEnv.stream (e : VEnv) (s : State) : Stream :=
  (Tbl.getD (s.twin e.w).store.flows (flowKey e.r.space e.r.hdr.flow) ({} : Flow)).stream.at_ e.q

/-- An AES-SIV command's fields are good. -/
structure VEnv.SivChecks (e : VEnv) (s : State) (k : KeyRec) : Prop where
  param : e.r.hdr.param = 0
  plen : 24 + e.f 4 2 ≤ e.r.hdr.plen
  reserved : allZero (e.b 7 1) = true
  assoc : e.f 4 2 ≤ 4096
  nonce : e.f 6 1 ≤ 16
  rest : allZero (e.b (8 + e.f 6 1) (16 - e.f 6 1)) = true
  key : e.keyed s 0 (e.f 0 4) (fun k => k.alg == 6 || k.alg == 7) k = true

/-- The text of an AES-SIV command is of a length that it takes: an opened one begins with its synthetic IV. -/
def VEnv.SivText (e : VEnv) (opens : Bool) : Prop :=
  (opens = true → 24 + e.f 4 2 + 16 ≤ e.r.hdr.plen) ∧ e.r.hdr.plen ≤ 24 + e.f 4 2 + 262144 + (if opens then 16 else 0)

theorem sivStart_run {opens : Bool} (hc : e.SivChecks s k) (ht : e.SivText opens) :
    (sivStart e opens).run s = .ok ((k, e.stream s), s) := by
  obtain ⟨hiv, hlong⟩ := ht
  have hplen := hc.plen
  have htext : (decide (e.f 4 2 ≤ 4096) && decide (e.f 6 1 ≤ 16) && (!opens || decide (16 ≤ e.len - 24 - e.f 4 2)) &&
      decide (e.len - 24 - e.f 4 2 ≤ 262144 + (if opens then 16 else 0))) = true := by
    unfold VEnv.len
    cases opens <;> simp [hc.assoc, hc.nonce] at hiv hlong ⊢ <;> omega
  unfold sivStart
  rw [VM.run_bind_ok (e.shape_run s (by simp [VEnv.len, hc.assoc, hplen]) (by simp [hc.param]) (by simp [hc.reserved])),
    VM.run_bind_ok (need_run _ s (by simp [hc.rest])), VM.run_bind_ok (need_run _ s htext), VM.run_bind_ok (e.x_run s),
    VM.run_bind_ok (e.key_run s hc.key)]
  rfl

/-- Sealing leaves the synthetic IV as the stream's chain value (R278). -/
theorem runSivSeal_run (hc : e.SivChecks s k) (ht : e.SivText false) :
    let out := sivSealB k.material (sivParts e (chainIn e (e.stream s))) (e.from_ (24 + e.f 4 2))
    (runSivSeal e).run s =
      (do segAfter e (e.stream s) true (out.take 16); pure (0, out) : VM (Nat × Bytes)).run s := by
  unfold runSivSeal
  rw [VM.run_bind_ok (sivStart_run hc ht)]

/-- Opening leaves the synthetic IV that it was given as the stream's chain value (R278). -/
theorem runSivOpen_run {m : Bytes} (hc : e.SivChecks s k) (ht : e.SivText true)
    (hm : sivOpenB k.material (sivParts e (chainIn e (e.stream s))) (e.from_ (24 + e.f 4 2)) = some m) :
    (runSivOpen e).run s = (do segAfter e (e.stream s) true ((e.from_ (24 + e.f 4 2)).take 16); pure (0, m) :
      VM (Nat × Bytes)).run s := by
  unfold runSivOpen
  rw [VM.run_bind_ok (sivStart_run hc ht)]
  simp only [hm]

/-- A segment whose tag fails closes its stream (R74, R279). -/
theorem runSivOpen_forged_run (hc : e.SivChecks s k) (ht : e.SivText true)
    (hm : sivOpenB k.material (sivParts e (chainIn e (e.stream s))) (e.from_ (24 + e.f 4 2)) = none) :
    (runSivOpen e).run s = (do segAfter e (e.stream s) false []; pure (stTag, []) : VM (Nat × Bytes)).run s := by
  unfold runSivOpen
  rw [VM.run_bind_ok (sivStart_run hc ht)]
  simp only [hm]

/-- What a segment leaves of its stream. -/
def VEnv.nextStream (e : VEnv) (st : Stream) (ok : Bool) (v : Bytes) : Stream :=
  if ok then { isOpen := !e.r.hdr.segLast, failed := false, next := e.r.hdr.segIndex + 1, last := e.q, chain := v }
  else { st with isOpen := false, failed := true, last := e.q }

theorem segAfter_of_single {st : Stream} {ok : Bool} {v : Bytes} (h : e.r.hdr.segmented = false) :
    segAfter e st ok v = pure () := by
  unfold segAfter
  rw [if_pos (by simp [h])]

theorem segAfter_of_segmented {st : Stream} {ok : Bool} {v : Bytes} (h : e.r.hdr.segmented = true) :
    segAfter e st ok v = e.stage (.streamPut e.r.space e.r.hdr.flow (e.nextStream st ok v)) := by
  unfold segAfter VEnv.nextStream
  rw [if_neg (by simp [h])]
  cases ok <;> rfl

end

/-- A command that leaves its stream and answers: the stream stands among the effects of its end record when it is a segment. -/
theorem segment_ends {i : Instr} {s : State} {t op : Nat} {w : Twin} {q : Nat} {r : Req} {cmd : VEnv → VM (Nat × Bytes)}
    {st : Stream} {ok : Bool} {chain res : Bytes} {status : Nat} (hi : exec i s = vendor t op w q cmd s)
    (hs : Served s t op w q r) (hc : commitsAt status = true) (hf : Fits r res)
    (hrun : (cmd (VEnv.of w q r)).run (s.at t) =
      (do segAfter (VEnv.of w q r) st ok chain; pure (status, res) : VM (Nat × Bytes)).run (s.at t)) :
    Ends i s w q (fun v => (v.status = status ∧ v.result = res) ∧ (r.hdr.segmented = true →
      Effect.streamPut r.space r.hdr.flow ((VEnv.of w q r).nextStream st ok chain) ∈ v.effects)) := by
  obtain ⟨hfind, ht⟩ := hs.request
  cases hseg : r.hdr.segmented with
  | false =>
    rw [segAfter_of_single (e := VEnv.of w q r) hseg] at hrun
    refine (vendor_ends_same hi hs hrun hf).imp fun v hv => ?_
    obtain ⟨hst, hok, -⟩ := hv
    exact ⟨⟨hst, (hok hc).1⟩, fun h => by cases h⟩
  | true =>
    rw [segAfter_of_segmented (e := VEnv.of w q r) hseg, VM.run_bind_ok (VEnv.stage_run _ _ _)] at hrun
    obtain ⟨r', hr', hh, ht', hput⟩ := Staged.stage hfind ht
      (.streamPut r.space r.hdr.flow ((VEnv.of w q r).nextStream st ok chain))
    have hf' : Fits r' res := by
      unfold Fits
      rw [hh]
      exact hf
    refine (vendor_ends hi hs hrun hr' ht' hf').imp fun v hv => ?_
    obtain ⟨hst, hok, -⟩ := hv
    exact ⟨⟨hst, (hok hc).1⟩, fun _ => (hok hc).2 hput⟩

/-! DUKPT (R113, R114, R117). -/

section
variable {e : VEnv} {s : State} {k : KeyRec}

/-- The common header of a DUKPT command is good, and its KSN and its base key are (R117). -/
structure VEnv.DukptChecks (e : VEnv) (s : State) (k : KeyRec) : Prop where
  param : e.r.hdr.param = 0
  reserved : allZero (e.b 6 2) = true
  ksn : e.ksnOk = true
  key : e.keyed s 0 (e.f 0 4) (fun k => if e.f 4 1 = 1 then isAes k.alg else isTdea k.alg) k = true
  kind : e.f 4 1 = 1 ∧ 3 ≤ e.f 5 1 ∧ e.f 5 1 ≤ 5 ∨ e.f 4 1 = 2 ∧ e.f 5 1 = 0 ∧ allZero (e.b 18 2) = true

theorem VEnv.dukptHead_run (hc : e.DukptChecks s k) : e.dukptHead.run s = .ok ((), s) := by
  unfold VEnv.dukptHead VEnv.dukptAes?
  rcases hc.kind with ⟨h, hlo, hhi⟩ | ⟨h, hn, hz⟩
  · rw [VM.run_bind_ok (need_run _ s (by simp [h, hc.reserved])), VM.run_bind_ok (need_run _ s (by simp [h])),
      need_run _ s (by simp [h, hlo, hhi])]
  · rw [VM.run_bind_ok (need_run _ s (by simp [hz, hc.reserved])), VM.run_bind_ok (need_run _ s (by simp [h])),
      need_run _ s (by simp [h, hn])]

theorem VEnv.bdk_run (hc : e.DukptChecks s k) : e.bdk.run s = .ok (k, s) := by
  refine e.key_run s ?_
  have hfits : (fun k : KeyRec => if e.dukptAes? = true then isAes k.alg else isTdea k.alg) =
      fun k => if e.f 4 1 = 1 then isAes k.alg else isTdea k.alg := by
    funext k
    simp [VEnv.dukptAes?]
  rw [hfits]
  exact hc.key

theorem VEnv.wkAlg_eq (e : VEnv) : e.wkAlg = if e.f 4 1 = 1 then e.f 5 1 else 1 := by
  simp [VEnv.wkAlg, VEnv.dukptAes?]

/-- The MAC that a DUKPT command computes over the bytes that follow the tag. -/
def VEnv.dukptTag (e : VEnv) (k : KeyRec) : Bytes :=
  (macAlg (e.f 20 1) e.wkAlg (e.working .mac k) (e.from_ (24 + e.f 21 1)) (e.f 21 1)).take (e.f 21 1)

theorem runDukptMacVerify_run (hc : e.DukptChecks s k) (hl : 24 + e.f 21 1 ≤ e.r.hdr.plen) (hz : allZero (e.b 22 2) = true)
    (ha : e.f 4 1 = 1 ∧ e.f 20 1 = 1 ∨ e.f 4 1 = 2 ∧ (e.f 20 1 = 4 ∨ e.f 20 1 = 5))
    (hm : macLenOk (e.f 20 1) (e.f 21 1) = true) : (runDukptMacVerify e).run s =
    .ok ((if e.dukptTag k = e.b 24 (e.f 21 1) then 0 else stVerify, []), s) := by
  have halg : ((if e.dukptAes? = true then e.f 20 1 == 1 else e.f 20 1 == 4 || e.f 20 1 == 5) &&
      macLenOk (e.f 20 1) (e.f 21 1)) = true := by
    rw [hm, Bool.and_true]
    rcases ha with ⟨h, h1⟩ | ⟨h, h45⟩
    · simp [VEnv.dukptAes?, h, h1]
    · simpa [VEnv.dukptAes?, h] using h45
  unfold runDukptMacVerify
  rw [VM.run_bind_ok (e.shape_run s (by simp [VEnv.len, hl]) (by simp [hc.param]) (by simp [hz])),
    VM.run_bind_ok (VEnv.dukptHead_run hc), VM.run_bind_ok (need_run _ s halg), VM.run_bind_ok (VEnv.bdk_run hc),
    VM.run_bind_ok (need_run _ s hc.ksn)]
  rfl

theorem runDukptDataDecrypt_run (hc : e.DukptChecks s k) (hl : 40 ≤ e.r.hdr.plen) (hz : allZero (e.b 22 2) = true)
    (hiv : e.f 20 1 = 1 → allZero (e.b 24 16) = true) (htail : e.f 4 1 = 2 → allZero (e.b 32 8) = true)
    (hm : e.f 20 1 = 1 ∨ e.f 20 1 = 2) (hp : e.f 21 1 < 2) : (runDukptDataDecrypt e).run s =
    (dataOut (e.f 20 1) (e.f 21 1) e.wkAlg (e.working .data k) (e.b 24 16) (e.from_ 40)).run s := by
  have hzero : ((e.f 20 1 != 1 || allZero (e.b 24 16)) && (e.dukptAes? || allZero (e.b 32 8))) = true := by
    have h1 : (e.f 20 1 != 1 || allZero (e.b 24 16)) = true := by
      rcases hm with h | h
      · simp [hiv h]
      · simp [h]
    rw [h1, Bool.true_and]
    rcases hc.kind with ⟨h, -⟩ | ⟨h, -⟩
    · simp [VEnv.dukptAes?, h]
    · simp [htail h]
  unfold runDukptDataDecrypt
  rw [VM.run_bind_ok (e.shape_run s (by simp [VEnv.len, hl]) (by simp [hc.param]) (by simp [hz])),
    VM.run_bind_ok (need_run _ s hzero), VM.run_bind_ok (VEnv.dukptHead_run hc),
    VM.run_bind_ok (need_run _ s (by simpa [Nat.le_of_lt_succ hp] using hm)), VM.run_bind_ok (VEnv.bdk_run hc),
    VM.run_bind_ok (need_run _ s hc.ksn)]

end

/-- Settles O53, family by family. -/
theorem macAndData : Obligations.MacAndData := by
  intro s t w q r k hparam u x e b f rest zero gives fails verdict keyed decrypts dukpt wk working
  refine ⟨?mac, ?data, ?siv, ?dukpt⟩
  case mac =>
    intro h1 h10 hlen hz hk
    have hc : e.MacChecks u k :=
      { param := hparam, lowest := h1, highest := h10, length := hlen, reserved := hz, key := hk }
    exact ⟨fun hs hl hf => vendor_gives (i := .macGenerate t w q) rfl hs (runMacGenerate_run hc hl) hf,
      fun hs hl => vendor_verdict (i := .macVerify t w q) rfl hs (runMacVerify_run hc hl)⟩
  case data =>
    intro hl hz h1 h3 hp hctr hiv hk hhalf
    have hc : e.DataChecks u k :=
      { param := hparam, plen := hl, reserved := hz, lowest := h1, highest := h3, pad := hp, noCtr := hctr, iv := hiv,
        key := hk, half := hhalf }
    refine ⟨fun hs hw => ⟨fun h0 hf => ?_, fun h6 h4 hsc hst => ?_⟩, fun hs h0 => ?_⟩
    · exact vendor_gives (i := .dataEncrypt t w q) rfl hs (runDataEncrypt_run hc hw h0) hf
    · intro iv hf
      exact vendor_gives (i := .dataEncrypt t w q) rfl hs (runDataEncrypt_nonce_run hc h6 h4 hsc hst) hf
    · exact vendor_decrypts (i := .dataDecrypt t w q) rfl hs (runDataDecrypt_run hc h0)
  case siv =>
    intro al nl fl st parts leaves next hl hz ha hn hrest hseg hk
    have hc : e.SivChecks u k :=
      { param := hparam, plen := hl, reserved := hz, assoc := ha, nonce := hn, rest := hrest, key := hk }
    have hst : e.stream u = st := by
      unfold VEnv.stream
      rw [State.at_twin]
      rfl
    refine ⟨fun hs hmax => ?_, fun hs hmin hmax => ⟨fun m hm hf => ?_, fun hm => ?_⟩⟩
    · intro out hf
      have hrun := runSivSeal_run hc ⟨nofun, hmax⟩
      rw [hst] at hrun
      exact segment_ends (i := .sivSeal t w q) rfl hs (by decide) hf hrun
    · have hrun := runSivOpen_run (m := m) hc ⟨fun _ => hmin, hmax⟩ (hst.symm ▸ hm)
      rw [hst] at hrun
      exact segment_ends (i := .sivOpen t w q) rfl hs (by decide) hf hrun
    · have hrun := runSivOpen_forged_run hc ⟨fun _ => hmin, hmax⟩ (hst.symm ▸ hm)
      rw [hst] at hrun
      exact segment_ends (i := .sivOpen t w q) rfl hs (by decide) (.inl (Nat.zero_le _)) hrun
  case dukpt =>
    rintro ⟨hz, hksn, hk, hkind⟩
    have hc : e.DukptChecks u k := { param := hparam, reserved := hz, ksn := hksn, key := hk, kind := hkind }
    have hwk : e.wkAlg = wk := e.wkAlg_eq
    have hworking : ∀ use, e.working use k = working use := fun use => by
      unfold VEnv.working
      rw [hwk]
      rfl
    refine ⟨fun hs hl hz' ha hm => ?_, fun hs hl hz' hiv htail hm hp => ?_⟩
    · have hrun := runDukptMacVerify_run hc hl hz' ha hm
      unfold VEnv.dukptTag at hrun
      rw [hwk, hworking] at hrun
      exact vendor_verdict (i := .dukptMacVerify t w q) rfl hs hrun
    · have hrun := runDukptDataDecrypt_run hc hl hz' hiv htail hm hp
      rw [hwk, hworking] at hrun
      exact vendor_decrypts (i := .dukptDataDecrypt t w q) rfl hs hrun

end Sys2Proof.Machine
end

section
/-! Admin requests that were refused when they were enlisted (R71, R72, R236): the statements on admin commands leave them in. -/

namespace Sys2Proof.Machine

/-- An event brings a request to one end. -/
theorem Ends.common {i : Instr} {s : State} {w : Twin} {q : Nat} {p p' : EndRec → Prop} (h : Ends i s w q p)
    (h' : Ends i s w q p') : ∃ e, p e ∧ p' e := by
  obtain ⟨t, ht, r, e, hr, he, hp⟩ := h
  obtain ⟨t', ht', r', e', hr', he', hp'⟩ := h'
  cases ht.symm.trans ht'
  cases hr.symm.trans hr'
  cases he.symm.trans he'
  exact ⟨e, hp, hp'⟩

/-- When its turn comes, a request refused at its enlistment is answered with the status noted then. -/
theorem TwinSt.settleRoot_denied {x : TwinSt} {act : Bool} {now q : Nat} {r : Req} {k : Task}
    (h : Tbl.find? x.reqs q = some r) (hf : r.fin = none) (hb : r.begun = false) (hk : Tbl.find? r.tasks 0 = some k)
    (hdep : k.dep = 0) (ho : x.ordered act q r = false) (hs : r.space = adminSpace) (hm : r.matched = none)
    (hrep : x.replayOf r = none) (hd : r.denied ≠ 0) :
    x.settleRoot act now q = x.finish act now q { status := r.denied } := by
  have hcut : x.cutting q r = false := by simp [TwinSt.cutting, hs]
  unfold TwinSt.settleRoot
  simp [h, hf, hb, hk, hdep, ho, hcut, hm, hrep, hd, TwinSt.answer]

/-- A request that has ended is not run. -/
theorem State.admReady_of_fin {s : State} {w : Twin} {op q : Nat} {r : Req} (h : r.fin.isSome = true) :
    s.admReady w op q r = false := by
  cases hf : r.fin with
  | none => rw [hf] at h; cases h
  | some e => simp [State.admReady, hf]

/-- Whatever the command, such a request ends with the status noted, and the command does not run. -/
theorem admin_denied_ends {i : Instr} {s : State} {t op : Nat} {w : Twin} {q : Nat} {r : Req} {cmd : VEnv → VM EndRec}
    (hi : exec i s = admin t op w q cmd s) (ha : Asked s t op w q r) (hs : r.space = adminSpace) (hd : r.denied ≠ 0) :
    Ends i s w q (fun e => e.status = r.denied) := by
  obtain ⟨hr, hx, ht, haw, hready, hrep, -⟩ := ha
  obtain ⟨hf, -⟩ := id ht
  simp only [State.admReady, Bool.and_eq_true, Bool.not_eq_true', Option.any_eq_true, beq_iff_eq,
    Option.isNone_iff_eq_none] at hready
  obtain ⟨⟨⟨⟨-, hb⟩, hm⟩, k, hk, hdep⟩, ho⟩ := hready
  rw [← State.at_twin s t w] at hr hrep ht
  obtain ⟨r', hr', hfin, -, -⟩ := State.finish_fin (e := { status := r.denied }) hr hf
  have hend : (s.at t).runAdmin op w q cmd = (s.at t).finish w q { status := r.denied } := by
    have hset : (s.at t).updTwin w (fun x => x.settleRoot ((s.at t).isActive w) (s.at t).now q) =
        (s.at t).finish w q { status := r.denied } :=
      congrArg ((s.at t).setTwin w) (TwinSt.settleRoot_denied hr hf hb hk hdep ho hs hm hrep hd)
    have hdone : ((s.at t).finish w q { status := r.denied }).admReady w op q r' = false :=
      State.admReady_of_fin (by rw [hfin]; rfl)
    have hgo : ¬ (¬ (s.at t).executes w = true ∨ ¬ (s.at t).awake (twinBase w + 198) = true) := by
      rw [State.at_executes, hx, show (s.at t).awake (twinBase w + 198) = true from haw]
      simp
    unfold State.runAdmin
    rw [if_neg hgo]
    simp only [hset, hr', hdone, Bool.false_eq_true, not_false_eq_true, if_true]
  refine ⟨_, hi.trans (congrArg (fun u => Host.Outcome.next (settle s u)) hend), r', _, (settle_twin _ _ _).symm ▸ hr', hfin, ?_⟩
  exact (TwinSt.endOf_extends ht (.inl (Nat.zero_le _))).1

/-- A state-changing admin request that lost a predecessor while an earlier request of its id was in service (R71, R77): the status
stands noted until its turn comes. -/
def deniedRequest (op : Nat) (p : Bytes) : Req :=
  { hdr := { flags := 1, opcode := op, id := 7, plen := p.length, rlen := 4096 }, space := adminSpace, chunks := [(0, p)],
    tasks := [(0, {})], denied := stPredFailed }

/-- The module ready as shipped, with such a request at Twin A. -/
def deniedState (op : Nat) (p : Bytes) : State :=
  { State.reset with
    boot := { up := true, ready := true }, active := some .a, egress := some .a, resetN := true, power := { mod := .active },
    twinA := { role := .active, booted := true, store := factoryStore, reqs := [(5, deniedRequest op p)] } }

/-- Refutes O44: `Asked` leaves in a request refused at its enlistment, which is answered with `PREDECESSOR_FAILED` when its turn
comes (R71), so that `ADM_NOP` is not answered `OK`. -/
theorem not_adminQueries : ¬ Obligations.AdminQueries := by
  intro h
  have hasked : Asked (deniedState 0x0100 []) 0 0x0100 .a 5 (deniedRequest 0x0100 []) := by
    unfold Asked Timely
    decide +kernel
  obtain ⟨hnop, -⟩ := h (deniedState 0x0100 []) 0 .a 5 (deniedRequest 0x0100 [])
  obtain ⟨e, ⟨hok, -⟩, hdenied⟩ := (hnop hasked ⟨rfl, rfl⟩ (.inl (Nat.zero_le _))).common
    (admin_denied_ends (i := .admNop 0 .a 5) rfl hasked rfl (by decide))
  exact absurd (hok.symm.trans hdenied) (by decide)

/-- Refutes O45: the same request as `FW_SLOT_ACTIVATE` of the slot already in force, which is not answered `OK` either. -/
theorem not_adminActions : ¬ Obligations.AdminActions := by
  intro h
  let p : Bytes := [1, 0, 0, 0, 0, 0, 0, 0]
  have hasked : Asked (deniedState 0x0121 p) 0 0x0121 .a 5 (deniedRequest 0x0121 p) := by
    unfold Asked Timely
    decide +kernel
  obtain ⟨-, -, hactivate, -⟩ := h (deniedState 0x0121 p) 0 .a 5 (deniedRequest 0x0121 p) []
  obtain ⟨hsame, -⟩ := hactivate ⟨hasked, by decide +kernel⟩ rfl rfl (by decide +kernel) (by decide +kernel)
    (by decide +kernel) (.inl (by decide +kernel))
  obtain ⟨e, ⟨hok, -⟩, hdenied⟩ := (hsame (by decide +kernel) (.inr (by decide +kernel))).common
    (admin_denied_ends (i := .fwSlotActivate 0 .a 5) rfl hasked rfl (by decide))
  exact absurd (hok.symm.trans hdenied) (by decide)

end Sys2Proof.Machine
end

section
/-! Commands that take randomness for what they answer with: signatures, sealed key blocks and new PIN blocks (R94). -/

namespace Sys2Proof.Machine

section
variable (e : VEnv)

/-- The fill of a format 3 block takes randomness and nothing else (R94, R108). -/
theorem VEnv.fill3_keepsDuty (fuel n : Nat) : VM.Keeps (DutyKept e.w e.q) (e.fill3 fuel n) := by
  induction fuel generalizing n with
  | zero =>
    cases n with
    | zero => exact .pure DutyKept.rfl []
    | succ n => exact .fail _
  | succ fuel ih =>
    cases n with
    | zero => exact .pure DutyKept.rfl []
    | succ n =>
      unfold VEnv.fill3
      refine .bind DutyKept.trans (e.draw_keepsDuty 1) fun b => ?_
      dsimp only
      split
      · exact .bind DutyKept.trans (ih n) fun _ => .pure DutyKept.rfl _
      · exact ih (n + 1)

/-- A new PIN block takes randomness and nothing else (R94, R108). -/
theorem VEnv.pinMake_keepsDuty (f alg : Nat) (key pan : Bytes) (n : Nat) (pin : List Nat) :
    VM.Keeps (DutyKept e.w e.q) (e.pinMake f alg key pan n pin) := by
  unfold VEnv.pinMake
  dsimp only
  split
  · exact .bind DutyKept.trans (e.draw_keepsDuty _) fun _ => .pure DutyKept.rfl _
  split
  · exact .bind DutyKept.trans (e.draw_keepsDuty _) fun _ => .pure DutyKept.rfl _
  split
  · exact .bind DutyKept.trans (e.fill3_keepsDuty _ _) fun _ => .pure DutyKept.rfl _
  · exact .pure DutyKept.rfl _

/-- A sealed key block takes randomness and nothing else (R94, R105). -/
theorem VEnv.kbSeal_keepsDuty (kbpk : KeyRec) (row : FormRow) (expt : Byte) (opts : List Bytes) (key : Bytes) :
    VM.Keeps (DutyKept e.w e.q) (e.kbSeal kbpk row expt opts key) := by
  unfold VEnv.kbSeal
  extract_lets n ol short pad fillN sealWith
  have hdraw : ∀ m : Nat, VM.Keeps (DutyKept e.w e.q) (e.draw m) := e.draw_keepsDuty
  have hnone : VM.Keeps (DutyKept e.w e.q) (pure [] : VM Bytes) := .pure DutyKept.rfl []
  have hseal : ∀ rnd, VM.Keeps (DutyKept e.w e.q) (sealWith rnd) := by
    intro rnd
    unfold sealWith
    extract_lets opts ol fillWith
    have hfill : ∀ fill, VM.Keeps (DutyKept e.w e.q) (fillWith fill) := fun _ => .pure DutyKept.rfl _
    split
    · exact .bind DutyKept.trans hnone hfill
    · exact .bind DutyKept.trans (hdraw _) hfill
  split
  · exact .bind DutyKept.trans (hdraw _) hseal
  · exact .bind DutyKept.trans hnone hseal

end

section
variable {i : Instr} {s : State} {t op : Nat} {w : Twin} {q : Nat} {r : Req} {cmd : VEnv → VM (Nat × Bytes)} {m : VM Bytes}

/-- A vendor command whose checks pass, and which then takes randomness alone for what it answers with (R94). -/
theorem vendor_makes {out : Bytes} (hi : exec i s = vendor t op w q cmd s) (hs : Served s t op w q r)
    (hm : VM.Keeps (DutyKept w q) m) (hout : ranTo m (s.at t) = some out)
    (hrun : (cmd (VEnv.of w q r)).run (s.at t) = (do let b ← m; pure (0, b) : VM (Nat × Bytes)).run (s.at t))
    (hf : Fits r out) : Ends i s w q (fun v => v.status = 0 ∧ v.result = out) := by
  obtain ⟨u, hu⟩ := run_of_ranTo hout
  obtain ⟨hr, ht⟩ := hs.request
  obtain ⟨r', hr', hh, ht'⟩ := (hm _ _ _ hu).timely hr ht
  rw [VM.run_bind_ok hu] at hrun
  refine (vendor_ends hi hs hrun hr' ht' ?_).imp fun v => ExitRec.ok
  unfold Fits
  rw [hh]
  exact hf

end

end Sys2Proof.Machine
end

section
/-! The PIN commands (R108 to R111, R117). -/

namespace Sys2Proof.Machine

/-- A run whose first part stops goes no further. -/
theorem VM.run_bind_error {α β : Type} {m : VM α} {g : α → VM β} {s : State} {x : VStop} (h : m.run s = .error x) :
    (m >>= g).run s = .error x := by
  rw [StateT.run_bind, h]
  rfl

section
variable {e : VEnv} {s : State} {k1 k2 : KeyRec}

/-- A PAN and its length are as the formats of a command ask (R109). -/
def VEnv.PanGood (e : VEnv) (off n : Nat) (fs : List Nat) : Prop :=
  panReserved e off fs = true ∧ panLenOk n fs = true ∧ (fs.any pinNeedsPan = true → panOk (e.b off 10) n = true)

theorem VEnv.PanGood.digits {off n : Nat} {fs : List Nat} (h : e.PanGood off n fs) :
    (!fs.any pinNeedsPan || panOk (e.b off 10) n) = true := by
  obtain ⟨-, -, hd⟩ := h
  cases hn : fs.any pinNeedsPan
  · rfl
  · exact hd hn

/-- The fields that the commands of two formats share, from the first format's place on: the formats and the PAN's length, the
PAN, and the first block (R109, R110). -/
structure VEnv.PinFields (e : VEnv) (base : Nat) : Prop where
  gap : allZero (e.b (base + 3) 1) = true
  tail : allZero (e.b (base + 14) 2) = true
  half : e.halfZero (base + 16) (e.f base 1) = true
  pan : e.PanGood (base + 4) (e.f (base + 2) 1) [e.f base 1, e.f (base + 1) 1]

theorem VEnv.PinFields.digits {base : Nat} (h : e.PinFields base) :
    (!(pinNeedsPan (e.f base 1) || pinNeedsPan (e.f (base + 1) 1)) || panOk (e.b (base + 4) 10) (e.f (base + 2) 1)) = true := by
  simpa using h.pan.digits

/-- The PIN of a block that a command presents, if the block is of its format (R108). -/
def VEnv.pinAt (e : VEnv) (base block f alg : Nat) (key : Bytes) : Option (List Nat) :=
  pinRead f alg key (e.b (base + 4) 10) (e.f (base + 2) 1) (e.b block (pinLen f))

/-! Translation. -/

/-- A translation's answer: a new block, or `BAD_FORMAT` where the presented one gives no PIN (R108, R109). -/
def VEnv.repin (e : VEnv) (f : Nat) (k : KeyRec) (pan : Bytes) (n : Nat) : Option (List Nat) → VM (Nat × Bytes)
  | none => vfail stBadFormat
  | some pin => do
    let out ← e.pinMake f k.alg k.material pan n pin
    pure (0, out)

/-- `PIN_TRANSLATE`'s fields and keys are good. -/
structure VEnv.TranslateChecks (e : VEnv) (s : State) (k1 k2 : KeyRec) : Prop extends e.PinFields 8 where
  param : e.r.hdr.param = 0
  plen : e.r.hdr.plen = 40
  pair : pinPair (e.f 8 1) (e.f 9 1) = true
  source : e.keyed s 0 (e.f 0 4) (pinAlg (e.f 8 1)) k1 = true
  dest : e.keyed s 1 (e.f 4 4) (pinAlg (e.f 9 1)) k2 = true

theorem runPinTranslate_run (hc : e.TranslateChecks s k1 k2) : (runPinTranslate e).run s =
    (e.repin (e.f 9 1) k2 (e.b 12 10) (e.f 10 1) (e.pinAt 8 24 (e.f 8 1) k1.alg k1.material)).run s := by
  obtain ⟨hres, hlen, -⟩ := hc.pan
  unfold runPinTranslate
  rw [VM.run_bind_ok (e.shape_run s (by simp [VEnv.len, hc.plen]) (by simp [hc.param]) (by simp [hc.gap, hc.tail])),
    VM.run_bind_ok (need_run _ s (by rw [hres, hc.half]; rfl)), VM.run_bind_ok (need_run _ s (by rw [hc.pair, hlen]; rfl)),
    VM.run_bind_ok (e.key_run s hc.source), VM.run_bind_ok (e.key_run s hc.dest),
    VM.run_bind_ok (need_run _ s hc.toPinFields.digits)]
  rfl

/-- `DUKPT_PIN_TRANSLATE`'s fields and keys are good. -/
structure VEnv.DukptPinChecks (e : VEnv) (s : State) (k1 k2 : KeyRec) : Prop extends e.DukptChecks s k1, e.PinFields 24 where
  plen : e.r.hdr.plen = 56
  format : e.f 4 1 = 1 ∧ e.f 24 1 = 4 ∨ e.f 4 1 = 2 ∧ e.f 24 1 ≠ 4
  pair : pinPair (e.f 24 1) (e.f 25 1) = true
  dest : e.keyed s 1 (e.f 20 4) (pinAlg (e.f 25 1)) k2 = true

theorem runDukptPinTranslate_run (hc : e.DukptPinChecks s k1 k2) : (runDukptPinTranslate e).run s =
    (e.repin (e.f 25 1) k2 (e.b 28 10) (e.f 26 1) (e.pinAt 24 40 (e.f 24 1) e.wkAlg (e.working .pin k1))).run s := by
  obtain ⟨hres, hlen, -⟩ := hc.pan
  have hformat : (if e.dukptAes? = true then e.f 24 1 == 4 else e.f 24 1 != 4) = true := by
    rcases hc.format with ⟨h, hf⟩ | ⟨h, hf⟩ <;> simp [VEnv.dukptAes?, h, hf]
  unfold runDukptPinTranslate
  rw [VM.run_bind_ok (e.shape_run s (by simp [VEnv.len, hc.plen]) (by simp [hc.param]) (by simp [hc.gap, hc.tail])),
    VM.run_bind_ok (need_run _ s (by rw [hres, hc.half]; rfl)), VM.run_bind_ok (VEnv.dukptHead_run hc.toDukptChecks),
    VM.run_bind_ok (need_run _ s (by rw [hformat, hc.pair, hlen]; rfl)), VM.run_bind_ok (VEnv.bdk_run hc.toDukptChecks),
    VM.run_bind_ok (e.key_run s hc.dest), VM.run_bind_ok (need_run _ s hc.ksn),
    VM.run_bind_ok (need_run _ s hc.toPinFields.digits)]
  rfl

/-! The offset method (R111). -/

/-- The offset field: its digits and 0xF after them where an offset is verified, and nothing where one is made. -/
def VEnv.OffsetField (e : VEnv) : Bool → Prop
  | false => (4 ≤ e.f 10 1 ∧ e.f 10 1 ≤ 12) ∧ (∀ i, i < e.f 10 1 → (nibbles (e.b 56 6)).getD i 0 < 10) ∧
      (∀ i, e.f 10 1 ≤ i → i < 12 → (nibbles (e.b 56 6)).getD i 0 = 15)
  | true => e.f 10 1 = 0 ∧ allZero (e.b 56 6) = true

/-- A command of the offset method has good fields and keys. -/
structure VEnv.OffsetChecks (e : VEnv) (s : State) (gen : Bool) (k1 k2 : KeyRec) : Prop where
  param : e.r.hdr.param = 0
  plen : e.r.hdr.plen = 64
  gap : allZero (e.b 11 1) = true
  tail : allZero (e.b 22 2) = true
  last : allZero (e.b 62 2) = true
  half : e.halfZero 24 (e.f 8 1) = true
  format : isPinFormat (e.f 8 1) = true
  pan : e.PanGood 12 (e.f 9 1) [e.f 8 1]
  table : decTableOk (nibbles (e.b 48 8)) = true
  field : e.OffsetField gen
  pin : e.keyed s 0 (e.f 0 4) (pinAlg (e.f 8 1)) k1 = true
  validation : e.keyed s 1 (e.f 4 4) (fun k => isTdea k.alg || isAes k.alg) k2 = true

/-- The PIN that a command of the offset method presents. -/
def VEnv.offsetPin (e : VEnv) (k : KeyRec) : Option (List Nat) :=
  pinRead (e.f 8 1) k.alg k.material (e.b 12 10) (e.f 9 1) (e.b 24 (pinLen (e.f 8 1)))

/-- The natural PIN of the length of a PIN (R111). -/
def VEnv.naturalPin (e : VEnv) (k : KeyRec) (pin : List Nat) : List Nat :=
  ((naturalDigits k (e.b 40 8)).take pin.length).map (fun v => (nibbles (e.b 48 8)).getD v 0)

theorem length_nibbles (b : Bytes) : (nibbles b).length = 2 * b.length := by
  induction b with
  | nil => rfl
  | cons a b ih => simp [nibbles, ih]; omega

theorem length_fixLen (n : Nat) (b : Bytes) : (fixLen n b).length = n := by simp [fixLen, zeros]

theorem length_slice (b : Bytes) (off n : Nat) : (slice b off n).length = n := length_fixLen _ _

theorem VEnv.OffsetField.digits (h : e.OffsetField false) :
    (((nibbles (e.b 56 6)).take (e.f 10 1)).all (fun v => decide (v < 10)) &&
      ((nibbles (e.b 56 6)).drop (e.f 10 1)).all (fun v => v == 15)) = true := by
  obtain ⟨-, hlow, hhigh⟩ := h
  have hlen : (nibbles (e.b 56 6)).length = 12 := (length_nibbles _).trans (by rw [VEnv.b, length_slice])
  rw [Bool.and_eq_true, List.all_eq_true, List.all_eq_true]
  refine ⟨fun v hv => ?_, fun v hv => ?_⟩ <;> obtain ⟨i, hi, rfl⟩ := List.mem_iff_getElem.mp hv
  · obtain ⟨hdigit, hin⟩ := Nat.lt_min.mp (List.length_take ▸ hi)
    have hv := hlow i hdigit
    rw [List.getD_eq_getElem?_getD, List.getElem?_eq_getElem hin, Option.getD_some] at hv
    rw [List.getElem_take]
    exact decide_eq_true hv
  · have hin : e.f 10 1 + i < (nibbles (e.b 56 6)).length := by
      rw [List.length_drop] at hi
      omega
    have hv := hhigh _ (Nat.le_add_right _ i) (hlen ▸ hin)
    rw [List.getD_eq_getElem?_getD, List.getElem?_eq_getElem hin, Option.getD_some] at hv
    rw [List.getElem_drop]
    exact beq_iff_eq.mpr hv

theorem offsetPins_run {gen : Bool} (hc : e.OffsetChecks s gen k1 k2) : (offsetPins e gen).run s =
    ((e.offsetPin k1).elim (vfail stBadFormat) (fun d => pure (d, e.naturalPin k2 d)) : VM (List Nat × List Nat)).run s := by
  obtain ⟨hres, hlen, -⟩ := hc.pan
  have hempty : (!gen || (e.f 10 1 == 0 && allZero (e.b 56 6))) = true := by
    cases gen
    · rfl
    · obtain ⟨h0, hz⟩ := hc.field
      simp [h0, hz]
  have hdigits : (gen || (((nibbles (e.b 56 6)).take (e.f 10 1)).all (fun v => decide (v < 10)) &&
      ((nibbles (e.b 56 6)).drop (e.f 10 1)).all (fun v => v == 15))) = true := by
    cases gen
    · exact hc.field.digits
    · rfl
  have hlength : (gen || (decide (4 ≤ e.f 10 1) && decide (e.f 10 1 ≤ 12))) = true := by
    cases gen
    · simpa using hc.field.1
    · rfl
  unfold offsetPins
  rw [VM.run_bind_ok (e.shape_run s (by simp [VEnv.len, hc.plen]) (by simp [hc.param]) (by simp [hc.gap, hc.tail, hc.last])),
    VM.run_bind_ok (need_run _ s (by rw [hres, hc.half, hempty]; rfl)),
    VM.run_bind_ok (need_run _ s (by rw [hc.format, hlen, hlength, hc.table]; rfl)),
    VM.run_bind_ok (e.key_run s hc.pin), VM.run_bind_ok (e.key_run s hc.validation),
    VM.run_bind_ok (need_run _ s (by simpa using hc.pan.digits)), VM.run_bind_ok (need_run _ s hdigits)]
  unfold VEnv.offsetPin
  split
  · next h => rw [h]; rfl
  · next h => rw [h]; rfl

theorem offsetPins_some {gen : Bool} {d : List Nat} (hc : e.OffsetChecks s gen k1 k2) (hd : e.offsetPin k1 = some d) :
    (offsetPins e gen).run s = .ok ((d, e.naturalPin k2 d), s) := by
  rw [offsetPins_run hc, hd]
  rfl

theorem offsetPins_none {gen : Bool} (hc : e.OffsetChecks s gen k1 k2) (hd : e.offsetPin k1 = none) :
    (offsetPins e gen).run s = .error (.status stBadFormat s) := by
  rw [offsetPins_run hc, hd]
  rfl

theorem runPinVerifyOffset_run {d : List Nat} (hc : e.OffsetChecks s false k1 k2) (hd : e.offsetPin k1 = some d) :
    (runPinVerifyOffset e).run s = .ok ((if e.f 10 1 = d.length ∧
      List.zipWith (fun a o => (a + o) % 10) (e.naturalPin k2 d) ((nibbles (e.b 56 6)).take d.length) = d
      then 0 else stVerify, []), s) := by
  unfold runPinVerifyOffset
  rw [VM.run_bind_ok (offsetPins_some hc hd)]
  simp only [Bool.and_eq_true, beq_iff_eq]
  rfl

theorem runPinOffsetGenerate_run {d : List Nat} (hc : e.OffsetChecks s true k1 k2) (hd : e.offsetPin k1 = some d) :
    (runPinOffsetGenerate e).run s = .ok ((0, packNibbles
      ((List.zipWith (fun a o => (a + 10 - o) % 10) d (e.naturalPin k2 d) ++ List.replicate 12 15).take 12)), s) := by
  unfold runPinOffsetGenerate
  rw [VM.run_bind_ok (offsetPins_some hc hd)]
  rfl

/-! Comparison with a reference (R111). -/

/-- `PIN_VERIFY_REFERENCE`'s fields and keys are good. -/
structure VEnv.ReferenceChecks (e : VEnv) (s : State) (k1 k2 : KeyRec) : Prop extends e.PinFields 8 where
  param : e.r.hdr.param = 0
  plen : e.r.hdr.plen = 56
  halfRef : e.halfZero 40 (e.f 9 1) = true
  format : isPinFormat (e.f 8 1) = true
  formatRef : isPinFormat (e.f 9 1) = true
  key : e.keyed s 0 (e.f 0 4) (pinAlg (e.f 8 1)) k1 = true
  keyRef : e.keyed s 1 (e.f 4 4) (pinAlg (e.f 9 1)) k2 = true

/-- The verdict on two PINs, or `BAD_FORMAT` where a block gives none. -/
def comparePins : Option (List Nat) → Option (List Nat) → VM (Nat × Bytes)
  | some a, some b => pure (if a = b then 0 else stVerify, [])
  | _, _ => vfail stBadFormat

theorem runPinVerifyReference_run (hc : e.ReferenceChecks s k1 k2) : (runPinVerifyReference e).run s =
    (comparePins (e.pinAt 8 24 (e.f 8 1) k1.alg k1.material) (e.pinAt 8 40 (e.f 9 1) k2.alg k2.material)).run s := by
  obtain ⟨hres, hlen, -⟩ := hc.pan
  unfold runPinVerifyReference
  rw [VM.run_bind_ok (e.shape_run s (by simp [VEnv.len, hc.plen]) (by simp [hc.param]) (by simp [hc.gap, hc.tail])),
    VM.run_bind_ok (need_run _ s (by rw [hres, hc.half, hc.halfRef]; rfl)),
    VM.run_bind_ok (need_run _ s (by rw [hc.format, hc.formatRef, hlen]; rfl)),
    VM.run_bind_ok (e.key_run s hc.key), VM.run_bind_ok (e.key_run s hc.keyRef),
    VM.run_bind_ok (need_run _ s hc.toPinFields.digits)]
  rfl

theorem comparePins_run_none {a b : Option (List Nat)} (h : a = none ∨ b = none) :
    (comparePins a b).run s = .error (.status stBadFormat s) := by
  rcases h with rfl | rfl
  · rfl
  · cases a <;> rfl

theorem comparePins_run_some {a b : Option (List Nat)} (ha : a ≠ none) (hb : b ≠ none) :
    (comparePins a b).run s = .ok ((if a = b then 0 else stVerify, []), s) := by
  obtain ⟨c, rfl⟩ := Option.ne_none_iff_exists'.mp ha
  obtain ⟨d, rfl⟩ := Option.ne_none_iff_exists'.mp hb
  simp only [Option.some.injEq]
  rfl

end

/-- A command whose run is a translation (R108, R109). -/
theorem vendor_translates {i : Instr} {s : State} {t op : Nat} {w : Twin} {q : Nat} {r : Req} {cmd : VEnv → VM (Nat × Bytes)}
    {f : Nat} {k : KeyRec} {pan : Bytes} {n : Nat} {pin : Option (List Nat)} (hi : exec i s = vendor t op w q cmd s)
    (hs : Served s t op w q r)
    (hrun : (cmd (VEnv.of w q r)).run (s.at t) = ((VEnv.of w q r).repin f k pan n pin).run (s.at t)) :
    (pin = none → Ends i s w q (fun v => v.status = stBadFormat ∧ v.result = [])) ∧
    (∀ d out, pin = some d → ranTo ((VEnv.of w q r).pinMake f k.alg k.material pan n d) (s.at t) = some out → Fits r out →
      Ends i s w q (fun v => v.status = 0 ∧ v.result = out)) := by
  refine ⟨?_, ?_⟩
  · rintro rfl
    exact vendor_fails hi hs hrun
  · rintro d out rfl hout hf
    exact vendor_makes hi hs (VEnv.pinMake_keepsDuty _ _ _ _ _ _ _) hout hrun hf

/-- Settles O52, command by command. -/
theorem pinCommands : Obligations.PinCommands := by
  intro s t w q r k1 k2 hparam u e b f zero gives fails verdict pan anyBlock translates
  refine ⟨?translate, ?offset, ?reference, ?dukpt⟩
  case translate =>
    intro hs hl hgap htail hhalf hpair hpan hk1 hk2
    have hc : e.TranslateChecks u k1 k2 :=
      { param := hparam, plen := hl, gap := hgap, tail := htail, half := hhalf, pan := hpan, pair := hpair, source := hk1,
        dest := hk2 }
    exact vendor_translates (i := .pinTranslate t w q) rfl hs (runPinTranslate_run hc)
  case offset =>
    intro hl hgap htail hlast hhalf hformat hpan htable hk1 hk2 pin natural
    have hc : ∀ gen, e.OffsetField gen → e.OffsetChecks u gen k1 k2 := fun gen hfield =>
      { param := hparam, plen := hl, gap := hgap, tail := htail, last := hlast, half := hhalf, format := hformat, pan := hpan,
        table := htable, field := hfield, pin := hk1, validation := hk2 }
    refine ⟨fun hs h4 h12 hlow hhigh => ?_, fun hs h0 hz => ?_⟩
    · have hc := hc false ⟨⟨h4, h12⟩, hlow, hhigh⟩
      exact ⟨fun hn => vendor_fails (i := .pinVerifyOffset t w q) rfl hs (VM.run_bind_error (offsetPins_none hc hn)),
        fun d hd => vendor_verdict (i := .pinVerifyOffset t w q) rfl hs (runPinVerifyOffset_run hc hd)⟩
    · have hc := hc true ⟨h0, hz⟩
      exact ⟨fun hn => vendor_fails (i := .pinOffsetGenerate t w q) rfl hs (VM.run_bind_error (offsetPins_none hc hn)),
        fun d hd hf => vendor_gives (i := .pinOffsetGenerate t w q) rfl hs (runPinOffsetGenerate_run hc hd) hf⟩
  case reference =>
    intro hs hl hgap htail hhalf hhalf' hformat hformat' hpan hk1 hk2 mine ref
    have hc : e.ReferenceChecks u k1 k2 :=
      { param := hparam, plen := hl, gap := hgap, tail := htail, half := hhalf, halfRef := hhalf', format := hformat,
        formatRef := hformat', pan := hpan, key := hk1, keyRef := hk2 }
    have hrun := runPinVerifyReference_run hc
    exact ⟨fun hn => vendor_fails (i := .pinVerifyReference t w q) rfl hs (hrun.trans (comparePins_run_none hn)),
      fun ha hb => vendor_verdict (i := .pinVerifyReference t w q) rfl hs (hrun.trans (comparePins_run_some ha hb))⟩
  case dukpt =>
    intro hs hl hgap htail hhalf hkind hz hpair hpan hksn hk1 hk2 wk
    have hkinds : e.f 4 1 = 1 ∧ 3 ≤ e.f 5 1 ∧ e.f 5 1 ≤ 5 ∨ e.f 4 1 = 2 ∧ e.f 5 1 = 0 ∧ allZero (e.b 18 2) = true :=
      hkind.imp (fun h => ⟨h.1, h.2.1, h.2.2.1⟩) (fun h => ⟨h.1, h.2.1, h.2.2.2⟩)
    have hformat : e.f 4 1 = 1 ∧ e.f 24 1 = 4 ∨ e.f 4 1 = 2 ∧ e.f 24 1 ≠ 4 :=
      hkind.imp (fun h => ⟨h.1, h.2.2.2⟩) (fun h => ⟨h.1, h.2.2.1⟩)
    have hc : e.DukptPinChecks u k1 k2 :=
      { param := hparam, reserved := hz, ksn := hksn, key := hk1, kind := hkinds, plen := hl, gap := hgap, tail := htail,
        half := hhalf, pan := hpan, format := hformat, pair := hpair, dest := hk2 }
    have hrun := runDukptPinTranslate_run hc
    have hwk : e.wkAlg = wk := e.wkAlg_eq
    unfold VEnv.working at hrun
    rw [hwk] at hrun
    exact vendor_translates (i := .dukptPinTranslate t w q) rfl hs hrun

end Sys2Proof.Machine
end

section
/-! New keys of the vendor commands (R97, R139, R242). -/

namespace Sys2Proof.Machine

section
variable {x y : TwinSt} {q : Nat} {r : Req}

/-- The quota step of a request: what decides on its end in time, its compartment and the store stand (R139). -/
def QuotaOnly (q : Nat) (r : Req) (x y : TwinSt) : Prop :=
  SameDuty q x y ∧ y.store = x.store ∧ ∃ r', Tbl.find? y.reqs q = some r' ∧ r'.space = r.space

theorem TwinSt.quota_only {slots ext led : Nat} (h : x.quota q slots ext led = some y)
    (hr : Tbl.find? x.reqs q = some r) : QuotaOnly q r x y := by
  unfold TwinSt.quota at h
  simp only [hr] at h
  split at h
  · cases h
    exact ⟨.trans (y := { x with taken := _ }) ⟨rfl, rfl, rfl⟩ (.updReq _ _ fun _ => rfl), rfl, _,
      TwinSt.find?_updReq_same hr _, rfl⟩
  · cases h

theorem TwinSt.payKey_only {i : Option Nat} {ext led : Nat} (h : x.payKey q i ext led = some y)
    (hr : Tbl.find? x.reqs q = some r) : QuotaOnly q r x y := by
  unfold TwinSt.payKey at h
  split at h
  · split at h
    · cases h
      exact ⟨.updReq _ _ fun _ => rfl, rfl, _, TwinSt.find?_updReq_same hr _, rfl⟩
    · exact TwinSt.quota_only h hr
  · exact TwinSt.quota_only h hr

/-- A new key stands among the effects that its request has staged (R242). -/
theorem TwinSt.createKey_stages {i : Option Nat} {a : KeyAttr} {cls hd : Nat} {m : Bytes}
    (h : x.createKey q i a cls m = some (.inr (hd, y))) (hr : Tbl.find? x.reqs q = some r) :
    SameDuty q x y ∧ ∃ r', Tbl.find? y.reqs q = some r' ∧
      Effect.keyPut r.space hd (Machine.newKey a (x.store.comp r.space).gen cls m) ∈ r'.staged := by
  unfold TwinSt.createKey at h
  simp only [hr] at h
  split at h
  · cases h
  split at h
  · cases h
  split at h
  · cases h
  · next z hz =>
    obtain ⟨hduty, hstore, r', hr', hspace⟩ := TwinSt.payKey_only hz hr
    cases h
    refine ⟨hduty.trans (.updReq _ _ fun _ => rfl), _, TwinSt.find?_updReq_same hr' _, ?_⟩
    rw [hstore]
    simp [newKeyFx, hspace]

end

/-- What a command sets in the record of its new key, in an effect that it has staged. -/
def editKey (hd : Nat) (edit : KeyRec → KeyRec) (f : Effect) : Effect :=
  match f with
  | .keyPut c h k => if h = hd then .keyPut c h (edit k) else f
  | _ => f

/-- A new key made: its handle, and its record among the staged effects (R242). -/
theorem VEnv.newKey_run {e : VEnv} {s : State} {a : KeyAttr} {cls hd : Nat} {m : Bytes} {y : TwinSt} {r : Req}
    (h : (s.twin e.w).createKey e.q (some 0) a cls m = some (.inr (hd, y)))
    (hr : Tbl.find? (s.twin e.w).reqs e.q = some r) (ht : Timely (s.twin e.w) s.now e.q r) (edit : KeyRec → KeyRec) :
    ∃ u, (e.newKey a cls m edit).run s = .ok (hd, u) ∧ Staged e.w e.q r.hdr
      (.keyPut r.space hd (edit (Machine.newKey a ((s.twin e.w).store.comp r.space).gen cls m))) u := by
  obtain ⟨hduty, r1, hr1, hput⟩ := TwinSt.createKey_stages h hr
  have hkept := hduty.trans (.updReq y (p := e.q) (fun r => { r with staged := r.staged.map (editKey hd edit) }) fun _ => rfl)
  obtain ⟨r2, hr2, hh, ht2⟩ := (DutyKept.setTwin hkept).timely hr ht
  refine ⟨_, ?_, r2, hr2, hh, ht2, ?_⟩
  · unfold VEnv.newKey
    rw [VM.run_bind_ok (e.x_run s)]
    simp only [h]
    rfl
  · rw [State.twin_setTwin, TwinSt.find?_updReq_same hr1] at hr2
    cases hr2
    exact List.mem_map.mpr ⟨_, hput, if_pos rfl⟩

/-- The attributes of a new symmetric key whose fields are good (R97). -/
theorem symAttr_run {usage alg nonce expt top : Nat} (limit : Nat) (s : State) (ht : top ≤ 65536) (hu : usage < top)
    (ha : isSym alg = true) (hn : nonce < 2) (hx : expt < 2) : (symAttr usage alg nonce expt limit top).run s =
    .ok ({ usage := usage, alg := alg, expt := expt == 1, nonceEn := nonce == 1, limit := limit }, s) := by
  unfold symAttr
  rw [VM.run_bind_ok (need_run _ s (decide_eq_true (Nat.lt_of_lt_of_le hu ht))),
    VM.run_bind_ok (need_run _ s (by simp [ha, Nat.le_of_lt_succ hn, Nat.le_of_lt_succ hx, hu]))]
  rfl

/-- A command whose checks pass, and which then makes a symmetric key: its handle and check value, and its record among the
effects (R97, R99). -/
theorem vendor_creates {i : Instr} {s : State} {t op : Nat} {w : Twin} {q : Nat} {r : Req} {cmd : VEnv → VM (Nat × Bytes)}
    {a : KeyAttr} {m : Bytes} {hd : Nat} {y : TwinSt} (hi : exec i s = vendor t op w q cmd s) (hs : Served s t op w q r)
    (hrun : (cmd (VEnv.of w q r)).run (s.at t) =
      (do let h ← (VEnv.of w q r).newKey a 0 m id; pure (0, handleKcv h a.alg m) : VM (Nat × Bytes)).run (s.at t))
    (hk : (s.twin w).createKey q (some 0) a 0 m = some (.inr (hd, y))) (hf : Fits r (handleKcv hd a.alg m)) :
    Ends i s w q (fun v => v.status = 0 ∧ v.result = handleKcv hd a.alg m ∧
      ∀ f ∈ [Effect.keyPut r.space hd (newKey a ((s.twin w).store.comp r.space).gen 0 m)], f ∈ v.effects) := by
  obtain ⟨hr, ht⟩ := hs.request
  rw [← State.at_twin s t w] at hk ⊢
  obtain ⟨u, hu, r', hr', hh, ht', hput⟩ := VEnv.newKey_run (e := VEnv.of w q r) hk hr ht id
  rw [VM.run_bind_ok hu] at hrun
  refine (vendor_ends hi hs hrun hr' ht' ?_).imp fun v hv => ?_
  · unfold Fits
    rw [hh]
    exact hf
  · obtain ⟨hst, hok, -⟩ := hv
    obtain ⟨hres, heff⟩ := hok rfl
    exact ⟨hst, hres, List.forall_mem_singleton.mpr (heff hput)⟩

end Sys2Proof.Machine
end

section
/-! Key derivation and agreement, the export of an initial DUKPT key, and signatures (R116 to R120). -/

namespace Sys2Proof.Machine

section
variable {e : VEnv} {s : State} {k kb : KeyRec}

/-! Derivation (R116). -/

/-- The attributes that `KDF_DERIVE` asks for. -/
def VEnv.kdfAttr (e : VEnv) : KeyAttr :=
  { usage := e.f 8 4, alg := e.f 5 1, expt := e.f 6 1 == 1, nonceEn := e.f 7 1 == 1, limit := e.f 12 8 }

/-- The material that `KDF_DERIVE` derives: the label and the context follow the fixed fields. -/
def VEnv.kdfMaterial (e : VEnv) (k : KeyRec) : Bytes :=
  kdf108 (e.f 4 1) k.alg k.material (e.b 24 (e.f 20 2)) (e.b (24 + e.f 20 2) (e.f 22 2)) (symLen (e.f 5 1))

/-- `KDF_DERIVE`'s fields and key are good. -/
structure VEnv.KdfChecks (e : VEnv) (s : State) (k : KeyRec) : Prop where
  param : e.r.hdr.param = 0
  plen : e.r.hdr.plen = 24 + e.f 20 2 + e.f 22 2
  label : e.f 20 2 ≤ 256
  context : e.f 22 2 ≤ 256
  usage : e.f 8 4 < 0x1000
  alg : isSym (e.f 5 1) = true
  expt : e.f 6 1 < 2
  nonce : e.f 7 1 < 2
  prf : isPrf (e.f 4 1) = true
  key : e.keyed s 0 (e.f 0 4) (fun k => macKeyOk (e.f 4 1) k && (!(e.f 6 1 == 1) || k.exportable)) k = true

theorem runKdfDerive_run (hc : e.KdfChecks s k) : (runKdfDerive e).run s =
    (do let h ← e.newKey e.kdfAttr 0 (e.kdfMaterial k) id
        pure (0, handleKcv h e.kdfAttr.alg (e.kdfMaterial k)) : VM (Nat × Bytes)).run s := by
  unfold runKdfDerive
  rw [VM.run_bind_ok (e.shape_run s (by simp [VEnv.len, hc.plen, hc.label, hc.context]) (by simp [hc.param]) rfl),
    VM.run_bind_ok (symAttr_run _ s (by decide) hc.usage hc.alg hc.nonce hc.expt), VM.run_bind_ok (need_run _ s hc.prf),
    VM.run_bind_ok (e.key_run s hc.key)]
  rfl

/-! Agreement (R120). -/

/-- The attributes that `ECDH_DERIVE` asks for. -/
def VEnv.ecdhAttr (e : VEnv) : KeyAttr :=
  { usage := e.f 8 4, alg := e.f 4 1, expt := e.f 5 1 == 1, nonceEn := e.f 6 1 == 1, limit := e.f 12 8 }

/-- The peer's public point. -/
def VEnv.ecdhPeer (e : VEnv) (k : KeyRec) : Option (Nat × Nat) := ecDec (curveOf k.alg) (e.b 56 (e.f 20 2))

/-- The material that `ECDH_DERIVE` derives: the shared secret extracted under the salt, and expanded. -/
def VEnv.ecdhMaterial (e : VEnv) (k : KeyRec) (p : Nat × Nat) : Bytes :=
  kdf108 7 9 (hmac shaP384 (if allZero (e.b 24 32) then zeros 48 else e.b 24 32)
    (ecdhZ k.alg (beNat (k.material.take (curveOf k.alg).len)) p)) [] (e.b (56 + e.f 20 2) (e.f 22 2)) (symLen (e.f 4 1))

/-- `ECDH_DERIVE`'s fields and key are good. -/
structure VEnv.EcdhChecks (e : VEnv) (s : State) (k : KeyRec) : Prop where
  param : e.r.hdr.param = 0
  plen : e.r.hdr.plen = 56 + e.f 20 2 + e.f 22 2
  info : e.f 22 2 ≤ 256
  reserved : allZero (e.b 7 1) = true
  usage : e.f 8 4 < 0x1000
  alg : isSym (e.f 4 1) = true
  expt : e.f 5 1 < 2
  nonce : e.f 6 1 < 2
  key : e.keyed s 0 (e.f 0 4) (fun k => isEcc k.alg && handleClass (e.f 0 4) == 2) k = true
  point : e.f 20 2 = if k.alg = 0x20 then 65 else 97

theorem runEcdhDerive_run (hc : e.EcdhChecks s k) : (runEcdhDerive e).run s =
    ((e.ecdhPeer k).elim (vfail stBadFormat) (fun p => do
      let h ← e.newKey e.ecdhAttr 0 (e.ecdhMaterial k p) id
      pure (0, handleKcv h e.ecdhAttr.alg (e.ecdhMaterial k p))) : VM (Nat × Bytes)).run s := by
  have hpoint : (e.f 20 2 == 65 || e.f 20 2 == 97) = true := by
    rw [hc.point]
    split <;> rfl
  unfold runEcdhDerive
  rw [VM.run_bind_ok (e.shape_run s (by simp [VEnv.len, hc.plen, hpoint, hc.info]) (by simp [hc.param])
      (by simp [hc.reserved])),
    VM.run_bind_ok (symAttr_run _ s (by decide) hc.usage hc.alg hc.nonce hc.expt), VM.run_bind_ok (e.key_run s hc.key),
    VM.run_bind_ok (need_run _ s (beq_iff_eq.mpr hc.point))]
  unfold VEnv.ecdhPeer
  split
  · next h => rw [h]; rfl
  · next h => rw [h]; rfl

/-! The initial key of DUKPT (R117). -/

/-- The algorithm of the initial key under a base key. -/
def VEnv.ikAlg (e : VEnv) (k : KeyRec) : Nat := if e.dukptAes? then k.alg else 1

/-- The initial key under a base key. -/
def VEnv.initialKey (e : VEnv) (k : KeyRec) : Bytes :=
  if e.dukptAes? then aesIk (e.ikAlg k) k.material (e.b 8 8) else tdeaIk k.material (e.b 8 10)

/-- The key block of an initial key under a wrapping key. -/
def VEnv.ikBlock (e : VEnv) (k kb : KeyRec) : VM Bytes :=
  e.kbSeal kb { usage := ascii "B1", alg := if e.dukptAes? then 0x41 else 0x54, mode := 0x58, mask := 0 } 0x45
    ([kcvOpt "KP" kb.alg kb.kcv, kcvOpt "KC" (e.ikAlg k) (kcvOf (e.ikAlg k) 0 (e.initialKey k))] ++
      (if e.dukptAes? then [optBlock "IK" (hexOf (e.b 8 8))] else [])) (e.initialKey k)

/-- `DUKPT_IK_EXPORT`'s fields and keys are good; its transaction counter is 0, where the other DUKPT commands have one. -/
structure VEnv.IkChecks (e : VEnv) (s : State) (k kb : KeyRec) : Prop where
  param : e.r.hdr.param = 0
  plen : e.r.hdr.plen = 24
  reserved : allZero (e.b 6 2) = true
  kind : e.f 4 1 = 1 ∧ 3 ≤ e.f 5 1 ∧ e.f 5 1 ≤ 5 ∨ e.f 4 1 = 2 ∧ e.f 5 1 = 0 ∧ allZero (e.b 18 2) = true
  counter : e.ksnCtr = 0
  key : e.keyed s 0 (e.f 0 4) (fun k => if e.f 4 1 = 1 then isAes k.alg else isTdea k.alg) k = true
  wrap : e.keyed s 1 (e.f 20 4)
    (fun k' => (isTdea k'.alg || isAes k'.alg) && decide (strength (e.ikAlg k) ≤ strength k'.alg)) kb = true

theorem runDukptIkExport_run (hc : e.IkChecks s k kb) : (runDukptIkExport e).run s =
    (do let out ← e.ikBlock k kb; pure (0, out) : VM (Nat × Bytes)).run s := by
  have hhead : e.dukptHead.run s = .ok ((), s) := by
    unfold VEnv.dukptHead VEnv.dukptAes?
    rcases hc.kind with ⟨h, hlo, hhi⟩ | ⟨h, hn, hz⟩
    · rw [VM.run_bind_ok (need_run _ s (by simp [h, hc.reserved])), VM.run_bind_ok (need_run _ s (by simp [h])),
        need_run _ s (by simp [h, hlo, hhi])]
    · rw [VM.run_bind_ok (need_run _ s (by simp [hz, hc.reserved])), VM.run_bind_ok (need_run _ s (by simp [h])),
        need_run _ s (by simp [h, hn])]
  have hbdk : e.bdk.run s = .ok (k, s) := by
    refine e.key_run s ?_
    simpa [VEnv.dukptAes?] using hc.key
  unfold runDukptIkExport
  rw [VM.run_bind_ok (e.shape_run s (by simp [VEnv.len, hc.plen]) (by simp [hc.param]) rfl), VM.run_bind_ok hhead,
    VM.run_bind_ok hbdk]
  refine (VM.run_bind_ok (e.key_run s hc.wrap)).trans ?_
  rw [VM.run_bind_ok (need_run _ s (beq_iff_eq.mpr hc.counter))]
  rfl

/-! Signatures (R118, R119). -/

/-- `SIG_VERIFY`'s fields and key are good. -/
structure VEnv.SigChecks (e : VEnv) (s : State) (k : KeyRec) : Prop where
  param : e.r.hdr.param = 0
  plen : 8 + e.f 6 2 ≤ e.r.hdr.plen
  lowest : 1 ≤ e.f 4 1
  highest : e.f 4 1 ≤ 8
  digest : digestOk (e.f 4 1) (e.f 5 1) (e.from_ (8 + e.f 6 2)).length = true
  length : e.f 6 2 = sigLen (e.f 4 1) k.alg
  key : e.keyed s 0 (e.f 0 4) (fun k => (sigKeys (e.f 4 1)).contains k.alg && handleClass (e.f 0 4) == 1) k = true

/-- Only an RSA signature's length depends on its key (Table 5-11). -/
theorem sigLen_const {code : Nat} (h : 4 ≤ code) (alg alg' : Nat) : sigLen code alg = sigLen code alg' := by
  unfold sigLen
  split
  iterate 3 · omega
  all_goals rfl

theorem runSigVerify_run (hc : e.SigChecks s k) : (runSigVerify e).run s =
    .ok ((if sigCheck (e.f 4 1) k.alg (e.f 5 1) k.material (e.b 8 (e.f 6 2)) (e.from_ (8 + e.f 6 2)) = true then 0
      else stVerify, []), s) := by
  have hlen : (decide (e.f 4 1 ≤ 3) || e.f 6 2 == sigLen (e.f 4 1) 0) = true := by
    by_cases h : e.f 4 1 ≤ 3
    · simp [h]
    · simp [hc.length, sigLen_const (Nat.lt_of_not_le h) k.alg 0]
  unfold runSigVerify
  rw [VM.run_bind_ok (e.shape_run s (by simp [VEnv.len, hc.plen]) (by simp [hc.param]) rfl),
    VM.run_bind_ok (need_run _ s (by simp [hc.lowest, hc.highest, hc.digest, hlen])), VM.run_bind_ok (e.key_run s hc.key),
    VM.run_bind_ok (need_run _ s (beq_iff_eq.mpr hc.length))]
  rfl

/-- `SIGN`'s fields and key are good. -/
structure VEnv.SignChecks (e : VEnv) (s : State) (k : KeyRec) : Prop where
  param : e.r.hdr.param = 0
  plen : 8 ≤ e.r.hdr.plen
  reserved : allZero (e.b 6 2) = true
  lowest : 1 ≤ e.f 4 1
  highest : e.f 4 1 ≤ 6
  digest : digestOk (e.f 4 1) (e.f 5 1) (e.from_ 8).length = true
  key : e.keyed s 0 (e.f 0 4) (fun k => (sigKeys (e.f 4 1)).contains k.alg && handleClass (e.f 0 4) == 2) k = true

theorem runSign_run (hc : e.SignChecks s k) : (runSign e).run s =
    (do let sig ← e.sign (e.f 4 1) (e.f 5 1) k (e.from_ 8); pure (0, sig) : VM (Nat × Bytes)).run s := by
  unfold runSign
  rw [VM.run_bind_ok (e.shape_run s (by simp [VEnv.len, hc.plen]) (by simp [hc.param]) (by simp [hc.reserved])),
    VM.run_bind_ok (need_run _ s (by simp [hc.lowest, hc.highest, hc.digest])), VM.run_bind_ok (e.key_run s hc.key)]

end

/-- Settles O54, command by command. -/
theorem derivationAndSignatures : Obligations.DerivationAndSignatures := by
  intro s t w q r k hparam u x e b f zero gives keyed derives
  refine ⟨?kdf, ?ecdh, ?ik, ?verify, ?sign⟩
  case kdf =>
    intro ll cl a hs hl hll hcl hu ha hx hn hprf hk hd y hmade hf
    have hc : e.KdfChecks u k :=
      { param := hparam, plen := hl, label := hll, context := hcl, usage := hu, alg := ha, expt := hx, nonce := hn,
        prf := hprf, key := hk }
    have hends := vendor_creates (i := .kdfDerive t w q) (a := e.kdfAttr) (hd := hd) (y := y) rfl hs (runKdfDerive_run hc)
    exact hends hmade hf
  case ecdh =>
    intro pl il a cv hs hl hil hz hu ha hx hn hk hpl
    have hc : e.EcdhChecks u k :=
      { param := hparam, plen := hl, info := hil, reserved := hz, usage := hu, alg := ha, expt := hx, nonce := hn, key := hk,
        point := hpl }
    have hrun := runEcdhDerive_run hc
    refine ⟨fun hnone => ?_, fun p hp hd y hmade hf => ?_⟩
    · rw [show e.ecdhPeer k = none from hnone] at hrun
      exact vendor_fails (i := .ecdhDerive t w q) rfl hs hrun
    · rw [show e.ecdhPeer k = some p from hp] at hrun
      have hends := vendor_creates (i := .ecdhDerive t w q) (a := e.ecdhAttr) (hd := hd) (y := y) rfl hs hrun
      exact hends hmade hf
  case ik =>
    intro kb out hs hl hz hkind hctr hk aes alg ik row hkb hout hf
    have hc : e.IkChecks u k kb :=
      { param := hparam, plen := hl, reserved := hz, kind := hkind, counter := hctr, key := hk, wrap := hkb }
    exact (vendor_makes (i := .dukptIkExport t w q) rfl hs (VEnv.kbSeal_keepsDuty _ _ _ _ _ _) hout
      (runDukptIkExport_run hc) hf).imp fun v hv => ⟨hv.1, hv.2, List.forall_mem_nil _⟩
  case verify =>
    intro sl m hs hl h1 h8 hdig hsl hk
    have hc : e.SigChecks u k :=
      { param := hparam, plen := hl, lowest := h1, highest := h8, digest := hdig, length := hsl, key := hk }
    exact (vendor_ends_same (i := .sigVerify t w q) rfl hs (runSigVerify_run hc) (.inl (Nat.zero_le _))).imp
      fun v => ExitRec.noResult
  case sign =>
    intro sig hs hl hz h1 h6 hdig hk hsig hf
    have hc : e.SignChecks u k :=
      { param := hparam, plen := hl, reserved := hz, lowest := h1, highest := h6, digest := hdig, key := hk }
    exact (vendor_makes (i := .sign t w q) rfl hs (VEnv.sign_keepsDuty _ _ _ _ _) hsig (runSign_run hc) hf).imp
      fun v hv => ⟨hv.1, hv.2, List.forall_mem_nil _⟩

end Sys2Proof.Machine
end

section
/-! A command that waits, and `KEY_GENERATE` where the requests stand out of order (R139, R313, R320). -/

namespace Sys2Proof.Machine

section
variable {x : TwinSt} {q : Nat}

/-- A new key is made when an identity is left for it and its quota step passes (R242). -/
theorem TwinSt.createKey_of_paid {i : Option Nat} {a : KeyAttr} {cls id : Nat} {r : Req} {z : TwinSt} (m : Bytes)
    (hr : Tbl.find? x.reqs q = some r) (hid : r.newH[r.newUsed]? = some id) (h0 : id ≠ 0)
    (hpay : x.payKey q i (extSlots (materialLen a.alg cls)) (b2n a.ledger) = some z) :
    ∃ y, x.createKey q i a cls m = some (.inr (cls * 2 ^ 30 + id % 2 ^ 30, y)) := by
  unfold TwinSt.createKey
  simp only [hr, hid, if_neg h0, hpay]
  exact ⟨_, rfl⟩

/-- The quota step of keys to be drawn leaves what decides on its request's end in time (R139). -/
theorem SameDuty.prepay {i n slots ext led : Nat} {y : TwinSt} (h : x.prepay q i n slots ext led = some y) :
    SameDuty q x y := by
  unfold TwinSt.prepay at h
  split at h
  · cases h
    exact .rfl
  · obtain ⟨z, hz, rfl⟩ := Option.map_eq_some_iff.mp h
    cases hr : Tbl.find? x.reqs q with
    | none => simp [TwinSt.quota, hr] at hz
    | some r => exact (TwinSt.quota_only hz hr).1.trans (.updReq _ _ fun _ => Eq.refl _)

end

/-- A task that begins to wait for randomness leaves every end record. -/
theorem State.finOf_waitRng (s : State) (w : Twin) (p i q : Nat) :
    ((s.waitRng w p i).twin w).finOf q = (s.twin w).finOf q := by
  unfold State.waitRng State.updTwin
  rw [State.twin_setTwin]
  dsimp only
  split
  · rw [(SameReq.recharge _ _ _).finOf]
    exact TwinSt.finOf_awaitRng _ _ _ _
  · exact TwinSt.finOf_awaitRng _ _ _ _

/-- A vendor command that waits for randomness does not end its request (R177, R313). -/
theorem vendor_waits {i : Instr} {s v : State} {t op : Nat} {w : Twin} {q : Nat} {r : Req} {cmd : VEnv → VM (Nat × Bytes)}
    {p : EndRec → Prop} (hi : exec i s = vendor t op w q cmd s) (hs : Served s t op w q r)
    (hrun : (cmd (VEnv.of w q r)).run (s.at t) = .error (.halt (v.waitRng w q 0))) (hv : SameDuty q (s.twin w) (v.twin w)) :
    ¬ Ends i s w q p := by
  obtain ⟨hr, hx, ⟨hfin, -⟩, hready, hcore⟩ := hs
  have hend : (s.at t).runVendor op w q cmd = v.waitRng w q 0 := by
    have hrun' : (cmd (VEnv.mk w q r r.payload)).run (s.at t) = .error (.halt (v.waitRng w q 0)) := hrun
    unfold State.runVendor
    rw [State.at_twin, hr]
    simp only [hready, State.at_executes, hx, State.at_coreAwake, hcore, hrun', not_true_eq_false, or_self, if_false]
  have hnone : ((v.waitRng w q 0).twin w).finOf q = none := by
    rw [State.finOf_waitRng, hv.finOf, TwinSt.finOf, hr]
    exact hfin
  rintro ⟨t', ht', r', e, hr', he, -⟩
  cases ht'.symm.trans (hi.trans (congrArg (fun u => Host.Outcome.next (settle s u)) hend))
  rw [settle_twin] at hr'
  cases hnone.symm.trans (TwinSt.finOf_eq_some.mpr ⟨r', hr', he⟩)

/-- `KEY_GENERATE` whose quota step passes, and whose draw then finds no generator free, waits (R139, R320). -/
theorem runKeyGenerate_waits {e : VEnv} {s : State} {y : TwinSt} (hp : e.r.hdr.param = 0) (hl : e.r.hdr.plen = 16)
    (hz : allZero (e.b 7 1) = true) (hu : e.f 0 4 < 0x1000) (ha : isSym (e.f 4 1) = true) (hn : e.f 5 1 < 2)
    (hx : e.f 6 1 < 2)
    (hpay : (s.twin e.w).prepay e.q 0 1 1 (extSlots (symLen (e.f 4 1))) (b2n (e.f 8 8 != 0 || e.f 5 1 == 1)) = some y)
    (hwait : y.rng e.q 0 (symLen (e.f 4 1)) = .wait) :
    (runKeyGenerate e).run s = .error (.halt ((s.setTwin e.w y).waitRng e.w e.q 0)) := by
  have hpaid : (e.prepay 1 (extSlots (symLen (e.f 4 1))) (b2n (e.f 8 8 != 0 || e.f 5 1 == 1))).run s =
      .ok ((), s.setTwin e.w y) := by
    unfold VEnv.prepay
    rw [VM.run_bind_ok (e.x_run s)]
    simp only [hpay]
    rfl
  unfold runKeyGenerate
  rw [VM.run_bind_ok (e.shape_run s (by simp [VEnv.len, hl]) (by simp [hp]) (by simp [hz])),
    VM.run_bind_ok (symAttr_run _ s (by decide) hu ha hn hx)]
  refine (VM.run_bind_ok hpaid).trans (VM.run_bind_error ?_)
  change e.draw _ _ = _
  unfold VEnv.draw
  rw [State.twin_setTwin]
  simp only [hwait]

/-- Whether a consumer call waits. -/
def RngRes.waits : RngRes → Bool
  | .wait => true
  | _ => false

theorem RngRes.eq_wait {o : RngRes} (h : o.waits = true) : o = .wait := by
  cases o with
  | wait => rfl
  | _ => cases h

/-- `KEY_GENERATE` of an AES-128 key, by a request whose children have 1,024 generators in use. -/
def generateRequest : Req :=
  { hdr := { opcode := 0x0200, target := 3, id := 7, plen := 16, rlen := 4096 }, space := 3, image := 1,
    chunks := [(0, toLe 4 0x60 ++ [3] ++ zeros 11)], tasks := [(0, { st := .running, ctx := some ⟨0, 0⟩ })],
    newH := [9], gens := List.replicate 1024 (1, ({}, 0)) }

/-- That request at Twin A, behind one accepted later, and a compartment of one key slot. -/
def generateState : State :=
  { State.reset with
    boot := { up := true, ready := true }, active := some .a, egress := some .a, resetN := true, power := { mod := .active },
    twinA := { role := .active, booted := true, reqs := [(7, {}), (5, generateRequest)],
               store := { comps := [(3, { st := .active })], cfgA := { cells := [(65536 + 40 * 3 + 16, 1)] } },
               ent := { seeds := [(0, 1, zeros 32)] } } }

/-- Refutes O51: the statement takes any table of requests, rising (`Tbl.wf`) or not. In one that is not, the quota step of
`KEY_GENERATE` writes its request back in front of where it stood, so that its generators count twice toward the 2,048 of R320: the
draw of the key, which would have been given before that step, waits after it, and the request does not end. -/
theorem not_keyManagement : ¬ Obligations.KeyManagement := by
  intro h
  have hserved : Served generateState 0 0x0200 .a 5 generateRequest := by
    unfold Served Timely
    decide +kernel
  obtain ⟨m, hm⟩ := Option.isSome_iff_exists.mp
    (show ((VEnv.of .a 5 generateRequest).drawn (generateState.at 0) 16).isSome = true by decide +kernel)
  obtain ⟨z, hz⟩ := Option.isSome_iff_exists.mp
    (show ((generateState.twin .a).payKey 5 (some 0) 0 0).isSome = true by decide +kernel)
  obtain ⟨y, hy, hwait⟩ := (Option.any_eq_true _ _).mp (show ((generateState.twin .a).prepay 5 0 1 1 0 0).any
    (fun y => (y.rng 5 0 16).waits) = true by decide +kernel)
  obtain ⟨k, hk⟩ := TwinSt.createKey_of_paid (a := { usage := 0x60, alg := 3 }) (cls := 0) m hserved.1 rfl (by decide) hz
  have hrun := runKeyGenerate_waits (e := VEnv.of .a 5 generateRequest) (s := generateState.at 0) rfl rfl (by decide +kernel)
    (by decide +kernel) (by decide +kernel) (by decide +kernel) (by decide +kernel) hy (RngRes.eq_wait hwait)
  have hduty : SameDuty 5 (generateState.twin .a) (((generateState.at 0).setTwin .a y).twin .a) := .prepay hy
  obtain ⟨hgenerate, -⟩ := h generateState 0 .a 5 generateRequest
  exact vendor_waits (i := .keyGenerate 0 .a 5) rfl hserved hrun hduty
    (hgenerate m 9 hserved rfl rfl (by decide +kernel) (by decide +kernel) (by decide +kernel) (by decide +kernel)
      (by decide +kernel) hm ⟨k, hk⟩ (.inl (by simp [toLe, length_fixLen, zeros])))

end Sys2Proof.Machine
end

section
/-! What records, wake events and LOCK leave of tamper response, of the sticky bits and of NVM (R82, R163, R361, R363, R366). -/

namespace Sys2Proof.Machine

/-- Tamper response without the retained evidence buffer, the record that awaits its zeroizations, and the cause of LOCK. -/
def Tamper.core (x : Tamper) : Tamper := { x with buffer := [], overflow := 0, progress := none, lockCause := 0 }

/-- What a response acts on besides the twins: tamper response itself, the sticky bits and NVM. -/
structure Guarded where
  tamper : Tamper
  sticky : BitVec 12
  nvm    : Store

/-- The guarded part of the module. -/
def State.guarded (s : State) : Guarded := { tamper := s.tamper.core, sticky := s.sticky, nvm := s.nvm }

/-! Records and wake events. -/

theorem Tamper.keep_core (x : Tamper) (r : AlmRec) : (x.keep r).core = x.core := by
  unfold Tamper.keep
  cases mergeTop x.buffer r with
  | some e => rfl
  | none => dsimp only; split <;> rfl

/-- An entry of the retained buffer moves nothing that is guarded. -/
theorem State.keep_guarded (s : State) (r : AlmRec) : ({ s with tamper := s.tamper.keep r } : State).guarded = s.guarded := by
  simp only [State.guarded, Tamper.keep_core]

section
variable (s : State)

@[simp] theorem State.stamped_guarded (isl : Nat) : (s.stamped isl).guarded = s.guarded := by
  simp [State.guarded]

@[simp] theorem State.note_guarded (e : EvReq) : (s.note e).guarded = s.guarded := by
  unfold State.note
  by_cases hev : e.sev = sevEvid
  · rw [if_pos hev]
    split
    · rfl
    · split
      · exact s.keep_guarded _
      · rfl
  · rw [if_neg hev]
    split <;> rfl

@[simp] theorem State.event_guarded (id sev origin : Nat) (d : Bytes) : (s.event id sev origin d).guarded = s.guarded := by
  unfold State.event
  rw [State.note_guarded, State.stamped_guarded]

@[simp] theorem State.retain_guarded (id : Nat) (d : Bytes) : (s.retain id d).guarded = s.guarded := s.keep_guarded _

@[simp] theorem State.voidDraws_guarded (also : Bool) (p : Nat → Bool) (status : Nat) :
    (s.voidDraws also p status).guarded = s.guarded := by
  unfold State.voidDraws
  refine foldl_keeps (p := State.guarded) (fun s d => ?_) _ s
  exact s.stamped_guarded almanacIsl

@[simp] theorem State.finishResponse_guarded : s.finishResponse.guarded = s.guarded := by
  unfold State.finishResponse
  split
  · rfl
  · split
    · rfl
    · exact State.event_guarded _ _ _ _ _

theorem Woken.wakeZenith (w : Twin) : Woken s (s.wakeZenith w) := by
  unfold State.wakeZenith
  dsimp only
  split
  · exact .rfl
  · exact .wakeDom _ _

theorem Woken.guarded {s v : State} (h : Woken s v) : v.guarded = s.guarded := h.eq State.guarded (Eq.refl _)

theorem Woken.rreqs {s v : State} (h : Woken s v) : v.rreqs = s.rreqs := h.eq State.rreqs (Eq.refl _)

/-- A record leaves the stores of both twins. -/
@[simp] theorem State.event_store (id sev origin : Nat) (d : Bytes) (w : Twin) :
    ((s.event id sev origin d).twin w).store = (s.twin w).store := by
  unfold State.event
  dsimp only
  rw [State.note_twin]
  unfold State.stamped
  cases islandTwin (s.issuer id origin d) with
  | none => cases w <;> rfl
  | some v => cases w <;> cases v <;> rfl

end

/-- An evidence record that finds room goes to the end of the queue, with the stamp of its issuer (R33, R378). -/
theorem State.event_queue {s : State} (h : s.alm.ev.queue.length < 1024) (id origin : Nat) (d : Bytes) :
    (s.event id sevEvid origin d).alm.ev.queue = s.alm.ev.queue ++
      [{ id := id, sev := sevEvid, origin := origin, stamp := s.stampOf (s.issuer id origin d), detail := fixLen 16 d }] := by
  simp [State.event, State.note, h]

/-! LOCK. -/

/-- The aborts at a disable move neither tamper response nor the sticky bits; with nothing in flight they leave NVM. -/
theorem State.abortWhere_guarded (s : State) (p : TwinSt → Nat → Req → Bool) (status : Nat) :
    ∃ n, (s.abortWhere p status).guarded = { s.guarded with nvm := n } ∧ (s.rreqs = [] → n = s.nvm) := by
  refine ⟨(s.abortWhere p status).nvm, ?_, fun h => ?_⟩
  · have hvoid := fun q => s.voidDraws_guarded true q status
    exact congrArg (fun g : Guarded => { g with nvm := (s.abortWhere p status).nvm }) (hvoid _)
  · have hvoid := fun q => congrArg Guarded.nvm (s.voidDraws_guarded true q status)
    simp only [State.guarded] at hvoid
    simp [State.abortWhere, h, applyEffects, hvoid]

/-- A module with LOCK entered: its approvals are gone (R163, R363). -/
def Guarded.Locked (g : Guarded) (before : Guarded) : Prop :=
  ∃ n : Store, n.approvals = [] ∧ n.comps = before.nvm.comps ∧
    g = { before with tamper := { before.tamper with lock := true }, nvm := n }

theorem State.enterLock_locked (s : State) (cause : Nat) : (s.enterLock cause).guarded.Locked s.guarded :=
  ⟨(s.enterLock cause).nvm, by simp [State.enterLock, State.withdrawApprovals, State.updStores], Eq.refl _, Eq.refl _⟩

/-- A swap cancelled leaves compartments, approvals and the rest (R470). -/
theorem State.cancelSwap_locked {s : State} {g : Guarded} (h : s.guarded.Locked g) : s.cancelSwap.guarded.Locked g := by
  obtain ⟨n, happ, hcomps, hg⟩ := h
  unfold State.cancelSwap
  split
  · rw [State.event_guarded]
    have hn : s.nvm = n := congrArg Guarded.nvm hg
    exact ⟨{ n with swap := none }, happ, hcomps, by
      rw [← hn]
      exact congrArg (fun g : Guarded => { g with nvm := { s.nvm with swap := none } }) hg⟩
  · exact ⟨n, happ, hcomps, hg⟩

/-- LOCK entered with main power on, over an NVM from which the aborts have taken back what was not confirmed (R196, R363). -/
theorem State.lockNow_locked (s : State) (cause status origin : Nat) :
    ∃ n, (s.lockNow cause status origin).guarded.Locked { s.guarded with nvm := n } ∧ (s.rreqs = [] → n = s.nvm) := by
  obtain ⟨n, hg, hn⟩ := s.abortWhere_guarded (fun _ _ r => r.space != adminSpace) status
  have hlock := State.enterLock_locked (s.abortWhere (fun _ _ r => r.space != adminSpace) status) cause
  rw [hg] at hlock
  refine ⟨n, ?_, hn⟩
  unfold State.lockNow
  dsimp only
  split
  · exact hlock
  · exact State.cancelSwap_locked (by rwa [State.event_guarded])

end Sys2Proof.Machine
end

section
/-! Compartments of a store after a change of one of them, and the zeroization of several (R151, R361). -/

namespace Sys2Proof.Machine

theorem Store.comp_updComp (st : Store) (i j : Nat) (f : Comp → Comp) :
    (st.updComp i f).comp j = if j = i then f (st.comp i) else st.comp j := Tbl.getD_put _ _ _ _ _

@[simp] theorem Store.comp_updComp_same (st : Store) (c : Nat) (f : Comp → Comp) :
    (st.updComp c f).comp c = f (st.comp c) := by
  simp [Store.comp_updComp]

/-- Every compartment of a list zeroized is ZEROIZING, and one that was stays so. -/
theorem Store.comp_zeroize_foldl (now c : Nat) (l : List Nat) (st : Store)
    (h : c ∈ l ∨ (st.comp c).st = .zeroizing) :
    ((l.foldl (fun (st : Store) c => st.updComp c (fun x => x.zeroize now)) st).comp c).st = .zeroizing := by
  induction l generalizing st with
  | nil => simpa using h
  | cons a l ih =>
    refine ih _ ?_
    by_cases hc : c = a
    · right
      subst hc
      rw [Store.comp_updComp_same]
      rfl
    · rw [Store.comp_updComp, if_neg hc]
      simpa [hc] using h

theorem Store.approvals_zeroize_foldl (now : Nat) (l : List Nat) (st : Store) :
    (l.foldl (fun (st : Store) c => st.updComp c (fun x => x.zeroize now)) st).approvals = st.approvals :=
  foldl_keeps (p := Store.approvals) (fun st c => Eq.refl (st.updComp c _).approvals) l st

/-- An entry that a table gives stands in it. -/
theorem Tbl.mem_of_find? {α : Type} {t : Tbl α} {i : Nat} {x : α} (h : Tbl.find? t i = some x) : (i, x) ∈ t := by
  induction t with
  | nil => cases h
  | cons e t ih =>
    obtain ⟨j, y⟩ := e
    simp only [Tbl.find?] at h
    split at h
    · simp_all
    · exact List.mem_cons_of_mem _ (ih h)

/-- A compartment that the targets name and that is ACTIVE or SUSPENDED is a live target (R361). -/
theorem State.mem_liveTargets {s : State} {targets : List Nat} {c : Nat}
    (ht : targets.contains c || targets.contains 0xFFFE)
    (hst : (s.nvm.comp c).st = .active ∨ (s.nvm.comp c).st = .suspended) : c ∈ s.liveTargets targets := by
  cases hf : Tbl.find? s.nvm.comps c with
  | none =>
    have hdef : s.nvm.comp c = {} := by simp [Store.comp, Tbl.getD, hf]
    rw [hdef] at hst
    obtain h | h := hst <;> cases h
  | some x =>
    have hx : s.nvm.comp c = x := by simp [Store.comp, Tbl.getD, hf]
    rw [hx] at hst
    unfold State.liveTargets
    refine List.mem_map.mpr ⟨(c, x), List.mem_filter.mpr ⟨Tbl.mem_of_find? hf, ?_⟩, Eq.refl _⟩
    simpa [hst, or_comm] using ht

end Sys2Proof.Machine
end

section
/-! Alarms: how one qualifies, and how it is cleared (R355, R356, R369). -/

namespace Sys2Proof.Machine

/-- The classes and monitors of Table 15-1 have numbers of four and eight bits. -/
theorem monitorExists_bounds {cls mon : Nat} (h : monitorExists cls mon = true) : cls < 16 ∧ mon < 256 := by
  unfold monitorExists at h
  split at h <;> simp at h <;> omega

/-- The island that stamps a monitor's records, by their `ORIGIN`: the power manager of a twin, or the Meridian master for
Nightwatch's. -/
def monitorIsland (cls mon : Nat) : Nat :=
  if monitorOrigin cls mon = 1 then 205 else if monitorOrigin cls mon = 2 then 411 else 418

/-- The island that stamps the record of a qualification (R27). -/
theorem State.issuer_monitor (s : State) {cls mon : Nat} (h : monitorExists cls mon = true) (d : Bytes) :
    s.issuer (0x7000 + 256 * cls + mon) (monitorOrigin cls mon) d =
      if s.awake (monitorIsland cls mon) then monitorIsland cls mon else powerManager (monitorIsland cls mon) := by
  obtain ⟨hcls, hmon⟩ := monitorExists_bounds h
  have hid : (0x7000 + 256 * cls + mon) / 4096 = 7 := by omega
  unfold State.issuer monitorIsland
  by_cases h1 : monitorOrigin cls mon = 1
  · simp [hid, h1]
  · by_cases h2 : monitorOrigin cls mon = 2
    · simp [hid, h2]
    · simp [hid, h1, h2]

/-- The module once an alarm has qualified: the monitor asserted, the record made, the response signalled. -/
def State.qualified (s : State) (cls mon n reading : Nat) : State :=
  let e := classEntry s.alarms cls
  let r := s.responseOf e false
  let v := (s.setMonitor cls mon { trues := n, falses := 0, asserted := true, resp := r.1 }).event
    (0x7000 + 256 * cls + mon) sevEvid (monitorOrigin cls mon) (tamperDetail r cls mon (fld e 2 2) reading 0)
  { v with tamper := { v.tamper with pendResp := some (joinResponse v.tamper.pendResp r.1 (if r.1 = 2 then targetsOf e else [])) } }

section
variable {s : State} {t cls mon n reading : Nat}

theorem alarmQualify_below (h : n < fld (classEntry (s.at t).alarms cls) 2 2) :
    exec (.alarmQualify t cls mon n reading) s = .next (settle s (s.at t)) :=
  ev_of_eq (if_neg (by simp [decide_eq_false (Nat.not_le.mpr h)]))

theorem alarmQualify_reached (hm : (s.at t).mainSampling = true) (hx : monitorExists cls mon = true)
    (hmon : monitored (classEntry (s.at t).alarms cls) cls mon = true) (hout : (s.at t).sensorOut cls mon = false)
    (hc : (s.at t).condition (classEntry (s.at t).alarms cls) cls mon reading ≠ some false)
    (ha : (Tbl.getD s.tamper.monitors (monKey cls mon) ({} : Monitor)).asserted = false)
    (h : fld (classEntry (s.at t).alarms cls) 2 2 ≤ n) :
    exec (.alarmQualify t cls mon n reading) s = .next (settle s ((s.at t).qualified cls mon n reading)) :=
  ev_of_eq (if_pos (by simp [hm, hx, hmon, hout, hc, ha, h]))

theorem alarmDeassert_clears (hm : (s.at t).mainSampling = true)
    (hmon : monitored (classEntry (s.at t).alarms cls) cls mon = true) (hout : (s.at t).sensorOut cls mon = false)
    (ha : (Tbl.getD s.tamper.monitors (monKey cls mon) ({} : Monitor)).asserted = true)
    (hc : (s.at t).conditionOff (classEntry (s.at t).alarms cls) cls mon reading = true)
    (h : fld (classEntry (s.at t).alarms cls) 2 2 ≤ n) :
    exec (.alarmDeassert t cls mon ⟨n, reading⟩) s = .next (settle s ((s.at t).setMonitor cls mon
      { Tbl.getD s.tamper.monitors (monKey cls mon) ({} : Monitor) with asserted := false, trues := 0, falses := n })) :=
  ev_of_eq (if_pos (by simp [hm, hmon, hout, ha, hc, h]))

/-- No reading of the last sample shows the condition true; for the clocks, no island of the die raises its alarm (R355). -/
theorem State.conditionOff_of {e : Bytes}
    (h : if cls = 8 then ∀ i < 428, islandTwin i = meridianDie mon → s.clockAlarm i = false
      else readingTrue e cls mon reading ≠ some true) : s.conditionOff e cls mon reading = true := by
  unfold State.conditionOff
  split at h
  · rw [if_pos ‹_›]
    refine List.all_eq_true.mpr fun i hi => ?_
    by_cases hd : islandTwin i = meridianDie mon
    · rw [h i (List.mem_range.mp hi) hd]
      exact Bool.or_true _
    · rw [bne_iff_ne.mpr hd]
      exact Bool.true_or _
  · rw [if_neg ‹_›]
    exact bne_iff_ne.mpr h

theorem State.qualified_tamper :
    let r := s.responseOf (classEntry s.alarms cls) false
    Tbl.find? (s.qualified cls mon n reading).tamper.monitors (monKey cls mon) =
      some { trues := n, falses := 0, asserted := true, resp := r.1 } ∧
    (s.qualified cls mon n reading).tamper.pendResp =
      some (joinResponse s.tamper.pendResp r.1 (if r.1 = 2 then targetsOf (classEntry s.alarms cls) else [])) := by
  have hcore := congrArg Guarded.tamper (State.event_guarded
    (s.setMonitor cls mon ⟨n, 0, true, (s.responseOf (classEntry s.alarms cls) false).1⟩)
    (0x7000 + 256 * cls + mon) sevEvid (monitorOrigin cls mon)
    (tamperDetail (s.responseOf (classEntry s.alarms cls) false) cls mon (fld (classEntry s.alarms cls) 2 2) reading 0))
  have hpend := congrArg Tamper.pendResp hcore
  have hmon := congrArg Tamper.monitors hcore
  exact ⟨(congrArg (Tbl.find? · (monKey cls mon)) hmon).trans (Tbl.find?_put_same _ _ _),
    congrArg (fun p => some (joinResponse p (s.responseOf (classEntry s.alarms cls) false).1
      (if (s.responseOf (classEntry s.alarms cls) false).1 = 2 then targetsOf (classEntry s.alarms cls) else []))) hpend⟩

theorem State.qualified_queue (hx : monitorExists cls mon = true) (hroom : s.alm.ev.queue.length < 1024) :
    ∃ v : EvReq, (s.qualified cls mon n reading).alm.ev.queue = s.alm.ev.queue ++ [v] ∧
      v.id = 0x7000 + 256 * cls + mon ∧
      v.stamp = s.stampOf (if s.awake (monitorIsland cls mon) then monitorIsland cls mon
        else powerManager (monitorIsland cls mon)) ∧
      v.detail = fixLen 16 (tamperDetail (s.responseOf (classEntry s.alarms cls) false) cls mon
        (fld (classEntry s.alarms cls) 2 2) reading 0) := by
  have hqueue := State.event_queue
    (s := s.setMonitor cls mon ⟨n, 0, true, (s.responseOf (classEntry s.alarms cls) false).1⟩) hroom
    (0x7000 + 256 * cls + mon) (monitorOrigin cls mon)
    (tamperDetail (s.responseOf (classEntry s.alarms cls) false) cls mon (fld (classEntry s.alarms cls) 2 2) reading 0)
  rw [State.issuer_monitor _ hx] at hqueue
  exact ⟨_, hqueue, rfl, rfl, rfl⟩

end

end Sys2Proof.Machine
end

section
/-! A response at its effect point (R360 to R363, Table 15-5). -/

namespace Sys2Proof.Machine

/-- The module with every twin and Zenith woken, and the response no longer signalled. -/
def State.roused (s : State) : State :=
  let v := ({ s with tamper := { s.tamper with pendResp := none } } : State).setSticky attnTamper
  (((v.wakeTwin .a).wakeTwin .b).wakeZenith .a).wakeZenith .b

/-- LOCK entered by a response that brings it. -/
def State.lockBy (s : State) (r : Nat) : State := if 1 ≤ r then s.lockNow 1 stTamper 3 else s

theorem State.lockBy_locked (s : State) {r : Nat} (h : 1 ≤ r) :
    ∃ n, (s.lockBy r).guarded.Locked { s.guarded with nvm := n } ∧ (s.rreqs = [] → n = s.nvm) := by
  unfold State.lockBy
  rw [if_pos h]
  exact s.lockNow_locked 1 stTamper 3

/-- LOCK moves neither the response signalled nor the sticky bits; with nothing in flight it leaves the compartments. -/
theorem State.lockBy_keeps (s : State) (r : Nat) : (s.lockBy r).tamper.pendResp = s.tamper.pendResp ∧
    (s.lockBy r).sticky = s.sticky ∧ (s.rreqs = [] → (s.lockBy r).nvm.comps = s.nvm.comps) := by
  by_cases h : 1 ≤ r
  · obtain ⟨n, ⟨m, -, hcomps, hg⟩, hn⟩ := s.lockBy_locked h
    refine ⟨congrArg (·.tamper.pendResp) hg, congrArg Guarded.sticky hg, fun hq => ?_⟩
    exact (congrArg (·.nvm.comps) hg).trans (hcomps.trans (congrArg Store.comps (hn hq)))
  · unfold State.lockBy
    rw [if_neg h]
    exact ⟨rfl, rfl, fun _ => rfl⟩

theorem State.lockBy_locks (s : State) {r : Nat} (h : 1 ≤ r) :
    (s.lockBy r).tamper.lock = true ∧ (s.lockBy r).nvm.approvals = [] := by
  obtain ⟨_, ⟨m, happ, -, hg⟩, -⟩ := s.lockBy_locked h
  exact ⟨congrArg (·.tamper.lock) hg, (congrArg (·.nvm.approvals) hg).trans happ⟩

/-- The zeroization that a response brings. -/
def State.zeroizeBy (s : State) (r : Nat) (targets : List Nat) : State :=
  if r = 3 then s.beginZeroize 3 [0xFFFE] else if r = 2 then s.beginZeroize 2 targets else s

theorem exec_tamperResponseEffect (t : Nat) (s : State) :
    exec (.tamperResponseEffect t) s = execTamperResponseEffect t s := rfl

theorem tamperResponseEffect_responds {s : State} {r : Nat} {targets : List Nat} (t : Nat)
    (hp : s.tamper.pendResp = some (r, targets)) (hm : s.mainSampling = true) :
    exec (.tamperResponseEffect t) s = .next (settle s (((s.at t).roused.lockBy r).zeroizeBy r targets)) := by
  rw [exec_tamperResponseEffect]
  refine ev_of_eq ?_
  have hon : (s.at t).mainSampling = true := hm
  simp only [State.at_tamper, hp, hon, not_true_eq_false, if_false]
  rfl

theorem State.roused_woken (s : State) :
    Woken (({ s with tamper := { s.tamper with pendResp := none } } : State).setSticky attnTamper) s.roused :=
  (((Woken.wakeTwin _ .a).trans (.wakeTwin _ .b)).trans (.wakeZenith _ .a)).trans (.wakeZenith _ .b)

theorem State.roused_guarded (s : State) : s.roused.guarded =
    { tamper := { s.tamper.core with pendResp := none }, sticky := s.sticky ||| attnTamper, nvm := s.nvm } :=
  s.roused_woken.guarded

theorem State.roused_rreqs (s : State) : s.roused.rreqs = s.rreqs := s.roused_woken.rreqs

theorem State.beginZeroize_guarded (s : State) (r : Nat) (targets : List Nat) : (s.beginZeroize r targets).guarded =
    (if r = 3 then (s.zeroizeComps (s.liveTargets targets)).zeroizeModule
      else s.zeroizeComps (s.liveTargets targets)).guarded := by
  unfold State.beginZeroize
  rw [State.finishResponse_guarded]
  rfl

theorem State.beginZeroize_keeps (s : State) (r : Nat) (targets : List Nat) :
    (s.beginZeroize r targets).tamper.lock = s.tamper.lock ∧ (s.beginZeroize r targets).tamper.pendResp = s.tamper.pendResp ∧
    (s.beginZeroize r targets).sticky = s.sticky ∧ (s.beginZeroize r targets).nvm.approvals = s.nvm.approvals := by
  have hg := s.beginZeroize_guarded r targets
  have happ := Store.approvals_zeroize_foldl s.now (s.liveTargets targets) s.nvm
  split at hg <;>
    exact ⟨congrArg (·.tamper.lock) hg, congrArg (·.tamper.pendResp) hg, congrArg Guarded.sticky hg,
      (congrArg (·.nvm.approvals) hg).trans happ⟩

/-- A zeroization keeps LOCK, the signalled response, the sticky bits and the approvals. -/
theorem State.zeroizeBy_keeps (s : State) (r : Nat) (targets : List Nat) :
    (s.zeroizeBy r targets).tamper.lock = s.tamper.lock ∧ (s.zeroizeBy r targets).tamper.pendResp = s.tamper.pendResp ∧
    (s.zeroizeBy r targets).sticky = s.sticky ∧ (s.zeroizeBy r targets).nvm.approvals = s.nvm.approvals := by
  unfold State.zeroizeBy
  split
  · exact s.beginZeroize_keeps 3 [0xFFFE]
  · split
    · exact s.beginZeroize_keeps 2 targets
    · exact ⟨rfl, rfl, rfl, rfl⟩

/-- ZEROIZE-MODULE erases the Module Root Key (R362). -/
theorem State.zeroizeBy_mrk (s : State) (targets : List Nat) :
    (s.zeroizeBy 3 targets).tamper.mrk = none ∧ (s.zeroizeBy 3 targets).tamper.mrkLost = true := by
  have hg := s.beginZeroize_guarded 3 [0xFFFE]
  exact ⟨congrArg (·.tamper.mrk) hg, congrArg (·.tamper.mrkLost) hg⟩

/-- ZEROIZE-COMPARTMENT sets every live target ZEROIZING (R361). -/
theorem State.zeroizeBy_comp {s : State} {targets : List Nat} {c : Nat} (hc : c ∈ s.liveTargets targets) :
    ((s.zeroizeBy 2 targets).nvm.comp c).st = .zeroizing := by
  have hg := congrArg (fun g => (g.nvm.comp c).st) (s.beginZeroize_guarded 2 targets)
  exact hg.trans (Store.comp_zeroize_foldl s.now c _ s.nvm (.inl hc))

end Sys2Proof.Machine
end

section
/-! Backup windows (R364 to R366). -/

namespace Sys2Proof.Machine

/-- Every qualification of a window has the response of its monitor's class. -/
theorem State.windowMon_response {s : State} {x : MonSample} {h : Nat × Nat × Nat × Bytes} (hh : h ∈ (s.windowMon x).2) :
    h.2.2.1 = (s.responseOf (classEntry s.tamper.retained x.cls) true).1 := by
  unfold State.windowMon at hh
  dsimp only at hh
  split at hh
  · cases hh
  · obtain ⟨i, -, rfl⟩ := List.mem_map.mp hh
    rfl

/-- The module with a window's sample of one monitor taken. -/
def State.sampled (s : State) (x : MonSample) : State :=
  if onBackup x.cls x.mon ∧ monitorExists x.cls x.mon then s.setMonitor x.cls x.mon (s.windowMon x).1 else s

/-- The qualifications of a monitor in a window, in the order of their samples. -/
def State.windowHits (s : State) (x : MonSample) : List (Nat × Nat × Nat × Bytes) :=
  (List.range 8).flatMap (fun i => (s.windowMon x).2.filter (fun q => q.1 == i))

/-- The state of the main rails that a window finds, where main power is off. -/
def State.withRails (s : State) (rails : Bool) : State :=
  if s.boot.mainOn then s else { s with boot := { s.boot with railsBack := rails } }

/-- A window counted, where main power is off. -/
def State.counted (s : State) : State :=
  if s.powered then s else { s with tamper := { s.tamper with windows := s.tamper.windows + 1 } }

theorem State.withRails_tamper (s : State) (rails : Bool) : (s.withRails rails).tamper = s.tamper := by
  unfold State.withRails
  split <;> rfl

theorem State.counted_keeps (s : State) : s.counted.tamper.lock = s.tamper.lock ∧ s.counted.tamper.mrk = s.tamper.mrk := by
  unfold State.counted
  split <;> exact ⟨rfl, rfl⟩

/-- A window counted on the tamper response that the state already has. -/
theorem State.counted_eq {v : State} {x : Tamper} (h : v.tamper = x) :
    (if v.powered then v else { v with tamper := { x with windows := x.windows + 1 } }) = v.counted := by
  subst h
  rfl

/-- The qualifications of a window retained. -/
def State.retained (s : State) (x : MonSample) : State :=
  (s.windowHits x).foldl (fun s q => s.retain q.2.1 q.2.2.2) (s.sampled x)

/-- The strongest response of some qualifications. -/
def strongest (l : List (Nat × Nat × Nat × Bytes)) : Nat := l.foldl (fun n q => max n q.2.2.1) 0

theorem exec_backupWindow (t : Nat) (window : Window) (s : State) :
    exec (.backupWindow t window) s = execBackupWindow t window s := rfl

theorem backupWindow_one {s : State} (t : Nat) (hm : s.mainSampling = false) (x : MonSample) (rails : Bool) :
    exec (.backupWindow t { rails := rails, samples := [x] }) s = .next (settle s
      ((((s.at t).withRails rails).counted.retained x).backupResponse
        (strongest (((s.at t).withRails rails).counted.windowHits x)))) := by
  have hoff : (!(s.at t).mainSampling) = true := congrArg not hm
  rw [exec_backupWindow]
  refine ev_of_eq ((if_pos hoff).trans ?_)
  generalize hv : ((s.at t).withRails rails).counted = v
  have hone : ([x].map (fun x => (x, v.windowMon x))).flatMap (fun x => x.2.2) = (v.windowMon x).2 := by simp
  unfold State.retained State.windowHits
  rw [← hone, ← hv]
  rfl

section
variable (s : State) (x : MonSample)

theorem State.retained_guarded : (s.retained x).guarded = (s.sampled x).guarded :=
  foldl_keeps (p := State.guarded) (fun s _ => s.retain_guarded _ _) _ _

theorem State.sampled_keeps : (s.sampled x).tamper.lock = s.tamper.lock ∧ (s.sampled x).tamper.windows = s.tamper.windows ∧
    (s.sampled x).tamper.mrk = s.tamper.mrk := by
  unfold State.sampled
  split <;> exact ⟨rfl, rfl, rfl⟩

theorem State.retained_keeps : (s.retained x).tamper.lock = s.tamper.lock ∧
    (s.retained x).tamper.windows = s.tamper.windows ∧ (s.retained x).tamper.mrk = s.tamper.mrk := by
  obtain ⟨hlock, hwin, hmrk⟩ := s.sampled_keeps x
  have hg := s.retained_guarded x
  exact ⟨(congrArg (·.tamper.lock) hg).trans hlock, (congrArg (·.tamper.windows) hg).trans hwin,
    (congrArg (·.tamper.mrk) hg).trans hmrk⟩

end

theorem State.mem_windowHits {s : State} {x : MonSample} {h : Nat × Nat × Nat × Bytes} :
    h ∈ s.windowHits x ↔ h ∈ (s.windowMon x).2 ∧ h.1 < 8 := by
  simp only [State.windowHits, List.mem_flatMap, List.mem_range, List.mem_filter, beq_iff_eq]
  constructor
  · rintro ⟨i, hi, hh, rfl⟩
    exact ⟨hh, hi⟩
  · exact fun ⟨hh, hi⟩ => ⟨h.1, hi, hh, rfl⟩

/-- Qualifications of one class bring the response of that class. -/
theorem foldl_max_response {l : List (Nat × Nat × Nat × Bytes)} {r : Nat} (hl : ∀ q ∈ l, q.2.2.1 = r) (m : Nat)
    (hm : m = r ∨ l ≠ []) (hle : m ≤ r) :
    l.foldl (fun n q => max n q.2.2.1) m = r := by
  induction l generalizing m with
  | nil => simpa using hm
  | cons q l ih =>
    have hq := hl q (by simp)
    refine ih (fun q h => hl q (by simp [h])) _ (.inl ?_) ?_ <;> dsimp only <;> omega

theorem State.strongest_windowHits {s : State} {x : MonSample} {h : Nat × Nat × Nat × Bytes} (hh : h ∈ s.windowHits x) :
    strongest (s.windowHits x) = h.2.2.1 := by
  refine foldl_max_response (fun q hq => ?_) 0 (.inr (List.ne_nil_of_mem hh)) (Nat.zero_le _)
  rw [State.windowMon_response (State.mem_windowHits.mp hq).1, State.windowMon_response (State.mem_windowHits.mp hh).1]

section
variable (s : State)

/-- LOCK entered by a response on backup power, where it does not hold yet. -/
def State.lockedFor (r : Nat) : State := if 1 ≤ r ∧ ¬ s.tamper.lock then s.enterLock 1 else s

theorem State.lockedFor_lock {r : Nat} (h : 1 ≤ r) : (s.lockedFor r).tamper.lock = true ∧
    (s.tamper.lock = false → (s.lockedFor r).nvm.approvals = []) := by
  unfold State.lockedFor
  by_cases hl : s.tamper.lock = true
  · simp [hl]
  · rw [if_pos ⟨h, hl⟩]
    exact ⟨rfl, fun _ => by simp [State.enterLock, State.withdrawApprovals, State.updStores]⟩

theorem State.lockedFor_windows (r : Nat) : (s.lockedFor r).tamper.windows = s.tamper.windows := by
  unfold State.lockedFor
  split <;> rfl

/-- The Module Root Key erased. -/
def Guarded.loseMrk (g : Guarded) : Guarded := { g with tamper := { g.tamper with mrk := none } }

theorem State.backupResponse_guarded (r : Nat) : (s.backupResponse r).guarded =
    if r = 3 then (s.lockedFor r).guarded.loseMrk else (s.lockedFor r).guarded := by
  have hlock : (if 1 ≤ r ∧ ¬ s.tamper.lock then (s.enterLock 1).retain 0x7F00 (responseDetail 1 []) else s).guarded =
      (s.lockedFor r).guarded := by
    unfold State.lockedFor
    split
    · exact State.retain_guarded _ _ _
    · rfl
  unfold State.backupResponse
  dsimp only
  split
  · rw [State.retain_guarded, ← hlock]
    rfl
  · exact hlock

/-- The response on backup power leaves the count of windows. -/
theorem State.backupResponse_windows (r : Nat) : (s.backupResponse r).tamper.windows = s.tamper.windows := by
  have hg := congrArg (·.tamper.windows) (s.backupResponse_guarded r)
  refine Eq.trans (hg.trans ?_) (s.lockedFor_windows r)
  split <;> rfl

theorem State.backupResponse_lock {r : Nat} (h : 1 ≤ r) : (s.backupResponse r).tamper.lock = true ∧
    (s.tamper.lock = false → (s.backupResponse r).nvm.approvals = []) := by
  obtain ⟨hlock, happ⟩ := s.lockedFor_lock h
  have hg := s.backupResponse_guarded r
  split at hg <;>
    exact ⟨(congrArg (·.tamper.lock) hg).trans hlock, fun h => (congrArg (·.nvm.approvals) hg).trans (happ h)⟩

theorem State.backupResponse_mrk : (s.backupResponse 3).tamper.mrk = none :=
  congrArg (·.tamper.mrk) (s.backupResponse_guarded 3)

theorem State.backupResponse_zero : s.backupResponse 0 = s := rfl

end

end Sys2Proof.Machine
end

section
/-! Zeroization of a compartment, the wrapped key first (R151). -/

namespace Sys2Proof.Machine

section
variable {s : State} {c : Nat} (t : Nat) (hup : s.boot.up = true) (hst : (s.nvm.comp c).st = .zeroizing)
include hup hst

/-- The erasure of the wrapped key takes the keys and the transport key with it (assumption 78). -/
theorem cmkErased_erases (hw : (s.nvm.comp c).wrapped ≠ []) : Completes (.cmkErased t c) s (fun t' =>
    t'.nvm.comp c = { s.nvm.comp c with wrapped := [], cmk := [], pxk := [], keys := [] } ∧
    ∀ w, ((t'.twin w).store.comp c).keys = [] ∧ ((t'.twin w).store.comp c).transport = none) := by
  refine ⟨_, ev_of_eq ((if_pos hup).trans (if_neg (not_or.mpr ⟨Classical.not_not.mpr hst, hw⟩))), ?_, fun w => ?_⟩
  · refine (congrArg (·.nvm.comp c) (State.event_guarded _ _ _ _ _)).trans ?_
    exact Store.comp_updComp_same _ _ _
  · have hstore : ∀ st : Store, ((st.updComp c Comp.loseSlots).comp c).keys = [] ∧
        ((st.updComp c Comp.loseSlots).comp c).transport = none := fun st => by
      rw [Store.comp_updComp_same]
      exact ⟨rfl, rfl⟩
    rw [settle_twin, State.event_store]
    cases w <;> exact hstore _

/-- What is left of a compartment once its zeroization completes: the generation of its master key (R151, R152). -/
theorem compZeroized_clears (hw : (s.nvm.comp c).wrapped = []) : Completes (.compZeroized t c) s (fun t' =>
    t'.nvm.comp c = { st := .zeroized, gen := (s.nvm.comp c).gen }) := by
  refine ⟨_, ev_of_eq ((if_pos hup).trans (if_neg (not_or.mpr ⟨Classical.not_not.mpr hst, Classical.not_not.mpr hw⟩))), ?_⟩
  refine (congrArg (·.nvm.comp c) ((State.finishResponse_guarded _).trans (State.event_guarded _ _ _ _ _))).trans ?_
  exact Store.comp_updComp_same (s.nvm.forget c) c (fun x => { st := .zeroized, gen := x.gen })

end

end Sys2Proof.Machine
end

section
/-! O41: alarms, responses, backup windows and zeroization. -/

namespace Sys2Proof.Machine

/-- What a response at its effect point leaves (R360 to R363). -/
theorem tamperResponseEffect_leaves {s : State} {r : Nat} {targets : List Nat} (t : Nat)
    (hp : s.tamper.pendResp = some (r, targets)) (hm : s.mainSampling = true) :
    Completes (.tamperResponseEffect t) s (fun t' => t'.tamper.pendResp = none ∧ t'.sticky.getLsbD 10 = true ∧
      (r = 0 → t'.tamper.lock = s.tamper.lock) ∧
      (1 ≤ r → t'.tamper.lock = true ∧ t'.nvm.approvals = []) ∧
      (r = 3 → t'.tamper.mrk = none ∧ t'.tamper.mrkLost = true) ∧
      (r = 2 → s.rreqs = [] → ∀ c, targets.contains c || targets.contains 0xFFFE →
        ((s.nvm.comp c).st = .active ∨ (s.nvm.comp c).st = .suspended) → (t'.nvm.comp c).st = .zeroizing)) := by
  have hroused := (s.at t).roused_guarded
  have hrreqs := (s.at t).roused_rreqs
  refine ⟨_, tamperResponseEffect_responds t hp hm, ?_⟩
  generalize (s.at t).roused = v at hroused hrreqs ⊢
  obtain ⟨hpend, hsticky, hcomps⟩ := v.lockBy_keeps r
  obtain ⟨hlock', hpend', hsticky', happ'⟩ := (v.lockBy r).zeroizeBy_keeps r targets
  refine ⟨?_, ?_, ?_, fun hr => ?_, ?_, ?_⟩
  · exact (hpend'.trans hpend).trans (congrArg (·.tamper.pendResp) hroused)
  · have h10 := (hsticky'.trans hsticky).trans (congrArg Guarded.sticky hroused)
    rw [settle_sticky, h10]
    simp
  · rintro rfl
    exact hlock'.trans (congrArg (·.tamper.lock) hroused)
  · obtain ⟨hlock, happ⟩ := v.lockBy_locks hr
    exact ⟨hlock'.trans hlock, happ'.trans happ⟩
  · rintro rfl
    exact State.zeroizeBy_mrk _ _
  · rintro rfl hq c hc hst
    refine State.zeroizeBy_comp (State.mem_liveTargets hc ?_)
    have hnvm : v.nvm = s.nvm := congrArg Guarded.nvm hroused
    rw [Store.comp, hcomps (hrreqs.trans hq), hnvm]
    exact hst

/-- What a window of one monitor leaves (R364 to R366). -/
theorem backupWindow_leaves {s : State} (t : Nat) (hm : s.mainSampling = false) (x : MonSample) (rails : Bool) :
    Completes (.backupWindow t { rails := rails, samples := [x] }) s (fun t' =>
      let v := ((s.at t).withRails rails).counted
      t'.tamper.windows = v.tamper.windows ∧
      (∀ h ∈ (v.windowMon x).2, h.1 < 8 → 1 ≤ h.2.2.1 →
        t'.tamper.lock = true ∧ (s.tamper.lock = false → t'.nvm.approvals = []) ∧ (h.2.2.1 = 3 → t'.tamper.mrk = none)) ∧
      ((v.windowMon x).2 = [] → t'.tamper.lock = s.tamper.lock ∧ t'.tamper.mrk = s.tamper.mrk)) := by
  refine ⟨_, backupWindow_one t hm x rails, ?_⟩
  obtain ⟨hlock, hmrk⟩ := ((s.at t).withRails rails).counted_keeps
  rw [State.withRails_tamper] at hlock hmrk
  dsimp only
  generalize ((s.at t).withRails rails).counted = v at hlock hmrk ⊢
  obtain ⟨hlock', hwindows', hmrk'⟩ := v.retained_keeps x
  refine ⟨((v.retained x).backupResponse_windows _).trans hwindows', fun h hh hi hr => ?_, fun hnone => ?_⟩
  · rw [State.strongest_windowHits (State.mem_windowHits.mpr ⟨hh, hi⟩)]
    obtain ⟨hon, happ⟩ := (v.retained x).backupResponse_lock hr
    refine ⟨hon, fun hoff => happ ((hlock'.trans hlock).trans hoff), fun h3 => ?_⟩
    rw [h3]
    exact State.backupResponse_mrk _
  · have hhits : v.windowHits x = [] := by simp [State.windowHits, hnone]
    rw [hhits]
    exact ⟨hlock'.trans hlock, hmrk'.trans hmrk⟩

/-- Settles O41: the count against the filter, the response at its effect point, the window's strongest response, and the two
acts of a zeroization; that the keys go with the wrapped key in one act is the model's choice (assumption 78). -/
theorem tamperResponses : Obligations.TamperResponses := by
  intro s t cls mon n reading
  refine ⟨fun hm hx hmon hout hc ha => ⟨alarmQualify_below, fun hn => ?_⟩,
    fun hm hmon hout ha hc hn => alarmDeassert_clears hm hmon hout ha (State.conditionOff_of hc) hn,
    fun r targets hp hm => tamperResponseEffect_leaves t hp hm, fun hm x rails => ?_,
    fun c hup hst => ⟨cmkErased_erases t hup hst, compZeroized_clears t hup hst⟩⟩
  · obtain ⟨hfind, hpend⟩ := (s.at t).qualified_tamper (cls := cls) (mon := mon) (n := n) (reading := reading)
    refine ⟨_, alarmQualify_reached hm hx hmon hout hc ha hn, hfind, hpend, fun hroom => ?_⟩
    obtain ⟨v, hqueue, hid, hstamp, hdetail⟩ := State.qualified_queue (s := s.at t) (n := n) (reading := reading) hx hroom
    exact ⟨v, hqueue, hid, hstamp, hdetail⟩
  · have hleaves := backupWindow_leaves t hm x rails
    rw [← State.counted_eq ((s.at t).withRails_tamper rails)] at hleaves
    exact hleaves

end Sys2Proof.Machine
end

section
/-! Card dialogues, UNLOCK, transitions and debug certificates (R166 to R175, R391 to R401): a request refused at its enlistment is
left in here too. -/

namespace Sys2Proof.Machine

/-- The module of `deniedState` with the Relay's record of the request, which holds nothing for the card dialogue. -/
def deniedRecordedState (op : Nat) (p : Bytes) : State :=
  { deniedState op p with rreqs := [(5, {})] }

/-- Refutes O46: `Asked` leaves in a request refused at its enlistment, so that a `DEBUG_CERT_LOAD` that lost a predecessor is
answered with `PREDECESSOR_FAILED` (R71) and not with the status of its certificate. -/
theorem not_adminDialogues : ¬ Obligations.AdminDialogues := by
  intro h
  have hasked : Asked (deniedRecordedState 0x0161 []) 0 0x0161 .a 5 (deniedRequest 0x0161 []) := by
    unfold Asked Timely
    decide +kernel
  obtain ⟨-, -, -, -, hcert⟩ := h (deniedRecordedState 0x0161 []) 0 .a 5 (deniedRequest 0x0161 []) {} []
    (by decide +kernel) rfl rfl (by decide +kernel)
  obtain ⟨e, ⟨hok, -⟩, hdenied⟩ := (hcert hasked (by decide +kernel) rfl (by decide +kernel) (by decide +kernel)).common
    (admin_denied_ends (i := .debugCertLoad 0 .a 5) rfl hasked rfl (by decide))
  exact absurd (hok.symm.trans hdenied) (by decide +kernel)

end Sys2Proof.Machine
end

section
/-! The twin that a wake event does not concern (R415, R419). -/

namespace Sys2Proof.Machine

section
variable {n : Nat} {v : Twin}

theorem State.twin_updTwin_of_ne {w v : Twin} (h : w ≠ v) (s : State) (f : TwinSt → TwinSt) :
    (s.updTwin w f).twin v = s.twin v := by
  have hv : v = otherTwin w := by cases w <;> cases v <;> simp_all [otherTwin]
  rw [hv]
  exact s.other_setTwin w _

theorem State.twin_setDomain (s : State) (d : Domain) : (s.setDomain n d).twin v = s.twin v := by
  have hvid : ∀ u : State, u.setVid.twin v = u.twin v := by
    intro u
    unfold State.setVid
    split <;> cases v <;> rfl
  unfold State.setDomain
  extract_lets was d' u
  split
  · cases v <;> rfl
  · rw [hvid]
    cases v <;> rfl

/-- An access served at a domain writes into no twin but the domain's own. -/
theorem State.twin_serveAccess (h : islandTwin n ≠ some v) (s : State) (a : GateAcc) :
    (s.serveAccess n a).twin v = s.twin v := by
  have hanswer : ∀ (u : State) x b, (u.answerAccess n x b).twin v = u.twin v := by
    intro u x b
    cases v <;> rfl
  cases a with
  | zenith b => cases b <;> cases v <;> rfl
  | debug act =>
    unfold State.serveAccess State.debugAct
    cases act with
    | halt | resume => cases v <;> rfl
    | step => dsimp only; split <;> cases v <;> rfl
    | read l => dsimp only; split <;> cases v <;> rfl
    | write l x tag =>
      dsimp only
      rw [hanswer]
      split
      · next w hw => exact State.twin_updTwin_of_ne (by rintro rfl; exact h hw) s _
      · rfl

theorem State.twin_toRun (h : islandTwin n ≠ some v) (s : State) : (s.toRun n).twin v = s.twin v := by
  have hclamp : ∀ (c : Prop) [Decidable c] (u : State) f, (if c then u.updPower f else u).twin v = u.twin v := by
    intro c _ u f
    split <;> cases v <;> rfl
  unfold State.toRun
  dsimp only
  rw [foldl_keeps (p := fun u : State => u.twin v) (fun u a => State.twin_serveAccess h u a)]
  split
  · next w hw =>
    have hwv : w ≠ v := fun hwv => h (by split at hw <;> simp_all)
    rw [State.twin_updTwin_of_ne hwv, hclamp, State.twin_setDomain]
  · rw [hclamp, State.twin_setDomain]

/-- A wake event at a domain moves no twin but the domain's own. -/
theorem State.twin_wakeDom (h : islandTwin n ≠ some v) (s : State) : (s.wakeDom n).twin v = s.twin v := by
  unfold State.wakeDom
  dsimp only
  split
  · exact s.twin_setDomain _
  · exact State.twin_toRun h s

theorem State.twin_wakeDoms {l : List Nat} (h : ∀ n ∈ l, islandTwin n ≠ some v) (s : State) :
    (s.wakeDoms l).twin v = s.twin v := by
  induction l generalizing s with
  | nil => rfl
  | cons n l ih =>
    obtain ⟨hn, hl⟩ := List.forall_mem_cons.mp h
    exact (ih hl (s.wakeDom n)).trans (State.twin_wakeDom hn s)

/-- A domain of a twin is an island of no other twin. -/
theorem islandTwin_of_domainTwin {w : Twin} (h : domainTwin n = some w) : islandTwin n ≠ some (otherTwin w) := by
  unfold domainTwin at h
  split at h
  · rw [h]
    exact fun he => otherTwin_ne w (Option.some.inj he).symm
  · unfold islandTwin
    rw [if_neg (by omega), if_neg (by omega)]
    exact nofun

end

end Sys2Proof.Machine
end

section
/-! The arrival of a broadcast entry in an executing twin (R175, R176, R327). -/

namespace Sys2Proof.Machine

theorem WokenOnly.store {x y : TwinSt} (h : WokenOnly x y) : y.store = x.store := by
  unfold WokenOnly at h
  rw [← h]

/-- The request as a twin receives it. -/
def RReq.received (rr : RReq) : Req :=
  { hdr := rr.hdr, space := rr.space, inline := inlineArea rr.hdr rr.entry, head := rr.pre }

/-- The entry of a request, for the predecessors that it names. -/
def RReq.ingress (rr : RReq) : Ingress := { fn := rr.fn, idx := rr.idx, comp := 0, lane := 0, entry := rr.entry }

/-- What an arrival wakes: the napping domains of the twin, and Zenith for an admin request. -/
def State.wakeFor (s : State) (w : Twin) (rr : RReq) : State :=
  if rr.space = adminSpace then (s.wakeDoms (s.napping w)).wakeZenith w else s.wakeDoms (s.napping w)

/-- A request taken in by a twin whose domains are awake. -/
def State.takeIn (s : State) (w : Twin) (q : Nat) (rr : RReq) : State :=
  (s.setTwin w (((s.twin w).arrive (s.isActive w) s.now s.pcycle q rr.received (s.noService q rr.received)
    rr.ingress.predIds).markCap w (s.isActive w) s.now)).recordHandles w rr.space

/-- An entry that has its turn in an executing twin, with every batch of before it there. -/
structure Arrives (s : State) (w : Twin) (q : Nat) (rr : RReq) : Prop where
  atRelay : Tbl.find? s.rreqs q = some rr
  sent : rr.to w = true
  executing : s.executes w = true
  new : Tbl.find? (s.twin w).reqs q = none
  read : rr.readFail = false
  first : s.rreqs.all (fun (e : Nat × RReq) => !decide (e.1 < q) || !e.2.to w || (Tbl.find? (s.twin w).reqs e.1).isSome) = true
  batches : (s.twin (otherTwin w)).outBatch.any (fun b => decide (4000 * b.epoch < q)) = false

section
variable {s : State} {t q : Nat} {w : Twin} {rr : RReq}

theorem Arrives.exec_standbyHot (h : Arrives s w q rr) (hm : s.power.mod = .standbyHot) :
    exec (.broadcastEntryArrival t w q) s = .next (settle s (s.at t).exitStandby) := by
  change execBroadcastEntryArrival t w q s = _
  refine ev_of_eq ?_
  simp [h.atRelay, h.sent, State.at_executes, h.executing, h.new, h.first, h.batches, hm]

theorem Arrives.exec_awake (h : Arrives s w q rr) (hm : s.power.mod ≠ .standbyHot)
    (he : (s.domain moduleDomain).entry = none) (hc : s.coachyardAwake w = true) :
    exec (.broadcastEntryArrival t w q) s = .next (settle s (((s.at t).wakeFor w rr).takeIn w q rr)) := by
  have he' : ((s.at t).domain moduleDomain).entry = none := he
  change execBroadcastEntryArrival t w q s = _
  refine ev_of_eq ?_
  simp only [State.at_rreqs, h.atRelay, h.sent, State.at_executes, h.executing, State.at_twin, h.new, h.first, h.batches, hm,
    State.at_power, he', State.at_coachyardAwake, hc, h.read, Option.isSome_none, not_true_eq_false, Bool.false_eq_true,
    Bool.false_and, or_self, if_false]
  rfl

/-- What the wakes of an arrival leave: the twin's requests and store, the other twin, and what the module serves. -/
theorem Woken.wakeFor (s : State) (w : Twin) (rr : RReq) : Woken s (s.wakeFor w rr) := by
  unfold State.wakeFor
  split
  · exact (Woken.wakeDoms _ _).trans (.wakeZenith _ w)
  · exact .wakeDoms _ _

theorem State.wakeFor_other (s : State) (w : Twin) (rr : RReq) :
    (s.wakeFor w rr).twin (otherTwin w) = s.twin (otherTwin w) := by
  have hdoms : (s.wakeDoms (s.napping w)).twin (otherTwin w) = s.twin (otherTwin w) := by
    refine State.twin_wakeDoms (fun n hn => ?_) s
    obtain ⟨d, hd, rfl⟩ := List.mem_map.mp hn
    obtain ⟨-, hd⟩ := List.mem_filter.mp hd
    exact islandTwin_of_domainTwin (by simpa using (Bool.and_eq_true_iff.mp hd).1)
  have hzenith : islandTwin (twinBase w + 198) ≠ some (otherTwin w) := by cases w <;> decide
  unfold State.wakeFor State.wakeZenith
  dsimp only
  split
  · split
    · exact hdoms
    · exact (State.twin_wakeDom hzenith _).trans hdoms
  · exact hdoms

theorem State.noService_wakeFor (s : State) (w : Twin) (rr : RReq) (q : Nat) (r : Req) :
    (s.wakeFor w rr).noService q r = s.noService q r :=
  (Woken.wakeFor s w rr).eq (fun u => u.noService q r) (Eq.refl _)

theorem State.recordHandles_twin (s : State) (w v : Twin) (c : Nat) : (s.recordHandles w c).twin v = s.twin v := by
  unfold State.recordHandles
  split <;> cases v <;> rfl

/-- The twin after the request has been taken in. -/
theorem State.takeIn_twin (s : State) (w : Twin) (q : Nat) (rr : RReq) : (s.takeIn w q rr).twin w =
    ((s.twin w).arrive (s.isActive w) s.now s.pcycle q rr.received (s.noService q rr.received)
      rr.ingress.predIds).markCap w (s.isActive w) s.now := by
  unfold State.takeIn
  rw [State.recordHandles_twin, State.twin_setTwin]

theorem State.takeIn_other (s : State) (w : Twin) (q : Nat) (rr : RReq) :
    (s.takeIn w q rr).twin (otherTwin w) = s.twin (otherTwin w) := by
  unfold State.takeIn
  rw [State.recordHandles_twin, State.other_setTwin]

end

/-! What the arrival leaves of the request. -/

section
variable {x : TwinSt} {act : Bool} {now pcycle q : Nat} {r : Req}

/-- A request that ends with a status alone commits nothing (R192, R197): only what its assignments made sure stands. -/
theorem TwinSt.endOf_status (x : TwinSt) (act : Bool) (now q st : Nat) (ho : r.timedOut = none) :
    (x.endOf act now q r { status := st }).status = st ∧ (x.endOf act now q r { status := st }).result = [] ∧
      (x.endOf act now q r { status := st }).effects = r.sure := by
  have hfit : ∀ l : List EvReq, (r.fit { status := st, evs := l }) = { status := st, evs := l } := by
    intro l
    unfold Req.fit
    split
    · next h => exact absurd h.1 (Nat.not_lt_zero _)
    · split <;> rfl
  unfold TwinSt.endOf Req.endRec Req.segEffects
  simp [ho, hfit]

/-- The identities that an arrival takes are all that it changes in the request. -/
theorem TwinSt.find?_takeIds (x : TwinSt) (q p : Nat) (r : Req) : ∃ f : Req → List Nat,
    Tbl.find? (x.takeIds q r).reqs p = (Tbl.find? x.reqs p).map (fun r => { r with newH := f r }) := by
  have hid : ∀ n, ∃ f : Req → List Nat,
      Tbl.find? (x.identify q n).reqs p = (Tbl.find? x.reqs p).map (fun r => { r with newH := f r }) := by
    intro n
    unfold TwinSt.identify
    split
    · exact ⟨Req.newH, by simp⟩
    · dsimp only
      split
      · exact ⟨Req.newH, by simp⟩
      · rw [TwinSt.find?_updReq]
        split
        · exact ⟨_, rfl⟩
        · exact ⟨Req.newH, by simp⟩
  unfold TwinSt.takeIds
  split
  · split
    · exact hid _
    · exact hid _
    · exact ⟨Req.newH, by simp⟩
  · exact ⟨Req.newH, by simp⟩

/-- While the module gives no service, an arrival is answered with the status of that. -/
theorem TwinSt.arrive_unserved (x : TwinSt) (act : Bool) (now pcycle st : Nat) (ids : List Nat) (hf : r.fin = none)
    (ho : r.timedOut = none) : ∃ r' e, Tbl.find? (x.arrive act now pcycle q r (some st) ids).reqs q = some r' ∧
      r'.fin = some e ∧ e.status = st ∧ e.result = [] ∧ e.effects = r.sure := by
  unfold TwinSt.arrive
  extract_lets fk fl fenced old store lost base held r₁ y
  obtain ⟨f, hy⟩ := TwinSt.find?_takeIds { x with store := store, reqs := Tbl.put x.reqs q r₁ } q q r₁
  simp only [Tbl.find?_put_same, Option.map_some] at hy
  obtain ⟨r', hr', hcore⟩ := TwinSt.finish_fin (act := act) (st := now) (e := { status := st }) hy hf
  exact ⟨r', _, hr', congrArg Req.fin hcore, y.endOf_status act now q st ho⟩

/-- An admin request without flow, predecessors or deadline gets a root task that waits for nothing. -/
theorem TwinSt.arrive_admin (hs : r.space = adminSpace) (hop : adminOps.contains r.hdr.opcode = true)
    (hseg : r.hdr.segmented = false) (hsc : r.hdr.stateChange = false) (hflow : r.hdr.flow = 0) (hd : r.hdr.deadline = 0)
    (hfence : (Tbl.getD x.store.flows (flowKey adminSpace 0) {}).fence = false) (ht : r.tasks = []) :
    ∃ r', Tbl.find? (x.arrive act now pcycle q r none []).reqs q = some r' ∧ r'.hdr = r.hdr ∧ r'.space = adminSpace ∧
      r'.fin = r.fin ∧ r'.tasks = [(0, {})] := by
  unfold TwinSt.arrive
  extract_lets fk fl fenced old store lost base held r₁ y entry
  have hfenced : fenced = false := by simp [fenced, fl, fk, hs, hflow, hfence]
  have hlost : lost = false := by simp [lost, TwinSt.predLost, TwinSt.predFailed]
  have hz : r₁.forZenith = true := by simp [r₁, Req.forZenith, hs]
  have hy : y = { x with store := store, reqs := Tbl.put x.reqs q r₁ } := by simp [y, TwinSt.takeIds, hz]
  have hbad : y.arrivalBad q r₁ = none := by simp only [TwinSt.arrivalBad, r₁, hs, hop, hseg]; rfl
  have hreplay : entry = none := by simp [entry, TwinSt.replayOf, r₁, hsc]
  have hplace : y.takeFlow pcycle q r₁ = some y := by simp [TwinSt.takeFlow, r₁, hflow]
  have henlist : y.enlist act now q r₁ false = y.start act q := by
    simp [TwinSt.enlist, TwinSt.reissued, hz, r₁, hsc, hd]
  have hentry : Tbl.find? y.reqs q = some r₁ := by simp [hy]
  have hstart : Tbl.find? (y.start act q).reqs q = some { r₁ with
      tasks := [(0, {})], precMark := r₁.precMark || !r₁.preds.isEmpty || y.ordered act q r₁ } := by
    simp [TwinSt.start, TwinSt.find?_updReq, hentry, r₁, ht, TwinSt.pendingPreds]
  simp only [hfenced, hbad, hreplay, hlost, hplace, henlist, show r₁.hdr.stateChange = false from hsc, Bool.false_eq_true,
    if_false, not_true_eq_false]
  exact ⟨_, hstart, Eq.refl r.hdr, hs, Eq.refl r.fin, rfl⟩

end

/-- Settles O26: what the wakes leave, and then the two fates of the request that is taken in; that it waits for the batches of before
it and that an arrival ends STANDBY-HOT are the model's choice (assumption 175). -/
theorem broadcastArrival : Obligations.BroadcastArrival := by
  intro s t w q rr hrr hto hx hnew hread hfirst hbatch
  have h : Arrives s w q rr := ⟨hrr, hto, hx, hnew, hread, hfirst, hbatch⟩
  refine ⟨h.exec_standbyHot, fun hm he hc => ?_⟩
  have hexec := h.exec_awake (t := t) hm he hc
  generalize hv : (s.at t).wakeFor w rr = v at hexec
  have hother : v.twin (otherTwin w) = s.twin (otherTwin w) := by
    rw [← hv, State.wakeFor_other, State.at_twin]
  have hstore : (v.twin w).store = (s.twin w).store := by
    rw [← hv, ← State.at_twin s t w]
    exact ((Woken.wakeFor (s.at t) w rr).twin w).store
  refine ⟨fun st hst _ => ?_, fun hs hfence hflow hop hseg hsc hd hpred hparse => ?_⟩
  · have hserv : v.noService q rr.received = some st := by
      rw [← hv, State.noService_wakeFor]
      exact hst
    obtain ⟨r', e, hr', he', hstat, hres, hfx⟩ := TwinSt.arrive_unserved (r := rr.received) (q := q) (v.twin w)
      (v.isActive w) v.now v.pcycle st rr.ingress.predIds rfl rfl
    obtain ⟨b, hb⟩ := TwinSt.find?_markCap ((v.twin w).arrive (v.isActive w) v.now v.pcycle q rr.received (some st)
      rr.ingress.predIds) w (v.isActive w) v.now q
    rw [hr'] at hb
    refine ⟨_, hexec, { r' with precMark := b r' }, e, ?_, he', hstat, hres, hfx⟩
    rw [settle_twin, State.takeIn_twin, hserv]
    exact hb
  · have hserv : v.noService q rr.received = none := if_pos hs
    have hids : rr.ingress.predIds = [] := by
      simp [Ingress.predIds, RReq.ingress, ← hparse, hpred]
    obtain ⟨r', hr', hhdr, hspace, hfin, htasks⟩ := TwinSt.arrive_admin (x := v.twin w) (act := v.isActive w) (now := v.now)
      (pcycle := v.pcycle) (q := q) (r := rr.received) hs hop hseg hsc hflow hd (hstore ▸ hfence) rfl
    obtain ⟨b, hb⟩ := TwinSt.find?_markCap ((v.twin w).arrive (v.isActive w) v.now v.pcycle q rr.received none [])
      w (v.isActive w) v.now q
    rw [hr'] at hb
    refine ⟨_, hexec, { r' with precMark := b r' }, ?_, hhdr, hspace, hfin, htasks, ?_⟩
    · rw [settle_twin, State.takeIn_twin, hserv, hids]
      exact hb
    · rw [settle_twin, State.takeIn_other, hother]

end Sys2Proof.Machine
end

section
/-! The blocks of T=1 (R166, Table 7-4). -/

namespace Sys2Proof.Machine

theorem lrcOf_append_lrcOf (b : Bytes) : lrcOf (b ++ [lrcOf b]) = 0 := by
  have h : lrcOf (b ++ [lrcOf b]) = lrcOf b ^^^ lrcOf b := by simp [lrcOf]
  exact h.trans BitVec.xor_self

section
variable {pcb : Nat} {inf : Bytes}

theorem length_t1Block : (t1Block pcb inf).length = inf.length + 4 := by simp [t1Block]

/-- The protocol control byte of a block. -/
theorem fld_t1Block_pcb (h : pcb < 256) : fld (t1Block pcb inf) 1 1 = pcb := by
  simp [t1Block, fld, slice, fixLen, leNat, byte, Nat.mod_eq_of_lt h]

/-- The length byte of a block. -/
theorem fld_t1Block_len (h : inf.length ≤ 254) : fld (t1Block pcb inf) 2 1 = inf.length := by
  have hlt : inf.length < 256 := by omega
  simp [t1Block, fld, slice, fixLen, leNat, byte, Nat.mod_eq_of_lt hlt]

/-- The information field of a block. -/
theorem slice_t1Block_inf : slice (t1Block pcb inf) 3 inf.length = inf := by
  simp [t1Block, slice, fixLen]

/-- A block of the module's own making is without error. -/
theorem t1Good_t1Block (h : inf.length ≤ 254) : t1Good (t1Block pcb inf) = true := by
  have hnad : fld (t1Block pcb inf) 0 1 = 0 := by simp [t1Block, fld, slice, fixLen, leNat, byte]
  have hlrc : lrcOf (t1Block pcb inf) = 0 := lrcOf_append_lrcOf _
  unfold t1Good
  rw [fld_t1Block_len h, hnad, hlrc, length_t1Block]
  simp [h]

end

/-- What precedes the status word 90 00 of a response is its data (R168). -/
theorem apduData_append (b : Bytes) : apduData (b ++ [0x90, 0x00]) = some b := by
  simp [apduData]

end Sys2Proof.Machine
end

section
/-! The card ports (R166, R167). -/

namespace Sys2Proof.Machine

section
variable {p : Nat}

/-- A port replaced leaves all but the ports. -/
theorem State.setPort_eq (s : State) (p : Nat) (x : Port) : ∃ a b, s.setPort p x = { s with port0 := a, port1 := b } := by
  unfold State.setPort
  split
  · exact ⟨x, s.port1, rfl⟩
  · split
    · exact ⟨s.port0, x, rfl⟩
    · exact ⟨s.port0, s.port1, rfl⟩

theorem State.port_setPort (hp : p < 2) (s : State) (x : Port) : (s.setPort p x).port p = x := by
  obtain rfl | rfl : p = 0 ∨ p = 1 := by omega
  · rfl
  · rfl

theorem State.port_setPort_other (hp : p < 2) (s : State) (x : Port) : (s.setPort p x).port (1 - p) = s.port (1 - p) := by
  obtain rfl | rfl : p = 0 ∨ p = 1 := by omega
  · rfl
  · rfl

@[simp] theorem State.setPort_twin (s : State) (x : Port) (w : Twin) : (s.setPort p x).twin w = s.twin w := by
  obtain ⟨a, b, h⟩ := s.setPort_eq p x
  rw [h]
  cases w <;> rfl

@[simp] theorem State.setPort_executes (s : State) (x : Port) (w : Twin) : (s.setPort p x).executes w = s.executes w := by
  obtain ⟨a, b, h⟩ := s.setPort_eq p x
  rw [h]
  cases w <;> rfl

@[simp] theorem State.setPort_now (s : State) (x : Port) : (s.setPort p x).now = s.now := by
  obtain ⟨a, b, h⟩ := s.setPort_eq p x
  rw [h]

@[simp] theorem State.setPort_active (s : State) (x : Port) : (s.setPort p x).active = s.active := by
  obtain ⟨a, b, h⟩ := s.setPort_eq p x
  rw [h]

@[simp] theorem State.setPort_out (s : State) (x : Port) : (s.setPort p x).out = s.out := by
  obtain ⟨a, b, h⟩ := s.setPort_eq p x
  rw [h]

@[simp] theorem State.setPort_lc (s : State) (x : Port) : (s.setPort p x).lc = s.lc := by
  obtain ⟨a, b, h⟩ := s.setPort_eq p x
  rw [h]
  rfl

@[simp] theorem State.setPort_dlgReady (s : State) (x : Port) (q : Nat) : (s.setPort p x).dlgReady q = s.dlgReady q := by
  obtain ⟨a, b, h⟩ := s.setPort_eq p x
  rw [h]
  rfl

/-- The ports stand through wake events. -/
theorem Woken.port {s v : State} (h : Woken s v) (p : Nat) : v.port p = s.port p := h.eq (fun u => u.port p) (Eq.refl _)

theorem Woken.lc {s v : State} (h : Woken s v) : v.lc = s.lc := h.eq State.lc (Eq.refl _)

theorem Woken.nvm {s v : State} (h : Woken s v) : v.nvm = s.nvm := h.eq State.nvm (Eq.refl _)

end

/-- A record handed to the Relay waits there, and nothing else changes. -/
theorem State.note_eq (s : State) (e : EvReq) : ∃ a x, s.note e = { s with alm := a, tamper := x } := by
  unfold State.note
  by_cases hev : e.sev = sevEvid
  · rw [if_pos hev]
    split
    · exact ⟨_, s.tamper, rfl⟩
    · split
      · exact ⟨s.alm, _, rfl⟩
      · exact ⟨_, s.tamper, rfl⟩
  · rw [if_neg hev]
    split
    · exact ⟨_, s.tamper, rfl⟩
    · exact ⟨_, s.tamper, rfl⟩

/-- The record of a card's insertion or removal (0x4010 and 0x4011) is stamped by an island of the Relay. -/
theorem State.cardEvent_eq {id : Nat} (hid : id = 0x4010 ∨ id = 0x4011) (s : State) (sev : Nat) (d : Bytes) :
    ∃ l a x, s.event id sev 3 d = { s with stamps := l, alm := a, tamper := x } := by
  have hisl : islandTwin (s.issuer id 3 d) = none := by
    have hpads : s.issuer id 3 d = if s.awake 422 then 422 else powerManager 422 := by
      rcases hid with rfl | rfl <;> simp [State.issuer]
    rw [hpads]
    split <;> rfl
  unfold State.event State.stamped
  simp only [hisl]
  obtain ⟨a, x, h⟩ := State.note_eq { s with stamps := Tbl.put s.stamps (s.issuer id 3 d) (s.stampOf (s.issuer id 3 d)) }
    { id := id, sev := sev, origin := 3, stamp := s.stampOf (s.issuer id 3 d), detail := fixLen 16 d }
  exact ⟨_, a, x, h⟩

/-- The wake and the record of a card's insertion or removal. -/
def State.cardMoved (s : State) (id : Nat) (d : Bytes) : State :=
  onlyIf (s.wakeDom 422).boot.up (fun s => s.event id sevEvid 3 d) (s.wakeDom 422)

section
variable {id : Nat} {s : State} {d : Bytes}

theorem State.cardMoved_eq (hid : id = 0x4010 ∨ id = 0x4011) (s : State) (d : Bytes) :
    ∃ l a x, s.cardMoved id d = { s.wakeDom 422 with stamps := l, alm := a, tamper := x } := by
  unfold State.cardMoved onlyIf
  split
  · exact State.cardEvent_eq hid _ _ _
  · exact ⟨_, _, _, rfl⟩

/-- A card that comes or goes wakes no twin, and its record changes no port, no store and no life-cycle state. -/
theorem State.cardMoved_keeps (hid : id = 0x4010 ∨ id = 0x4011) (s : State) (d : Bytes) :
    (∀ p, (s.cardMoved id d).port p = s.port p) ∧ (∀ w, (s.cardMoved id d).twin w = s.twin w) ∧
      (s.cardMoved id d).nvm = s.nvm ∧ (s.cardMoved id d).lc = s.lc := by
  have hw := Woken.wakeDom s 422
  obtain ⟨l, a, x, h⟩ := State.cardMoved_eq hid s d
  rw [h]
  refine ⟨hw.port, fun w => ?_, hw.nvm, hw.lc⟩
  have htwin : (s.wakeDom 422).twin w = s.twin w := State.twin_wakeDom (by cases w <;> decide) s
  rw [← htwin]
  cases w <;> rfl

end

end Sys2Proof.Machine
end

section
/-! The end of a card dialogue in a twin that has its command in service (R166, R167, R189). -/

namespace Sys2Proof.Machine

/-- The command of a dialogue ended in one twin, where that executes. -/
def State.endIn (s : State) (q : Nat) (f : TwinSt → EndRec) (w : Twin) : State :=
  if s.executes w then s.finish w q (f (s.twin w)) else s

/-- A dialogue ends in both twins, one after the other. -/
theorem State.endDialogue_eq (s : State) (p q : Nat) (f : TwinSt → EndRec) : s.endDialogue p q f =
    ((s.updPort p (fun x => { x with dlg := none, active := false })).endIn q f .a).endIn q f .b := rfl

/-- The status of a failed dialogue noted at the Relay, for a twin that the entry has still to reach (R167, R329). -/
def State.noteEnd (s : State) (q st : Nat) : State :=
  { s with rreqs := Tbl.upd s.rreqs q (fun rr => { rr with dlgEnd := some st }) }

/-- A dialogue that fails is noted, and then ends. -/
theorem State.failDialogue_eq (s : State) (p q st : Nat) : s.failDialogue p q st =
    (s.noteEnd q st).endDialogue p q (fun _ => { status := st, commits := commitsAt st }) := rfl

theorem State.noteEnd_twin (s : State) (q st : Nat) (w : Twin) : (s.noteEnd q st).twin w = s.twin w := by cases w <;> rfl

theorem State.noteEnd_executes (s : State) (q st : Nat) (w : Twin) : (s.noteEnd q st).executes w = s.executes w := by
  cases w <;> rfl

/-- Which twins execute depends on the roles and the life-cycle state. -/
theorem State.executes_congr {s v : State} {w : Twin} (hl : v.lc = s.lc) (hr : (v.twin w).role = (s.twin w).role) :
    v.executes w = s.executes w := by
  unfold State.executes
  rw [hl, hr]

section
variable {s v : State} {q : Nat} {w : Twin} {r : Req}

theorem State.endIn_other {w v : Twin} (h : w ≠ v) (s : State) (q : Nat) (f : TwinSt → EndRec) :
    (s.endIn q f w).twin v = s.twin v ∧ (s.endIn q f w).executes v = s.executes v ∧ (s.endIn q f w).now = s.now ∧
      (s.endIn q f w).active = s.active := by
  unfold State.endIn
  split
  · have ht : (s.finish w q (f (s.twin w))).twin v = s.twin v := State.twin_updTwin_of_ne h s _
    refine ⟨ht, State.executes_congr ?_ (by rw [ht]), ?_, ?_⟩
    · simp [State.finish, State.lc]
    · simp [State.finish]
    · simp [State.finish]
  · exact ⟨rfl, rfl, rfl, rfl⟩

/-- The end record that the end of a dialogue leaves. -/
theorem State.endDialogue_fin (p : Nat) (f : TwinSt → EndRec) (hx : s.executes w = true)
    (hr : Tbl.find? (s.twin w).reqs q = some r) (hf : r.fin = none) :
    ∃ r', Tbl.find? ((s.endDialogue p q f).twin w).reqs q = some r' ∧
      r'.fin = some ((s.twin w).endOf (s.isActive w) s.now q r (f (s.twin w))) := by
  have hend : ∀ u : State, u.twin w = s.twin w → u.executes w = s.executes w → u.now = s.now → u.active = s.active →
      ∃ r', Tbl.find? ((u.endIn q f w).twin w).reqs q = some r' ∧
        r'.fin = some ((s.twin w).endOf (s.isActive w) s.now q r (f (s.twin w))) := by
    intro u ht hxu hn ha
    rw [← ht] at hr
    obtain ⟨r', hr', hfin, -, -⟩ := State.finish_fin (e := f (u.twin w)) hr hf
    have hact : u.isActive w = s.isActive w := by unfold State.isActive; rw [ha]
    rw [ht, hact, hn] at hfin
    refine ⟨r', ?_, hfin⟩
    unfold State.endIn
    rwa [if_pos (hxu.trans hx), ht] at *
  rw [State.endDialogue_eq]
  have hport : ∀ g : Port → Port, (s.updPort p g).twin w = s.twin w ∧ (s.updPort p g).executes w = s.executes w ∧
      (s.updPort p g).now = s.now ∧ (s.updPort p g).active = s.active := fun g => by simp [State.updPort]
  obtain ⟨ht, hxu, hn, ha⟩ := hport (fun x => { x with dlg := none, active := false })
  cases w with
  | a =>
    rw [(State.endIn_other (by decide : Twin.b ≠ Twin.a) _ q f).1]
    exact hend _ ht hxu hn ha
  | b =>
    obtain ⟨ht', hxu', hn', ha'⟩ := State.endIn_other (by decide : Twin.a ≠ Twin.b)
      (s.updPort p (fun x => { x with dlg := none, active := false })) q f
    exact hend _ (ht'.trans ht) (hxu'.trans hxu) (hn'.trans hn) (ha'.trans ha)

/-- A twin that executes and has a request in service that no time-out has reached. -/
structure Answers (s : State) (w : Twin) (q : Nat) (r : Req) : Prop where
  executing : s.executes w = true
  request : Tbl.find? (s.twin w).reqs q = some r
  inTime : Timely (s.twin w) s.now q r

theorem Answers.setPort (h : Answers s w q r) (p : Nat) (x : Port) : Answers (s.setPort p x) w q r := by
  obtain ⟨hx, hr, ht⟩ := h
  exact ⟨by rwa [State.setPort_executes], by rwa [State.setPort_twin], by rwa [State.setPort_twin, State.setPort_now]⟩

theorem Answers.updPort (h : Answers s w q r) (p : Nat) (f : Port → Port) : Answers (s.updPort p f) w q r := h.setPort p _

/-- The record of a dialogue that ends in time. -/
theorem Answers.ends_done {i : Instr} {p : Nat} {f : TwinSt → EndRec} (h : Answers v w q r)
    (hi : exec i s = .next (settle s (v.endDialogue p q f))) (hf : Fits r (f (v.twin w)).result) :
    Ends i s w q (fun e => e.status = (f (v.twin w)).status ∧ e.result = (f (v.twin w)).result) := by
  obtain ⟨hfin, -⟩ := id h.inTime
  obtain ⟨r', hr', hfin'⟩ := State.endDialogue_fin p f h.executing h.request hfin
  obtain ⟨hstat, hres, -⟩ := TwinSt.endOf_extends (act := v.isActive w) h.inTime hf
  exact ⟨_, hi, r', _, (settle_twin _ _ _).symm ▸ hr', hfin', hstat, hres⟩

/-- The record of a dialogue that fails. -/
theorem Answers.ends_failed {i : Instr} {p st : Nat} (h : Answers v w q r)
    (hi : exec i s = .next (settle s (v.failDialogue p q st))) :
    Ends i s w q (fun e => e.status = st ∧ e.result = []) := by
  rw [State.failDialogue_eq] at hi
  have hnoted : Answers (v.noteEnd q st) w q r :=
    ⟨(v.noteEnd_executes q st w).trans h.executing, (v.noteEnd_twin q st w).symm ▸ h.request,
      (v.noteEnd_twin q st w).symm ▸ h.inTime⟩
  exact hnoted.ends_done hi (.inl (Nat.zero_le _))

/-- The record of a dialogue that its card has left unanswered, which commits nothing. -/
theorem cardTimeout_ends {i : Instr} {p : Nat} (hx : v.executes w = true) (hr : Tbl.find? (v.twin w).reqs q = some r)
    (hf : r.fin = none) (ho : r.timedOut = none)
    (hi : exec i s = .next (settle s (v.failDialogue p q stCardTimeout))) :
    Ends i s w q (fun e => e.status = stCardTimeout ∧ e.result = [] ∧ e.effects = r.sure) := by
  rw [State.failDialogue_eq] at hi
  obtain ⟨r', hr', hfin'⟩ := State.endDialogue_fin p (fun _ => { status := stCardTimeout, commits := commitsAt stCardTimeout })
    ((v.noteEnd_executes q stCardTimeout w).trans hx) ((v.noteEnd_twin q stCardTimeout w).symm ▸ hr) hf
  exact ⟨_, hi, r', _, (settle_twin _ _ _).symm ▸ hr', hfin', TwinSt.endOf_status _ _ _ _ _ ho⟩

end

end Sys2Proof.Machine
end

section
/-! A card inserted and removed, and what time takes away (R163, R167, R173). -/

namespace Sys2Proof.Machine

section
variable {s : State} {t p : Nat}

/-- A card inserted: its serial is not known. -/
theorem cardInserted_leaves (hp : p < 2) (h : (s.port p).pres = false) : Completes (.cardInserted t p) s (fun t' =>
    t'.port p = { (s.port p) with pres := true, ident := none } ∧ t'.port (1 - p) = s.port (1 - p)) := by
  let v := (s.at t).updPort p (fun x => { x with pres := true, ident := none })
  have hexec : exec (.cardInserted t p) s = .next (settle s (v.cardMoved 0x4010 [byte p])) := by
    have hpres : ((s.at t).port p).pres = false := h
    change execCardInserted t p s = _
    refine ev_of_eq ?_
    simp only [hpres, hp, decide_true, Bool.not_false, Bool.and_self, onlyIf, if_true]
    rfl
  obtain ⟨hport, -⟩ := v.cardMoved_keeps (.inl rfl) [byte p]
  refine ⟨_, hexec, (hport p).trans (State.port_setPort hp _ _), (hport (1 - p)).trans (State.port_setPort_other hp _ _)⟩

/-- The approvals of the card in a port withdrawn, and the port empty. -/
def State.withoutCard (s : State) (p : Nat) : State :=
  (s.setPort p { (s.port p) with pres := false, active := false, ident := none }).withdrawApprovals (fun a => a.port == some p)

/-- What an event withdraws of the approvals is gone from NVM and from both twins (R163). -/
theorem State.withdrawApprovals_mem (s : State) {f : Approval → Bool} {a : Nat × Approval} :
    (a ∈ (s.withdrawApprovals f).nvm.approvals → f a.2 = false) ∧
      ∀ w, a ∈ ((s.withdrawApprovals f).twin w).store.approvals → f a.2 = false := by
  have hfilter : ∀ l : List (Nat × Approval), a ∈ l.filter (fun a => !f a.2) → f a.2 = false := fun l h => by
    simpa using (List.mem_filter.mp h).2
  refine ⟨hfilter _, fun w => ?_⟩
  cases w <;> exact hfilter _

theorem State.withdrawApprovals_keeps (s : State) (f : Approval → Bool) :
    (∀ p, (s.withdrawApprovals f).port p = s.port p) ∧ (s.withdrawApprovals f).lc = s.lc ∧
      ∀ w, ((s.withdrawApprovals f).twin w).reqs = (s.twin w).reqs ∧
        ((s.withdrawApprovals f).twin w).role = (s.twin w).role :=
  ⟨fun _ => rfl, rfl, fun w => by cases w <;> exact ⟨rfl, rfl⟩⟩

/-- What the record of a card's removal tells: the port, the approvals withdrawn, and whether a dialogue is cut short. -/
def State.removal (s : State) (p : Nat) : Bytes :=
  let held := (match s.active with | some w => (s.twin w).store | none => s.twinA.store).approvals
  [byte p, byte (held.countP (fun a => a.2.port == some p)), byte (b2n (s.port p).dlg.isSome)]

/-- The state that a card leaves behind, before its dialogue ends. -/
def State.vacated (s : State) (p : Nat) : State := (s.withoutCard p).cardMoved 0x4011 (s.removal p)

theorem State.vacated_keeps (hp : p < 2) (s : State) :
    (s.vacated p).port p = { (s.port p) with pres := false, active := false, ident := none } ∧ (s.vacated p).lc = s.lc ∧
      (∀ w, ((s.vacated p).twin w).reqs = (s.twin w).reqs ∧ ((s.vacated p).twin w).role = (s.twin w).role) := by
  obtain ⟨hport, htwin, -, hlc⟩ := (s.withoutCard p).cardMoved_keeps (.inr rfl) (s.removal p)
  obtain ⟨hport', hlc', hreqs⟩ := State.withdrawApprovals_keeps
    (s.setPort p { (s.port p) with pres := false, active := false, ident := none }) (fun a => a.port == some p)
  refine ⟨(hport p).trans ((hport' p).trans (State.port_setPort hp _ _)), hlc.trans (hlc'.trans (s.setPort_lc _)), fun w => ?_⟩
  unfold State.vacated
  rw [htwin w]
  obtain ⟨hr, hrole⟩ := hreqs w
  rw [State.setPort_twin] at hr hrole
  exact ⟨hr, hrole⟩

/-- No approval of a card outlasts it (R163). -/
theorem State.vacated_mem (s : State) (p : Nat) : (∀ a ∈ (s.vacated p).nvm.approvals, a.2.port ≠ some p) ∧
    ∀ w, ∀ a ∈ ((s.vacated p).twin w).store.approvals, a.2.port ≠ some p := by
  obtain ⟨-, htwin, hnvm, -⟩ := (s.withoutCard p).cardMoved_keeps (.inr rfl) (s.removal p)
  unfold State.vacated
  refine ⟨fun a ha => ?_, fun w a ha => ?_⟩
  · rw [hnvm] at ha
    simpa using (State.withdrawApprovals_mem _).1 ha
  · rw [htwin w] at ha
    simpa using (State.withdrawApprovals_mem _).2 w ha

/-- The state that a removed card leaves: the command that it served has failed (R167). -/
def State.removeCard (s : State) (p : Nat) : State :=
  match (s.port p).dlg with
  | some d => (s.vacated p).failDialogue p d.q stCardTimeout
  | none => s.vacated p

theorem cardRemoved_exec (hp : p < 2) (h : (s.port p).pres = true) :
    exec (.cardRemoved t p) s = .next (settle s ((s.at t).removeCard p)) := by
  have hpres : ((s.at t).port p).pres = true := h
  change execCardRemoved t p s = _
  refine ev_of_eq ?_
  unfold onlyIf
  rw [hpres, decide_eq_true hp]
  rfl

theorem State.removeCard_idle (h : (s.port p).dlg = none) : s.removeCard p = s.vacated p := by
  unfold State.removeCard
  rw [h]

theorem State.removeCard_serving {d : CardDlg} (h : (s.port p).dlg = some d) :
    s.removeCard p = (s.vacated p).failDialogue p d.q stCardTimeout := by
  unfold State.removeCard
  rw [h]

/-- A card removed while it serves no command. -/
theorem cardRemoved_leaves (hp : p < 2) (h : (s.port p).pres = true) (hd : (s.port p).dlg = none) :
    Completes (.cardRemoved t p) s (fun t' => (t'.port p).pres = false ∧ (t'.port p).ident = none ∧
      (∀ a ∈ t'.nvm.approvals, a.2.port ≠ some p) ∧ ∀ w, ∀ a ∈ (t'.twin w).store.approvals, a.2.port ≠ some p) := by
  obtain ⟨hport, -⟩ := State.vacated_keeps hp (s.at t)
  obtain ⟨hnvm, htwin⟩ := (s.at t).vacated_mem p
  have hexec := cardRemoved_exec (t := t) hp h
  rw [State.removeCard_idle (s := s.at t) hd] at hexec
  refine ⟨_, hexec, congrArg Port.pres hport, congrArg Port.ident hport, hnvm, fun w => ?_⟩
  rw [settle_twin]
  exact htwin w

/-- A card removed while it serves a command: that ends `CARD_TIMEOUT` (R167). -/
theorem cardRemoved_ends {d : CardDlg} {w : Twin} {r : Req} (hp : p < 2) (h : (s.port p).pres = true)
    (hd : (s.port p).dlg = some d) (ha : Answers (s.at t) w d.q r) :
    Ends (.cardRemoved t p) s w d.q (fun e => e.status = stCardTimeout ∧ e.result = [] ∧ e.effects = r.sure) := by
  obtain ⟨-, hlc, htwin⟩ := State.vacated_keeps hp (s.at t)
  obtain ⟨hreqs, hrole⟩ := htwin w
  obtain ⟨hfin, htimed, -⟩ := ha.inTime
  have hexec := cardRemoved_exec (t := t) hp h
  rw [State.removeCard_serving (s := s.at t) hd] at hexec
  exact cardTimeout_ends ((State.executes_congr hlc hrole).trans ha.executing) (hreqs.symm ▸ ha.request) hfin htimed hexec

/-- The longest dialogue is over (Table 7-4). -/
theorem cardTimeout_late {d : CardDlg} {w : Twin} {r : Req} (hp : p < 2) (hd : (s.port p).dlg = some d)
    (hl : d.start + cardLongest ≤ (s.at t).now) (ha : Answers (s.at t) w d.q r) :
    Ends (.cardTimeout t p) s w d.q (fun e => e.status = stCardTimeout ∧ e.result = [] ∧ e.effects = r.sure) := by
  have hdlg : ((s.at t).port p).dlg = some d := hd
  have hexec : exec (.cardTimeout t p) s = .next (settle s ((s.at t).failDialogue p d.q stCardTimeout)) := by
    change execCardTimeout t p s = _
    refine ev_of_eq ?_
    have htimer : (s.at t).cardTimer p d = .ends stCardTimeout := if_pos hl
    unfold onlyIf
    simp only [hdlg, hp, decide_true, if_true, htimer]
    rfl
  obtain ⟨hfin, htimed, -⟩ := ha.inTime
  exact cardTimeout_ends ha.executing ha.request hfin htimed hexec

end

/-- Whether an expiry takes an approval: it stands in a twin under the id, its time has passed, and no command accepted before then
is in service (assumption 199). -/
def State.lapsed (s : State) (id : Nat) (a : Approval) : Bool :=
  decide (a.expiry < s.now) && !s.adminSince a.expiry &&
    (Tbl.find? s.twinA.store.approvals id == some a || Tbl.find? s.twinB.store.approvals id == some a)

theorem approvalExpiry_exec (t id : Nat) (s : State) :
    exec (.approvalExpiry t id) s = .next (settle s ((s.at t).withdrawApprovals ((s.at t).lapsed id))) := rfl

/-- An approval whose time has passed leaves every store (R163). -/
theorem approvalExpiry_leaves {s : State} {t id : Nat} {a : Approval} (hf : Tbl.find? s.twinA.store.approvals id = some a)
    (he : a.expiry < (s.at t).now) (hs : s.adminSince a.expiry = false) : Completes (.approvalExpiry t id) s (fun t' =>
      (∀ x ∈ t'.nvm.approvals, x.2 ≠ a) ∧ ∀ w, ∀ x ∈ (t'.twin w).store.approvals, x.2 ≠ a) := by
  have hlapsed : (s.at t).lapsed id a = true := by
    have hsince : (s.at t).adminSince a.expiry = false := hs
    simp [State.lapsed, he, hsince, hf]
  refine ⟨_, approvalExpiry_exec t id s, fun x hx hxa => ?_, fun w x hx hxa => ?_⟩
  · rw [settle_nvm] at hx
    have hgone := (State.withdrawApprovals_mem _).1 hx
    rw [hxa, hlapsed] at hgone
    cases hgone
  · rw [settle_twin] at hx
    have hgone := (State.withdrawApprovals_mem _).2 w hx
    rw [hxa, hlapsed] at hgone
    cases hgone

/-- A component set that has waited too long for its next component is discarded (R173). -/
theorem componentSetExpiry_leaves {s : State} {t c : Nat} {k : CompSet} (hc : (s.nvm.comp c).cset = some k)
    (he : k.last + 2400000000000 ≤ (s.at t).now) (hs : s.adminSince (k.last + 2399999999999) = false) :
    Completes (.componentSetExpiry t c) s (fun t' => t'.nvm.comp c = { s.nvm.comp c with cset := none }) := by
  have hdue : ((s.at t).nvm.comp c).cset.any (fun k => decide (k.last + 2400000000000 ≤ (s.at t).now) &&
      !(s.at t).adminSince (k.last + 2399999999999)) = true := by
    have hsince : (s.at t).adminSince (k.last + 2399999999999) = false := hs
    rw [State.at_nvm, hc, Option.any_some, hsince, decide_eq_true he]
    rfl
  refine ⟨_, rfl, ?_⟩
  dsimp only [settle_nvm, State.updStores]
  rw [if_pos hdue]
  exact Tbl.getD_put_same _ _ _ _

end Sys2Proof.Machine
end

section
/-! The line of a card dialogue, and the responses that it brings (R166, R168, R169, Table 7-4). -/

namespace Sys2Proof.Machine

section
variable {s : State} {t p : Nat} {d : CardDlg}

/-- A dialogue of a present card, within its longest duration. -/
structure OnLine (s : State) (p : Nat) (d : CardDlg) : Prop where
  port : p < 2
  present : (s.port p).pres = true
  dialogue : (s.port p).dlg = some d
  lasting : s.now < d.start + cardLongest

theorem cardApduResponse_exec (h : OnLine (s.at t) p d) (b : Bytes) : exec (.cardApduResponse t p b) s =
    .next (settle s ((s.at t).cardNext p d.q ((s.at t).cardLine p d b))) := by
  change execCardApduResponse t p b s = _
  refine ev_of_eq ?_
  unfold onlyIf
  simp only [h.dialogue, h.present, decide_eq_true h.port, Bool.and_self, if_true]

/-! What goes to the card. -/

/-- Bytes sent go out, and the line notes them. -/
theorem State.cardSend_sends (hp : p < 2) (s : State) (d : CardDlg) (l : CardLine) (b : Bytes) :
    (s.cardSend p d l b).out = s.out ++ [.card p b] ∧
      ((s.cardSend p d l b).port p).dlg = some { d with line := { l with sent := b, sentAt := s.now } } :=
  ⟨congrArg (fun o => o ++ [Output.card p b]) (State.setPort_out s { (s.port p) with
    dlg := some { d with line := { l with sent := b, sentAt := s.now } } }), congrArg Port.dlg (State.port_setPort hp s _)⟩

/-- A command APDU that the card takes in one block goes out whole. -/
theorem State.sendApdu_sends (hp : p < 2) (s : State) {b : Bytes} (hb : b.length ≤ d.line.ifsc) :
    (s.sendApdu p d b).out = s.out ++ [.card p (t1Block (64 * b2n d.line.ns) b)] ∧
      ∃ l, ((s.sendApdu p d b).port p).dlg = some { d with apdu := b, held := none, line := l } ∧ l.stage = d.line.stage := by
  have hone : decide (d.line.ifsc < b.length) = false := by simpa using hb
  have hblock : t1Block (64 * b2n d.line.ns + 32 * b2n (decide (d.line.ifsc < b.length))) (b.take d.line.ifsc) =
      t1Block (64 * b2n d.line.ns) b := by
    rw [hone, List.take_of_length_le hb]
    rfl
  obtain ⟨hout, hdlg⟩ := State.cardSend_sends hp s { d with apdu := b, held := none }
    { d.line with rest := b.drop d.line.ifsc, rx := [], owed := true,
                  lastI := t1Block (64 * b2n d.line.ns) b, wtx := 1 } (t1Block (64 * b2n d.line.ns) b)
  rw [← hblock] at hout hdlg
  rw [← hblock]
  exact ⟨hout, _, hdlg, rfl⟩

/-! What comes from the card. -/

/-- An answer to reset in time that offers T=1 without a TA1 is followed by S(IFS request). -/
theorem OnLine.atr_offer (h : OnLine s p d) {b : Bytes} {a : AtrInfo} (hs : d.line.stage = .atr)
    (ht : s.now ≤ d.atrDue + b.length * initialWait) (ha : atrRead b = some a) (h1 : a.ta1 = none) :
    s.cardLine p d b = .goes (s.cardIfs p d { d.line with
      ifsc0 := a.ifsc.getD 32, bwi := (a.tb.getD 0x4D) / 16, cwi := (a.tb.getD 0x4D) % 16 }) := by
  unfold State.cardLine
  dsimp only
  rw [if_neg (Nat.not_le.mpr h.lasting), hs]
  dsimp only
  rw [if_neg (Nat.not_lt.mpr ht), ha]
  simp [h1]

/-- An answer to reset that does not offer T=1 with LRC ends the dialogue. -/
theorem OnLine.atr_refused (h : OnLine s p d) {b : Bytes} (hs : d.line.stage = .atr)
    (ht : s.now ≤ d.atrDue + b.length * initialWait) (ha : atrRead b = none) :
    s.cardLine p d b = .ends stApproval := by
  unfold State.cardLine
  dsimp only
  rw [if_neg (Nat.not_le.mpr h.lasting), hs]
  dsimp only
  rw [if_neg (Nat.not_lt.mpr ht), ha]

/-- A block without error in time is taken by its kind. -/
theorem OnLine.block (h : OnLine s p d) {pcb : Nat} {inf : Bytes} (hs : d.line.stage = .ifs ∨ d.line.stage = .blocks)
    (hheld : d.held = none) (hl : inf.length ≤ 254) (hp : pcb < 256)
    (ht : s.now ≤ d.line.sentAt + d.line.bwt + (inf.length + 4) * d.line.cwt) :
    s.cardLine p d (t1Block pcb inf) = if ¬ bit pcb 7 then s.cardIBlock p d pcb inf
      else if ¬ bit pcb 6 then s.cardRBlock p d pcb else s.cardSBlock p d pcb inf := by
  have hgood : ¬ (¬ t1Good (t1Block pcb inf) = true ∨
      d.line.sentAt + d.line.bwt + (t1Block pcb inf).length * d.line.cwt < s.now) := by
    rw [t1Good_t1Block hl, length_t1Block]
    simpa using ht
  have hidle : ¬ d.held.isSome = true := by simp [hheld]
  unfold State.cardLine
  dsimp only
  rw [if_neg (Nat.not_le.mpr h.lasting)]
  rcases hs with hs | hs
  all_goals
    rw [hs]
    dsimp only
    rw [if_neg hidle, if_neg hgood, fld_t1Block_pcb hp, fld_t1Block_len hl, slice_t1Block_inf]

/-- The answer to S(IFS request) makes the line ready for the first command APDU. -/
theorem OnLine.ifs_answer (h : OnLine s p d) (hs : d.line.stage = .ifs) (hsent : d.line.sent = ifsRequest)
    (hheld : d.held = none) (hapdu : d.apdu = []) (ht : s.now ≤ d.line.sentAt + d.line.bwt + 5 * d.line.cwt) :
    s.cardLine p d (t1Block 0xE1 [0xFE]) =
      .whole (s.updPort p (fun x => { x with dlg := some { d with line := { d.line with stage := .blocks, tries := 0 } } })) none := by
  rw [h.block (inf := [0xFE]) (.inl hs) hheld (by decide) (by decide) ht, if_neg (by decide), if_neg (by decide)]
  unfold State.cardSBlock
  dsimp only
  rw [if_pos ⟨rfl, hs, hsent, rfl⟩, if_pos hapdu]

/-- SELECT is the first command APDU (R168). -/
theorem OnLine.selects (h : OnLine (s.at t) p d) (hs : d.line.stage = .ifs) (hsent : d.line.sent = ifsRequest)
    (hheld : d.held = none) (hapdu : d.apdu = []) (hl : 14 ≤ d.line.ifsc)
    (ht : (s.at t).now ≤ d.line.sentAt + d.line.bwt + 5 * d.line.cwt) :
    Completes (.cardApduResponse t p (t1Block 0xE1 [0xFE])) s (fun t' =>
      t'.out = s.out ++ [.card p (t1Block (64 * b2n d.line.ns) apduSelect)] ∧
      ∃ d', (t'.port p).dlg = some d' ∧ d'.line.stage = .blocks ∧ d'.apdu = apduSelect) := by
  let g : CardDlg := { d with line := { d.line with stage := .blocks, tries := 0 } }
  let v := (s.at t).updPort p (fun x => { x with dlg := some g })
  have hdlg : (v.port p).dlg = some g := congrArg Port.dlg (State.port_setPort h.port _ _)
  have hnext : v.cardNext p d.q (.whole v none) = v.sendApdu p g apduSelect := by
    unfold State.cardNext
    simp only [hdlg]
  have hexec := cardApduResponse_exec h (t1Block 0xE1 [0xFE])
  rw [h.ifs_answer hs hsent hheld hapdu ht] at hexec
  obtain ⟨hout, l, hdlg', hstage⟩ := State.sendApdu_sends (d := g) (b := apduSelect) h.port v hl
  exact ⟨_, hexec.trans (congrArg (fun z => Host.Outcome.next (settle s z)) hnext),
    hout.trans (congrArg (fun o => o ++ [_]) (State.setPort_out _ _)), _, hdlg', hstage, rfl⟩

/-- The line after the last block of a response. -/
def CardLine.taken (l : CardLine) (inf : Bytes) : CardLine :=
  { l with ns := l.ns != l.owed, owed := false, nr := !l.nr, rx := l.rx ++ inf, tries := 0, resynch := false, wtx := 1 }

/-- A dialogue that awaits a block of the card, its own APDU sent whole. -/
structure AwaitsBlock (d : CardDlg) : Prop where
  stage : d.line.stage = .blocks
  sent : d.line.sent ≠ resynchRequest
  rest : d.line.rest = []
  held : d.held = none

/-- The last block of a response, in turn and in time, makes it whole. -/
theorem OnLine.last_block (h : OnLine s p d) (ha : AwaitsBlock d) {inf : Bytes} (hl : inf.length ≤ 254)
    (ht : s.now ≤ d.line.sentAt + d.line.bwt + (inf.length + 4) * d.line.cwt) :
    s.cardLine p d (t1Block (64 * b2n d.line.nr) inf) =
      .whole (s.updPort p (fun x => { x with dlg := some { d with line := d.line.taken inf } })) (some (d.line.rx ++ inf)) := by
  have hpcb : 64 * b2n d.line.nr < 256 := by cases d.line.nr <;> decide
  have hbits : bit (64 * b2n d.line.nr) 7 = false ∧ bit (64 * b2n d.line.nr) 6 = d.line.nr ∧
      bit (64 * b2n d.line.nr) 5 = false := by cases d.line.nr <;> decide
  obtain ⟨h7, h6, h5⟩ := hbits
  have hturn : ¬ (d.line.stage ≠ .blocks ∨ d.line.sent = resynchRequest ∨ d.line.rest ≠ [] ∨
      bit (64 * b2n d.line.nr) 6 ≠ d.line.nr) := by
    simp [ha.stage, ha.sent, ha.rest, h6]
  rw [h.block (.inr ha.stage) ha.held hl hpcb ht, h7, if_pos Bool.false_ne_true]
  unfold State.cardIBlock
  dsimp only
  rw [if_neg hturn, h5, if_neg Bool.false_ne_true]
  rfl

/-- The last block of a response comes in turn and in time, in a dialogue of the active twin's command that both twins have begun
(R166). -/
structure Brings (s : State) (t p : Nat) (d : CardDlg) (w : Twin) (r : Req) (inf : Bytes) : Prop where
  online : OnLine (s.at t) p d
  awaits : AwaitsBlock d
  short : inf.length ≤ 254
  inTime : (s.at t).now ≤ d.line.sentAt + d.line.bwt + (inf.length + 4) * d.line.cwt
  active : s.active = some w
  answers : Answers (s.at t) w d.q r
  ready : s.dlgReady d.q = true

/-- The dialogue once the line has taken a block. -/
def CardDlg.taking (d : CardDlg) (inf : Bytes) : CardDlg := { d with line := d.line.taken inf }

/-- The state once the line has taken a block. -/
def State.lineTakes (s : State) (p : Nat) (d : CardDlg) (inf : Bytes) : State :=
  s.updPort p (fun x => { x with dlg := some (d.taking inf) })

section
variable {w : Twin} {r : Req} {inf : Bytes}

theorem Brings.exec_response (h : Brings s t p d w r inf) :
    exec (.cardApduResponse t p (t1Block (64 * b2n d.line.nr) inf)) s = .next (settle s
      (((s.at t).lineTakes p d inf).cardResponse p (d.taking inf) r (s.twin w).store (d.line.rx ++ inf))) := by
  have hdlg : (((s.at t).lineTakes p d inf).port p).dlg = some (d.taking inf) :=
    congrArg Port.dlg (State.port_setPort h.online.port _ _)
  have hact : ((s.at t).lineTakes p d inf).active = some w := (State.setPort_active _ _).trans h.active
  have htwin : ((s.at t).lineTakes p d inf).twin w = s.twin w := (State.setPort_twin _ _ w).trans (State.at_twin s t w)
  have hready : ((s.at t).lineTakes p d inf).dlgReady (d.taking inf).q = true :=
    (State.setPort_dlgReady _ _ _).trans h.ready
  have hreq : Tbl.find? (s.twin w).reqs (d.taking inf).q = some r := State.at_twin s t w ▸ h.answers.request
  rw [cardApduResponse_exec h.online, h.online.last_block h.awaits h.short h.inTime]
  change Host.Outcome.next (settle s (State.cardNext _ p d.q
    (.whole ((s.at t).lineTakes p d inf) (some (d.line.rx ++ inf))))) = _
  unfold State.cardNext State.cardDeliver
  simp only [hdlg, hact, htwin, hreq, hready, if_true]

theorem Brings.answersTaken (h : Brings s t p d w r inf) : Answers ((s.at t).lineTakes p d inf) w d.q r :=
  h.answers.setPort p _

/-- The answer to SELECT is followed by GET IDENTITY (R168). -/
theorem Brings.selected (h : Brings s t p d w r inf) (hs : d.stage = .select) (hall : d.line.rx ++ inf = [0x90, 0x00])
    (hl : 4 ≤ d.line.ifsc) : Completes (.cardApduResponse t p (t1Block (64 * b2n d.line.nr) inf)) s (fun t' =>
      t'.out = s.out ++ [.card p (t1Block (64 * b2n (d.line.ns != d.line.owed)) apduIdentity)] ∧
      ∃ d', (t'.port p).dlg = some d' ∧ d'.stage = .identity ∧ d'.q = d.q) := by
  have hnext : ((s.at t).lineTakes p d inf).cardResponse p (d.taking inf) r (s.twin w).store (d.line.rx ++ inf) =
      ((s.at t).lineTakes p d inf).sendApdu p { d.taking inf with stage := .identity } apduIdentity := by
    have hstage : (d.taking inf).stage = .select := hs
    unfold State.cardResponse
    rw [hall, show apduData [0x90, 0x00] = some [] from apduData_append []]
    simp only [hstage, ne_eq, not_true_eq_false, if_false]
  obtain ⟨hout, l, hdlg, -⟩ := State.sendApdu_sends (d := { d.taking inf with stage := .identity }) (b := apduIdentity)
    h.online.port ((s.at t).lineTakes p d inf) hl
  have hexec := h.exec_response
  rw [hnext] at hexec
  exact ⟨_, hexec, hout.trans (congrArg (fun o => o ++ [_]) (State.setPort_out _ _)), _, hdlg, rfl, rfl⟩

/-- A response without the status word 90 00 ends the dialogue (R168). -/
theorem Brings.refused (h : Brings s t p d w r inf) (hall : apduData (d.line.rx ++ inf) = none) :
    Ends (.cardApduResponse t p (t1Block (64 * b2n d.line.nr) inf)) s w d.q (fun e =>
      e.status = stApproval ∧ e.result = []) := by
  refine h.answersTaken.ends_failed (p := p) (h.exec_response.trans ?_)
  unfold State.cardResponse
  rw [hall]
  rfl

theorem length_toLe (n v : Nat) : (toLe n v).length = n := by
  induction n generalizing v with
  | zero => rfl
  | succ n ih => simp [toLe, ih]

/-- The result of an IDENTIFY is delivered inline (Table 7-7). -/
theorem length_exchangeResult {serial : Bytes} (h : serial.length ≤ 16) (id : Nat) (o : Option (Nat × Officer)) :
    (exchangeResult id o serial).length ≤ 24 := by
  unfold exchangeResult
  cases o <;> simp [length_toLe] <;> omega

theorem identityOf_serial {b serial pub : Bytes} {alg : Nat} (h : identityOf b = some (serial, alg, pub)) :
    serial.length ≤ 16 := by
  unfold identityOf at h
  dsimp only at h
  split at h
  · cases h
    exact List.length_take_le 16 b
  · cases h

/-- The answer to GET IDENTITY ends an IDENTIFY with the officer's index and role (R169). -/
theorem Brings.identified (h : Brings s t p d w r inf) {b serial pub : Bytes} {alg : Nat}
    (hall : d.line.rx ++ inf = b ++ [0x90, 0x00]) (hs : d.stage = .identity) (hid : identityOf b = some (serial, alg, pub))
    (hop : r.hdr.opcode = 0x0143) (hpur : fld r.payload 1 1 = 1) :
    Ends (.cardApduResponse t p (t1Block (64 * b2n d.line.nr) inf)) s w d.q (fun e => e.status = 0 ∧
      e.result = exchangeResult 0 (serialOf ((s.twin w).store.officers 0 0) serial) serial) := by
  have hasks : r.asks = (0, 0, 0) := by simp [Req.asks, hop, hpur]
  have hstage : (d.taking inf).stage = .identity := hs
  have hnext : ((s.at t).lineTakes p d inf).cardResponse p (d.taking inf) r (s.twin w).store (d.line.rx ++ inf) =
      (((s.at t).lineTakes p d inf).updPort p (fun x => { x with ident := some serial })).endDialogue p d.q
        (fun x => done (exchangeResult 0 (serialOf (x.store.officers 0 0) serial) serial) [] []) := by
    unfold State.cardResponse
    rw [hall, apduData_append]
    simp only [hstage, hid, State.identified, hasks, hop, hpur, and_self, if_true]
    rfl
  have hexec := h.exec_response
  rw [hnext] at hexec
  have hends := (h.answersTaken.updPort p _).ends_done hexec (.inl (length_exchangeResult (identityOf_serial hid) _ _))
  have htwin : (((s.at t).lineTakes p d inf).updPort p (fun x => { x with ident := some serial })).twin w = s.twin w := by
    simp [State.updPort, State.lineTakes]
  rw [htwin] at hends
  exact hends

end

end

end Sys2Proof.Machine
end

section
/-! The officer cards (R163, R166 to R173). -/

namespace Sys2Proof.Machine

/-- Settles O42: a card's insertion and removal, the lines of its dialogue, its ends, and the two expiries; how the line goes and
what an expiry waits for are the model's choice (assumptions 184 and 199). -/
theorem officerCards : Obligations.OfficerCards := by
  intro s t p hp u
  refine ⟨cardInserted_leaves hp, cardRemoved_leaves hp, fun w d r hd hact hx hr ht => ?_,
    fun id a => approvalExpiry_leaves, fun c k => componentSetExpiry_leaves⟩
  have ha : Answers (s.at t) w d.q r := ⟨(s.at_executes t w).trans hx, State.at_twin s t w ▸ hr, State.at_twin s t w ▸ ht⟩
  refine ⟨fun hl => cardTimeout_late hp hd hl ha, fun hpres => cardRemoved_ends hp hpres hd ha, fun hpres hlast => ?_⟩
  have hon : OnLine (s.at t) p d := ⟨hp, hpres, hd, hlast⟩
  refine ⟨fun b a hs hin hatr h1 => ?_, fun b hs hin hatr => ?_, fun hs hsent hheld hapdu hifsc hin => ?_,
    fun inf hs hsent hrest hheld hlen hin hready => ?_⟩
  · have hexec := cardApduResponse_exec hon b
    rw [hon.atr_offer hs hin hatr h1] at hexec
    obtain ⟨hout, hdlg⟩ := State.cardSend_sends hp (s.at t) d _ ifsRequest
    exact ⟨_, hexec, hout, _, hdlg, rfl, rfl⟩
  · have hexec := cardApduResponse_exec hon b
    rw [hon.atr_refused hs hin hatr] at hexec
    exact ha.ends_failed hexec
  · exact hon.selects hs hsent hheld hapdu hifsc hin
  · have hb : Brings s t p d w r inf := ⟨hon, ⟨hs, hsent, hrest, hheld⟩, hlen, hin, hact, ha, hready⟩
    exact ⟨hb.selected, hb.refused, fun b serial alg pub hall hst hid hop hpur => hb.identified hall hst hid hop hpur⟩

end Sys2Proof.Machine
end

section
/-! What charging a core, counting a wait and marking a request leave of a twin: everything but its requests and the core time
charged (R183, R187, R194). -/

namespace Sys2Proof.Machine

/-- All of a twin stands but its requests and its charges. -/
def ReqsOnly (x y : TwinSt) : Prop := { y with reqs := x.reqs, charges := x.charges } = x

theorem ReqsOnly.rfl {x : TwinSt} : ReqsOnly x x := Eq.refl _

theorem ReqsOnly.trans {x y z : TwinSt} (h : ReqsOnly x y) (k : ReqsOnly y z) : ReqsOnly x z := by
  unfold ReqsOnly at *
  calc { z with reqs := x.reqs, charges := x.charges }
      = { ({ z with reqs := y.reqs, charges := y.charges } : TwinSt) with reqs := x.reqs, charges := x.charges } := Eq.refl _
    _ = x := by rw [k]; exact h

/-- A part of the twin that holds neither requests nor charges. -/
theorem ReqsOnly.eq {α : Type} {x y : TwinSt} (h : ReqsOnly x y) (f : TwinSt → α)
    (hf : f { y with reqs := x.reqs, charges := x.charges } = f y) : f y = f x :=
  hf.symm.trans (congrArg f h)

theorem ReqsOnly.foldl {α : Type} {f : TwinSt → α → TwinSt} (h : ∀ x a, ReqsOnly x (f x a)) (l : List α) (x : TwinSt) :
    ReqsOnly x (l.foldl f x) := by
  induction l generalizing x with
  | nil => exact .rfl
  | cons a l ih => exact (h x a).trans (ih _)

theorem ReqsOnly.updReq (x : TwinSt) (q : Nat) (f : Req → Req) : ReqsOnly x (x.updReq q f) := Eq.refl _

theorem ReqsOnly.updTask (x : TwinSt) (q i : Nat) (f : Task → Task) : ReqsOnly x (x.updTask q i f) := Eq.refl _

theorem ReqsOnly.stopCharge (x : TwinSt) (now q i : Nat) : ReqsOnly x (x.stopCharge now q i) := by
  unfold TwinSt.stopCharge
  split
  · split
    · exact Eq.refl _
    · exact .rfl
  · exact .rfl

theorem ReqsOnly.recharge (x : TwinSt) (core now : Nat) : ReqsOnly x (x.recharge core now) := by
  unfold TwinSt.recharge
  dsimp only
  generalize x.executing core = nxt
  have hstop : ReqsOnly x ((x.onCore core).foldl
      (fun x e => if nxt = some (e.1, e.2.1) then x else x.stopCharge now e.1 e.2.1) x) := by
    refine .foldl (fun x e => ?_) _ x
    split
    · exact .rfl
    · exact .stopCharge x _ _ _
  split
  · exact hstop.trans (.updTask _ _ _ _)
  · exact hstop

theorem ReqsOnly.keepLog (x : TwinSt) (q : Nat) : ReqsOnly x (x.keepLog q) := by
  unfold TwinSt.keepLog
  split
  · split
    · exact .updReq x _ _
    · exact .rfl
  · exact .rfl

theorem ReqsOnly.markCap (x : TwinSt) (w : Twin) (act : Bool) (now : Nat) : ReqsOnly x (x.markCap w act now) := by
  unfold TwinSt.markCap
  refine .foldl (fun x a => ?_) _ x
  split
  · exact .updReq x _ _
  · exact .rfl

/-- What a command leaves of a twin, when that is all that is asked of it. -/
theorem Completes.of_twin {i : Instr} {s v : State} {w : Twin} {p : TwinSt → Prop} (he : exec i s = .next (settle s v))
    (hp : p (v.twin w)) : Completes i s (fun t => p (t.twin w)) :=
  ⟨_, he, (congrArg p (settle_twin s v w)).mpr hp⟩

@[simp] theorem TwinSt.recharge_ctxs (x : TwinSt) (core now : Nat) : (x.recharge core now).ctxs = x.ctxs :=
  (ReqsOnly.recharge x core now).eq TwinSt.ctxs (Eq.refl _)

/-- A task changed reads back changed, and every other task is as before. -/
theorem TwinSt.task?_updTask (x : TwinSt) (p j q i : Nat) (f : Task → Task) : (x.updTask p j f).task? q i =
    if q = p ∧ i = j then (x.task? q i).map f else x.task? q i := by
  unfold TwinSt.task? TwinSt.updTask Req.updTask
  rw [TwinSt.find?_updReq]
  by_cases hq : q = p
  · subst hq
    cases hr : Tbl.find? x.reqs q with
    | none => simp
    | some r => simp [Tbl.find?_upd]
  · simp [hq]

end Sys2Proof.Machine
end

section
/-! The context that a dispatch gives a task (R134, R239, Table 9-4), and the wake events of a dispatch (R416, R419). -/

namespace Sys2Proof.Machine

/-- A context stands as a task finds it at its dispatch: occupied by it, without a handler, with an empty accumulator and outside
`rep`. -/
def StartsIn (q i key : Nat) (x : TwinSt) : Prop :=
  ∃ c, Tbl.find? x.ctxs key = some c ∧ c.occ = true ∧ c.task = some (q, i) ∧ c.ev = 0 ∧ c.acc = 0 ∧ c.rep = none

@[simp] theorem Ctx.setReg_occ (c : Ctx) (n : BitVec 5) (v : Word) (t : Bool) : (c.setReg n v t).occ = c.occ := by
  unfold Ctx.setReg; split <;> rfl
@[simp] theorem Ctx.setReg_task (c : Ctx) (n : BitVec 5) (v : Word) (t : Bool) : (c.setReg n v t).task = c.task := by
  unfold Ctx.setReg; split <;> rfl
@[simp] theorem Ctx.setReg_ev (c : Ctx) (n : BitVec 5) (v : Word) (t : Bool) : (c.setReg n v t).ev = c.ev := by
  unfold Ctx.setReg; split <;> rfl
@[simp] theorem Ctx.setReg_acc (c : Ctx) (n : BitVec 5) (v : Word) (t : Bool) : (c.setReg n v t).acc = c.acc := by
  unfold Ctx.setReg; split <;> rfl

section
variable {q i key : Nat} {x : TwinSt}

/-- Nothing but the contexts decides. -/
theorem StartsIn.congr {y : TwinSt} (h : StartsIn q i key x) (hc : y.ctxs = x.ctxs) : StartsIn q i key y := by
  unfold StartsIn
  rw [hc]
  exact h

/-- The end of a wait leaves it. -/
theorem StartsIn.endWait (h : StartsIn q i key x) (k : Nat) :
    StartsIn q i key { x with ctxs := Tbl.upd x.ctxs k (fun c => { c with waiting := false }) } := by
  obtain ⟨c, hc, hp⟩ := h
  have hupd := Tbl.find?_upd x.ctxs k key (fun c => { c with waiting := false })
  rw [hc] at hupd
  split at hupd
  · exact ⟨_, hupd, hp⟩
  · exact ⟨c, hupd, hp⟩

end

/-- A task placed starts in the context of its target (R186, R239). -/
theorem TwinSt.place_startsIn {x : TwinSt} {q i : Nat} {r : Req} {k : Task} (hr : Tbl.find? x.reqs q = some r)
    (hk : Tbl.find? r.tasks i = some k) (now stamp isl n : Nat) (pre : Bool) :
    StartsIn q i (2 * isl + n) (x.place now stamp q i isl n pre) := by
  have ht : x.task? q i = some k := by simp [TwinSt.task?, hr, hk]
  unfold TwinSt.place
  simp only [hr, ht]
  refine StartsIn.congr ?_ (((ReqsOnly.updReq _ q _).trans (.keepLog _ q)).trans (.recharge _ isl now) |>.eq TwinSt.ctxs rfl)
  refine ⟨_, Tbl.find?_put_same _ _ _, ?_⟩
  unfold Ctx.fresh
  simp [Ctx.setAnchor]

/-- A dispatch counts no pre-emption. -/
theorem TwinSt.place_ctr (x : TwinSt) (now stamp q i isl n : Nat) (pre : Bool) :
    (x.place now stamp q i isl n pre).ctr = x.ctr := by
  unfold TwinSt.place
  split
  · exact ((ReqsOnly.updReq _ q _).trans (.keepLog _ q)).trans (.recharge _ isl now) |>.eq TwinSt.ctr rfl
  · rfl

/-- What wake events leave of a twin keeps its counters. -/
theorem WokenOnly.ctr {x y : TwinSt} (h : WokenOnly x y) : y.ctr = x.ctr := by
  unfold WokenOnly at h
  have hc := congrArg TwinSt.ctr h
  exact hc

/-! Accesses that the gatekeeper of a domain without a processor has held. -/

/-- A debug act in an island without a processor writes no context (R402). -/
theorem TwinSt.debugWrite_ctxs {isl : Nat} (h : isProcessor isl = false) (x : TwinSt) (l : DbgLoc) (v : Word) (tag : Bool) :
    (x.debugWrite isl l v tag).ctxs = x.ctxs := by
  unfold TwinSt.debugWrite
  cases l with
  | word n i => simp [h]
  | special n r => simp [h]
  | mem n a => simp [h]
  | sram k a => dsimp only; split <;> rfl
  | other k => rfl

theorem State.serveAccess_ctxs {n : Nat} (h : isProcessor n = false) (s : State) (a : GateAcc) (w : Twin) :
    ((s.serveAccess n a).twin w).ctxs = (s.twin w).ctxs := by
  cases a with
  | zenith b => cases b <;> cases w <;> rfl
  | debug act =>
    unfold State.serveAccess State.debugAct
    cases act with
    | halt | resume => cases w <;> rfl
    | step => dsimp only; split <;> cases w <;> rfl
    | read l => dsimp only; split <;> cases w <;> rfl
    | write l v tag =>
      have hanswer : ∀ u : State, ((u.answerAccess n none false).twin w).ctxs = (u.twin w).ctxs := by
        intro u
        cases w <;> rfl
      dsimp only
      rw [hanswer]
      split
      · next o ho =>
        by_cases how : o = w
        · subst how
          rw [State.updTwin, State.twin_setTwin, TwinSt.debugWrite_ctxs h]
        · rw [State.twin_updTwin_of_ne how]
      · rfl

/-- The quadrant islands and the cluster memories, which a dispatch wakes with the core, hold no processor (R18, R408). -/
theorem isProcessor_quadrantOf (w : Twin) (isl : Nat) : isProcessor (quadrantOf w (islandCluster isl)) = false := by
  have hplace : quadrantOf w (islandCluster isl) % 206 = 192 + isl % 206 / 12 / 4 := by
    cases w <;> simp only [quadrantOf, islandCluster, twinBase] <;> omega
  have hcore : decide (192 + isl % 206 / 12 / 4 < 192) = false := decide_eq_false (by omega)
  have hzenith : (192 + isl % 206 / 12 / 4 == 198) = false := beq_false_of_ne (by omega)
  unfold isProcessor isCore
  rw [hplace, hcore, hzenith]
  simp only [Bool.and_false, Bool.false_and, Bool.or_false]

theorem isProcessor_clusterMem (w : Twin) (k : Nat) : isProcessor (clusterMem w k) = false := by
  have hge : 412 ≤ clusterMem w k := by cases w <;> simp only [clusterMem] <;> omega
  simp [isProcessor, isCore, Nat.not_lt.mpr hge]

section
variable {q i key n : Nat} {s : State} {w : Twin}

/-- A wake event at a domain whose gatekeeper has held nothing that could write a context leaves the new task's (R415, R419). -/
theorem StartsIn.wakeDom (hn : (s.domain n).held = [] ∨ isProcessor n = false) (h : StartsIn q i key (s.twin w)) :
    StartsIn q i key ((s.wakeDom n).twin w) := by
  have hheld : ∀ u : State, StartsIn q i key (u.twin w) →
      StartsIn q i key (((s.domain n).held.foldl (fun u a => u.serveAccess n a) u).twin w) := by
    intro u hu
    rcases hn with hn | hn
    · rw [hn]
      exact hu
    · exact hu.congr (foldl_keeps (p := fun u : State => (u.twin w).ctxs) (fun u a => u.serveAccess_ctxs hn a w) _ u)
  have hclamp : ∀ (c : Prop) [Decidable c] (u : State) f, StartsIn q i key (u.twin w) →
      StartsIn q i key ((if c then u.updPower f else u).twin w) := by
    intro c _ u f hu
    refine hu.congr ?_
    split <;> cases w <;> rfl
  have hdom := fun d => hclamp (n = 422) (s.setDomain n d) (fun p => { p with padClamp := false })
    ((s.twin_setDomain d).symm ▸ h)
  unfold State.wakeDom State.toRun
  dsimp only
  split
  · exact (s.twin_setDomain _).symm ▸ h
  · refine hheld _ ?_
    split
    · next o _ =>
      by_cases how : o = w
      · subst how
        rw [State.updTwin, State.twin_setTwin]
        exact (hdom _).endWait _
      · rw [State.twin_updTwin_of_ne how]
        exact hdom _
    · exact hdom _

/-- The wake events of a dispatch leave the context of the task: the core's gatekeeper has held nothing (R416, R419). -/
theorem StartsIn.wakeDispatch {isl : Nat} (hn : (s.domain isl).held = []) (h : StartsIn q i key (s.twin w)) :
    StartsIn q i key ((s.wakeDoms (dispatchDoms w isl)).twin w) :=
  ((h.wakeDom (.inl hn)).wakeDom (.inr (isProcessor_quadrantOf w isl))).wakeDom (.inr (isProcessor_clusterMem w _))

end

end Sys2Proof.Machine
end

section
/-! Dispatch and pre-emption (R183 to R187, R239). -/

namespace Sys2Proof.Machine

/-- A task dispatched runs on its context since a stamp, and finds it as a dispatch leaves it. -/
def Runs (q i isl n stamp : Nat) (x : TwinSt) : Prop := Placed q i isl n stamp x ∧ StartsIn q i (2 * isl + n) x

section
variable {s : State} {w : Twin} {c : Ready} {r : Req} {k : Task} {isl n : Nat}

theorem State.dispatchTo_runs (hr : Tbl.find? (s.twin w).reqs c.q = some r) (hk : Tbl.find? r.tasks c.i = some k)
    (hheld : (s.domain isl).held = []) (pre : Bool) :
    Runs c.q c.i isl n ((s.twin w).stampOf s.now coachyard) ((s.dispatchTo w c isl n pre).twin w) := by
  refine ⟨State.dispatchTo_placed hr hk pre, ?_⟩
  unfold State.dispatchTo
  dsimp only
  refine StartsIn.wakeDispatch ?_ ?_
  · simpa [State.domain] using hheld
  · rw [State.twin_setTwin]
    have hr' : Tbl.find? ((s.stamped (twinBase w + 196)).twin w).reqs c.q = some r := by
      rw [State.stamped_coachyard_reqs]
      exact hr
    exact StartsIn.congr (TwinSt.place_startsIn (x := TwinSt.countCap _ w _ _) hr' hk _ _ isl n pre) rfl

/-- A dispatch counts no pre-emption. -/
theorem State.dispatchTo_preempts (pre : Bool) :
    ((s.dispatchTo w c isl n pre).twin w).ctr.preempts = (s.twin w).ctr.preempts := by
  have hstamped : ((s.stamped (twinBase w + 196)).twin w).ctr.preempts = (s.twin w).ctr.preempts := by
    unfold State.stamped
    rw [islandTwin_coachyard]
    simp [State.updTwin, TwinSt.stamped]
  unfold State.dispatchTo
  dsimp only
  rw [((Woken.wakeDoms _ _).twin w).ctr, State.twin_setTwin]
  exact (congrArg TwinCtr.preempts (TwinSt.place_ctr _ _ _ _ _ isl n pre)).trans hstamped

end

/-- A victim suspended, and the pre-emption counted (R187, R194). -/
def TwinSt.suspend (x : TwinSt) (now : Nat) (v : Victim) (reserved : Bool) : TwinSt :=
  let y := (x.stopCharge now v.q v.i).updReq v.q (fun r =>
    { (r.updTask v.i (fun k => { k with st := .suspended })) with precMark := r.precMark || reserved })
  { y with ctr := { y.ctr with preempts := satAdd 32 y.ctr.preempts 1 } }

section
variable (x : TwinSt) (now : Nat) (v : Victim) (reserved : Bool)

/-- The suspension of a victim leaves every task in its request. -/
theorem TwinSt.task?_suspend {q i : Nat} (h : (x.task? q i).isSome = true) :
    ((x.suspend now v reserved).task? q i).isSome = true := by
  have hstop : ((x.stopCharge now v.q v.i).task? q i).isSome = true := by
    unfold TwinSt.stopCharge
    split
    · split
      · refine Eq.trans (congrArg Option.isSome (TwinSt.task?_updTask x v.q v.i q i _)) ?_
        split <;> simp [h]
      · exact h
    · exact h
  have hmark : (x.suspend now v reserved).task? q i =
      ((x.stopCharge now v.q v.i).updTask v.q v.i (fun k => { k with st := .suspended })).task? q i := by
    unfold TwinSt.suspend TwinSt.task? TwinSt.updTask
    dsimp only
    rw [TwinSt.find?_updReq, TwinSt.find?_updReq]
    split
    · cases Tbl.find? (x.stopCharge now v.q v.i).reqs q <;> rfl
    · rfl
  rw [hmark, TwinSt.task?_updTask]
  split <;> simp [hstop]

theorem TwinSt.suspend_stampOf (l : Nat) : (x.suspend now v reserved).stampOf now l = x.stampOf now l :=
  (ReqsOnly.stopCharge x now v.q v.i).eq (fun y => y.stampOf now l) rfl

theorem TwinSt.suspend_preempts : (x.suspend now v reserved).ctr.preempts = satAdd 32 x.ctr.preempts 1 :=
  congrArg (satAdd 32 · 1) ((ReqsOnly.stopCharge x now v.q v.i).eq (fun y => y.ctr.preempts) rfl)

end

/-- A task that a twin has stands in a request of the twin. -/
theorem TwinSt.task?_isSome {x : TwinSt} {q i : Nat} :
    (x.task? q i).isSome = true ↔ ∃ r k, Tbl.find? x.reqs q = some r ∧ Tbl.find? r.tasks i = some k := by
  unfold TwinSt.task?
  cases Tbl.find? x.reqs q <;> simp [Option.isSome_iff_exists]

section
variable {s : State} {t : Nat} {w : Twin} {x : TwinSt} {c : Ready} {r : Req} {k : Task} {isl n : Nat}

/-- Coachyard looks at its ready lists: an executing twin whose Coachyard is awake, as its preparation leaves it, and the task
chosen in it (R184, R185). -/
structure Chooses (s : State) (t : Nat) (w : Twin) (x : TwinSt) (c : Ready) (r : Req) (k : Task) : Prop where
  executes : s.executes w = true
  awake    : s.coachyardAwake w = true
  prepared : ((s.at t).twin w).prepare w ((s.at t).isActive w) (s.at t).now = x
  chosen   : x.chooseTask w ((s.at t).isActive w) (s.at t).now = some c
  request  : Tbl.find? x.reqs c.q = some r
  task     : Tbl.find? r.tasks c.i = some k

theorem Chooses.looks (h : Chooses s t w x c r k) : ¬ (¬ (s.at t).executes w = true ∨ ¬ (s.at t).coachyardAwake w = true) := by
  simp [State.at_executes, State.at_coachyardAwake, h.executes, h.awake]

theorem Chooses.taskDispatch_exec (h : Chooses s t w x c r k) (ht : x.target w r.image = some (isl, n)) :
    exec (.taskDispatch t w) s = .next (settle s (((s.at t).setTwin w x).dispatchTo w c isl n false)) := by
  change execTaskDispatch t w s = _
  unfold execTaskDispatch
  refine ev_of_eq ?_
  rw [if_neg h.looks]
  simp only [State.updTwin, State.twin_setTwin, State.setTwin_isActive, State.setTwin_now, h.prepared, h.chosen, h.request, ht]

theorem Chooses.taskDispatch_runs (h : Chooses s t w x c r k) (ht : x.target w r.image = some (isl, n))
    (hheld : (s.domain isl).held = []) : Completes (.taskDispatch t w) s (fun t' =>
      Runs c.q c.i isl n (x.stampOf (s.at t).now coachyard) (t'.twin w)) := by
  have hrun := State.dispatchTo_runs (s := (s.at t).setTwin w x) (w := w) (c := c) (isl := isl) (n := n)
    (by rw [State.twin_setTwin]; exact h.request) h.task (by simpa [State.domain] using hheld) false
  rw [State.twin_setTwin, State.setTwin_now] at hrun
  exact .of_twin (h.taskDispatch_exec ht) hrun

/-- The victims whose core the chosen task may take (R187). -/
def TwinSt.prey (x : TwinSt) (w : Twin) (now : Nat) (c : Ready) : List Victim :=
  (x.victims w now).filter (fun v => v.reserved (x.standing w now c.comp) || (v.st.comp == c.comp && decide (v.lane < c.lane)))

theorem Chooses.preemption_exec {v : Victim} (h : Chooses s t w x c r k) (ht : x.target w r.image = none)
    (hv : leastBy Victim.before (x.prey w (s.at t).now c) = some v) : exec (.preemption t w) s = .next (settle s
      (((s.at t).setTwin w (x.suspend (s.at t).now v (v.reserved (x.standing w (s.at t).now c.comp)))).dispatchTo w c
        v.isl v.free true)) := by
  unfold TwinSt.prey at hv
  change execPreemption t w s = _
  unfold execPreemption
  refine ev_of_eq ?_
  rw [if_neg h.looks]
  simp only [State.updTwin, State.twin_setTwin, State.setTwin_isActive, State.setTwin_now, h.prepared, h.chosen, h.request, ht,
    hv, Option.isSome_none, Bool.false_eq_true, if_false]
  cases w <;> rfl

theorem Chooses.preemption_runs {v : Victim} (h : Chooses s t w x c r k) (ht : x.target w r.image = none)
    (hv : leastBy Victim.before (x.prey w (s.at t).now c) = some v) (hheld : (s.domain v.isl).held = []) :
    Completes (.preemption t w) s (fun t' => Runs c.q c.i v.isl v.free (x.stampOf (s.at t).now coachyard) (t'.twin w) ∧
      (t'.twin w).ctr.preempts = satAdd 32 x.ctr.preempts 1) := by
  have hexec := h.preemption_exec ht hv
  generalize v.reserved (x.standing w (s.at t).now c.comp) = reserved at hexec
  obtain ⟨r', k', hr', hk'⟩ := TwinSt.task?_isSome.mp (x.task?_suspend (s.at t).now v reserved
    (TwinSt.task?_isSome.mpr ⟨r, k, h.request, h.task⟩))
  have hrun := State.dispatchTo_runs (s := (s.at t).setTwin w (x.suspend (s.at t).now v reserved)) (w := w) (c := c)
    (isl := v.isl) (n := v.free) (by rw [State.twin_setTwin]; exact hr') hk' (by simpa [State.domain] using hheld) true
  rw [State.twin_setTwin, State.setTwin_now, TwinSt.suspend_stampOf] at hrun
  have hcount := State.dispatchTo_preempts (s := (s.at t).setTwin w (x.suspend (s.at t).now v reserved)) (w := w) (c := c)
    (isl := v.isl) (n := v.free) true
  rw [State.twin_setTwin, TwinSt.suspend_preempts] at hcount
  exact .of_twin (p := fun y => Runs c.q c.i v.isl v.free (x.stampOf (s.at t).now coachyard) y ∧ y.ctr.preempts = _) hexec
    ⟨hrun, hcount⟩

end

/-- What the statement says of a task dispatched. -/
theorem Runs.shown {q i isl n stamp : Nat} {x : TwinSt} (h : Runs q i isl n stamp x) :
    ∃ (r : Req) (k : Task) (c : Ctx), Tbl.find? x.reqs q = some r ∧ r.begun = true ∧ x.task? q i = some k ∧
      k.ctx = some ⟨isl, n⟩ ∧ k.st = .running ∧ k.dispatch = stamp ∧ Tbl.find? x.ctxs (2 * isl + n) = some c ∧
      c.occ = true ∧ c.task = some (q, i) ∧ c.ev = 0 ∧ c.acc = 0 ∧ c.rep = none := by
  obtain ⟨⟨r, k, hr, hb, hk, hctx, hst, hd⟩, c, hc⟩ := h
  exact ⟨r, k, c, hr, hb, by simp [TwinSt.task?, hr, hk], hctx, hst, hd, hc⟩

/-- Settles O28: a dispatch to a target of the first two kinds, and a pre-emption. -/
theorem taskDispatch : Obligations.TaskDispatch := by
  intro s t w c r k hx hc u x img runs hchoice hr hk
  have himg : img = r.image := by simp only [img, hr]
  have h : Chooses s t w x c r k := ⟨hx, hc, rfl, hchoice, hr, hk⟩
  refine ⟨fun isl n ht hheld => ?_, fun v ht _ hv hheld => ?_⟩
  · obtain ⟨t', ht', hrun⟩ := h.taskDispatch_runs (himg ▸ ht) hheld
    exact ⟨t', ht', hrun.shown⟩
  · obtain ⟨t', ht', hrun, hcount⟩ := h.preemption_runs (himg ▸ ht) hv hheld
    exact ⟨t', ht', hrun.shown, hcount⟩

end Sys2Proof.Machine
end

section
/-! Completions that reach Coachyard (R177, R178, R243). -/

namespace Sys2Proof.Machine

/-! The services that complete first leave the module around the twin. -/

section
variable {α : Type} {p : State → α} {w : Twin} (hset : ∀ s x, p (s.setTwin w x) = p s)
  (hfree : ∀ (s : State) n, p { s with free := n } = p s)
include hset hfree

/-- What neither the twin nor the free values decide, a service leaves (R243). -/
theorem State.serveOne_keeps (s : State) (a : Async) : p (State.serveOne w s a) = p s := by
  have hupd : ∀ (u : State) f, p (u.updTwin w f) = p u := fun u f => hset u _
  have hend : ∀ (u : State) q st, p (u.endWith w q st) = p u := fun u q st => hset u _
  cases a with
  | payload q i off len dst c =>
    unfold State.serveOne
    dsimp only
    split
    · rfl
    · split
      · exact (hset _ _).trans (hfree s _)
      · exact hupd s _
  | rng q i dst len tag c =>
    unfold State.serveOne
    dsimp only
    split
    · rfl
    · split
      · exact hset s _
      · exact (hupd _ _).trans (hupd s _)
      · split
        · exact hend s _ _
        · exact (hupd _ _).trans (hupd s _)
      · exact hend s _ _
  | keyGet q i k dst c =>
    unfold State.serveOne
    dsimp only
    split
    · rfl
    · split
      · exact hset s _
      · exact hset s _

theorem State.serve_keeps (s : State) : p (s.serve w) = p s := by
  unfold State.serve
  calc p _ = p (((s.twin w).asyncs).foldl (State.serveOne w) (s.updTwin w (fun x => { x with asyncs := [] }))) := hset _ _
    _ = p (s.updTwin w (fun x => { x with asyncs := [] })) := foldl_keeps (State.serveOne_keeps hset hfree) _ _
    _ = p s := hset _ _

end

theorem State.serve_coachyardAwake (s : State) (w v : Twin) : (s.serve w).coachyardAwake v = s.coachyardAwake v :=
  State.serve_keeps (p := fun s => s.coachyardAwake v) (fun s x => by cases w <;> rfl) (fun _ _ => rfl) s

theorem State.serve_isActive (s : State) (w v : Twin) : (s.serve w).isActive v = s.isActive v :=
  State.serve_keeps (p := fun s => s.isActive v) (fun s x => by cases w <;> rfl) (fun _ _ => rfl) s

theorem State.serve_now (s : State) (w : Twin) : (s.serve w).now = s.now :=
  State.serve_keeps (p := State.now) (fun s x => by cases w <;> rfl) (fun _ _ => rfl) s

/-- The twin with other completions on their way to Coachyard. -/
def TwinSt.withDones (x : TwinSt) (l : List Done) : TwinSt := { x with dones := l }

/-! What a completion makes of its task and request. -/

/-- The request of a completion: the counter of the task falls, and a failed predecessor marks it (R177, R178). -/
def Req.lowered (r : Req) (d : Done) : Req :=
  { r.updTask d.task (fun k => { k with dep := k.dep - 1 }) with failMark := decide (d.kind = .pred false) || r.failMark }

/-- The twin with that done. -/
def TwinSt.lowered (x : TwinSt) (d : Done) : TwinSt :=
  let y := x.updTask d.q d.task (fun k => { k with dep := k.dep - 1 })
  if d.kind = .pred false then y.updReq d.q (fun r => { r with failMark := true }) else y

section
variable {x : TwinSt} {d : Done} {r : Req} {k : Task}

theorem ReqsOnly.lowered (x : TwinSt) (d : Done) : ReqsOnly x (x.lowered d) := by
  unfold TwinSt.lowered
  dsimp only
  split
  · exact (ReqsOnly.updTask x _ _ _).trans (.updReq _ _ _)
  · exact .updTask x _ _ _

theorem TwinSt.find?_lowered (hr : Tbl.find? x.reqs d.q = some r) : Tbl.find? (x.lowered d).reqs d.q = some (r.lowered d) := by
  have hone := TwinSt.find?_updReq_same hr (fun r => r.updTask d.task (fun k => { k with dep := k.dep - 1 }))
  unfold TwinSt.lowered Req.lowered
  dsimp only
  split
  · next h =>
    rw [TwinSt.updTask, TwinSt.find?_updReq_same hone]
    simp [h]
  · next h =>
    rw [TwinSt.updTask, hone]
    simp [h]
    rfl

theorem TwinSt.task?_lowered (hr : Tbl.find? x.reqs d.q = some r) (hk : Tbl.find? r.tasks d.task = some k) :
    (x.lowered d).task? d.q d.task = some { k with dep := k.dep - 1 } := by
  have hfind := Tbl.find?_upd r.tasks d.task d.task (fun k => { k with dep := k.dep - 1 })
  rw [if_pos rfl, hk] at hfind
  unfold TwinSt.task?
  rw [TwinSt.find?_lowered hr]
  exact hfind

variable (act : Bool) (now : Nat)

/-- One completion applied (R177, R178). -/
theorem TwinSt.complete_eq (hr : Tbl.find? x.reqs d.q = some r) (hk : Tbl.find? r.tasks d.task = some k) :
    x.complete act now d = if k.dep - 1 ≠ 0 then x.lowered d
      else if d.task = 0 ∧ (r.lowered d).failMark ∧ ¬ r.begun then (x.lowered d).finish act now d.q { status := stPredFailed }
      else (x.lowered d).endWait now d.q d.task := by
  have hfold : x.complete act now d = match Tbl.find? (x.lowered d).reqs d.q, (x.lowered d).task? d.q d.task with
    | some r, some k =>
      if k.dep ≠ 0 then x.lowered d
      else if d.task = 0 ∧ r.failMark ∧ ¬ r.begun then (x.lowered d).finish act now d.q { status := stPredFailed }
      else (x.lowered d).endWait now d.q d.task
    | _, _ => x.lowered d := rfl
  rw [hfold, TwinSt.find?_lowered hr, TwinSt.task?_lowered hr hk]
  rfl

theorem TwinSt.complete_waits (hr : Tbl.find? x.reqs d.q = some r) (hk : Tbl.find? r.tasks d.task = some k) (h : 2 ≤ k.dep) :
    x.complete act now d = x.lowered d := by
  rw [TwinSt.complete_eq act now hr hk, if_pos (by omega)]

theorem TwinSt.complete_last (hr : Tbl.find? x.reqs d.q = some r) (hk : Tbl.find? r.tasks d.task = some k) (h : k.dep = 1)
    (hgood : d.task = 0 → r.failMark = false ∧ d.kind ≠ .pred false) :
    x.complete act now d = (x.lowered d).endWait now d.q d.task := by
  have hno : ¬ (d.task = 0 ∧ (r.lowered d).failMark = true ∧ ¬ r.begun = true) := by
    rintro ⟨h0, hm, -⟩
    obtain ⟨hmark, hkind⟩ := hgood h0
    simp [Req.lowered, hmark, hkind] at hm
  rw [TwinSt.complete_eq act now hr hk, if_neg (by omega), if_neg hno]

theorem TwinSt.complete_failed (hr : Tbl.find? x.reqs d.q = some r) (hk : Tbl.find? r.tasks d.task = some k) (h : k.dep = 1)
    (h0 : d.task = 0) (hkind : d.kind = .pred false) (hb : r.begun = false) :
    x.complete act now d = (x.lowered d).finish act now d.q { status := stPredFailed } := by
  rw [TwinSt.complete_eq act now hr hk, if_neg (by omega), if_pos ⟨h0, by simp [Req.lowered, hkind], by simp [hb]⟩]

/-- The wait of a task that a context holds ends when nothing else holds the context (R177, R238, R244). -/
theorem TwinSt.endWait_goesOn {q i : Nat} {c : Cid} (hk : x.task? q i = some k) (hc : k.ctx = some c) (hh : x.held c = false) :
    (Tbl.getD (x.endWait now q i).ctxs (ctxKey c) {}).waiting = false ∧ (x.endWait now q i).dones = x.dones := by
  unfold TwinSt.endWait
  simp only [hk, hc, hh, Option.bind_some, Bool.false_eq_true, if_false, TwinSt.recharge_ctxs]
  refine ⟨?_, (ReqsOnly.recharge _ _ _).eq TwinSt.dones rfl⟩
  unfold Tbl.getD
  rw [Tbl.find?_upd, if_pos rfl]
  cases Tbl.find? x.ctxs (ctxKey c) <;> rfl

/-- The marks of rank 4 leave the tasks (R194). -/
theorem TwinSt.task?_markCap (x : TwinSt) (w : Twin) (q i : Nat) : (x.markCap w act now).task? q i = x.task? q i := by
  obtain ⟨b, hb⟩ := x.find?_markCap w act now q
  unfold TwinSt.task?
  rw [hb]
  cases Tbl.find? x.reqs q <;> rfl

/-- A request that ends with a status alone commits nothing (R192, R197). -/
theorem TwinSt.endOf_commits (q st : Nat) (ho : r.timedOut = none) :
    (x.endOf act now q r { status := st }).commits = false := by
  unfold TwinSt.endOf Req.endRec Req.segEffects Req.fit
  simp [ho]

end

/-! The command. -/

section
variable {s : State} {t : Nat} {w : Twin} {x : TwinSt} {d : Done} {l : List Done} {r : Req} {k : Task}

/-- A completion has reached Coachyard, which is awake: the twin once its services have been served, and the task and the request of
the first completion. -/
structure Reaches (s : State) (t : Nat) (w : Twin) (x : TwinSt) (d : Done) (l : List Done) (r : Req) (k : Task) : Prop where
  awake   : s.coachyardAwake w = true
  served  : ((s.at t).serve w).twin w = x
  dones   : x.dones = d :: l
  request : Tbl.find? x.reqs d.q = some r
  task    : Tbl.find? r.tasks d.task = some k

/-- The twin that the completion leaves. -/
theorem Reaches.completes (h : Reaches s t w x d l r k) {p : TwinSt → Prop}
    (hp : p (((x.withDones l).complete (s.isActive w) (s.at t).now d).markCap w (s.isActive w) (s.at t).now)) :
    Completes (.dependenceCompletion t w) s (fun t' => p (t'.twin w)) := by
  have hawake : ¬ ¬ ((s.at t).serve w).coachyardAwake w = true := by
    rw [State.serve_coachyardAwake, State.at_coachyardAwake]
    exact not_not_intro h.awake
  have hexec : exec (.dependenceCompletion t w) s = .next (settle s (((s.at t).serve w).updTwin w (fun x =>
      ((x.withDones l).complete (s.isActive w) (s.at t).now d).markCap w (s.isActive w) (s.at t).now))) := by
    change execDependenceCompletion t w s = _
    refine ev_of_eq ?_
    dsimp only
    rw [if_neg hawake, h.served, h.dones]
    simp only [State.serve_isActive, State.serve_now]
    rfl
  refine .of_twin hexec ?_
  rw [State.updTwin, State.twin_setTwin, h.served]
  exact hp

theorem Reaches.lowers (h : Reaches s t w x d l r k) (hdep : 2 ≤ k.dep) : Completes (.dependenceCompletion t w) s (fun t' =>
    (t'.twin w).dones = l ∧ (t'.twin w).task? d.q d.task = some { k with dep := k.dep - 1 }) := by
  refine h.completes (p := fun y => y.dones = l ∧ y.task? d.q d.task = _) ?_
  rw [TwinSt.complete_waits (x := x.withDones l) _ _ h.request h.task hdep, TwinSt.task?_markCap]
  exact ⟨((ReqsOnly.lowered _ d).trans (.markCap _ w _ _)).eq TwinSt.dones rfl, TwinSt.task?_lowered h.request h.task⟩

theorem Reaches.endsWait (h : Reaches s t w x d l r k) {c : Cid} (hdep : k.dep = 1)
    (hgood : d.task = 0 → r.failMark = false ∧ d.kind ≠ .pred false) (hc : k.ctx = some c) (hheld : x.held c = false) :
    Completes (.dependenceCompletion t w) s (fun t' =>
      (Tbl.getD (t'.twin w).ctxs (ctxKey c) {}).waiting = false ∧ (t'.twin w).dones = l) := by
  refine h.completes (p := fun y => (Tbl.getD y.ctxs (ctxKey c) {}).waiting = false ∧ y.dones = l) ?_
  have hlow := ReqsOnly.lowered (x.withDones l) d
  obtain ⟨hwait, hdones⟩ := TwinSt.endWait_goesOn (s.at t).now (TwinSt.task?_lowered (x := x.withDones l) h.request h.task)
    hc ((hlow.eq (fun y => y.held c) rfl).trans hheld)
  have hmark := ReqsOnly.markCap (((x.withDones l).lowered d).endWait (s.at t).now d.q d.task) w (s.isActive w)
    (s.at t).now
  rw [TwinSt.complete_last (x := x.withDones l) _ _ h.request h.task hdep hgood, hmark.eq TwinSt.ctxs rfl, hmark.eq TwinSt.dones rfl]
  exact ⟨hwait, hdones.trans (hlow.eq TwinSt.dones rfl)⟩

theorem Reaches.fails (h : Reaches s t w x d l r k) (hdep : k.dep = 1) (h0 : d.task = 0) (hkind : d.kind = .pred false)
    (hb : r.begun = false) (ht : Timely x (s.at t).now d.q r) : Ends (.dependenceCompletion t w) s w d.q (fun e =>
      e.status = stPredFailed ∧ e.effects = r.sure ∧ e.commits = false) := by
  obtain ⟨hf, ho, -⟩ := ht
  refine h.completes (p := fun y => ∃ r' e, Tbl.find? y.reqs d.q = some r' ∧ r'.fin = some e ∧ e.status = stPredFailed ∧
    e.effects = r.sure ∧ e.commits = false) ?_
  rw [TwinSt.complete_failed (x := x.withDones l) _ _ h.request h.task hdep h0 hkind hb]
  obtain ⟨r', hr', hcore⟩ := TwinSt.finish_fin (act := s.isActive w) (st := (s.at t).now) (e := { status := stPredFailed })
    (TwinSt.find?_lowered (x := x.withDones l) h.request) (show (r.lowered d).fin = none from hf)
  obtain ⟨b, hmark⟩ := TwinSt.find?_markCap (((x.withDones l).lowered d).finish (s.isActive w) (s.at t).now d.q
    { status := stPredFailed }) w (s.isActive w) (s.at t).now d.q
  rw [hr'] at hmark
  have ho' : (r.lowered d).timedOut = none := ho
  obtain ⟨hst, -, heff⟩ := TwinSt.endOf_status ((x.withDones l).lowered d) (s.isActive w) (s.at t).now d.q
    stPredFailed ho'
  exact ⟨_, _, hmark, congrArg Req.fin hcore, hst, heff, TwinSt.endOf_commits _ _ d.q stPredFailed ho'⟩

end

/-- Settles O29: a counter that stays above 0, the end of a wait, and a failed predecessor. -/
theorem dependenceCompletion : Obligations.DependenceCompletion := by
  intro s t w d l r k x hawake hdones hr hk
  have h : Reaches s t w x d l r k := ⟨hawake, rfl, hdones, hr, hk⟩
  exact ⟨h.lowers, fun c hdep hgood hc hheld => h.endsWait hdep hgood hc hheld, h.fails⟩

end Sys2Proof.Machine
end

section
/-! Contexts that execute, and what they leave when they stop (R177, R238). -/

namespace Sys2Proof.Machine

/-- What a context that executes runs in: the island's twin as it stands, and a context that waits for nothing; a task's context is
in the table of contexts, and Zenith's is on Zenith's core (R186, R229). -/
structure KEnv.In (s : State) (c : Cid) (e : KEnv) : Prop where
  island : islandTwin c.island = some e.w
  cid    : e.cid = c
  twin   : s.twin e.w = e.x
  ready  : e.c.waiting = false
  stored : e.zenith = false → Tbl.find? e.x.ctxs (ctxKey c) = some e.c
  zenith : e.zenith = true → c.island % 206 = 198

theorem State.kenv?_in {s : State} {c : Cid} {e : KEnv} (h : s.kenv? c = some e) : KEnv.In s c e := by
  unfold State.kenv? at h
  split at h
  · cases h
  · next w hw =>
    have hisl : islandTwin c.island = some w := by
      split at hw
      · exact hw
      · cases hw
    dsimp only at h
    split at h
    · next hz =>
      split at h
      · next hgo =>
        cases h
        refine ⟨hisl, rfl, rfl, by simpa using hgo.2.2, fun hn => ?_, fun _ => hz⟩
        unfold KEnv.zenith Tbl.getD at hn
        unfold Tbl.getD
        dsimp only at hn ⊢
        cases hf : Tbl.find? (s.twin w).ctxs (ctxKey c) with
        | none => rw [hf] at hn; cases hn
        | some k => rfl
      · cases h
    · split at h
      · next k hk =>
        split at h
        · next q i ht =>
          split at h
          · split at h
            · next hgo =>
              cases h
              refine ⟨hisl, rfl, rfl, by simpa using hgo.2.1, fun _ => hk, fun hn => ?_⟩
              simp [KEnv.zenith, ht] at hn
            · cases h
          · cases h
        · cases h
      · cases h

/-- A context in a wait executes nothing. -/
theorem State.kenv?_waiting {s : State} {c : Cid} {w : Twin} {k : Ctx} (hw : islandTwin c.island = some w)
    (hk : Tbl.find? (s.twin w).ctxs (ctxKey c) = some k) (hwait : k.waiting = true) : s.kenv? c = none := by
  unfold State.kenv?
  rw [hw]
  split
  · rfl
  · next v hv =>
    have hv' : w = v := by
      split at hv
      · exact Option.some.inj hv
      · cases hv
    subst hv'
    simp only [Tbl.getD, hk]
    split
    · exact if_neg (fun h => h.2.2 hwait)
    · split
      · split
        · exact if_neg (fun h => h.2.1 hwait)
        · rfl
      · rfl

@[simp] theorem State.takeStep_nvm (s : State) (i : Nat) : (s.takeStep i).nvm = s.nvm := by
  unfold State.takeStep; split <;> rfl
@[simp] theorem State.takeStep_out (s : State) (i : Nat) : (s.takeStep i).out = s.out := by
  unfold State.takeStep; split <;> rfl
@[simp] theorem State.takeStep_now (s : State) (i : Nat) : (s.takeStep i).now = s.now := by
  unfold State.takeStep; split <;> rfl

section
variable {s : State} {c : Cid} {len : Nat} {e : KEnv}

/-- A context without a repeat prefix, as an instruction sees it. -/
theorem KEnv.outside_rep (hr : e.c.rep = none) :
    ({ e.c with rep := none } : Ctx) = e.c ∧ ({ e with c := { e.c with rep := none } } : KEnv) = e := by
  have hc : ({ e.c with rep := none } : Ctx) = e.c := by
    cases h : e.c
    rw [h] at hr
    cases hr
    rfl
  exact ⟨hc, by rw [hc]⟩

/-- An instruction in a page that the image cache lacks is a wait, whatever it is (R238). -/
theorem kstep_missing {d : KEnv → Bool} {r : RepKind} {op : KEnv → KRes} {p : Nat} (hk : s.kenv? c = some e)
    (hr : e.c.rep = none) (hf : e.canFetch e.c.pc.toNat = true) (ha : e.c.pc.toNat % 4 = 0)
    (hm : e.missing e.c.pc.toNat = some p) :
    kstep c len d r op s = (s.takeStep e.cid.island).memWait e (.page p) := by
  obtain ⟨hc, he⟩ := KEnv.outside_rep hr
  unfold kstep
  simp only [hk, hr, hc, hf, ha, hm]
  simp

theorem Fetches.in (h : Fetches s c len e) : KEnv.In s c e := State.kenv?_in h.2.1

/-- An event at the present moment. -/
theorem ev_now {f : State → State} (h : s.boot.up = true) : ev s.now f s = .next (settle s (f s)) := by
  unfold ev
  rw [State.at_now s h]

/-- The core's choice after its context has stopped (R177). -/
theorem State.rechargeCore_eq {isl : Nat} {w : Twin} (h : islandTwin isl = some w) :
    s.rechargeCore isl = s.updTwin w (fun x => x.recharge isl s.now) := by
  unfold State.rechargeCore
  rw [h]

end

end Sys2Proof.Machine
end

section
/-! `wait`, `halt`, and the wait for a page (R177, R238, R415, Table 9-14). -/

namespace Sys2Proof.Machine

section
variable {s : State} {c : Cid} {e : KEnv}

/-! A page that the image cache lacks. -/

/-- Zenith's firmware is in no image cache: only a task's context waits for a page (assumption 23). -/
theorem KEnv.zenith_of_missing {a p : Nat} (h : e.missing a = some p) : e.zenith = false := by
  unfold KEnv.missing at h
  split at h
  · cases hz : e.zenith with
    | false => rfl
    | true => simp [hz] at h
  · cases h

/-- A context that enters a rank-6 wait, in the state of the module. -/
theorem State.memWait_ctxs (h : KEnv.In s c e) (hz : e.zenith = false) (u : State) (m : MemWait) :
    Tbl.find? ((u.memWait e m).twin e.w).ctxs (ctxKey c) = some { e.c with waiting := true, wants := m } := by
  unfold State.memWait
  rw [State.twin_setTwin, TwinSt.recharge_ctxs, h.cid, Tbl.find?_upd, if_pos rfl, h.stored hz]
  rfl

theorem fence_waitsForPage {p : Nat} (hup : s.boot.up = true) (hk : s.kenv? c = some e) (hr : e.c.rep = none)
    (hf : e.canFetch e.c.pc.toNat = true) (ha : e.c.pc.toNat % 4 = 0) (hm : e.missing e.c.pc.toNat = some p) :
    Completes (.fence c 0) s (fun t =>
      Tbl.find? (t.twin e.w).ctxs (ctxKey c) = some { e.c with waiting := true, wants := .page p } ∧
      t.kenv? c = none ∧ t.twin (otherTwin e.w) = s.twin (otherTwin e.w) ∧ t.nvm = s.nvm ∧ t.out = s.out) := by
  have hin := State.kenv?_in hk
  have hexec : exec (.fence c 0) s = .next (settle s ((s.takeStep e.cid.island).memWait e (.page p))) := by
    change execFence c 0 s = _
    unfold execFence kev
    rw [ev_now hup, kstep_missing hk hr hf ha hm]
  refine ⟨_, hexec, ?_⟩
  have hctx := State.memWait_ctxs hin (KEnv.zenith_of_missing hm) (s.takeStep e.cid.island) (.page p)
  rw [← settle_twin s] at hctx
  refine ⟨hctx, State.kenv?_waiting hin.island hctx rfl, ?_⟩
  simp [State.memWait]

/-! `wait`. -/

/-- A task's `wait`: the context goes on, or stops with its counter above 0, and the core chooses again (R177). -/
theorem execWait_task {k : Task} (h : Fetches s c 4 e) (hz : e.zenith = false) (hk : e.x.task? e.q e.i = some k) :
    exec (.wait c 0) s = .next (settle s (((s.takeStep e.cid.island).putCtx e e.x
      { e.c with pc := e.c.pc + 4, waiting := decide (k.dep ≠ 0) }).updTwin e.w (fun x => x.recharge c.island s.now))) := by
  have hin := h.in
  have hop : (if ¬ e.zenith = true ∧ k.dep ≠ 0 then KRes.ok e.x { e.c with waiting := true } else .ok e.x e.c) =
      .ok e.x { e.c with waiting := decide (k.dep ≠ 0) } := by
    by_cases hdep : k.dep = 0
    · have hc : e.c = { e.c with waiting := false } := by rw [← hin.ready]
      simp only [hdep, ne_eq, not_true_eq_false, and_false, if_false, decide_false]
      exact congrArg _ hc
    · simp [hz, hdep]
  change execWait c 0 s = _
  unfold execWait
  rw [ev_now h.1, kstep_run h rfl, hk]
  dsimp only
  rw [hop, hin.island]
  simp [KRes.land]

theorem wait_leaves {k : Task} (h : Fetches s c 4 e) (hz : e.zenith = false) (hk : e.x.task? e.q e.i = some k) :
    Completes (.wait c 0) s (fun t => ∃ k' : Ctx, Tbl.find? (t.twin e.w).ctxs (ctxKey c) = some k' ∧
      k' = { e.c with pc := e.c.pc + 4, waiting := decide (k.dep ≠ 0) } ∧
      t.nvm = s.nvm ∧ t.out = s.out ∧ t.twin (otherTwin e.w) = s.twin (otherTwin e.w)) := by
  refine ⟨_, execWait_task h hz hk, _, ?_, rfl, ?_⟩
  · rw [settle_twin, State.updTwin, State.twin_setTwin, TwinSt.recharge_ctxs, ← h.in.cid]
    exact State.ctx_putCtx _ e e.x _
  · simp [State.updTwin, State.putCtx]

/-! `halt` on Zenith. -/

/-- A power domain put in a state is in it. -/
theorem State.domain_setDomain_st (s : State) (n : Nat) (d : Domain) : ((s.setDomain n d).domain n).st = d.st := by
  have hvid : ∀ u : State, u.setVid.domain n = u.domain n := by
    intro u
    unfold State.setVid
    split <;> rfl
  have hput : ∀ (b : Prop) [Decidable b] (d : Domain) (u : State),
      u = { s with power := { s.power with domains := Tbl.store s.power.domains n d {} } } →
      (if b then u else u.setVid).domain n = d := by
    rintro b _ d u rfl
    split
    · exact (Tbl.getD_store _ _ _ _ _).trans (if_pos rfl)
    · exact (hvid _).trans ((Tbl.getD_store _ _ _ _ _).trans (if_pos rfl))
  unfold State.setDomain
  dsimp only
  rw [hput _ _ _ rfl]
  split <;> rfl

/-- What Zenith's `halt` does to its own context and registers, and to its domain when the context stops (R415). -/
theorem execHalt_zenith {x : TwinSt} {k : Ctx} (h : Fetches s c 4 e) (hz : e.zenith = true)
    (hop : (if e.x.pwm.getLsbD 8 = true ∧ ¬ e.x.zenithWork = true then
      KRes.ok { e.x with pwm := e.x.pwm &&& 0x003 } { e.c with waiting := true } else .ok e.x e.c) = .ok x k) :
    exec (.halt c 0) s = .next (settle s (if k.waiting = true then
      ((s.takeStep e.cid.island).putCtx e x { k with pc := k.pc + 4 }).updDomain c.island
        (fun d => { d with st := if e.x.pwm &&& 3 = 1 then .nap else .doze })
      else (s.takeStep e.cid.island).putCtx e x { k with pc := k.pc + 4 })) := by
  have hctx := State.ctx_putCtx (s.takeStep e.cid.island) e x { k with pc := k.pc + 4 }
  rw [h.in.cid] at hctx
  change execHalt c 0 s = _
  unfold execHalt
  rw [ev_now h.1, kstep_run h rfl, h.2.1]
  dsimp only
  rw [if_neg (not_not_intro hz), hop,
    show (KRes.ok x k).land (s.takeStep e.cid.island) e 4 =
      (s.takeStep e.cid.island).putCtx e x { k with pc := k.pc + 4 } from rfl, h.in.cid]
  simp only [Tbl.getD, hctx, hz, true_and, Option.getD_some]

theorem halt_entersState (h : Fetches s c 4 e) (hz : e.zenith = true) (harm : e.x.pwm.getLsbD 8 = true)
    (hwork : e.x.zenithWork = false) : Completes (.halt c 0) s (fun t =>
      (t.twin e.w).pwm = e.x.pwm &&& 0x003 ∧
      (Tbl.getD t.power.domains c.island {}).st = (if e.x.pwm &&& 3 = 1 then .nap else .doze) ∧
      Tbl.find? (t.twin e.w).ctxs (ctxKey c) = some { e.c with pc := e.c.pc + 4, waiting := true }) := by
  have hexec := execHalt_zenith (x := { e.x with pwm := e.x.pwm &&& 0x003 }) (k := { e.c with waiting := true }) h hz
    (if_pos ⟨harm, by simp [hwork]⟩)
  rw [if_pos rfl] at hexec
  refine ⟨_, hexec, ?_, State.domain_setDomain_st _ _ _, ?_⟩
  · rw [settle_twin, State.updDomain, State.twin_setDomain, State.putCtx, State.twin_setTwin]
  · rw [settle_twin, State.updDomain, State.twin_setDomain, ← h.in.cid]
    exact State.ctx_putCtx _ e _ _

/-- With `ARM` 0 it is `nop` (R415). -/
theorem halt_disarmed (h : Fetches s c 4 e) (hz : e.zenith = true) (harm : e.x.pwm.getLsbD 8 = false) :
    exec (.halt c 0) s = Advance s e 4 e.x e.c := by
  rw [execHalt_zenith h hz (if_neg (fun hgo => Bool.false_ne_true (harm.symm.trans hgo.1))), if_neg (by simp [h.in.ready])]
  rfl

end

/-- Settles O14: a page that is missing, `wait`, and `halt` with `ARM` 1 and with `ARM` 0. The codes of `HSTATE` and the clearing of
`ARM` are Table 18-4a's (R414); what is pending for Zenith at a `halt` is the model's reading of R415 (assumption 206). -/
theorem kaibasWaitAndHalt : Obligations.KaibasWaitAndHalt :=
  ⟨fun _ _ _ _ hup hk hr hf ha hm => fence_waitsForPage hup hk hr hf ha hm,
    fun _ _ _ h => ⟨fun _ hz hk => wait_leaves h hz hk, halt_entersState h, halt_disarmed h⟩⟩

end Sys2Proof.Machine
end

section
/-! `eng` and `orr` (R177, R244, R257, R291, R292, Table 9-14). -/

namespace Sys2Proof.Machine

/-! Dependence counters (R177). -/

/-- The dependence counter of a task. -/
def TwinSt.depOf (x : TwinSt) (q i : Nat) : Option Nat := (x.task? q i).map Task.dep

section
variable (x : TwinSt) (q i : Nat)

/-- A change of a request that leaves its tasks leaves their counters. -/
theorem TwinSt.depOf_updReq (p : Nat) {f : Req → Req} (hf : ∀ r, (f r).tasks = r.tasks) :
    (x.updReq p f).depOf q i = x.depOf q i := by
  unfold TwinSt.depOf TwinSt.task?
  rw [TwinSt.find?_updReq]
  split
  · cases Tbl.find? x.reqs q <;> simp [hf]
  · rfl

theorem TwinSt.depOf_updTask (p j : Nat) {f : Task → Task} (hf : ∀ k, (f k).dep = k.dep) :
    (x.updTask p j f).depOf q i = x.depOf q i := by
  unfold TwinSt.depOf
  rw [TwinSt.task?_updTask]
  split
  · rw [Option.map_map]
    exact congrArg (Option.map · (x.task? q i)) (funext hf)
  · rfl

theorem TwinSt.depOf_stopCharge (now p j : Nat) : (x.stopCharge now p j).depOf q i = x.depOf q i := by
  unfold TwinSt.stopCharge
  split
  · split
    · exact x.depOf_updTask q i p j (fun _ => rfl)
    · rfl
  · rfl

/-- Charging a core moves no counter (R183). -/
theorem TwinSt.depOf_recharge (core now : Nat) : (x.recharge core now).depOf q i = x.depOf q i := by
  unfold TwinSt.recharge
  dsimp only
  generalize x.executing core = nxt
  have hstop : ((x.onCore core).foldl
      (fun x e => if nxt = some (e.1, e.2.1) then x else x.stopCharge now e.1 e.2.1) x).depOf q i = x.depOf q i := by
    refine foldl_keeps (p := fun x : TwinSt => x.depOf q i) (fun x e => ?_) _ x
    split
    · rfl
    · exact x.depOf_stopCharge q i now _ _
  split
  · refine (TwinSt.depOf_updTask _ q i _ _ ?_).trans hstop
    exact fun _ => rfl
  · exact hstop

theorem ReqsOnly.markOrrery : ReqsOnly x x.markOrrery := by
  unfold TwinSt.markOrrery
  exact .foldl (fun x c => .updReq x _ _) _ x

/-- The marks of rank 4 move no counter (R194). -/
theorem TwinSt.depOf_markOrrery : x.markOrrery.depOf q i = x.depOf q i := by
  unfold TwinSt.markOrrery
  refine foldl_keeps (p := fun x : TwinSt => x.depOf q i) (fun x c => ?_) _ x
  exact x.depOf_updReq q i c.2.q (f := fun r => { r with precMark := true }) (fun _ => rfl)

variable {x q i} {k : Task}

/-- A counter below its limit is raised by one (R177). -/
theorem TwinSt.raiseDep_raises {f : Task → Task} (hf : ∀ k, (f k).dep = k.dep) (hk : x.task? q i = some k) (hd : k.dep < 65535) :
    ∃ y, x.raiseDep q i f = some y ∧ ReqsOnly x y ∧ y.depOf q i = some (k.dep + 1) := by
  refine ⟨x.updTask q i (fun k => f { k with dep := k.dep + 1 }), ?_, .updTask x q i _, ?_⟩
  · unfold TwinSt.raiseDep
    simp only [hk]
    rw [if_neg (by omega)]
  · unfold TwinSt.depOf
    rw [TwinSt.task?_updTask, if_pos ⟨rfl, rfl⟩, hk]
    exact congrArg some (hf _)

end

/-! Admission. -/

section
variable {x : TwinSt} {w : Twin} {id : Nat} {d : Task}

/-- An operation admitted stands in the fabric, and is counted (R177, R257). -/
theorem TwinSt.admitOp_admits {o : EngOp} (hd : x.task? o.q o.task = some d) (hlt : d.dep < 65535) :
    ∃ y n, x.admitOp w id o = some y ∧ Tbl.find? y.ops id = some { o with admitted := true, engine := n } ∧
      y.nextOp = x.nextOp ∧ y.depOf o.q o.task = some (d.dep + 1) := by
  obtain ⟨y, hy, hxy, hdep⟩ := x.raiseDep_raises (f := fun k => { k with engOut := k.engOut + 1 }) (fun _ => rfl) hd hlt
  unfold TwinSt.admitOp
  rw [hy]
  exact ⟨_, _, rfl, Tbl.find?_put_same _ _ _, hxy.eq TwinSt.nextOp rfl, hdep⟩

/-- A call of a compartment admitted stands in the call store, and is counted (R177, R292). -/
theorem TwinSt.admitCall_admits {k : OrrCall} (hown : k.owner ≠ adminSpace) (hd : x.task? k.q k.task = some d)
    (hlt : d.dep < 65535) : ∃ y, x.admitCall id k = some y ∧ Tbl.find? y.orrery.calls id = some k.enter ∧
      y.depOf k.q k.task = some (d.dep + 1) := by
  obtain ⟨y, hy, hxy, hdep⟩ := x.raiseDep_raises (f := fun t => { t with orrOut := t.orrOut + 1 }) (fun _ => rfl) hd hlt
  unfold TwinSt.admitCall
  dsimp only
  rw [if_neg hown, hy]
  refine ⟨_, rfl, ?_, (TwinSt.depOf_markOrrery _ _ _).trans hdep⟩
  rw [(ReqsOnly.markOrrery _).eq TwinSt.orrery rfl]
  exact Tbl.find?_put_same _ _ _

end

/-! What an issue leaves of the twin once its core has chosen again and the units have been woken. -/

/-- Operations, calls and counters stand. -/
structure IssuesStand (x y : TwinSt) : Prop where
  ops    : y.ops = x.ops
  nextOp : y.nextOp = x.nextOp
  orrery : y.orrery = x.orrery
  dep    : ∀ q i, y.depOf q i = x.depOf q i

theorem WokenOnly.issuesStand {x y : TwinSt} (h : WokenOnly x y) : IssuesStand x y := by
  have hreqs := h.reqs
  unfold WokenOnly at h
  have hops := congrArg TwinSt.ops h
  have hnext := congrArg TwinSt.nextOp h
  have horr := congrArg TwinSt.orrery h
  refine ⟨hops, hnext, horr, fun q i => ?_⟩
  unfold TwinSt.depOf TwinSt.task?
  rw [hreqs]

theorem Woken.engineWake (s before : State) (isl : Nat) : Woken s (s.engineWake before isl) := by
  unfold State.engineWake
  split
  · split
    · exact .rfl
    · exact .wakeDoms s _
  · exact .rfl

theorem Woken.orreryWake (s before : State) (isl : Nat) : Woken s (s.orreryWake before isl) := by
  unfold State.orreryWake
  split
  · split
    · exact .rfl
    · exact .wakeDom s _
  · exact .rfl

section
variable {s : State} {c : Cid} {e : KEnv} {rs1 : BitVec 5}

/-- The state that an issue leaves before it wakes the units that take it. -/
def State.issued (s : State) (e : KEnv) (c : Cid) (y : TwinSt) : State :=
  ((KRes.ok y e.c).land (s.takeStep e.cid.island) e 4).rechargeCore c.island

/-- The twin with a context written. -/
def TwinSt.putCtx (x : TwinSt) (c : Cid) (k : Ctx) : TwinSt := { x with ctxs := Tbl.put x.ctxs (ctxKey c) k }

theorem State.issued_stands (h : KEnv.In s c e) (y : TwinSt) {v : State} (hv : Woken (s.issued e c y) v) :
    IssuesStand y ((settle s v).twin e.w) := by
  have htwin : (s.issued e c y).twin e.w =
      (y.putCtx e.cid { e.c with pc := e.c.pc + BitVec.ofNat 64 4 }).recharge c.island s.now := by
    unfold State.issued
    rw [State.rechargeCore_eq h.island, State.updTwin, State.twin_setTwin]
    simp [KRes.land, State.putCtx, TwinSt.putCtx]
  have hwoken := (hv.twin e.w).issuesStand
  rw [htwin] at hwoken
  have hrun := ReqsOnly.recharge (y.putCtx e.cid { e.c with pc := e.c.pc + BitVec.ofNat 64 4 }) c.island s.now
  rw [settle_twin]
  exact ⟨hwoken.ops.trans (hrun.eq TwinSt.ops rfl), hwoken.nextOp.trans (hrun.eq TwinSt.nextOp rfl),
    hwoken.orrery.trans (hrun.eq TwinSt.orrery rfl), fun q i => (hwoken.dep q i).trans (TwinSt.depOf_recharge _ q i _ _)⟩

theorem TwinSt.task?_of_depOf {x : TwinSt} {q i n : Nat} (h : x.depOf q i = some n) :
    ∃ k, x.task? q i = some k ∧ k.dep = n := by
  unfold TwinSt.depOf at h
  exact Option.map_eq_some_iff.mp h

/-- A base register that names a block of 64 bytes in local memory, untagged in its first 56 (R226, R291). -/
structure KEnv.NamesBlock (e : KEnv) (rs1 : BitVec 5) : Prop where
  base    : (e.c.reg rs1).2 = false
  aligned : (e.c.reg rs1).1.toNat % 64 = 0
  region  : e.region (e.c.reg rs1).1.toNat 64 = some .lmem
  clear   : e.c.ltag (e.c.reg rs1).1.toNat 56 = false

/-- The operation that `eng` issues (R257). -/
def KEnv.engOp (e : KEnv) (a : Nat) : EngOp :=
  { blk := e.c.lread a 56, q := e.q, task := e.i, ctx := e.cid, blkAddr := a, cluster := islandCluster e.cid.island,
    arrived := e.now }

/-- The call that `orr` issues for a task (R291, R292). -/
def KEnv.orrCall (e : KEnv) (a : Nat) : OrrCall :=
  let blk := e.c.lread a 56
  { blk := blk, input := e.bytesAt (fld blk 8 4) (fld blk 12 4), owner := e.req.space, q := e.q, task := e.i, ctx := e.cid,
    blkAddr := a, arrived := e.now }

/-- The twin with the number of its next call advanced. -/
def TwinSt.nextCalled (x : TwinSt) : TwinSt := { x with orrery := { x.orrery with nextCall := x.orrery.nextCall + 1 } }

/-- The areas of a call's block: aligned, in the task's own memory, and the input untagged (R226, R291). -/
structure KEnv.AreasGood (e : KEnv) (blk : Bytes) : Prop where
  inAligned  : fld blk 8 4 % 8 = 0
  outAligned : fld blk 16 4 % 8 = 0
  ownsIn     : e.owns (fld blk 8 4) (fld blk 12 4) = true
  ownsOut    : e.owns (fld blk 16 4) (fld blk 20 4) = true
  clear      : e.c.ltag (fld blk 8 4) (fld blk 12 4) = false

theorem execEng_issues (h : Fetches s c 4 e) (hz : e.zenith = false) (hb : e.NamesBlock rs1)
    (hroom : e.x.engRoom e.cid (islandCluster e.cid.island) = true) {y : TwinSt}
    (hy : ({ e.x with nextOp := e.x.nextOp + 1 } : TwinSt).admitOp e.w e.x.nextOp (e.engOp (e.c.reg rs1).1.toNat) = some y) :
    exec (.eng c rs1 0) s = .next (settle s ((s.issued e c y).engineWake s c.island)) := by
  have hroom' : ({ e.x with nextOp := e.x.nextOp + 1 } : TwinSt).engRoom e.cid (islandCluster e.cid.island) = true := hroom
  unfold KEnv.engOp at hy
  change execEng c rs1 0 s = _
  unfold execEng State.issued
  rw [ev_now h.1, kstep_run h (by simp [hz])]
  simp only [hb.base, hb.aligned, hb.region, hb.clear, hroom', hy, Bool.false_eq_true, if_false, if_true, ne_eq,
    not_true_eq_false]

theorem eng_issues {k : Task} (h : Fetches s c 4 e) (hz : e.zenith = false) (hk : e.x.task? e.q e.i = some k)
    (hlt : k.dep < 65535) (hb : e.NamesBlock rs1) (hroom : e.x.engRoom e.cid (islandCluster e.cid.island) = true) :
    Completes (.eng c rs1 0) s (fun t => ∃ (o : EngOp) (k' : Task), Tbl.find? (t.twin e.w).ops e.x.nextOp = some o ∧
      o.blk = e.c.lread (e.c.reg rs1).1.toNat 56 ∧ o.q = e.q ∧ o.task = e.i ∧ o.admitted = true ∧
      (t.twin e.w).nextOp = e.x.nextOp + 1 ∧ (t.twin e.w).task? e.q e.i = some k' ∧ k'.dep = k.dep + 1) := by
  obtain ⟨y, n, hy, hop, hnext, hdep⟩ := TwinSt.admitOp_admits (x := { e.x with nextOp := e.x.nextOp + 1 }) (w := e.w)
    (id := e.x.nextOp) (o := e.engOp (e.c.reg rs1).1.toNat) hk hlt
  refine ⟨_, execEng_issues h hz hb hroom hy, ?_⟩
  have hstand := State.issued_stands h.in y (.engineWake (s.issued e c y) s c.island)
  obtain ⟨k', hk', hdep'⟩ := TwinSt.task?_of_depOf ((hstand.dep e.q e.i).trans hdep)
  exact ⟨_, k', (congrArg (Tbl.find? · e.x.nextOp) hstand.ops).trans hop, rfl, rfl, rfl, rfl, hstand.nextOp.trans hnext, hk',
    hdep'⟩

theorem execOrr_issues (h : Fetches s c 4 e) (hz : e.zenith = false) (hb : e.NamesBlock rs1)
    (ha : e.AreasGood (e.c.lread (e.c.reg rs1).1.toNat 56))
    (hroom : e.x.orrery.room (e.orrCall (e.c.reg rs1).1.toNat) = true) {y : TwinSt}
    (hy : e.x.nextCalled.admitCall e.x.orrery.nextCall (e.orrCall (e.c.reg rs1).1.toNat) = some y) :
    exec (.orr c rs1 0) s = .next (settle s ((s.issued e c y).orreryWake s c.island)) := by
  have hroom' : e.x.nextCalled.orrery.room (e.orrCall (e.c.reg rs1).1.toNat) = true := hroom
  unfold KEnv.orrCall TwinSt.nextCalled at hy hroom'
  change execOrr c rs1 0 s = _
  unfold execOrr State.issued
  rw [ev_now h.1, kstep_run h rfl]
  simp only [hb.base, hb.aligned, hb.region, hb.clear, ha.inAligned, ha.outAligned, ha.ownsIn, ha.ownsOut, ha.clear, hz, hroom',
    hy, KEnv.copy, Bool.false_eq_true, if_false, if_true, ne_eq, not_true_eq_false, and_false, or_false]

theorem orr_issues {k : Task} (h : Fetches s c 4 e) (hz : e.zenith = false) (hk : e.x.task? e.q e.i = some k)
    (hlt : k.dep < 65535) (hb : e.NamesBlock rs1) (ha : e.AreasGood (e.c.lread (e.c.reg rs1).1.toNat 56))
    (hroom : e.x.orrery.room (e.orrCall (e.c.reg rs1).1.toNat) = true) (hown : e.req.space ≠ adminSpace) :
    Completes (.orr c rs1 0) s (fun t => ∃ (o : OrrCall) (k' : Task),
      Tbl.find? (t.twin e.w).orrery.calls e.x.orrery.nextCall = some o ∧ o.blk = e.c.lread (e.c.reg rs1).1.toNat 56 ∧
      o.input = (e.orrCall (e.c.reg rs1).1.toNat).input ∧ o.owner = e.req.space ∧ o.admitted = true ∧
      (t.twin e.w).task? e.q e.i = some k' ∧ k'.dep = k.dep + 1) := by
  obtain ⟨y, hy, hcall, hdep⟩ := TwinSt.admitCall_admits (x := e.x.nextCalled) (id := e.x.orrery.nextCall)
    (k := e.orrCall (e.c.reg rs1).1.toNat) hown hk hlt
  refine ⟨_, execOrr_issues h hz hb ha hroom hy, ?_⟩
  have hstand := State.issued_stands h.in y (.orreryWake (s.issued e c y) s c.island)
  obtain ⟨k', hk', hdep'⟩ := TwinSt.task?_of_depOf ((hstand.dep e.q e.i).trans hdep)
  exact ⟨(e.orrCall _).enter, k', (congrArg (fun o => Tbl.find? o.calls e.x.orrery.nextCall) hstand.orrery).trans hcall, rfl, rfl, rfl,
    rfl, hk', hdep'⟩

end

/-- Settles O15: `eng`, and `orr` with its areas good and room in the call store; a call's room of 64 bytes and its input is the
model's choice (assumption 164). -/
theorem kaibasIssue : Obligations.KaibasIssue := by
  intro s c e rs1 k h hz hk hlt hbase haligned hregion hclear blk
  have hb : e.NamesBlock rs1 := ⟨hbase, haligned, hregion, hclear⟩
  refine ⟨eng_issues h hz hk hlt hb, fun hia hoa hin hout htag hstore hcalls hown => ?_⟩
  exact orr_issues h hz hk hlt hb ⟨hia, hoa, hin, hout, htag⟩
    (Bool.and_eq_true_iff.mpr ⟨decide_eq_true hstore, decide_eq_true hcalls⟩) hown

end Sys2Proof.Machine
end

section
/-! Values of the computing instructions as the tables state them (Tables 9-9, 9-10 and 9-15). -/

namespace Sys2Proof.Machine

theorem wordOf_eq_ite (p : Bool) : wordOf p = if p then 1 else 0 := by cases p <;> rfl

theorem ite_slt (a b x y : Word) : (if a.slt b then x else y) = if a.toInt < b.toInt then x else y :=
  if_congr BitVec.slt_iff_toInt_lt rfl rfl

theorem ite_ult (a b x y : Word) : (if a.ult b then x else y) = if a.toNat < b.toNat then x else y :=
  if_congr BitVec.ult_iff_toNat_lt rfl rfl

theorem wordOf_beq (a b : Word) : wordOf (a == b) = if decide (a = b) then 1 else 0 := by
  rw [wordOf_eq_ite, beq_eq_decide]

theorem divU_eq (a b : Word) : divU a b = if b = 0 then BitVec.allOnes 64 else BitVec.ofNat 64 (a.toNat / b.toNat) := by
  rw [divU, BitVec.udiv_def]

theorem remU_eq (a b : Word) : remU a b = if b = 0 then a else BitVec.ofNat 64 (a.toNat % b.toNat) := by
  rw [remU, BitVec.umod_def]

/-- The carry as the tables add and subtract it. -/
theorem addCarry_eq (a b : Word) (cin : Bool) : addCarry a b cin =
    (BitVec.ofNat 64 (a.toNat + b.toNat + if cin then 1 else 0),
      decide (2 ^ 64 ≤ a.toNat + b.toNat + if cin then 1 else 0)) := by
  unfold addCarry b2n
  rw [BitVec.ofNat_add, BitVec.ofNat_add]
  simp only [BitVec.ofNat_toNat, BitVec.setWidth_eq]

theorem subBorrow_eq (a b : Word) (cin : Bool) : subBorrow a b cin =
    (BitVec.ofInt 64 ((a.toNat : Int) - b.toNat - (if cin then 1 else 0 : Nat)),
      decide (a.toNat < b.toNat + if cin then 1 else 0)) := by
  have ha := a.isLt
  have hb := b.isLt
  refine Prod.ext (BitVec.eq_of_toNat_eq ?_) rfl
  unfold subBorrow b2n
  rw [BitVec.toNat_sub, BitVec.toNat_sub, BitVec.toNat_ofNat, BitVec.toNat_ofInt]
  split <;> omega

theorem slti_eq (a : Word) (imm : BitVec 16) :
    wordOf (a.slt (sext16 imm)) = if decide (a.toInt < imm.toInt) then 1 else 0 := by
  rw [wordOf_eq_ite, sext16, BitVec.slt_eq_decide, BitVec.toInt_signExtend_of_le (by omega)]

/-- The immediate of `lui` is sign-extended from bit 31 of its shifted value. -/
theorem sext32_lui (imm : BitVec 16) : sext32 (imm.setWidth 32 <<< 16) = BitVec.ofInt 64 (imm.toInt * 2 ^ 16) := by
  have h : (imm.setWidth 32 <<< 16).toInt = imm.toInt * 2 ^ 16 := by
    have := imm.isLt
    simp only [BitVec.toInt_eq_toNat_cond, BitVec.toNat_shiftLeft, BitVec.toNat_setWidth, Nat.shiftLeft_eq]
    omega
  exact congrArg (BitVec.ofInt 64) h

theorem Ctx.accWord_zero (c : Ctx) : c.accWord 0 = c.acc.extractLsb' 0 64 :=
  BitVec.setWidth_eq_extractLsb' (by omega)

end Sys2Proof.Machine
end

section
/-! Instructions that compute in registers (Tables 9-9, 9-10, 9-11 and 9-15, R208, R213). -/

namespace Sys2Proof.Machine

section
variable {s : State} {c : Cid} {e : KEnv} {rd rs1 rs2 : BitVec 5}

/-- An operation of two registers, by the value it gives. -/
theorem kRR_gives {f : Word → Word → Word} {v : Word} (h : Fetches s c 4 e) (hv : f (e.c.reg rs1).1 (e.c.reg rs2).1 = v) :
    kRR c rd rs1 rs2 0 f s = Advance s e 4 e.x (e.c.setReg rd v ((e.c.reg rs1).2 || (e.c.reg rs2).2)) :=
  hv ▸ kRR_run h

/-- An operation of one register, by the value it gives. -/
theorem kR_gives {len : Nat} {r : RepKind} {f : Word → Word} {v : Word} (h : Fetches s c len e)
    (hv : f (e.c.reg rs1).1 = v) :
    kR c rd rs1 0 len r f s = Advance s e len e.x (e.c.setReg rd v (e.c.reg rs1).2) :=
  hv ▸ kR_run h

theorem exec_csel (h : Fetches s c 4 e) : exec (.csel c rd rs1 rs2 0) s = Advance s e 4 e.x
    (e.c.setReg rd (if (e.c.reg rd).1 ≠ 0 then (e.c.reg rs1).1 else (e.c.reg rs2).1)
      ((e.c.reg rd).2 || (e.c.reg rs1).2 || (e.c.reg rs2).2)) :=
  kev_ok h rfl rfl (Ctx.setReg_pc ..)

/-- The sum goes to rd before its carry goes to `C` and its tag to `CTAG`. -/
theorem exec_adc (h : Fetches s c 4 e) : exec (.adc c rd rs1 rs2 0) s =
    let r := addCarry (e.c.reg rs1).1 (e.c.reg rs2).1 e.c.carry
    let tag := (e.c.reg rs1).2 || (e.c.reg rs2).2 || e.c.carryTag
    Advance s e 4 e.x ((e.c.setReg rd r.1 tag).setCarry r.2 tag) :=
  kev_ok h rfl rfl (Ctx.setReg_pc ..)

theorem exec_sbb (h : Fetches s c 4 e) : exec (.sbb c rd rs1 rs2 0) s =
    let r := subBorrow (e.c.reg rs1).1 (e.c.reg rs2).1 e.c.carry
    let tag := (e.c.reg rs1).2 || (e.c.reg rs2).2 || e.c.carryTag
    Advance s e 4 e.x ((e.c.setReg rd r.1 tag).setCarry r.2 tag) :=
  kev_ok h rfl rfl (Ctx.setReg_pc ..)

theorem exec_macc2 (h : Fetches s c 4 e) : exec (.macc2 c rs1 rs2 0) s = Advance s e 4 e.x
    (e.c.accumulate (2 * ((e.c.reg rs1).1.toNat * (e.c.reg rs2).1.toNat)) ((e.c.reg rs1).2 || (e.c.reg rs2).2)) :=
  kev_ok h rfl (by rw [← Nat.mul_assoc]) rfl

theorem exec_accsh (h : Fetches s c 4 e) : exec (.accsh c rd 0) s = Advance s e 4 e.x
    { e.c.setReg rd (e.c.acc.extractLsb' 0 64) e.c.accTag with acc := e.c.acc >>> 64 } := by
  rw [← Ctx.accWord_zero]
  exact kev_ok h rfl rfl (Ctx.setReg_pc ..)

theorem exec_lui {imm : BitVec 16} (h : Fetches s c 4 e) : exec (.lui c rd imm 0) s =
    Advance s e 4 e.x (e.c.setReg rd (BitVec.ofInt 64 (imm.toInt * 2 ^ 16)) false) := by
  rw [← sext32_lui]
  exact kev_ok h rfl rfl (Ctx.setReg_pc ..)

theorem exec_lih {imm : BitVec 32} (h : Fetches s c 8 e) : exec (.lih c rd imm 0) s =
    Advance s e 8 e.x (e.c.setReg rd (imm ++ (e.c.reg rd).1.extractLsb' 0 32) (e.c.reg rd).2) := by
  rw [← BitVec.setWidth_eq_extractLsb' (by omega)]
  exact kev_ok h rfl rfl (Ctx.setReg_pc ..)

end

/-- Settles O1: each row is an operation of two registers; where the model spells an operator otherwise than the table, the two have
one value. -/
theorem kaibasRegisterOperations : Obligations.KaibasRegisterOperations := by
  intro s c e rd rs1 rs2 h a b out flag
  refine ⟨kRR_run (f := (· + ·)) h, kRR_run (f := (· - ·)) h, ?logic⟩
  refine ⟨kRR_run (f := (· &&& ·)) h, kRR_run (f := (· ||| ·)) h, kRR_run (f := (· ^^^ ·)) h,
    kRR_run (f := (· &&& ~~~ ·)) h, ?shifts⟩
  refine ⟨kRR_run (f := (· <<< shamt ·)) h, kRR_run (f := (· >>> shamt ·)) h,
    kRR_run (f := fun a b => a.sshiftRight (shamt b)) h, kRR_run (f := fun a b => a.rotateLeft (shamt b)) h,
    kRR_run (f := fun a b => a.rotateRight (shamt b)) h, ?comparisons⟩
  refine ⟨kRR_gives (f := fun a b => wordOf (a.slt b)) h (wordOf_eq_ite _),
    kRR_gives (f := fun a b => wordOf (a.ult b)) h (wordOf_eq_ite _),
    kRR_gives (f := fun a b => wordOf (a == b)) h (wordOf_beq a b), ?choices⟩
  refine ⟨kRR_gives (f := fun a b => if a.slt b then a else b) h (ite_slt a b a b),
    kRR_gives (f := fun a b => if a.slt b then b else a) h (ite_slt a b b a),
    kRR_gives (f := fun a b => if a.ult b then a else b) h (ite_ult a b a b),
    kRR_gives (f := fun a b => if a.ult b then b else a) h (ite_ult a b b a), ?products⟩
  refine ⟨kRR_run (f := (· * ·)) h, kRR_run (f := fun a b => BitVec.ofNat 64 (a.toNat * b.toNat / 2 ^ 64)) h,
    kRR_run (f := fun a b => BitVec.ofInt 64 (a.toInt * b.toInt / 2 ^ 64)) h, ?quotients⟩
  exact ⟨kRR_run (f := divS) h, kRR_gives (f := divU) h (divU_eq a b), kRR_run (f := remS) h,
    kRR_gives (f := remU) h (remU_eq a b)⟩

/-- Settles O2: `csel`, the carry instructions, and the accumulator instructions without memory operands. -/
theorem kaibasCarryAndAccumulator : Obligations.KaibasCarryAndAccumulator := by
  refine ⟨fun s c e rd rs1 rs2 h => ⟨exec_csel h, ?adc, ?sbb⟩, fun s c e rd rs1 rs2 h => ?acc⟩
  case adc => rw [exec_adc h, addCarry_eq]
  case sbb => rw [exec_sbb h, subBorrow_eq]
  case acc => exact ⟨kev_ok h rfl rfl rfl, exec_macc2 h, kev_ok h rfl rfl rfl, kev_ok h rfl rfl rfl, exec_accsh h⟩

/-- Settles O3: each row but `lui` is an operation of one register. -/
theorem kaibasImmediateOperations : Obligations.KaibasImmediateOperations := by
  intro s c e rd rs1 imm sh h a out flag
  refine ⟨kR_run (f := (· + sext16 imm)) h, kR_run (f := (· &&& imm.setWidth 64)) h, kR_run (f := (· ||| imm.setWidth 64)) h,
    kR_run (f := (· ^^^ imm.setWidth 64)) h, ?comparisons⟩
  refine ⟨kR_gives (f := fun a => wordOf (a.slt (sext16 imm))) h (slti_eq a imm),
    kR_gives (f := fun a => wordOf (a.ult (sext16 imm))) h (wordOf_eq_ite _), exec_lui h, ?shifts⟩
  refine ⟨kR_run (f := (· <<< sh.toNat)) h, kR_run (f := (· >>> sh.toNat)) h, kR_run (f := (·.sshiftRight sh.toNat)) h,
    kR_run (f := (·.rotateRight sh.toNat)) h, ?counts⟩
  exact ⟨kR_run (f := fun a => BitVec.ofNat 64 (leadingZeros 64 a)) h,
    kR_run (f := fun a => BitVec.ofNat 64 (trailingZeros 64 a)) h,
    kR_run (f := fun a => BitVec.ofNat 64 (popCount 64 a.toNat)) h, kR_run (f := byteSwap) h⟩

/-- Settles O4: the long forms that compute, their second word fetched. -/
theorem kaibasLongForms : Obligations.KaibasLongForms := by
  intro s c e rd rs1 imm h a out
  exact ⟨kev_ok h rfl rfl (Ctx.setReg_pc ..), exec_lih h, kR_run (f := (· + sext32 imm)) h, kR_run (f := (· &&& sext32 imm)) h,
    kR_run (f := (· ||| sext32 imm)) h, kR_run (f := (· ^^^ sext32 imm)) h⟩

end Sys2Proof.Machine
end

section
/-! Loads and stores (Tables 9-11, 9-12 and 9-15, R213 to R216, R226, R238). -/

namespace Sys2Proof.Machine

/-! Octets and sign extension. -/

theorem byte_mod (v n : Nat) : byte (v % 2 ^ (8 * (n + 1))) = byte v := by
  apply BitVec.eq_of_toNat_eq
  unfold byte
  rw [BitVec.toNat_ofNat, BitVec.toNat_ofNat]
  exact Nat.mod_mod_of_dvd v (Nat.pow_dvd_pow 2 (by omega))

/-- The octets of a number's low bytes are the first of its octets. -/
theorem toLe_mod {n m : Nat} (h : n ≤ m) (v : Nat) : toLe n (v % 2 ^ (8 * n)) = (toLe m v).take n := by
  induction n generalizing m v with
  | zero => rfl
  | succ n ih =>
    obtain ⟨m, rfl⟩ : ∃ k, m = k + 1 := ⟨m - 1, by omega⟩
    have hdiv : v % 2 ^ (8 * (n + 1)) / 256 = v / 256 % 2 ^ (8 * n) := by
      rw [Nat.mul_succ, Nat.pow_add', Nat.mod_mul_right_div_self]
    simp only [toLe, List.take_succ_cons, byte_mod, hdiv, ih (show n ≤ m by omega)]

theorem getD_toLe {n j : Nat} (h : j < n) (v : Nat) : (toLe n v).getD j 0 = byte (v / 256 ^ j) := by
  induction n generalizing v j with
  | zero => omega
  | succ n ih =>
    cases j with
    | zero => simp [toLe]
    | succ j => rw [toLe, List.getD_cons_succ, ih (by omega), Nat.div_div_eq_div_mul, Nat.pow_succ']

/-- A load's value read as a signed number. -/
theorem toInt_ofNat_of_lt {m v : Nat} (hm : m = 8 ∨ m = 16 ∨ m = 32) (hv : v < 2 ^ m) :
    (BitVec.ofNat m v).toInt = if 2 ^ (m - 1) ≤ v then (v : Int) - 2 ^ m else v := by
  rw [BitVec.toInt_eq_toNat_cond, BitVec.toNat_ofNat, Nat.mod_eq_of_lt hv]
  rcases hm with rfl | rfl | rfl <;> omega

/-- The value of a signed load is the sign extension of what was read. -/
theorem signed_value_eq {m v : Nat} (hm : m = 8 ∨ m = 16 ∨ m = 32) (hv : v < 2 ^ m) :
    (if 2 ^ (m - 1) ≤ v then BitVec.ofNat 64 (v + 2 ^ 64 - 2 ^ m) else BitVec.ofNat 64 v) =
      (BitVec.ofNat m v).signExtend 64 := by
  rw [BitVec.signExtend, toInt_ofNat_of_lt hm hv]
  split
  · apply BitVec.eq_of_toNat_eq
    rw [BitVec.toNat_ofNat, BitVec.toNat_ofInt]
    rcases hm with rfl | rfl | rfl <;> omega
  · rw [BitVec.ofInt_natCast]

/-! Addresses. -/

section
variable {s : State} {c : Cid} {e : KEnv} {rd rt rs1 rs2 : BitVec 5}

/-- An untagged base with an aligned sum passes the checks of an address. -/
theorem KEnv.address_aligned {off : Word} {n : Nat} (hbase : (e.c.reg rs1).2 = false)
    (halign : ((e.c.reg rs1).1 + off).toNat % n = 0) (k : Nat → KRes) :
    e.address rs1 off n k = k ((e.c.reg rs1).1 + off).toNat := by
  simp only [KEnv.address, hbase, halign, Bool.false_eq_true, if_false, ne_eq, not_true_eq_false]

theorem KEnv.address_tagged {off : Word} {n : Nat} (hbase : (e.c.reg rs1).2 = true) (k : Nat → KRes) :
    e.address rs1 off n k = .exc e.c 5 3 rs1.toNat 0 :=
  if_pos hbase

theorem KEnv.address2_aligned (h1 : (e.c.reg rs1).2 = false) (h2 : (e.c.reg rs2).2 = false)
    (ha : (e.c.reg rs1).1.toNat % 8 = 0) (hb : (e.c.reg rs2).1.toNat % 8 = 0) (k : Nat → Nat → KRes) :
    e.address2 rs1 rs2 k = k (e.c.reg rs1).1.toNat (e.c.reg rs2).1.toNat := by
  simp only [KEnv.address2, h1, h2, ha, hb, Bool.false_eq_true, if_false, ne_eq, not_true_eq_false]

/-- An access whose page is in the image cache is made at once. -/
theorem KEnv.filled_of_cached {a : Nat} (h : e.missing a = none) (r : KRes) : e.filled a r = r := by
  rw [KEnv.filled, h]

/-! Loads. -/

/-- A load of `n` bytes at an address of a base register passes its checks and reads a value with its tag. -/
structure KEnv.Reads (e : KEnv) (rs1 : BitVec 5) (a : Word) (n v : Nat) (tag : Bool) : Prop where
  base    : (e.c.reg rs1).2 = false
  aligned : a.toNat % n = 0
  value   : e.load a.toNat n = some (v, tag)
  cached  : e.missing a.toNat = none

theorem kLoad_of_reads {off : Word} {n v : Nat} {tag : Bool} (h : e.Reads rs1 ((e.c.reg rs1).1 + off) n v tag) (signed : Bool) :
    kLoad e rd rs1 off n signed = e.result rd (if signed ∧ 2 ^ (8 * n - 1) ≤ v then BitVec.ofNat 64 (v + 2 ^ 64 - 2 ^ (8 * n))
      else BitVec.ofNat 64 v) tag := by
  rw [kLoad, KEnv.address_aligned h.base h.aligned, h.value]
  exact KEnv.filled_of_cached h.cached _

theorem kLoad_unsigned {off : Word} {n v : Nat} {tag : Bool} (h : e.Reads rs1 ((e.c.reg rs1).1 + off) n v tag) :
    kLoad e rd rs1 off n false = .ok e.x (e.c.setReg rd (BitVec.ofNat 64 v) tag) := by
  rw [kLoad_of_reads h, if_neg (fun hs => Bool.false_ne_true hs.1)]
  rfl

theorem kLoad_signed {off : Word} {n v : Nat} {tag : Bool} (h : e.Reads rs1 ((e.c.reg rs1).1 + off) n v tag)
    (hn : n = 1 ∨ n = 2 ∨ n = 4) (hv : v < 2 ^ (8 * n)) :
    kLoad e rd rs1 off n true = .ok e.x (e.c.setReg rd ((BitVec.ofNat (8 * n) v).signExtend 64) tag) := by
  simp only [kLoad_of_reads h, true_and]
  rw [signed_value_eq (by omega) hv]
  rfl

/-- `maccm`, when both words can be read. -/
theorem exec_maccm {v u : Nat} {tag tag2 : Bool} (h : Fetches s c 4 e) (ha : e.Reads rs1 (e.c.reg rs1).1 8 v tag)
    (hb : e.Reads rs2 (e.c.reg rs2).1 8 u tag2) :
    exec (.maccm c rs1 rs2 0) s = Advance s e 4 e.x (e.c.accumulate (v * u) (tag || tag2)) := by
  refine kev_ok h rfl ?_ rfl
  rw [KEnv.address2_aligned ha.base hb.base ha.aligned hb.aligned, ha.value, hb.value]
  dsimp only
  rw [KEnv.filled_of_cached ha.cached, KEnv.filled_of_cached hb.cached]

/-! Stores. -/

/-- A store of `n` bytes to local memory. -/
theorem KEnv.store_lmem {a n : Nat} (h : e.region a n = some .lmem) (v : Nat) (tag : Bool) (reg : Nat) :
    e.store a n v tag reg = .ok e.x (e.c.lput a (toLe n v) tag) := by
  rw [KEnv.store, h]

/-- A store of an untagged value to cluster SRAM. -/
theorem KEnv.store_sram {a n : Nat} (h : e.region a n = some .sram) (v reg : Nat) :
    e.store a n v false reg = .ok (e.sramWrite a (toLe n v)) e.c := by
  simp only [KEnv.store, h, Bool.false_eq_true, if_false]

/-- A store of rt's low bytes to an untagged, aligned address. -/
theorem kStore_aligned {off : Word} {n : Nat} (hn : n ≤ 8) (hbase : (e.c.reg rs1).2 = false)
    (halign : ((e.c.reg rs1).1 + off).toNat % n = 0) :
    let a := ((e.c.reg rs1).1 + off).toNat
    let b := (toLe 8 (e.c.reg rt).1.toNat).take n
    (e.region a n = some .lmem → kStore e rt rs1 off n = .ok e.x (e.c.lput a b (e.c.reg rt).2)) ∧
    (e.region a n = some .sram → (e.c.reg rt).2 = false → kStore e rt rs1 off n = .ok (e.sramWrite a b) e.c) := by
  rw [kStore, KEnv.address_aligned hbase halign, ← toLe_mod hn]
  refine ⟨fun hr => KEnv.store_lmem hr _ _ _, fun hr ht => ?_⟩
  dsimp only
  rw [ht]
  exact KEnv.store_sram hr _ _

/-- An instruction that stores rt's low bytes. -/
theorem exec_store {i : Instr} {len : Nat} {r : RepKind} {d : KEnv → Bool} {off : Word} {n : Nat}
    (hi : exec i s = kev c len d r (fun e => kStore e rt rs1 off n) s) (hd : d e = true) (h : Fetches s c len e) (hn : n ≤ 8)
    (hbase : (e.c.reg rs1).2 = false) (halign : ((e.c.reg rs1).1 + off).toNat % n = 0) :
    let a := ((e.c.reg rs1).1 + off).toNat
    let b := (toLe 8 (e.c.reg rt).1.toNat).take n
    (e.region a n = some .lmem → exec i s = Advance s e len e.x (e.c.lput a b (e.c.reg rt).2)) ∧
    (e.region a n = some .sram → (e.c.reg rt).2 = false → exec i s = Advance s e len (e.sramWrite a b) e.c) := by
  obtain ⟨hlmem, hsram⟩ := kStore_aligned (rt := rt) hn hbase halign
  exact ⟨fun hr => hi.trans (kev_ok h hd (hlmem hr) rfl), fun hr ht => hi.trans (kev_ok h hd (hsram hr ht) rfl)⟩

/-- `mmov`, when its word can be read and its store is made. -/
theorem exec_mmov {v : Nat} {tag : Bool} {x : TwinSt} {k : Ctx} (h : Fetches s c 4 e)
    (ha : e.Reads rs1 (e.c.reg rs1).1 8 v tag)
    (hbase : (e.c.reg rs2).2 = false) (halign : (e.c.reg rs2).1.toNat % 8 = 0)
    (hstore : e.store (e.c.reg rs2).1.toNat 8 v tag 0 = .ok x k) (hpc : k.pc = e.c.pc) :
    exec (.mmov c rs1 rs2 0) s = Advance s e 4 x k := by
  refine kev_ok h rfl ?_ hpc
  rw [KEnv.address2_aligned ha.base hbase ha.aligned halign, ha.value]
  dsimp only
  rw [hstore]
  exact KEnv.filled_of_cached ha.cached _

/-! The frame of a store to local memory. -/

@[simp] theorem State.takeStep_pending (s : State) (i : Nat) : (s.takeStep i).pending = s.pending := by
  unfold State.takeStep; split <;> rfl

/-- An instruction that changes its context alone leaves the other twin and the rest of the module. -/
theorem Advance_frame {t : State} {len : Nat} {k : Ctx} (h : Advance s e len e.x k = .next t) :
    Tbl.find? (t.twin e.w).ctxs (ctxKey e.cid) = some { k with pc := e.c.pc + BitVec.ofNat 64 len } ∧
    t.twin (otherTwin e.w) = s.twin (otherTwin e.w) ∧ t.nvm = s.nvm ∧ t.out = s.out ∧ t.pending = s.pending := by
  unfold Advance at h
  cases h
  refine ⟨?_, by simp [State.putCtx]⟩
  rw [settle_twin]
  exact State.ctx_putCtx _ e e.x _

/-- Bytes stored in local memory read back, and the others are as before. -/
theorem Ctx.lput_reads (c : Ctx) (a : Nat) (b : Bytes) (tag : Bool) (j : Nat) :
    Tbl.getD (c.lput a b tag).lmem j 0 = if a ≤ j ∧ j < a + b.length then b.getD (j - a) 0 else Tbl.getD c.lmem j 0 :=
  getD_storeBytes b c.lmem a j

theorem getD_take_toLe {n j : Nat} (hn : n ≤ 8) (hj : j < n) (v : Nat) : ((toLe 8 v).take n).getD j 0 = byte (v / 256 ^ j) := by
  rw [List.getD_eq_getElem?_getD, List.getElem?_take_of_lt hj, ← List.getD_eq_getElem?_getD, getD_toLe (by omega)]

end

/-- Settles O5: each load passes its checks (`KEnv.Reads`), and the signed ones extend the sign of what was read. -/
theorem kaibasLoads : Obligations.KaibasLoads := by
  intro s c e rd rs1 rs2 v u tag tag2
  refine ⟨?short, ?long, fun h h1 h2 ha hb hla hlb hpa hpb => ?product⟩
  case short =>
    intro imm n h hbase a out halign hload hlt hpage
    have hr : e.Reads rs1 ((e.c.reg rs1).1 + sext16 imm) n v tag := ⟨hbase, halign, hload, hpage⟩
    refine ⟨fun hn => ?_, fun hn => ⟨?_, ?_⟩, fun hn => ⟨?_, ?_⟩, fun hn => ⟨?_, ?_⟩⟩ <;> subst hn
    · exact kev_ok h rfl (kLoad_unsigned hr) (Ctx.setReg_pc ..)
    · exact kev_ok h rfl (kLoad_unsigned hr) (Ctx.setReg_pc ..)
    · exact kev_ok h rfl (kLoad_signed hr (by omega) hlt) (Ctx.setReg_pc ..)
    · exact kev_ok h rfl (kLoad_unsigned hr) (Ctx.setReg_pc ..)
    · exact kev_ok h rfl (kLoad_signed hr (by omega) hlt) (Ctx.setReg_pc ..)
    · exact kev_ok h rfl (kLoad_unsigned hr) (Ctx.setReg_pc ..)
    · exact kev_ok h rfl (kLoad_signed hr (by omega) hlt) (Ctx.setReg_pc ..)
  case long =>
    intro imm h hbase a halign hload hpage
    have hr : e.Reads rs1 ((e.c.reg rs1).1 + sext32 imm) 8 v tag := ⟨hbase, halign, hload, hpage⟩
    exact kev_ok h rfl (kLoad_unsigned hr) (Ctx.setReg_pc ..)
  case product => exact exec_maccm h ⟨h1, ha, hla, hpa⟩ ⟨h2, hb, hlb, hpb⟩

/-- Settles O6: a store to local memory with its tag, and to cluster SRAM of an untagged value. -/
theorem kaibasStores : Obligations.KaibasStores := by
  intro s c e rt rs1 rs2
  refine ⟨?short, ?long, ?move⟩
  case short =>
    intro imm n h hbase a b done halign
    refine ⟨fun hn => ?_, fun hn => ?_, fun hn => ?_, fun hn => ?_⟩ <;> subst hn <;>
      exact exec_store (off := sext16 imm) rfl rfl h (by omega) hbase halign
  case long =>
    intro imm h hbase a b halign
    exact exec_store (off := sext32 imm) rfl rfl h (by omega) hbase halign
  case move =>
    intro v tag h h1 h2 ha hb hload hpage b
    have hr : e.Reads rs1 (e.c.reg rs1).1 8 v tag := ⟨h1, ha, hload, hpage⟩
    refine ⟨fun hlmem => exec_mmov h hr h2 hb (KEnv.store_lmem hlmem _ _ _) rfl, fun hsram htag => ?_⟩
    subst htag
    exact exec_mmov h hr h2 hb (KEnv.store_sram hsram _ _) rfl

/-- Settles O7: the store changes its context's local memory alone, and there the stored bytes alone. -/
theorem kaibasStoreFrame : Obligations.KaibasStoreFrame := by
  rintro s t c e rt rs1 imm n i h hi hnext a rfl hbase halign hregion
  have hn : n ≤ 8 := by omega
  have hexec : exec i s = Advance s e 4 e.x
      (e.c.lput ((e.c.reg rs1).1 + imm.signExtend 64).toNat ((toLe 8 (e.c.reg rt).1.toNat).take n) (e.c.reg rt).2) := by
    rcases hi with ⟨rfl, rfl⟩ | ⟨rfl, rfl⟩ | ⟨rfl, rfl⟩ | ⟨rfl, rfl⟩ <;>
      exact (exec_store (off := sext16 imm) rfl rfl h hn hbase halign).1 hregion
  have hlen : ((toLe 8 (e.c.reg rt).1.toNat).take n).length = n := by rw [List.length_take, length_toLe, Nat.min_eq_left hn]
  obtain ⟨hctx, hrest⟩ := Advance_frame (hexec.symm.trans hnext)
  refine ⟨_, hctx, fun j hj => ?outside, fun j hj => ?stored, rfl, rfl, rfl, rfl, rfl, rfl, hrest⟩
  case outside => exact (e.c.lput_reads _ _ (e.c.reg rt).2 _).trans (if_neg (by omega))
  case stored =>
    refine (e.c.lput_reads _ _ (e.c.reg rt).2 _).trans ((if_pos (by omega)).trans ?_)
    rw [Nat.add_sub_cancel_left, getD_take_toLe hn hj]

end Sys2Proof.Machine
end

section
/-! Branches, jumps, calls and returns (Table 9-13, R203 to R205, R210, R212). -/

namespace Sys2Proof.Machine

section
variable {s : State} {c : Cid} {e : KEnv} {rs1 rs2 : BitVec 5}

/-! Targets. -/

/-- A branch from an aligned address has an aligned target (R212). -/
theorem relTarget_aligned {k : Ctx} (h : k.pc.toNat % 4 = 0) (off : Word) : (relTarget k off).toNat % 4 = 0 := by
  unfold relTarget
  rw [BitVec.toNat_add, BitVec.toNat_mul, show (4 : BitVec 64).toNat = 4 from rfl]
  omega

theorem Fetches.aligned {len : Nat} (h : Fetches s c len e) : e.c.pc.toNat % 4 = 0 := by
  obtain ⟨-, -, -, -, halign, -⟩ := h
  exact halign

theorem KEnv.goto_aligned {k : Ctx} {t : BitVec 64} (h : t.toNat % 4 = 0) : e.goto k t = .jump e.x k t :=
  if_neg (not_not_intro h)

/-! Branches. -/

/-- A conditional branch on untagged comparands, by the comparison it makes. -/
theorem exec_branch {i : Instr} {off : BitVec 16} {p : Word → Word → Bool} {P : Prop}
    (hi : exec i s = kBranch c rs1 rs2 off p s) (h : Fetches s c 4 e) (h1 : (e.c.reg rs1).2 = false)
    (h2 : (e.c.reg rs2).2 = false) (hp : p (e.c.reg rs1).1 (e.c.reg rs2).1 = true ↔ P) :
    (P → exec i s = Transfer s e e.x e.c (e.c.pc + 4 * off.signExtend 64)) ∧ (¬ P → exec i s = Advance s e 4 e.x e.c) := by
  rw [hi]
  unfold kBranch
  refine ⟨fun hgo => kev_jump h rfl ?_, fun hstay => kev_ok h rfl ?_ rfl⟩
  · simp only [h1, h2, hp.mpr hgo, Bool.false_eq_true, if_false, if_true]
    exact KEnv.goto_aligned (relTarget_aligned h.aligned _)
  · simp only [h1, h2, mt hp.mp hstay, Bool.false_eq_true, if_false]

theorem exec_j {far : BitVec 26} (h : Fetches s c 4 e) :
    exec (.j c far) s = Transfer s e e.x e.c (e.c.pc + 4 * far.signExtend 64) :=
  kev_jump h rfl (KEnv.goto_aligned (relTarget_aligned h.aligned _))

theorem exec_jr (h : Fetches s c 4 e) (htag : (e.c.reg rs1).2 = false) (halign : (e.c.reg rs1).1.toNat % 4 = 0) :
    exec (.jr c rs1 0) s = Transfer s e e.x e.c (e.c.reg rs1).1 :=
  kev_jump h rfl ((if_neg (Bool.eq_false_iff.mp htag)).trans (KEnv.goto_aligned halign))

/-! Spills and fills of windows leave the status register. -/

@[simp] theorem Ctx.lput_sr (k : Ctx) (a : Nat) (b : Bytes) (tag : Bool) : (k.lput a b tag).sr = k.sr := rfl

@[simp] theorem Ctx.setAnchor_sr (k : Ctx) (w : Nat) (v : BitVec 64) : (k.setAnchor w v).sr = k.sr := rfl

theorem spillWindow_sr (k : Ctx) (base : Nat) : (spillWindow k base).sr = k.sr := by
  unfold spillWindow
  rw [Ctx.lput_sr]
  exact foldl_keeps (p := Ctx.sr) (fun k _ => k.lput_sr _ _ _) _ k

theorem spillWindow_wold (k : Ctx) (base : Nat) : (spillWindow k base).wold = k.wold := by
  rw [Ctx.wold, spillWindow_sr, Ctx.wold]

theorem fillWindow_sr (k : Ctx) (w base : Nat) : (fillWindow k w base).sr = k.sr := by
  unfold fillWindow
  rw [Ctx.setAnchor_sr]
  exact foldl_keeps (p := Ctx.sr) (fun k _ => k.setWord_sr _ _ _) _ k

/-! Calls. -/

/-- Where a call with 14 resident windows spills the oldest (R203). -/
def KEnv.spillBase (e : KEnv) : Nat := (e.c.anchor ((e.c.wold + 1) % 15)).toNat

/-- The context with its oldest window spilt. -/
def KEnv.spilt (e : KEnv) : Ctx := { spillWindow e.c e.spillBase with sr := setBits e.c.sr 16 4 ((e.c.wold + 1) % 15) }

/-- A call has room for a new window in a context: as it stands, or with its oldest window spilt (R203, R205). -/
def KEnv.MakesRoom (e : KEnv) (k : Ctx) : Prop :=
  e.c.windows ≠ 14 ∧ k = e.c ∨ e.c.windows = 14 ∧ e.saveArea e.spillBase = true ∧ k = e.spilt

/-- The context in the new window of a call (R203). -/
def KEnv.entered (e : KEnv) (k : Ctx) : Ctx :=
  { k.setAnchor ((e.c.cwp + 1) % 15) (e.c.word 6).1 with
    lk := e.c.pc + 4
    sr := setBits (setBits k.sr 20 4 ((e.c.cwp + 1) % 15)) 32 16 (e.c.depth + 1) }

theorem kCall_enters {k : Ctx} {t : BitVec 64} (halign : t.toNat % 4 = 0) (hfetch : e.canFetch t.toNat = true)
    (hdepth : e.c.depth ≠ 65535) (hroom : e.MakesRoom k) : kCall e t = .jump e.x (e.entered k) t := by
  unfold kCall
  rw [if_neg (not_not_intro halign), if_neg (not_not_intro hfetch), if_neg hdepth]
  rcases hroom with ⟨hw, rfl⟩ | ⟨hw, hs, rfl⟩
  · simp only [hw, decide_false, Bool.false_eq_true, false_and, if_false]
    rfl
  · unfold KEnv.spillBase at hs
    simp only [hw, hs, decide_true, not_true_eq_false, and_false, if_false, if_true, spillWindow_sr, spillWindow_wold]
    rfl

theorem exec_call {k : Ctx} {off : BitVec 26} (h : Fetches s c 4 e) (hsp : (e.c.word 6).2 = false) (hdepth : e.c.depth ≠ 65535)
    (hroom : e.MakesRoom k) (hfetch : e.canFetch (e.c.pc + 4 * off.signExtend 64).toNat = true) :
    exec (.call c off) s = Transfer s e e.x (e.entered k) (e.c.pc + 4 * off.signExtend 64) :=
  kev_jump h rfl ((if_neg (Bool.eq_false_iff.mp hsp)).trans
    (kCall_enters (relTarget_aligned h.aligned _) hfetch hdepth hroom))

theorem exec_callr {k : Ctx} (h : Fetches s c 4 e) (hsp : (e.c.word 6).2 = false) (hdepth : e.c.depth ≠ 65535)
    (hroom : e.MakesRoom k) (htag : (e.c.reg rs1).2 = false) (halign : (e.c.reg rs1).1.toNat % 4 = 0)
    (hfetch : e.canFetch (e.c.reg rs1).1.toNat = true) :
    exec (.callr c rs1 0) s = Transfer s e e.x (e.entered k) (e.c.reg rs1).1 :=
  kev_jump h rfl ((if_neg (Bool.eq_false_iff.mp hsp)).trans ((if_neg (Bool.eq_false_iff.mp htag)).trans
    (kCall_enters halign hfetch hdepth hroom)))

/-! Returns. -/

/-- Where a return with one resident window reads the window below (R204). -/
def KEnv.fillBase (e : KEnv) : Nat := (e.c.anchor e.c.cwp).toNat

/-- The window below the current one. -/
def KEnv.below (e : KEnv) : Nat := (e.c.cwp + 14) % 15

/-- The context with the window below filled. -/
def KEnv.refilled (e : KEnv) : Ctx := { fillWindow e.c e.below e.fillBase with sr := setBits e.c.sr 16 4 e.below }

/-- The window below is resident in a context: as it stands, or filled from a save area with an untagged anchor (R204, R205). -/
def KEnv.HasCaller (e : KEnv) (k : Ctx) : Prop :=
  e.c.windows ≠ 1 ∧ k = e.c ∨
    e.c.windows = 1 ∧ e.saveArea e.fillBase = true ∧ e.c.ltag (e.fillBase + 128) 8 = false ∧ k = e.refilled

theorem exec_ret {k : Ctx} (h : Fetches s c 4 e) (halign : e.c.lk.toNat % 4 = 0) (hfetch : e.canFetch e.c.lk.toNat = true)
    (hdepth : e.c.depth ≠ 0) (hcaller : e.HasCaller k) : exec (.ret c 0) s =
      Transfer s e e.x { k with sr := setBits (setBits k.sr 20 4 e.below) 32 16 (e.c.depth - 1) } e.c.lk := by
  refine kev_jump h rfl ?_
  rw [if_neg (not_not_intro halign), if_neg (not_not_intro hfetch), if_neg hdepth]
  rcases hcaller with ⟨hw, rfl⟩ | ⟨hw, hs, ht, rfl⟩
  · simp only [hw, decide_false, Bool.false_eq_true, false_and, if_false]
    rfl
  · unfold KEnv.fillBase at hs ht
    simp only [hw, hs, ht, decide_true, not_true_eq_false, Bool.false_eq_true, or_self, and_false, if_false, if_true,
      fillWindow_sr, KEnv.refilled, KEnv.below, KEnv.fillBase]

end

/-- Settles O8: a branch by its comparison, and the jumps, whose targets are aligned. -/
theorem kaibasBranches : Obligations.KaibasBranches := by
  intro s c e rs1 rs2 off far h a b went
  refine ⟨fun h1 h2 => ⟨?beq, ?bne, ?blt, ?bge, ?bltu, ?bgeu⟩, exec_j h, exec_jr h⟩
  case beq => exact exec_branch (p := fun a b => a == b) rfl h h1 h2 beq_iff_eq
  case bne => exact exec_branch (p := fun a b => a != b) rfl h h1 h2 bne_iff_ne
  case blt => exact exec_branch (p := fun a b => a.slt b) rfl h h1 h2 BitVec.slt_iff_toInt_lt
  case bge => exact exec_branch (p := fun a b => !a.slt b) rfl h h1 h2 (by simp [BitVec.slt_eq_decide, a, b])
  case bltu => exact exec_branch (p := fun a b => a.ult b) rfl h h1 h2 BitVec.ult_iff_toNat_lt
  case bgeu => exact exec_branch (p := fun a b => !a.ult b) rfl h h1 h2 (by simp [BitVec.ult_eq_decide, a, b])

/-- Settles O9: calls with and without a spill, and returns with and without a fill. -/
theorem kaibasCallAndReturn : Obligations.KaibasCallAndReturn := by
  intro s c e rs1 off h inner back top own spilt below filled
  refine ⟨fun k hsp hdepth hroom => ⟨fun hfetch => ?_, fun htag halign hfetch => ?_⟩, fun k => exec_ret h⟩
  · exact exec_call h hsp hdepth hroom hfetch
  · exact exec_callr h hsp hdepth hroom htag halign hfetch

end Sys2Proof.Machine
end

section
/-! Instructions under `rep`, special registers and system instructions (Tables 9-2, 9-9 and 9-14, R207, R208, R218, R222, R223, R227). -/

namespace Sys2Proof.Machine

section
variable {s : State} {c : Cid} {e : KEnv} {rd rs1 rs2 : BitVec 5}

/-! Instructions under `rep`. -/

theorem exec_rep (h : Fetches s c 4 e) : exec (.rep c 0) s = Advance s e 4 e.x { e.c with rep := some e.c.pc } :=
  kev_ok h rfl rfl rfl

/-- A register written by an instruction under `rep`, as by the instruction alone. -/
theorem Ctx.setReg_outside_rep (k : Ctx) (n : BitVec 5) (v : Word) (tag : Bool) :
    Ctx.setReg { k with rep := none } n v tag = { k.setReg n v tag with rep := none } := by
  unfold Ctx.setReg; split <;> rfl

/-- `rc` reaches 0 in the iteration that it enters as 1. -/
theorem rc_sub_one_eq_zero (rc : BitVec 32) : rc - 1 = 0 ↔ rc = 1 := by bv_omega

/-- One iteration of an operation of two registers, which moves no base (R223). -/
theorem kRR_repeats {p : BitVec 64} {f : Word → Word → Word} (h : Repeats s c p e) : kRR c rd rs1 rs2 0 f s =
    .next (settle s ((s.takeStep e.cid.island).putCtx e e.x
      { e.c.setReg rd (f (e.c.reg rs1).1 (e.c.reg rs2).1) ((e.c.reg rs1).2 || (e.c.reg rs2).2) with
        rep := none, rc := e.c.rc - 1, pc := if e.c.rc = 1 then p + 8 else p })) := by
  have hop := congrArg (KRes.ok e.x) (e.c.setReg_outside_rep rd (f (e.c.reg rs1).1 (e.c.reg rs2).1)
    ((e.c.reg rs1).2 || (e.c.reg rs2).2))
  unfold kRR kev
  rw [ev_now h.1, kstep_rep h rfl hop]
  simp only [moveBases, List.foldl_nil, Ctx.setReg_rc, rc_sub_one_eq_zero]

/-! Special registers. -/

theorem Ctx.setSpecial_pc (k : Ctx) (n : Nat) (v : Word) (tag : Bool) : (k.setSpecial n v tag).pc = k.pc := by
  unfold Ctx.setSpecial
  split
  case h_9 | h_10 | h_11 => exact Ctx.setAccWord_pc ..
  all_goals rfl

theorem KEnv.setSpecial_pc (e : KEnv) (n : Nat) (v : Word) (tag : Bool) : (e.setSpecial n v tag).2.pc = e.c.pc := by
  unfold KEnv.setSpecial
  split
  · rfl
  · exact Ctx.setSpecial_pc ..

theorem exec_mfs {n : BitVec 12} {v : Word × Bool} (h : Fetches s c 4 e) (hv : e.special n.toNat = some v)
    (hpriv : handlerOnly n.toNat = true → e.c.exc = true) :
    exec (.mfs c rd n 0) s = Advance s e 4 e.x (e.c.setReg rd v.1 v.2) := by
  refine kev_ok h ?_ ?_ (Ctx.setReg_pc ..)
  · simp only [hv, Option.isSome_some, beq_self_eq_true, Bool.and_self]
  · rw [if_neg (fun hno => hno.2 (hpriv hno.1)), hv]
    rfl

theorem exec_mts {n : BitVec 12} (h : Fetches s c 4 e) (hsome : (e.special n.toNat).isSome = true)
    (hrw : readOnly n.toNat = false) (hpriv : handlerOnly n.toNat = true → e.c.exc = true)
    (htag : untaggedOnly n.toNat = true → (e.c.reg rs1).2 = false) :
    exec (.mts c n rs1 0) s = Advance s e 4 (e.setSpecial n.toNat (e.c.reg rs1).1 (e.c.reg rs1).2).1
      (e.setSpecial n.toNat (e.c.reg rs1).1 (e.c.reg rs1).2).2 := by
  refine kev_ok h ?_ ?_ (KEnv.setSpecial_pc ..)
  · simp only [hsome, hrw, beq_self_eq_true, Bool.not_false, Bool.and_self]
  · rw [if_neg (fun hno => hno.2 (hpriv hno.1)), if_neg (fun hbad => Bool.false_ne_true ((htag hbad.1).symm.trans hbad.2))]

/-! `dcl`, `fence` and `eret`. -/

theorem exec_dcl (h : Fetches s c 4 e) (hpage : e.dclPage e.c.pc.toNat = true) : exec (.dcl c rd rs1 0) s =
    Advance s e 4 (e.x.updReq e.q (fun r => { r with dcl := r.dcl + 1 }))
      (Ctx.setReg { e.c with dclc := e.c.dclc + 1 } rd (e.c.reg rs1).1 false) :=
  kev_ok h rfl (if_neg (not_not_intro hpage)) (Ctx.setReg_pc ..)

theorem exec_eret (h : Fetches s c 4 e) (hexc : e.c.exc = true) (hcwp : e.c.cwp = bits e.c.esr.toNat 23 20)
    (hdepth : e.c.depth = bits e.c.esr.toNat 47 32) : exec (.eret c 0) s =
      let k := e.c.setCarry (e.c.esr.getLsbD 7) (e.c.esr.getLsbD 6)
      Transfer s e e.x { k with sr := setBits k.sr 31 1 0 } e.c.epc := by
  refine kev_jump h rfl ?_
  rw [if_neg (not_not_intro hexc), if_neg (fun hmoved => hmoved.elim (absurd hcwp) (absurd hdepth))]

/-! Exceptions. -/

/-- The state in the handler of a context's exception (R227). -/
def KEnv.inHandler (s : State) (e : KEnv) (cause : Nat) : Host.Outcome State Fault Refusal :=
  .next (settle s ((s.takeStep e.cid.island).putCtx e e.x
    { e.c with epc := e.c.pc, einfo := 0, ecause := BitVec.ofNat 32 cause,
               esr := setBits e.c.sr 11 1 (b2n (e.dclPage e.c.pc.toNat)),
               sr := setBits e.c.sr 31 1 1, pc := e.c.ev }))

/-- With a handler installed and outside a handler, an exception enters it. -/
theorem Raises_enters {len : Nat} (h : Fetches s c len e) (hev : e.c.ev ≠ 0) (hexc : e.c.exc = false) (cause sub reg : Nat) :
    Raises s e e.c cause sub reg 0 = e.inHandler s (cause + 256 * sub + 65536 * reg) := by
  obtain ⟨-, -, hrep, -⟩ := h
  have hgo : ¬ (e.c.ev = 0 ∨ e.c.exc = true) := fun hno => hno.elim hev (Bool.eq_false_iff.mp hexc)
  simp only [Raises, State.raise, if_neg hgo, KEnv.inHandler, BitVec.ofNat_toNat, BitVec.setWidth_eq, hrep]
  rfl

/-- A word that is not defined raises the undefined-instruction exception (R226). -/
theorem kev_undefined {len : Nat} {d : KEnv → Bool} {r : RepKind} {op : KEnv → KRes} (h : Fetches s c len e)
    (hd : d e = false) : kev c len d r op s = Raises s e e.c 1 0 0 0 := by
  obtain ⟨hup, hk, hrep, hfetch, halign, hpage, -⟩ := h
  obtain ⟨hc, he⟩ := KEnv.outside_rep hrep
  unfold kev
  rw [ev_now hup]
  simp only [kstep, hk, hrep, hc, hfetch, halign, hpage, hd, not_true_eq_false, Bool.false_eq_true, not_false_eq_true,
    ne_eq, if_false, if_true, Raises]

theorem exec_brk (h : Fetches s c 4 e) : exec (.brk c brkWord) s = Raises s e e.c 10 0 0 0 := by
  change execBrk c brkWord s = _
  unfold execBrk
  rw [if_pos (by decide)]
  exact kev_exc h rfl (if_pos rfl)

theorem exec_undefinedWord {word : BitVec 32} (h : Fetches s c 4 e) (hown : ownWord word = true) (hbrk : word ≠ brkWord)
    (hop : opOf word ≠ 5) : exec (.brk c word) s = Raises s e e.c 1 0 0 0 := by
  change execBrk c word s = _
  unfold execBrk
  rw [if_pos hown]
  exact kev_undefined h (by simp [hbrk, hop])

/-- `svc` with a function that Table 10-6 does not have (R242). -/
theorem exec_undefinedService {word : BitVec 32} (h : Fetches s c 4 e) (hown : ownWord word = true) (hop : opOf word = 5)
    (hrsvd : bits word.toNat 25 16 = 0) : exec (.brk c word) s = Raises s e e.c 8 0 0 (bits word.toNat 15 0) := by
  have hbrk : word ≠ brkWord := by
    rintro rfl
    exact absurd hop (by decide)
  change execBrk c word s = _
  unfold execBrk
  rw [if_pos hown]
  exact kev_exc h (by simp [hop, hrsvd]) (if_neg hbrk)

theorem exec_eret_outside (h : Fetches s c 4 e) (hexc : e.c.exc = false) :
    exec (.eret c 0) s = Raises s e e.c 9 0 0 0 :=
  kev_exc h rfl (if_pos (Bool.eq_false_iff.mp hexc))

theorem exec_dcl_elsewhere (h : Fetches s c 4 e) (hpage : e.dclPage e.c.pc.toNat = false) :
    exec (.dcl c rd rs1 0) s = Raises s e e.c 6 0 0 0 :=
  kev_exc h rfl (if_pos (Bool.eq_false_iff.mp hpage))

/-- A tagged base raises its exception before the load does anything, also when rd is g0 (R201, R226). -/
theorem exec_ld_tagged {off : BitVec 16} (h : Fetches s c 4 e) (htag : (e.c.reg rs1).2 = true) :
    exec (.ld c rd rs1 off) s = Raises s e e.c 5 3 rs1.toNat 0 :=
  kev_exc h rfl (KEnv.address_tagged htag _)

/-! Registers (R201). -/

/-- The general registers lie in distinct places of the register file (Table 9-1). -/
theorem regPlace_injective {cwp m n : Nat} (h : regPlace cwp m = regPlace cwp n) (hm : m < 32) (hn : n < 32) : m = n := by
  unfold regPlace at h
  split_ifs at h <;> omega

@[simp] theorem Ctx.reg_zero (k : Ctx) : k.reg 0 = (0, false) := if_pos rfl

@[simp] theorem Ctx.setReg_zero (k : Ctx) (v : Word) (tag : Bool) : k.setReg 0 v tag = k := if_pos rfl

theorem Ctx.word_setWord (k : Ctx) (i j : Nat) (v : Word) (tag : Bool) :
    (k.setWord i v tag).word j = if j = i then (v, tag) else k.word j :=
  Tbl.getD_store ..

theorem Ctx.reg_setReg_same (k : Ctx) {n : BitVec 5} (hn : n ≠ 0) (v : Word) (tag : Bool) :
    (k.setReg n v tag).reg n = (v, tag) := by
  rw [Ctx.setReg, if_neg hn, Ctx.reg, if_neg hn, Ctx.word_setWord]
  exact if_pos rfl

theorem Ctx.reg_setReg_other (k : Ctx) {m n : BitVec 5} (hmn : m ≠ n) (v : Word) (tag : Bool) :
    (k.setReg n v tag).reg m = k.reg m := by
  by_cases hn : n = 0
  · rw [hn, Ctx.setReg_zero]
  · rw [Ctx.setReg, if_neg hn, Ctx.reg, Ctx.reg, Ctx.word_setWord]
    have hplace : regPlace k.cwp m.toNat ≠ regPlace k.cwp n.toNat :=
      fun h => hmn (BitVec.eq_of_toNat_eq (regPlace_injective h m.isLt n.isLt))
    have hcwp : (k.setWord (regPlace k.cwp n.toNat) v tag).cwp = k.cwp := rfl
    rw [hcwp, if_neg hplace]

end

/-- Settles O10: `rep`, and an iteration of `add` under it. That `rep` is noted and each command runs one iteration is the model's
choice (assumption 15). -/
theorem kaibasRepeat : Obligations.KaibasRepeat :=
  fun _ _ _ _ _ _ => ⟨exec_rep, fun _ h => kRR_repeats (f := (· + ·)) h⟩

/-- Settles O11: the special-register moves, `dcl`, `fence`, and `eret` (R227). That a misaligned `epc` raises at the fetch of the
target is the model's choice (assumption 195). -/
theorem kaibasSystem : Obligations.KaibasSystem := by
  intro s c e rd rs1 n h
  exact ⟨fun v => exec_mfs h, exec_mts h, exec_dcl h, kev_ok h rfl rfl rfl, exec_eret h⟩

/-- Settles O12: what each instruction raises, and the entry of the handler. The causes are Table 9-17's and the subcodes Table
9-16's; that `brk`'s row carries the undefined words is the model's choice (assumption 188). -/
theorem kaibasExceptionEntry : Obligations.KaibasExceptionEntry := by
  intro s c e h hev hexc entry
  have henter := Raises_enters h hev hexc
  refine ⟨(exec_brk h).trans (henter ..), fun word hown hbrk hop => (exec_undefinedWord h hown hbrk hop).trans (henter ..),
    fun word => exec_undefinedService h, (exec_eret_outside h hexc).trans (henter ..), fun w hw => ?reserved,
    fun rd rs1 hpage => (exec_dcl_elsewhere h hpage).trans (henter ..), fun r off htag => ?tagged⟩
  case reserved =>
    have hd : noRsvd w e = false := beq_eq_false_iff_ne.mpr hw
    exact ⟨(kev_undefined h hd).trans (henter ..), (kev_undefined h hd).trans (henter ..)⟩
  case tagged =>
    exact ⟨(kev_exc h rfl (if_pos htag)).trans (henter ..), (kev_exc h rfl (if_pos htag)).trans (henter ..),
      (exec_ld_tagged h htag).trans (henter ..)⟩

/-- Settles O13: g0 among the registers, and the instructions that do more than write rd. -/
theorem kaibasRegisterZero : Obligations.KaibasRegisterZero := by
  refine ⟨fun k n m v tag => ⟨k.reg_zero, k.setReg_zero v tag, fun hn => k.reg_setReg_same hn v tag,
    fun hmn => k.reg_setReg_other hmn v tag⟩, ?_⟩
  intro s c e rs1 rs2 off h a b cin tag
  refine ⟨kRR_run (f := (· + ·)) h, ?adc, ?sbb, exec_accsh h, exec_dcl h, exec_ld_tagged h⟩
  case adc =>
    rw [exec_adc h, addCarry_eq]
    exact congrArg (fun k : Ctx => Advance s e 4 e.x (k.setCarry _ tag)) (Ctx.setReg_zero ..)
  case sbb =>
    rw [exec_sbb h, subBorrow_eq]
    exact congrArg (fun k : Ctx => Advance s e 4 e.x (k.setCarry _ tag)) (Ctx.setReg_zero ..)

end Sys2Proof.Machine
end

section
/-! What a child's `EXIT` leaves: its value stands, and its task does not come back (R241, R243). -/

namespace Sys2Proof.Machine

/-- Entries of some keys taken out of a table. -/
theorem Tbl.find?_filter_keys {α : Type} (p : Nat → Bool) (t : Tbl α) (j : Nat) :
    Tbl.find? (t.filter (fun e => p e.1)) j = if p j then Tbl.find? t j else none := by
  induction t with
  | nil => simp [Tbl.find?]
  | cons e t ih =>
    rw [List.filter_cons]
    by_cases hj : j = e.1
    · subst hj
      by_cases hp : p e.1
      · simp [Tbl.find?, hp]
      · rw [if_neg hp, ih, if_neg hp, if_neg hp]
    · split
      · simp only [Tbl.find?, if_neg hj, ih]
      · simp only [Tbl.find?, if_neg hj, ih]

/-- A request keeps the values of its children, and a task that is gone stays gone. -/
def Req.KeepsExits (i : Nat) (r r' : Req) : Prop :=
  r'.childVals = r.childVals ∧ (Tbl.find? r.tasks i = none → Tbl.find? r'.tasks i = none)

theorem Req.KeepsExits.of_eq {i : Nat} {r r' : Req} (hv : r'.childVals = r.childVals) (ht : r'.tasks = r.tasks) :
    Req.KeepsExits i r r' := ⟨hv, fun h => ht.symm ▸ h⟩

theorem Req.KeepsExits.trans {i : Nat} {a b c : Req} (h : Req.KeepsExits i a b) (k : Req.KeepsExits i b c) : Req.KeepsExits i a c :=
  ⟨k.1.trans h.1, fun hn => k.2 (h.2 hn)⟩

/-- The same of a request of a twin. -/
def KeepsExits (q i : Nat) (x y : TwinSt) : Prop :=
  ∀ r', Tbl.find? y.reqs q = some r' → ∃ r, Tbl.find? x.reqs q = some r ∧ Req.KeepsExits i r r'

section
variable {q i : Nat}

/-- A change of anything but the requests. -/
theorem KeepsExits.of_reqs {x y : TwinSt} (h : y.reqs = x.reqs) : KeepsExits q i x y :=
  fun r' hr => ⟨r', h ▸ hr, .of_eq rfl rfl⟩

theorem KeepsExits.refl {x : TwinSt} : KeepsExits q i x x := .of_reqs rfl

theorem KeepsExits.trans {x y z : TwinSt} (h : KeepsExits q i x y) (k : KeepsExits q i y z) : KeepsExits q i x z := by
  intro r'' hr''
  obtain ⟨r', hr', hs'⟩ := k r'' hr''
  obtain ⟨r, hr, hs⟩ := h r' hr'
  exact ⟨r, hr, hs.trans hs'⟩

theorem KeepsExits.foldl {α : Type} {f : TwinSt → α → TwinSt} (h : ∀ x a, KeepsExits q i x (f x a)) (l : List α)
    (x : TwinSt) : KeepsExits q i x (l.foldl f x) := by
  induction l generalizing x with
  | nil => exact .refl
  | cons a l ih => exact (h x a).trans (ih _)

theorem KeepsExits.updReq (x : TwinSt) (p : Nat) {f : Req → Req} (hf : ∀ r, Req.KeepsExits i r (f r)) :
    KeepsExits q i x (x.updReq p f) := by
  intro r' hr'
  rw [TwinSt.find?_updReq] at hr'
  split at hr'
  · obtain ⟨r, hr, rfl⟩ := Option.map_eq_some_iff.mp hr'
    exact ⟨r, hr, hf r⟩
  · exact ⟨r', hr', .of_eq rfl rfl⟩

/-- A change of a task makes no task. -/
theorem KeepsExits.updTask (x : TwinSt) (p j : Nat) (f : Task → Task) : KeepsExits q i x (x.updTask p j f) := by
  refine .updReq x p (fun r => ⟨rfl, fun hn => ?_⟩)
  refine (Tbl.find?_upd r.tasks j i f).trans ?_
  rw [hn]
  split <;> rfl

theorem KeepsExits.stopCharge (x : TwinSt) (now p j : Nat) : KeepsExits q i x (x.stopCharge now p j) := by
  unfold TwinSt.stopCharge
  split
  · split
    · exact (KeepsExits.updTask x p j _).trans (.of_reqs rfl)
    · exact .refl
  · exact .refl

theorem KeepsExits.recharge (x : TwinSt) (core now : Nat) : KeepsExits q i x (x.recharge core now) := by
  unfold TwinSt.recharge
  dsimp only
  generalize x.executing core = nxt
  have hstop : KeepsExits q i x ((x.onCore core).foldl
      (fun x e => if nxt = some (e.1, e.2.1) then x else x.stopCharge now e.1 e.2.1) x) := by
    refine .foldl (fun x e => ?_) _ x
    split
    · exact .refl
    · exact .stopCharge x _ _ _
  split
  · exact hstop.trans (.updTask _ _ _ _)
  · exact hstop

theorem KeepsExits.wakeMem (x : TwinSt) (now : Nat) (ends : Cid → Ctx → Bool) : KeepsExits q i x (x.wakeMem now ends) := by
  unfold TwinSt.wakeMem
  refine .foldl (fun y k => .trans (.of_reqs ?_) (.recharge _ _ _)) _ x
  rfl

/-- A request with some of its tasks dropped, and what they ran counted (R134, R183). -/
def Req.dropped (sel : Nat → Bool) (r : Req) : Req :=
  { r with tasks := r.tasks.filter (fun t => !sel t.1), gens := r.gens.filter (fun g => !sel g.1)
           ran := r.ran + (r.tasks.filter (fun (t : Nat × Task) => sel t.1)).foldl (fun n (t : Nat × Task) => n + t.2.used) 0 }

theorem Req.find?_dropped (sel : Nat → Bool) (r : Req) (j : Nat) :
    Tbl.find? (r.dropped sel).tasks j = if !sel j then Tbl.find? r.tasks j else none :=
  Tbl.find?_filter_keys (fun k => !sel k) r.tasks j

/-- Dropping tasks is a change of their request between changes of contexts and charges. -/
theorem TwinSt.dropTasks_between (x : TwinSt) (now p : Nat) (sel : Nat → Bool) (wipe : Bool) :
    ∃ y, KeepsExits q i x y ∧ KeepsExits q i (y.updReq p (Req.dropped sel)) (x.dropTasks now p sel wipe) := by
  refine ⟨_, ?before, .trans (.foldl (fun x j => .recharge x j now) _ _) (.foldl (fun x k => .wakeMem x now _) _ _)⟩
  refine .trans (.foldl (fun x j => .foldl (fun x e => ?_) _ x) _ x) (.of_reqs rfl)
  split
  · exact .stopCharge x _ _ _
  · exact .refl

theorem KeepsExits.dropTasks (x : TwinSt) (now p : Nat) (sel : Nat → Bool) (wipe : Bool) :
    KeepsExits q i x (x.dropTasks now p sel wipe) := by
  obtain ⟨y, hbefore, hafter⟩ := x.dropTasks_between now p sel wipe
  refine hbefore.trans (.trans (.updReq y p (f := Req.dropped sel) (fun r => ⟨rfl, fun hn => ?_⟩)) hafter)
  rw [Req.find?_dropped, hn, ite_self]

/-- A task dropped is gone. -/
theorem TwinSt.dropTasks_gone (x : TwinSt) (now : Nat) {sel : Nat → Bool} (hi : sel i = true) (wipe : Bool) {r : Req}
    (hr : Tbl.find? (x.dropTasks now q sel wipe).reqs q = some r) : Tbl.find? r.tasks i = none := by
  obtain ⟨y, -, hafter⟩ := x.dropTasks_between (q := q) (i := i) now q sel wipe
  obtain ⟨r₁, hr₁, -, hgone⟩ := hafter r hr
  rw [TwinSt.find?_updReq, if_pos rfl] at hr₁
  obtain ⟨r₀, -, rfl⟩ := Option.map_eq_some_iff.mp hr₁
  refine hgone ?_
  rw [Req.find?_dropped, hi]
  rfl

/-! The end of a request. -/

theorem KeepsExits.notify (x : TwinSt) (p st : Nat) : KeepsExits q i x (x.notify p st) := by
  intro r' hr'
  unfold TwinSt.notify at hr'
  dsimp only at hr'
  rw [Tbl.find?_map (fun r : Req =>
    if (r.preds.contains p && !r.told.contains p && r.fin.isNone) = true then { r with told := p :: r.told } else r)] at hr'
  obtain ⟨r, hr, rfl⟩ := Option.map_eq_some_iff.mp hr'
  refine ⟨r, hr, ?_⟩
  split
  · exact .of_eq rfl rfl
  · exact .of_eq rfl rfl

theorem KeepsExits.applyFin (x : TwinSt) (p : Nat) : KeepsExits q i x (x.applyFin p) := by
  unfold TwinSt.applyFin
  split
  · split
    · split
      · exact .refl
      · refine .trans (.trans (.of_reqs ?_) (.updReq _ p fun _ => ?_)) (.notify _ _ _)
        · rfl
        · exact .of_eq rfl rfl
    · exact .refl
  · exact .refl

theorem KeepsExits.keepLog (x : TwinSt) (p : Nat) : KeepsExits q i x (x.keepLog p) := by
  unfold TwinSt.keepLog
  split
  · split
    · exact .updReq x p (fun _ => .of_eq rfl rfl)
    · exact .refl
  · exact .refl

theorem KeepsExits.stampEvs (now l : Nat) (es : List EvReq) (x : TwinSt) : KeepsExits q i x (x.stampEvs now l es).2 := by
  induction es generalizing x with
  | nil => exact .refl
  | cons e es ih => exact .trans (.of_reqs rfl) (ih (x.stamped now l))

theorem KeepsExits.stampEnd (x : TwinSt) (now p : Nat) (es : List EvReq) : KeepsExits q i x (x.stampEnd now p es).2 := by
  have hdone : KeepsExits q i x (x.taskDone now p).2 := by
    unfold TwinSt.taskDone
    split <;> exact .of_reqs rfl
  exact (hdone.trans (.of_reqs rfl)).trans (.stampEvs _ _ _ _)

theorem KeepsExits.finish (x : TwinSt) (act : Bool) (now p : Nat) (e : EndRec) : KeepsExits q i x (x.finish act now p e) := by
  unfold TwinSt.finish
  split
  · next r _ =>
    split
    · exact .refl
    · have hprep : KeepsExits q i x (((x.stampEnd now p e.evs).2.keepLog p).dropTasks now p (fun _ => true) false) :=
        ((KeepsExits.stampEnd x now p e.evs).trans (.keepLog _ _)).trans (.dropTasks _ _ _ _ _)
      have hfin := hprep.trans
        (.updReq _ p (f := fun r' => { r' with fin := some (x.endOf act now p r e) }) (fun _ => .of_eq rfl rfl))
      dsimp only
      refine .trans (hfin.trans ?_) (.of_reqs rfl)
      split
      · exact .trans (.of_reqs rfl) (.applyFin _ p)
      · exact .of_reqs rfl
  · exact .refl

/-! The services that complete after an instruction (R243). -/

theorem KeepsExits.awaitRng (x : TwinSt) (p j : Nat) : KeepsExits q i x (x.awaitRng p j) := by
  unfold TwinSt.awaitRng
  refine .trans (.of_reqs ?_) (.updReq _ p fun _ => ?_)
  · split <;> rfl
  · exact .of_eq rfl rfl

/-- A consumer call moves the generators of its request alone. -/
theorem KeepsExits.rng {x y : TwinSt} {p j n : Nat} {b : Bytes} (h : x.rng p j n = .ok b y) : KeepsExits q i x y := by
  unfold TwinSt.rng at h
  split at h
  · cases h
  split at h
  · cases h
  split at h
  · cases h
  dsimp only at h
  split at h
  · split at h
    · cases h
    · cases h
      exact .updReq x p (fun _ => .of_eq rfl rfl)
  · split at h
    · cases h
    · cases h
      exact .updReq x p (fun _ => .of_eq rfl rfl)

theorem KeepsExits.endWith (s : State) (w : Twin) (p st : Nat) : KeepsExits q i (s.twin w) ((s.endWith w p st).twin w) := by
  unfold State.endWith State.finish State.updTwin
  rw [State.twin_setTwin]
  exact .finish _ _ _ _ _

theorem KeepsExits.serveOne (s : State) (w : Twin) (a : Async) : KeepsExits q i (s.twin w) ((State.serveOne w s a).twin w) := by
  cases a with
  | payload p j off len dst c =>
    unfold State.serveOne
    dsimp only
    split
    · exact .refl
    · split
      · rw [State.twin_setTwin]
        exact .of_reqs (TwinSt.deposit_reqs _ _ _ _ _)
      · rw [State.updTwin, State.twin_setTwin]
        exact .of_reqs rfl
  | rng p j dst len tag c =>
    have hwait : ∀ a, KeepsExits q i (s.twin w)
        (((s.updTwin w (fun x => { x with asyncs := x.asyncs ++ [a] })).updTwin w (fun x => x.awaitRng p j)).twin w) := by
      intro a
      rw [State.updTwin, State.twin_setTwin, State.updTwin, State.twin_setTwin]
      exact .trans (.of_reqs rfl) (.awaitRng _ p j)
    unfold State.serveOne
    dsimp only
    split
    · exact .refl
    · split
      · next b y hy =>
        rw [State.twin_setTwin]
        exact (KeepsExits.rng hy).trans (.of_reqs (TwinSt.deposit_reqs _ _ _ _ _))
      · exact hwait _
      · split
        · exact .endWith s w p _
        · exact hwait _
      · exact .endWith s w p _
  | keyGet p j k dst c =>
    unfold State.serveOne
    dsimp only
    split
    · exact .refl
    · split
      · rw [State.twin_setTwin]
        exact .of_reqs (TwinSt.deposit_reqs _ _ _ _ _)
      · rw [State.twin_setTwin]
        exact .of_reqs rfl

theorem KeepsExits.serveAll (w : Twin) (l : List Async) (s : State) :
    KeepsExits q i (s.twin w) ((l.foldl (State.serveOne w) s).twin w) := by
  induction l generalizing s with
  | nil => exact .refl
  | cons a l ih => exact (KeepsExits.serveOne s w a).trans (ih _)

theorem KeepsExits.serve (s : State) (w : Twin) : KeepsExits q i (s.twin w) ((s.serve w).twin w) := by
  have hstart : KeepsExits q i (s.twin w) ((s.updTwin w (fun x => { x with asyncs := [] })).twin w) := by
    rw [State.updTwin, State.twin_setTwin]
    exact .of_reqs rfl
  unfold State.serve
  rw [State.updTwin, State.twin_setTwin]
  exact (hstart.trans (.serveAll w _ _)).trans (.wakeMem _ _ _)

end

section
variable {s : State} {t : Nat} {c : Cid} {e : KEnv}

/-- `EXIT` with `OK` of a root that has no child left ends its request with the result and the staged effects (R241). -/
theorem exitTask_root {len : Nat} (u : State) (hdcl : e.req.dcl = 0) (hroot : e.i = 0) (hone : e.req.tasks.length ≤ 1)
    (hlen : len ≤ 24 ∨ len ≤ e.req.hdr.rlen) :
    exitTask e 0 len u = u.finish e.w e.q
      { status := 0, result := fixLen len e.req.result, effects := e.req.staged, evs := e.req.stagedEv, commits := true } := by
  have hok : exitStatuses.contains (0 % 65536) = true := by decide
  have hlone : ¬ (True ∧ 1 < e.req.tasks.length) := fun h => Nat.not_lt.mpr hone h.2
  have hfits : ¬ (0 % 65536 = stTooSmall ∨ (commitsAt (0 % 65536) = true ∧ 24 < len ∧ e.req.hdr.rlen < len)) := by
    rintro (hst | ⟨-, hlong⟩)
    · exact absurd hst (by decide)
    · omega
  unfold exitTask
  simp only [hdcl, Nat.not_lt_zero, if_false, if_pos hroot, if_pos hok, if_neg hlone, if_neg hfits]
  rfl

/-- `EXIT` of a child drops its task, and then notes its value (R241). -/
theorem exitTask_child {v len : Nat} (u : State) (hdcl : e.req.dcl = 0) (hchild : e.i ≠ 0) :
    ((exitTask e v len u).twin e.w).reqs = (((u.twin e.w).dropTasks u.now e.q (fun j => j == e.i) false).updReq e.q
      (fun r => { r with childVals := Tbl.put r.childVals e.i v })).reqs := by
  unfold exitTask
  simp only [hdcl, Nat.not_lt_zero, if_false, if_neg hchild, State.updTwin, State.twin_setTwin]

/-- A child that exits is gone from its request, which has its value (R241). -/
theorem exitTask_leaves {v len : Nat} {u : State} {r : Req} (hdcl : e.req.dcl = 0) (hchild : e.i ≠ 0)
    (hr : Tbl.find? ((exitTask e v len u).twin e.w).reqs e.q = some r) :
    Tbl.find? r.childVals e.i = some v ∧ Tbl.find? r.tasks e.i = none := by
  rw [exitTask_child u hdcl hchild, TwinSt.find?_updReq, if_pos rfl] at hr
  obtain ⟨r₀, hr₀, rfl⟩ := Option.map_eq_some_iff.mp hr
  have hgone : Tbl.find? r₀.tasks e.i = none :=
    TwinSt.dropTasks_gone (sel := fun j => j == e.i) _ _ (beq_self_eq_true e.i) _ hr₀
  exact ⟨Tbl.find?_put_same .., hgone⟩

theorem exec_exit (h : Fetches (s.at t) c 4 e) (hz : e.zenith = false) : exec (.exit t c 0) s =
    .next (settle s ((exitTask e (e.arg 0) (e.arg 1) ((s.at t).takeStep e.cid.island)).serve e.w)) :=
  kSvc_leave (op := fun e => .leave (fun s => (exitTask e (e.arg 0) (e.arg 1) s).serve e.w)) h hz rfl

end

/-- Settles O16: the root's `EXIT` forms the end record that the statement names, and what a child's has left stands through the
services that complete after it. -/
theorem serviceExit : Obligations.ServiceExit := by
  intro s t c e h hz hdcl
  refine ⟨fun hroot hok hone hlen => ?root, fun hchild => ?child⟩
  case root => rw [exec_exit h hz, hok, exitTask_root _ hdcl hroot hone hlen]
  case child =>
    refine .of_twin (p := fun x => ∀ r, Tbl.find? x.reqs e.q = some r →
      Tbl.find? r.childVals e.i = some (e.arg 0) ∧ Tbl.find? r.tasks e.i = none) (exec_exit h hz) (fun r hr => ?_)
    obtain ⟨r₀, hr₀, hvals, htask⟩ := KeepsExits.serve (q := e.q) (i := e.i) _ e.w r hr
    obtain ⟨hval, hgone⟩ := exitTask_leaves hdcl hchild hr₀
    exact ⟨hvals ▸ hval, htask hgone⟩

end Sys2Proof.Machine
end

section
/-! The services of `svc` whose arguments are good (R242 to R245, Table 10-6). -/

namespace Sys2Proof.Machine

section
variable {s : State} {t : Nat} {c : Cid} {e : KEnv}

/-- A service has returned values, in a twin that it left. -/
def KEnv.returned (s : State) (t : Nat) (e : KEnv) (x : TwinSt) (vs : List Nat) : Host.Outcome State Fault Refusal :=
  .next (settle s (((s.at t).takeStep e.cid.island).putCtx e x { setResults e.c vs with pc := e.c.pc + 4 }))

/-- An asynchronous service is in progress, in a twin and a context that it was called from. -/
def KEnv.begun (s : State) (t : Nat) (e : KEnv) (x : TwinSt) (k : Ctx) (a : Async) : Host.Outcome State Fault Refusal :=
  .next (settle s ((((s.at t).takeStep e.cid.island).putCtx e { x with asyncs := x.asyncs ++ [a] }
    { k with pc := e.c.pc + 4 }).serve e.w))

theorem kSvc_ret {fn : Nat} {op : KEnv → KRes} {x : TwinSt} {vs : List Nat} (h : Fetches (s.at t) c 4 e)
    (hz : e.zenith = false) (ho : op e = e.ret x vs) : kSvc t c 0 fn op s = e.returned s t x vs :=
  kSvc_ok h hz ho (setResults_pc ..)

theorem kSvc_begin {fn : Nat} {op : KEnv → KRes} {x : TwinSt} {k : Ctx} {a : Async} (h : Fetches (s.at t) c 4 e)
    (hz : e.zenith = false) (hdep : e.x.raiseDep e.q e.i id = some x) (hpc : k.pc = e.c.pc) (ho : op e = e.begin k a) :
    kSvc t c 0 fn op s = e.begun s t x k a := by
  have hleave := ho
  unfold KEnv.begin at hleave
  rw [hdep, hpc] at hleave
  exact kSvc_leave h hz hleave

/-! Children, the payload and the result. -/

/-- A child that waits for no sibling and is not joined (R176). -/
theorem exec_child (h : Fetches (s.at t) c 4 e) (hz : e.zenith = false) (hroot : e.i = 0) (htag : (e.c.reg 25).2 = false)
    (hroom : e.req.children < 3) (hfree : e.arg 2 = 0) (halone : e.arg 3 % 2 = 0) :
    exec (.child t c 0) s = e.returned s t (e.x.updReq e.q (fun r =>
      { r with tasks := Tbl.put r.tasks (e.req.children + 1) { entry := e.arg 0, arg := e.arg 1 } }))
      [e.req.children + 1] := by
  have hallowed : ¬ (e.i ≠ 0 ∨ (e.c.reg 25).2 = true) :=
    fun hno => hno.elim (absurd hroot) (Bool.eq_false_iff.mp htag)
  have hjoin : bit (e.arg 3) 0 = false := by simp [bit, halone]
  have hlive : [1, 2, 3].filter (fun i => bit (e.arg 2) (i - 1) && (Tbl.find? e.req.tasks i).isSome) = [] := by
    simp [bit, hfree]
  refine kSvc_ret h hz ?_
  simp only [if_neg hallowed, if_neg (Nat.not_le.mpr hroom), hjoin, hlive]
  rfl

theorem exec_payloadRead {x : TwinSt} (h : Fetches (s.at t) c 4 e) (hz : e.zenith = false)
    (hown : e.owns (e.arg 2) (e.arg 1) = true) (hdep : e.x.raiseDep e.q e.i id = some x) :
    exec (.payloadRead t c 0) s = e.begun s t x e.c (.payload e.q e.i (e.arg 0) (e.arg 1) (e.arg 2) e.cid) := by
  refine kSvc_begin h hz hdep rfl ?_
  exact if_neg (not_not_intro hown)

theorem exec_resultWrite (h : Fetches (s.at t) c 4 e) (hz : e.zenith = false) (hroot : e.i = 0)
    (hown : e.owns (e.arg 0) (e.arg 1) = true) (htag : e.c.ltag (e.arg 0) (e.arg 1) = false)
    (hfits : e.arg 2 + e.arg 1 ≤ max 24 e.req.hdr.rlen) :
    exec (.resultWrite t c 0) s = e.returned s t (e.x.updReq e.q (fun r =>
      { r with result := patch r.result (e.arg 2) (e.bytesAt (e.arg 0) (e.arg 1)) })) [0] := by
  have huntagged : ¬ (e.region (e.arg 0) (e.arg 1) = some .lmem ∧ e.c.ltag (e.arg 0) (e.arg 1) = true ∧ e.arg 1 ≠ 0) := by
    simp [htag]
  have hallowed : ¬ (e.i ≠ 0 ∨ ¬ e.owns (e.arg 0) (e.arg 1) = true) := by simp [hroot, hown]
  refine kSvc_ret h hz ?_
  simp only [if_neg huntagged, if_neg hallowed, if_neg (Nat.not_lt.mpr hfits)]

/-! Randomness and keys. -/

theorem exec_rng {x : TwinSt} (h : Fetches (s.at t) c 4 e) (hz : e.zenith = false) (hsome : e.arg 1 ≠ 0)
    (hmost : e.arg 1 ≤ 4096) (hmem : e.region (e.arg 0) (e.arg 1) = some .lmem)
    (hdep : e.x.raiseDep e.q e.i id = some x) : exec (.rng t c 0) s =
      e.begun s t x e.c (.rng e.q e.i (e.arg 0) (e.arg 1) (e.arg 2 % 2) e.cid) := by
  refine kSvc_begin h hz hdep rfl ?_
  refine if_neg ?_
  rintro (hnone | hmany | hother)
  · exact hsome hnone
  · exact Nat.not_lt.mpr hmost hmany
  · exact hother hmem

theorem exec_keyAttr {k : KeyRec} (h : Fetches (s.at t) c 4 e) (hz : e.zenith = false)
    (hk : e.x.keyFor e.q e.req (e.arg 0) = some k) : exec (.keyAttr t c 0) s =
      e.returned s t e.x [0, k.alg, k.usage, b2n k.exportable + 2 * b2n k.nonceEn + 4 * b2n k.exhausted] := by
  refine kSvc_ret h hz ?_
  simp only [hk]

/-- The block that describes a new key can be read, and an identity is left for the key. -/
theorem KEnv.mayCreate (hleft : e.req.newUsed < e.req.newH.length) (hown : e.owns (e.arg 0) 24 = true) :
    ¬ (e.req.spent = true ∨ ¬ e.owns (e.arg 0) 24 = true) := by
  simp [Req.spent, hleft, hown]

theorem exec_keyNew {a : KeyAttr} {m : Bytes} {x y z : TwinSt} {n : Nat} (h : Fetches (s.at t) c 4 e)
    (hz : e.zenith = false) (hleft : e.req.newUsed < e.req.newH.length) (hown : e.owns (e.arg 0) 24 = true)
    (hattr : attrOf true (e.bytesAt (e.arg 0) 24) = .inr a)
    (hpaid : e.x.prepay e.q e.i 1 1 (extSlots (symLen a.alg)) (b2n a.ledger) = some y)
    (hfirst : y.rngCalled e.q e.i = false) (hdrawn : y.rng e.q e.i (symLen a.alg) = .ok m x)
    (hmade : x.createKey e.q (some e.i) a 0 m = some (.inr (n, z))) :
    exec (.keyNew t c 0) s = e.returned s t z [0, n] := by
  refine kSvc_ret h hz ?_
  simp only [if_neg (KEnv.mayCreate hleft hown), hattr, hpaid, hfirst, hdrawn, Bool.false_eq_true, if_false, KEnv.create,
    hmade]

theorem exec_keyPut {a : KeyAttr} {y : TwinSt} {n : Nat} (h : Fetches (s.at t) c 4 e) (hz : e.zenith = false)
    (hleft : e.req.newUsed < e.req.newH.length) (hown : e.owns (e.arg 0) 24 = true)
    (hattr : attrOf false (e.bytesAt (e.arg 0) 24) = .inr a)
    (hmem : e.region (e.arg 1) (materialLen a.alg (newClass a)) = some .lmem)
    (hmade : e.x.createKey e.q (some e.i) a (newClass a) (e.c.lread (e.arg 1) (materialLen a.alg (newClass a))) =
      some (.inr (n, y))) : exec (.keyPut t c 0) s = e.returned s t y [0, n] := by
  refine kSvc_ret h hz ?_
  simp only [if_neg (KEnv.mayCreate hleft hown), hattr, hmem, ne_eq, not_true_eq_false, if_false, KEnv.create, hmade]

theorem exec_keyGet {k : KeyRec} {x : TwinSt} (h : Fetches (s.at t) c 4 e) (hz : e.zenith = false)
    (hk : e.x.keyFor e.q e.req (e.arg 0) = some k) (hasym : handleClass (e.arg 0) ≠ 0)
    (hmem : e.region (e.arg 1) k.material.length = some .lmem) (hdep : e.x.raiseDep e.q e.i id = some x) :
    exec (.keyGet t c 0) s = e.begun s t x (setResults e.c [0]) (.keyGet e.q e.i (e.arg 0) (e.arg 1) e.cid) := by
  refine kSvc_begin h hz hdep (setResults_pc ..) ?_
  simp only [hk, if_neg hasym, hmem, ne_eq, not_true_eq_false, if_false]

/-! Cluster SRAM. -/

/-- A step used up of a halted processor allocates nothing. -/
theorem State.allocWake_takeStep (v u : State) (n : Nat) (w : Twin) (k : Nat) :
    v.allocWake (u.takeStep n) w k = v.allocWake u w k := by
  unfold State.allocWake
  simp only [State.twin_takeStep]

/-- The twin with an allocation of the task in its cluster. -/
def KEnv.allocated (e : KEnv) (b : Nat) : TwinSt :=
  { e.x with clusters := Tbl.put e.x.clusters (islandCluster e.cid.island) (
      { e.cluster with sram := Tbl.put e.cluster.sram b (e.arg 0, e.q, e.i) } : Cluster) }

/-- The first allocation of a task in its cluster (R238). -/
theorem exec_sramAlloc {b : Nat} (h : Fetches (s.at t) c 4 e) (hz : e.zenith = false) (hsome : e.arg 0 ≠ 0)
    (halign : e.arg 0 % 64 = 0) (hmost : e.arg 0 ≤ 1024 * e.slot.sramKib)
    (hfirst : e.cluster.sram.filter (fun a => a.2.2 == (e.q, e.i)) = [])
    (hplace : placeSram (e.cluster.lost.length + e.cluster.held.length) e.cluster.sram (e.arg 0) = some b) :
    exec (.sramAlloc t c 0) s = .next (settle s ((((s.at t).takeStep e.cid.island).putCtx e (e.allocated b)
      { setResults e.c [0, b] with pc := e.c.pc + 4 }).allocWake ((s.at t).takeStep e.cid.island) e.w
        (islandCluster c.island))) := by
  have hgood : ¬ (e.arg 0 = 0 ∨ e.arg 0 % 64 ≠ 0 ∨ 1024 * e.slot.sramKib < 0 + e.arg 0) := by omega
  change execSramAlloc t c 0 s = _
  unfold execSramAlloc
  refine ev_of_eq ?_
  dsimp only
  rw [kstep_run h rfl, h.in.island, State.allocWake_takeStep]
  simp only [hz, Bool.false_eq_true, if_false, hfirst, List.foldl_nil, if_neg hgood, hplace, KEnv.ret, KRes.land,
    setResults_pc]
  rfl

/-- A cluster without one of the task's allocations, its bytes cleared (R134). -/
def KEnv.freed (e : KEnv) (n : Nat) : TwinSt :=
  ({ e.x with clusters := Tbl.put e.x.clusters (islandCluster e.cid.island) (Cluster.settleBanks
      { e.cluster with sram := Tbl.del e.cluster.sram (e.arg 0), sramData := e.cluster.sramData.filter (fun d =>
          !(decide (e.arg 0 ≤ d.1) && decide (d.1 < e.arg 0 + n))) }) } : TwinSt).wakeSram e.now (islandCluster e.cid.island)

theorem exec_sramFree {n : Nat} (h : Fetches (s.at t) c 4 e) (hz : e.zenith = false)
    (hmine : Tbl.find? e.cluster.sram (e.arg 0) = some (n, e.q, e.i)) :
    exec (.sramFree t c 0) s = e.returned s t (e.freed n) [] := by
  refine kSvc_ok h hz ?_ rfl
  simp only [hmine, if_true]
  rfl

end

/-- Settles O17: each service passes the checks of its arguments. The class of the handle that `KEY_PUT` gives is the model's choice
(assumption 25), and so are the checks that refuse a bad argument (assumption 27). -/
theorem services : Obligations.Services := by
  intro s t c e h hz u back begun
  exact ⟨exec_child h hz, fun x => exec_payloadRead h hz, exec_resultWrite h hz,
    fun b y x hsome hmost hmem _ => exec_rng h hz hsome hmost hmem, fun k => exec_keyAttr h hz,
    fun a m x y z n => exec_keyNew h hz, fun a n y => exec_keyPut h hz, fun k x => exec_keyGet h hz,
    fun b => exec_sramAlloc h hz, fun n => exec_sramFree h hz⟩

end Sys2Proof.Machine
end

section
/-! The queue, the alert line and HEALTH_N (R476, R490). -/

namespace Sys2Proof.Machine

/-- Settling leaves no alert while the Relay is in reset (R476). -/
theorem settle_smbAlert_of_reset (s : State) {u : State} (h : u.boot.up = false) : (settle s u).smbAlert = false := by
  simp [settle, h]

theorem settle_resetQuiet (s u : State) : ResetQuiet (settle s u) := fun h =>
  ⟨settle_attnSeq_of_reset s h, settle_smbAlert_of_reset s h⟩

/-- Every command leaves a state that meets `ResetQuiet`, whatever the state before it. -/
theorem exec_resetQuiet {c : Instr} {s t : State} (h : exec c s = .next t) : ResetQuiet t := by
  obtain ⟨u, rfl⟩ := exec_settlesFrom c s t h
  exact settle_resetQuiet s u

theorem step_of_pending {s : State} {c : Instr} {l : List Instr} (h : s.pending = c :: l) :
    step s = exec c { s with pending := l } := by
  unfold step
  rw [h]

theorem step_of_idle {s : State} (h : s.pending = []) : step s = .next s := by
  unfold step
  rw [h]

/-- Settles O59: the idle step keeps the state, and every command settles the state that it leaves. -/
theorem resetStaysQuiet : Obligations.ResetStaysQuiet := by
  intro s t hs h
  cases hp : s.pending with
  | nil =>
    rw [step_of_idle hp] at h
    cases h
    exact hs
  | cons c l =>
    rw [step_of_pending hp] at h
    exact exec_resetQuiet h

/-- Settles O56; that the block idles on an empty queue is the model's choice (assumption 2). -/
theorem stepRunsFront : Obligations.StepRunsFront :=
  ⟨fun _ _ _ => step_of_pending, fun _ => step_of_idle⟩

/-- Settles O58: R490 names the three conditions, and reset releases the line. -/
theorem healthIndicator : Obligations.HealthIndicator := by
  intro s
  unfold State.healthLow
  simp only [Bool.and_eq_true, Bool.or_eq_true, or_assoc]

end Sys2Proof.Machine
end

section
/-! What a record handed to the Relay leaves as it was: everything but the queues of the Almanac, the retained buffer and the last
stamps of the islands (R24, R366, R378). -/

namespace Sys2Proof.Machine

/-- A die with the last stamps of its islands put back as they were in another state of it. -/
def TwinSt.unstamped (x y : TwinSt) : TwinSt := { y with stamps := x.stamps }

/-- A state with what records change put back as it was in `s`. -/
def State.unnoted (s t : State) : State :=
  { t with alm := s.alm, stamps := s.stamps, tamper := { t.tamper with buffer := s.tamper.buffer, overflow := s.tamper.overflow },
           twinA := s.twinA.unstamped t.twinA, twinB := s.twinB.unstamped t.twinB }

/-- Records were handed to the Relay, and nothing else was done. -/
def Noted (s t : State) : Prop := s.unnoted t = s

theorem Noted.rfl {s : State} : Noted s s := Eq.refl _

theorem Noted.trans {s t u : State} (h : Noted s t) (k : Noted t u) : Noted s u := by
  unfold Noted at *
  calc s.unnoted u = s.unnoted (t.unnoted u) := Eq.refl _
    _ = s := by rw [k, h]

/-- A part of the module that records leave. -/
theorem Noted.eq {α : Type} {s t : State} (h : Noted s t) (f : State → α) (hf : f (s.unnoted t) = f t) : f t = f s :=
  hf.symm.trans (congrArg f h)

section
variable {s t : State} (h : Noted s t)
include h
theorem Noted.life : t.life = s.life := h.eq State.life (Eq.refl _)
theorem Noted.mbxs : t.mbxs = s.mbxs := h.eq State.mbxs (Eq.refl _)
theorem Noted.ptm : t.ptm = s.ptm := h.eq State.ptm (Eq.refl _)
theorem Noted.out : t.out = s.out := h.eq State.out (Eq.refl _)
theorem Noted.nvm : t.nvm = s.nvm := h.eq State.nvm (Eq.refl _)
theorem Noted.rreqs : t.rreqs = s.rreqs := h.eq State.rreqs (Eq.refl _)
theorem Noted.power : t.power = s.power := h.eq State.power (Eq.refl _)
theorem Noted.boot : t.boot = s.boot := h.eq State.boot (Eq.refl _)
theorem Noted.sw : t.sw = s.sw := h.eq State.sw (Eq.refl _)
theorem Noted.active : t.active = s.active := h.eq State.active (Eq.refl _)
theorem Noted.failStop : t.failStop = s.failStop := h.eq State.failStop (Eq.refl _)
theorem Noted.now : t.now = s.now := h.eq State.now (Eq.refl _)
theorem Noted.health : t.health = s.health := h.eq State.health (Eq.refl _)
theorem Noted.sticky : t.sticky = s.sticky := h.eq State.sticky (Eq.refl _)
theorem Noted.free : t.free = s.free := h.eq State.free (Eq.refl _)
end

theorem Noted.foldl {α : Type} {f : State → α → State} (h : ∀ s a, Noted s (f s a)) (l : List α) (s : State) :
    Noted s (l.foldl f s) := by
  induction l generalizing s with
  | nil => exact .rfl
  | cons a l ih => exact (h s a).trans (ih _)

theorem Noted.stamped (s : State) (isl : Nat) : Noted s (s.stamped isl) := by
  unfold State.stamped
  cases islandTwin isl with
  | none => exact Eq.refl _
  | some w => cases w <;> exact Eq.refl _

theorem Noted.keep (s : State) (r : AlmRec) : Noted s { s with tamper := s.tamper.keep r } := by
  have h : ({ s.tamper.keep r with buffer := s.tamper.buffer, overflow := s.tamper.overflow } : Tamper) = s.tamper := by
    unfold Tamper.keep
    split
    · rfl
    · split <;> rfl
  unfold Noted State.unnoted
  dsimp only
  rw [h]
  rfl

theorem Noted.note (s : State) (e : EvReq) : Noted s (s.note e) := by
  unfold State.note
  by_cases hev : e.sev = sevEvid
  · rw [if_pos hev]
    split
    · exact Eq.refl _
    · split
      · exact .keep s _
      · exact Eq.refl _
  · rw [if_neg hev]
    split <;> exact Eq.refl _

theorem Noted.event (s : State) (id sev origin : Nat) (d : Bytes) : Noted s (s.event id sev origin d) :=
  (Noted.stamped s _).trans (.note _ _)

theorem Noted.eventU (s : State) (id origin : Nat) (d : Bytes) : Noted s (s.eventU id origin d) := .event s _ _ _ _

theorem Noted.voidDraws (s : State) (also : Bool) (p : Nat → Bool) (status : Nat) : Noted s (s.voidDraws also p status) := by
  unfold State.voidDraws
  refine .foldl (fun s d => ?_) _ s
  exact (Noted.stamped s almanacIsl).trans (Eq.refl _)

theorem Noted.droppedEvent (s : State) (fn cause n : Nat) : Noted s (s.droppedEvent fn cause n) := by
  unfold State.droppedEvent
  split
  · exact .rfl
  · exact .event s _ _ _ _

/-- A twin but for its stamps. -/
theorem Noted.twin {s t : State} (h : Noted s t) (w : Twin) : (s.twin w).unstamped (t.twin w) = s.twin w := by
  cases w
  · exact congrArg State.twinA h
  · exact congrArg State.twinB h

/-- A part of a twin that records leave. -/
theorem Noted.twin_eq {α : Type} {s t : State} (h : Noted s t) (w : Twin) (f : TwinSt → α)
    (hf : f ((s.twin w).unstamped (t.twin w)) = f (t.twin w)) : f (t.twin w) = f (s.twin w) :=
  hf.symm.trans (congrArg f (h.twin w))

end Sys2Proof.Machine
end

section
/-! The TAP instructions (R403, R404, R406, Table 17-7). -/

namespace Sys2Proof.Machine

section
variable (s : State) (n : Nat)

/-! What the reset of a function leaves. -/

/-- The life cycle, and what of function 0 a reset is to find or to leave. -/
theorem State.closeDrops_keeps : (s.closeDrops n).life = s.life ∧ (s.closeDrops n).mbxs = s.mbxs ∧ (s.closeDrops n).ptm = s.ptm := by
  unfold State.closeDrops
  have h := Noted.foldl (f := fun (s : State) (d : Nat × Nat × Nat) => s.droppedEvent n d.2.1 d.2.2)
    (fun s _ => .droppedEvent s n _ _)
  exact ⟨(h _ _).life, (h _ _).mbxs, (h _ _).ptm⟩

theorem State.resetFn_life (cause : Nat) : (s.resetFn n cause).life = s.life := by
  unfold State.resetFn
  dsimp only
  rw [(State.closeDrops_keeps _ _).1]
  have h : ∀ (c : Prop) [Decidable c] (k : Nat), (if c then s.droppedEvent n 4 k else s).life = s.life := by
    intro c _ k
    split
    · exact (Noted.droppedEvent s n 4 k).life
    · rfl
  split <;> exact h _ _

/-- Function 0 after its reset: no mailbox is enabled, and PTM is as at power-up (R57). -/
theorem State.resetFn_zero (cause : Nat) : (∀ i < 4096, ((s.resetFn 0 cause).mbx 0 i).state = .disabled) ∧
    (s.resetFn 0 cause).ptm = {} := by
  unfold State.resetFn State.mbx
  dsimp only
  rw [(State.closeDrops_keeps _ _).2.1, (State.closeDrops_keeps _ _).2.2]
  refine ⟨fun i hi => ?_, rfl⟩
  have hkey : (mbxKey 0 i / 4096 != 0) = false := by
    unfold mbxKey
    simp [show i / 4096 = 0 by omega]
  rw [if_pos rfl]
  unfold Tbl.getD State.updFn
  dsimp only
  rw [Tbl.find?_filter_keys (fun k => k / 4096 != 0), if_neg (by simp [hkey])]
  rfl

theorem State.resetAll_life (cause : Nat) : (s.resetAll cause).life = s.life := by
  unfold State.resetAll State.clearVfs
  rw [State.resetFn_life]
  refine foldl_keeps (p := State.life) (fun s i => ?_) _ s
  exact State.resetFn_life s i cause

end

/-! What an instruction selects. -/

section
variable {s : State} {i : TapInst}

/-- The state with a TAP instruction selected. -/
def State.withTap (s : State) (i : TapInst) : State := { s with life := { s.life with tapInst := i } }

/-- An instruction that leaves the pads their functions. -/
theorem State.tapSelect_pads (h : (s.withTap i).isolated = false) : s.tapSelect i = s.withTap i := by
  unfold State.tapSelect
  exact if_pos (by simpa [State.withTap] using h)

/-- A pin instruction isolates the core logic, which then behaves as under PERST#, and the first of a power cycle is recorded
(R406). -/
theorem State.tapSelect_isolates (h : (s.withTap i).isolated = true) : let u := s.tapSelect i
    u.life.tapInst = i ∧ u.life.scanRec = true ∧
      (s.boot.up = true → s.isolated = false → (∀ n < 4096, (u.mbx 0 n).state = .disabled) ∧ u.ptm = {}) := by
  unfold State.tapSelect
  dsimp only
  rw [if_neg (by simpa [State.withTap] using h)]
  generalize hr : (if s.isolated = true ∨ ¬s.boot.up = true then { s with life := { s.life with tapInst := i } }
    else State.resetAll { s with life := { s.life with tapInst := i } } 1) = r
  have hlife : r.life = { s.life with tapInst := i } := by
    rw [← hr]
    split
    · rfl
    · exact State.resetAll_life _ _
  have hperst : s.boot.up = true → s.isolated = false → (∀ n < 4096, (r.mbx 0 n).state = .disabled) ∧ r.ptm = {} := by
    intro hup his
    rw [← hr, if_neg (by simp [hup, his])]
    exact State.resetFn_zero _ _
  by_cases hrec : r.life.scanRec = true
  · rw [if_pos hrec]
    exact ⟨by rw [hlife], hrec, hperst⟩
  · rw [if_neg hrec]
    have hn := fun d => Noted.event ({ r with life := { r.life with scanRec := true } } : State) 0x5011 sevEvid 3 d
    refine ⟨?_, ?_, fun hup his => ?_⟩
    · rw [(hn _).life, hlife]
    · rw [(hn _).life]
    · obtain ⟨hm, hp⟩ := hperst hup his
      exact ⟨fun n hlt => by rw [(hn _).eq (fun u => u.mbx 0 n) (Eq.refl _)]; exact hm n hlt,
        by rw [(hn _).ptm]; exact hp⟩

/-- A non-public instruction that the state permits. -/
theorem State.tapPrivate_permitted (h : (s.withTap i).isolated = false) (f : State → State) :
    s.tapPrivate i true f = f (s.withTap i) := by
  unfold State.tapPrivate
  rw [if_pos rfl, State.tapSelect_pads h]

/-- A non-public instruction that the state does not permit selects the bypass register (R403). -/
theorem State.tapPrivate_denied (f : State → State) : s.tapPrivate i false f = s.withTap .bypass := by
  unfold State.tapPrivate
  rw [if_neg (by simp), State.tapSelect_pads rfl]

end

section
variable {s : State} {t : Nat} {c : Instr} {i : TapInst}

/-- A command that selects an instruction which leaves the pads their functions. -/
theorem exec_tapSelect (hc : exec c s = ev t (fun s => s.tapSelect i) s) (h : ((s.at t).withTap i).isolated = false) :
    exec c s = .next (settle s ((s.at t).withTap i)) := by
  rw [hc]
  exact ev_of_eq (State.tapSelect_pads h)

/-- A command that selects a pin instruction. -/
theorem pinInstruction_completes (hc : exec c s = ev t (fun s => s.tapSelect i) s) (h : ((s.at t).withTap i).isolated = true) :
    ∃ t', exec c s = .next t' ∧ t'.life.tapInst = i ∧ t'.life.scanRec = true ∧
      (s.boot.up = true → s.isolated = false → (∀ n < 4096, (t'.mbx 0 n).state = .disabled) ∧ t'.ptm = {}) :=
  ⟨_, hc, State.tapSelect_isolates h⟩

theorem exec_idcode : exec (.idcode t) s = .next (settle s (((s.at t).withTap .idcode).tapOut (toLe 4 Config.idcode.toNat))) := by
  change execIdcode t s = _
  unfold execIdcode
  exact ev_of_eq (by rw [State.tapSelect_pads rfl])

theorem exec_lcStatus : exec (.lcStatus t) s = .next (settle s (((s.at t).withTap .lcStatus).tapOut
    (toLe 4 (lcCode s.lc * 2 ^ 28 + s.life.tokFails % 16 * 2 ^ 24 + s.tapLast * 2 ^ 16)))) := by
  change execLcStatus t s = _
  unfold execLcStatus
  exact ev_of_eq (State.tapPrivate_permitted rfl _)

@[simp] theorem State.at_lc (s : State) (t : Nat) : (s.at t).lc = s.lc := rfl

theorem exec_dbgStatus : exec (.dbgStatus t) s = .next (settle s (if s.lc = .scrapped then (s.at t).withTap .bypass
    else ((s.at t).withTap .dbgStatus).tapOut (toLe 4 (s.debugPorts * 2 ^ 16 + s.debugRights)))) := by
  change execDbgStatus t s = _
  unfold execDbgStatus
  refine ev_of_eq ?_
  by_cases hlc : s.lc = .scrapped
  · rw [if_pos hlc, show ((s.at t).lc != .scrapped) = false by simp [hlc]]
    exact State.tapPrivate_denied _
  · rw [if_neg hlc, show ((s.at t).lc != .scrapped) = true by simp [hlc]]
    exact State.tapPrivate_permitted rfl _

end

/-- Settles O40; the instruction codes are read with assumption 96, and the result 0xFF with assumption 97. -/
theorem tapInstructions : Obligations.TapInstructions := fun _ _ =>
  ⟨exec_tapSelect rfl rfl, exec_tapSelect rfl rfl, exec_tapSelect rfl rfl, exec_idcode, pinInstruction_completes rfl rfl,
    pinInstruction_completes rfl rfl, pinInstruction_completes rfl rfl, exec_lcStatus, _, exec_dbgStatus, rfl⟩

end Sys2Proof.Machine
end

section
/-! Life-cycle requests on the TAP, the end of an erasure, and debug certificates (R388 to R401, R404). -/

namespace Sys2Proof.Machine

section
variable {s : State} {t : Nat}

@[simp] theorem State.event_life (s : State) (id sev origin : Nat) (d : Bytes) : (s.event id sev origin d).life = s.life :=
  (Noted.event s id sev origin d).life

theorem State.abortWhere_life (s : State) (p : TwinSt → Nat → Req → Bool) (status : Nat) : (s.abortWhere p status).life = s.life := by
  unfold State.abortWhere
  exact (Noted.voidDraws s _ _ _).life

/-! Requests on the TAP. -/

/-- A transition begun: its journal is open (R396). -/
theorem State.beginTransition_life {to_ : LcState} (hj : s.life.journal = none) (hp : (lcPair s.lc to_).isSome = true) (path : Nat)
    (officers : Bytes) : (s.beginTransition to_ path officers).life = { s.life with journal := some (s.lc, to_, path, false) } := by
  unfold State.beginTransition
  have hlc : ∀ d, (s.event 0x5001 sevEvid 3 d).lc = s.lc := fun d => by unfold State.lc; rw [State.event_life]
  rw [if_neg (by simp [hj, ← Option.not_isSome, hp])]
  dsimp only
  rw [State.abortWhere_life]
  dsimp only
  rw [State.event_life, hlc]

theorem State.tokenFailed_life (s : State) (target path : Nat) :
    (s.tokenFailed target path).life = { s.life with tokFails := s.life.tokFails + 1 } := by
  unfold State.tokenFailed
  exact State.event_life _ _ _ _ _

/-- The states in which `LC_REQ` is permitted (Table 17-7). -/
def lcReqPermitted (lc : LcState) (target : Nat) : Bool :=
  match lc with
  | .blank | .test | .analysis => true
  | .production => target == 4
  | .scrapped => false

theorem exec_lcReq (target zeros_ : Nat) (token : Bytes) : exec (.lcReq t target zeros_ token) s = .next (settle s
    ((s.at t).tapPrivate .lcReq (lcReqPermitted s.lc target) (fun s =>
      { (s.tapRequest target zeros_ token).2 with
        life := { (s.tapRequest target zeros_ token).2.life with tapResult := tapCodeOf (s.tapRequest target zeros_ token).1 } }))) := by
  change execLcReq t target zeros_ token s = _
  unfold execLcReq
  exact ev_of_eq (Eq.refl _)

/-- The checks of R393 passed up to the token: a good one begins the transition, and another is counted. -/
theorem State.tapRequest_checked {target slot : Nat} {token : Bytes} {to_ : LcState} {quorum : Bool}
    (hto : lcOf target = some to_) (hlen : token.length = 32) (hne : to_ ≠ s.lc) (hall : s.lcAllowed to_ = true)
    (hpair : lcPair s.lc to_ = some (slot, quorum, true)) (hfails : s.life.tokFails < 4) :
    s.tapRequest target 0 token = if tokenGood slot token then (0, s.beginTransition to_ 1 (List.replicate 12 0xFF))
      else (stLifecycle, s.tokenFailed target 1) := by
  have hj : s.life.journal = none := by
    unfold State.lcAllowed at hall
    simp only [Bool.and_eq_true, Option.isNone_iff_eq_none] at hall
    exact hall.1.2
  unfold State.tapRequest
  rw [if_neg (by simp [hlen, hto])]
  simp only [hto, hj, hpair, Option.any_none, Bool.false_eq_true, hne, or_self, if_false, hall, not_true_eq_false,
    false_or, if_neg (show ¬ 4 ≤ s.life.tokFails by omega)]

theorem lcReq_checked {target slot : Nat} {token : Bytes} {to_ : LcState} {quorum : Bool}
    (hto : lcOf target = some to_) (hlen : token.length = 32) (hne : to_ ≠ s.lc) (hlc : s.lc ≠ .scrapped)
    (hprod : s.lc = .production → target = 4) (hall : s.lcAllowed to_ = true)
    (hpair : lcPair s.lc to_ = some (slot, quorum, true)) (hfails : s.life.tokFails < 4) :
    Completes (.lcReq t target 0 token) s (fun t' =>
      if tokenGood slot token then
        t'.life.journal = some (s.lc, to_, 1, false) ∧ t'.life.tapResult = 0 ∧ t'.life.tokFails = s.life.tokFails
      else t'.life.journal = none ∧ t'.life.tapResult = 2 ∧ t'.life.tokFails = s.life.tokFails + 1) := by
  have hperm : lcReqPermitted s.lc target = true := by
    unfold lcReqPermitted
    cases h : s.lc with
    | blank => rfl
    | test => rfl
    | analysis => rfl
    | production => simpa using hprod h
    | scrapped => exact absurd h hlc
  have hj : s.life.journal = none := by
    unfold State.lcAllowed at hall
    simp only [Bool.and_eq_true, Option.isNone_iff_eq_none] at hall
    exact hall.1.2
  refine ⟨_, exec_lcReq target 0 token, ?_⟩
  rw [hperm, State.tapPrivate_permitted rfl]
  have hreq := State.tapRequest_checked (s := (s.at t).withTap .lcReq) hto hlen hne hall hpair hfails
  rw [hreq]
  split
  · beta_reduce
    rw [settle_life]
    dsimp only
    rw [State.beginTransition_life (s := (s.at t).withTap .lcReq) hj (congrArg Option.isSome hpair)]
    exact ⟨rfl, rfl, rfl⟩
  · beta_reduce
    rw [settle_life]
    dsimp only
    rw [State.tokenFailed_life]
    exact ⟨hj, rfl, rfl⟩

theorem lcReq_denied {target : Nat} (token : Bytes) (hlc : s.lc = .production) (ht : target ≠ 4) :
    exec (.lcReq t target 0 token) s = .next (settle s ((s.at t).withTap .bypass)) := by
  have hperm : lcReqPermitted s.lc target = false := by simp [lcReqPermitted, hlc, ht]
  rw [exec_lcReq, hperm, State.tapPrivate_denied]

/-! The end of an erasure. -/

/-- The erasure leaves the fuses of the states, and touches no sticky bit (R395). -/
theorem State.eraseFor_keeps (s : State) (f to_ : LcState) :
    (s.eraseFor f to_).life.fused = s.life.fused ∧ (s.eraseFor f to_).tamper.lock = s.tamper.lock := by
  unfold State.eraseFor
  split
  · exact ⟨rfl, rfl⟩
  · dsimp only
    split
    · split <;> exact ⟨rfl, rfl⟩
    · split <;> exact ⟨rfl, rfl⟩

theorem State.completeTransition_leaves {f to_ : LcState} {path : Nat} {wiped : Bool}
    (hj : s.life.journal = some (f, to_, path, wiped)) : let u := s.completeTransition false
    u.life.fused = to_ :: s.life.fused ∧ u.life.journal = none ∧ u.sticky.getLsbD 2 = true ∧
      (to_ = .analysis ∨ to_ = .scrapped → u.tamper.lock = false) := by
  unfold State.completeTransition
  simp only [hj]
  have herased : (if wiped = true then s else s.eraseFor f to_).life.fused = s.life.fused := by
    split
    · rfl
    · exact (State.eraseFor_keeps s f to_).1
  have hnoted : ∀ (v : State) d, (if to_ = .scrapped then v else (v.event 0x5002 sevEvid 3 d).event 0x5003 sevEvid 3 d).life = v.life := by
    intro v d
    split
    · rfl
    · rw [State.event_life, State.event_life]
  refine ⟨?_, trivial, ?_, fun h => if_pos h⟩
  · rw [hnoted, herased]
  · simp only [State.setSticky, BitVec.getLsbD_or]
    exact Bool.or_true _

theorem lcWipeComplete_leaves {f to_ : LcState} {path : Nat} {wiped : Bool} (hup : s.boot.up = true)
    (hj : s.life.journal = some (f, to_, path, wiped)) : Completes (.lcWipeComplete t) s (fun t' =>
      t'.life.fused = to_ :: s.life.fused ∧ t'.lc = to_ ∧ t'.life.journal = none ∧ t'.sticky.getLsbD 2 = true ∧
      (to_ = .analysis ∨ to_ = .scrapped → t'.tamper.lock = false)) := by
  have hexec : exec (.lcWipeComplete t) s = .next (settle s ((s.at t).completeTransition false)) := by
    change execLcWipeComplete t s = _
    unfold execLcWipeComplete
    exact ev_of_eq (if_pos hup)
  obtain ⟨hf, hn, hs, hl⟩ := State.completeTransition_leaves (s := s.at t) hj
  refine ⟨_, hexec, hf, ?_, hn, hs, hl⟩
  unfold State.lc
  rw [settle_life, hf]
  rfl

/-! Debug certificates. -/

/-- The rights of a certificate granted add to those in force, and nothing else of the life cycle changes (R401). -/
theorem State.grant_life (s : State) (b : Bytes) (path : Nat) : (s.grant b path).life = { s.life with
    ports := s.life.ports ||| (certRights s.lc b).1, access := s.life.access ||| (certRights s.lc b).2.1
    islands := s.life.islands ++ (certRights s.lc b).2.2.filter (fun i => !s.life.islands.contains i) } := by
  unfold State.grant
  dsimp only
  split
  · rfl
  · exact State.event_life _ _ _ _ _

/-- The states in which `DBG_CERT` is permitted (Table 17-7). -/
def State.dbgCertPermitted (s : State) : Bool :=
  match s.lc with
  | .blank | .test => true
  | .production => s.life.recovery && s.life.opened
  | _ => false

theorem exec_dbgCert (cert : Bytes) (h : s.lc = .test ∨ s.lc = .blank ∨
    (s.lc = .production ∧ s.life.recovery = true ∧ s.life.opened = true)) : exec (.dbgCert t cert) s = .next (settle s (
      let v := if s.certStatus cert = 0 then ((s.at t).withTap .dbgCert).grant cert 1 else (s.at t).withTap .dbgCert
      { v with life := { v.life with tapResult := tapCodeOf (s.certStatus cert) } })) := by
  change execDbgCert t cert s = _
  unfold execDbgCert
  refine ev_of_eq ?_
  have hperm : s.dbgCertPermitted = true := by
    unfold State.dbgCertPermitted
    rcases h with h | h | ⟨h, hr, ho⟩
    · rw [h]
    · rw [h]
    · rw [h]
      simp [hr, ho]
  change (s.at t).tapPrivate .dbgCert s.dbgCertPermitted _ = _
  rw [hperm, State.tapPrivate_permitted rfl]
  rfl

theorem dbgCert_grants (cert : Bytes) (h : s.lc = .test ∨ s.lc = .blank ∨
    (s.lc = .production ∧ s.life.recovery = true ∧ s.life.opened = true)) : Completes (.dbgCert t cert) s (fun t' =>
      let r := certRights s.lc cert
      t'.life.tapResult = tapCodeOf (s.certStatus cert) ∧
      (s.certStatus cert = 0 → t'.life.ports = s.life.ports ||| r.1 ∧ t'.life.access = s.life.access ||| r.2.1 ∧
        ∀ i, i ∈ t'.life.islands ↔ i ∈ s.life.islands ∨ i ∈ r.2.2) ∧
      (s.certStatus cert ≠ 0 → t'.life.ports = s.life.ports ∧ t'.life.access = s.life.access ∧
        t'.life.islands = s.life.islands)) := by
  refine ⟨_, exec_dbgCert cert h, rfl, fun h0 => ?_, fun h0 => ?_⟩
  · rw [settle_life]
    dsimp only
    rw [if_pos h0, State.grant_life]
    refine ⟨rfl, rfl, fun i => ?_⟩
    change i ∈ s.life.islands ++ (certRights s.lc cert).2.2.filter (fun i => !s.life.islands.contains i) ↔ _
    by_cases hi : i ∈ s.life.islands <;> simp [hi]
  · rw [settle_life]
    dsimp only
    rw [if_neg h0]
    exact ⟨rfl, rfl, rfl⟩

end

end Sys2Proof.Machine
end

section
/-! Debug accesses (R402, R403, R419, Table 17-5). -/

namespace Sys2Proof.Machine

section
variable {s : State} {t isl : Nat}

theorem exec_dbgAccess_closed (kind : DbgKind) (h : bit s.debugPorts 0 = false) :
    exec (.dbgAccess t isl kind) s = .next (settle s ((s.at t).withTap .bypass)) := by
  change execDbgAccess t isl kind s = _
  unfold execDbgAccess
  refine ev_of_eq ?_
  rw [show bit (s.at t).debugPorts 0 = false from h, State.tapPrivate_denied]

@[simp] theorem State.withTap_debugOpen (s : State) (t : Nat) (i : TapInst) (isl : Nat) (kind : DbgKind) :
    ((s.at t).withTap i).debugOpen isl kind = s.debugOpen isl kind := rfl

theorem exec_dbgAccess_denied {kind : DbgKind} (hp : bit s.debugPorts 0 = true) (h : s.debugOpen isl kind = false) :
    exec (.dbgAccess t isl kind) s = .next (settle s ((s.at t).withTap .dbgAccess)) := by
  change execDbgAccess t isl kind s = _
  unfold execDbgAccess
  refine ev_of_eq ?_
  rw [show bit (s.at t).debugPorts 0 = true from hp, State.tapPrivate_permitted rfl]
  exact if_neg (by simp [h])

theorem State.debugOpen_port {kind : DbgKind} (h : s.debugOpen isl kind = true) : bit s.debugPorts 0 = true := by
  unfold State.debugOpen at h
  simp only [Bool.and_eq_true] at h
  exact h.1.1

/-- An act that the rights permit reaches the gatekeeper of the island. -/
theorem exec_dbgAccess_open {kind : DbgKind} (h : s.debugOpen isl kind = true) : exec (.dbgAccess t isl kind) s =
    .next (settle s (((s.at t).withTap .dbgAccess).gatekeep isl (.debug kind))) := by
  change execDbgAccess t isl kind s = _
  unfold execDbgAccess
  refine ev_of_eq ?_
  rw [show bit (s.at t).debugPorts 0 = true from State.debugOpen_port h, State.tapPrivate_permitted rfl]
  exact if_pos h

/-- An island in Run serves the act. -/
theorem exec_dbgAccess_run {kind : DbgKind} (hrun : s.closed isl = none) (h : s.debugOpen isl kind = true) :
    exec (.dbgAccess t isl kind) s = .next (settle s (((s.at t).withTap .dbgAccess).debugAct isl kind)) := by
  rw [exec_dbgAccess_open h]
  unfold State.gatekeep
  rw [show ((s.at t).withTap .dbgAccess).closed isl = none from hrun]
  rfl

theorem State.debugAct_step {n : Nat} (hn : Tbl.find? s.life.halted isl = some n) (hp : isProcessor isl = true) :
    s.debugAct isl .step = ({ s with life := { s.life with halted := Tbl.put s.life.halted isl (n + 1) } } : State).answerAccess
      isl none false := by
  unfold State.debugAct
  simp only [hn, hp, if_true]

theorem State.debugAct_readWord {w : Twin} {n i : Nat} (hw : islandTwin isl = some w) (hp : isProcessor isl = true)
    (hn : n < 2) (hi : i < 256) : s.debugAct isl (.read (.word n i)) =
      s.answerAccess isl (some (((s.twin w).debugCtx isl n).word i)) false := by
  unfold State.debugAct
  simp only [hw, Option.bind_some, TwinSt.debugRead, hp, hn, hi, and_self, if_true]

theorem State.debugAct_write {w : Twin} (hw : islandTwin isl = some w) (l : DbgLoc) (v : Word) (tag : Bool) :
    s.debugAct isl (.write l v tag) = (s.updTwin w (fun x => x.debugWrite isl l v tag)).answerAccess isl none false := by
  unfold State.debugAct
  simp only [hw]

/-- A word of the register file written by a debug act. -/
theorem TwinSt.debugCtx_debugWrite (x : TwinSt) {n i : Nat} (hp : isProcessor isl = true) (hn : n < 2) (hi : i < 256) (v : Word)
    (tag : Bool) : (x.debugWrite isl (.word n i) v tag).debugCtx isl n = (x.debugCtx isl n).setWord i v tag := by
  unfold TwinSt.debugWrite
  simp only [hi, hp, hn, and_self, if_true]
  exact Tbl.getD_put_same _ _ _ _

theorem dbgAccess_writes {w : Twin} {n i : Nat} (hrun : s.closed isl = none) (hw : islandTwin isl = some w)
    (hp : isProcessor isl = true) (hn : n < 2) (hi : i < 256) (v : Word) (tag : Bool)
    (h : s.debugOpen isl (.write (.word n i) v tag) = true) :
    Completes (.dbgAccess t isl (.write (.word n i) v tag)) s (fun t' =>
      ((t'.twin w).debugCtx isl n).word i = (v, tag) ∧ t'.out = s.out ++ [.access isl none false] ∧
      (∀ j ≠ i, ((t'.twin w).debugCtx isl n).word j = ((s.twin w).debugCtx isl n).word j) ∧
      t'.twin (otherTwin w) = s.twin (otherTwin w) ∧ t'.nvm = s.nvm) := by
  refine ⟨_, exec_dbgAccess_run hrun h, ?_⟩
  rw [State.debugAct_write hw]
  have hctx : ((((s.at t).withTap .dbgAccess).updTwin w (fun x => x.debugWrite isl (.word n i) v tag)).twin w).debugCtx isl n =
      ((s.twin w).debugCtx isl n).setWord i v tag := by
    rw [State.updTwin, State.twin_setTwin, TwinSt.debugCtx_debugWrite _ hp hn hi]
    cases w <;> rfl
  have hword : ∀ j, (((s.twin w).debugCtx isl n).setWord i v tag).word j =
      if j = i then (v, tag) else ((s.twin w).debugCtx isl n).word j := fun j => Ctx.word_setWord _ i j v tag
  refine ⟨?_, ?_, fun j hj => ?_, ?_, ?_⟩
  · cases w <;> exact (congrArg (fun k => Ctx.word k i) hctx).trans (by rw [hword, if_pos rfl])
  · cases w <;> rfl
  · cases w <;> exact (congrArg (fun k => Ctx.word k j) hctx).trans (by rw [hword, if_neg hj])
  · cases w <;> rfl
  · cases w <;> rfl

theorem Noted.powerEvent (s : State) (isl origin kind sev b1 b23 b47 : Nat) : Noted s (s.powerEvent isl origin kind sev b1 b23 b47) :=
  .event s _ _ _ _

theorem State.gatekeep_down {p : PState} (hc : s.closed isl = some p) (hwoa : (s.domain isl).woa = false) (a : GateAcc) :
    s.gatekeep isl a = (s.refuseAccess isl a).powerEvent (domainIsland isl) (islandOrigin (domainIsland isl)) 0x02 sevWarn
      p.code 0 0 := by
  unfold State.gatekeep
  rw [hc]
  exact if_neg (by simp [hwoa])

/-- An island that is not in Run, and does not wake on an access, answers `ISLAND_DOWN` (R419). -/
theorem dbgAccess_down {l : DbgLoc} {p : PState} (h : s.debugOpen isl (.read l) = true) (hc : s.closed isl = some p)
    (hwoa : (s.domain isl).woa = false) : Completes (.dbgAccess t isl (.read l)) s (fun t' =>
      t'.out = s.out ++ [.access isl (some (BitVec.allOnes 64, false)) true] ∧ t'.nvm = s.nvm) := by
  refine ⟨_, exec_dbgAccess_open h, ?_⟩
  rw [State.gatekeep_down (show ((s.at t).withTap .dbgAccess).closed isl = some p from hc) hwoa]
  have hn := Noted.powerEvent (((s.at t).withTap .dbgAccess).refuseAccess isl (.debug (.read l))) (domainIsland isl)
    (islandOrigin (domainIsland isl)) 0x02 sevWarn p.code 0 0
  beta_reduce
  rw [settle_out, settle_nvm, hn.out, hn.nvm]
  exact ⟨rfl, rfl⟩

end

/-- Settles O39; what a debug access finds where the spec lays out nothing is the model's choice (assumption 40), which no clause
here reads. -/
theorem lifeCycleAndDebug : Obligations.LifeCycleAndDebug := by
  intro s t u
  refine ⟨fun target token to_ slot quorum hto hlen hne hlc hprod hall hpair hfails =>
      lcReq_checked hto hlen hne hlc hprod hall hpair hfails,
    fun target token hlc ht => lcReq_denied token hlc ht,
    fun f to_ path wiped hup hj => lcWipeComplete_leaves hup hj,
    fun cert h => dbgCert_grants cert h, fun isl hrun => ?_,
    fun isl l p hopen hc hwoa => dbgAccess_down hopen hc hwoa,
    fun isl kind hp hopen => exec_dbgAccess_denied hp hopen, fun isl kind hp => exec_dbgAccess_closed kind hp⟩
  intro run
  refine ⟨fun hopen => ⟨exec_dbgAccess_run hrun hopen, exec_dbgAccess_run (kind := .resume) hrun hopen, fun n hn hp => ?_⟩,
    fun w n i hw hp hn hi => ⟨fun hopen => ?_, fun v tag hopen => dbgAccess_writes hrun hw hp hn hi v tag hopen⟩⟩
  · rw [exec_dbgAccess_run (kind := .step) hrun hopen, State.debugAct_step (s := (s.at t).withTap .dbgAccess) hn hp]
    rfl
  · rw [exec_dbgAccess_run hrun hopen, State.debugAct_readWord hw hp hn hi]
    cases w <;> rfl

end Sys2Proof.Machine
end

section
/-! A twin that returns to service (R317, R347 to R349). -/

namespace Sys2Proof.Machine

theorem Completes.of_settled {i : Instr} {s v : State} {p : State → Prop} (he : exec i s = .next (settle s v))
    (hp : p (settle s v)) : Completes i s p := ⟨_, he, hp⟩

/-- A part of a twin that wake events leave. -/
theorem WokenOnly.eq {α : Type} {x y : TwinSt} (h : WokenOnly x y) (f : TwinSt → α)
    (hf : f { y with ctxs := x.ctxs, clusters := x.clusters } = f y) : f y = f x :=
  hf.symm.trans (congrArg f h)

/-- The record about a twin's own standing is stamped in the twin (R33, R347, R349). -/
theorem islandTwin_issuer_standing (s : State) (w : Twin) {id : Nat} (hid : id ∈ [0x6001, 0x6006, 0x6007, 0x6008, 0x600B]) (d : Bytes) :
    islandTwin (s.issuer id (twinCode w) d) = some w := by
  have hown : ∀ n, n / 206 = twinBase w / 206 → islandTwin n = some w := by
    intro n hn
    rw [islandTwin_eq_some]
    cases w <;> simp only [twinBase] at hn ⊢ <;> omega
  have hmain : ∀ p : Bool, islandTwin (if p = true ∧ fld d 2 2 / 206 = twinBase w / 206 then fld d 2 2
      else twinBase w + 196) = some w := by
    intro p
    split
    · next h => exact hown _ h.2
    · exact islandTwin_coachyard w
  unfold State.issuer
  refine islandTwin_awakeOr s ?_
  simp only [List.mem_cons, List.not_mem_nil, or_false] at hid
  rcases hid with rfl | rfl | rfl | rfl | rfl <;> cases w
  · exact hmain true
  · exact hmain true
  · exact hmain true
  · exact hmain true
  · exact hmain false
  · exact hmain false
  · exact hmain false
  · exact hmain false
  · exact hmain true
  · exact hmain true

section
variable {s u v : State} {w : Twin}

/-- From `s` to `u` nothing of a twin is moved but by wake events, and its other fields read as in `s`. -/
theorem State.eventU_other {id : Nat} (hid : id ∈ [0x6001, 0x6006, 0x6007, 0x6008, 0x600B]) (s : State) (o : Twin) (d : Bytes) :
    (s.eventU id (twinCode o) d).twin (otherTwin o) = s.twin (otherTwin o) :=
  (Inside.event (islandTwin_issuer_standing s o hid d) _).2

/-- A role change asks for a report, and wakes both Zeniths (R352, R415). -/
theorem State.roleReport_woken (s : State) : Woken { s with health := { s.health with
    due := s.health.due ++ [(ceilDiv (s.now + 200000) 400000 * 100, 3)] } } s.roleReport :=
  (Woken.wakeZenith _ .a).trans (.wakeZenith _ .b)

theorem State.roleReport_twin (s : State) (w : Twin) : WokenOnly (s.twin w) (s.roleReport.twin w) := by
  have h := s.roleReport_woken.twin w
  cases w <;> exact h

/-- Both twins woken. -/
theorem Woken.wakeBoth (s : State) : Woken s ((s.wakeTwin .a).wakeTwin .b) := (Woken.wakeTwin s .a).trans (.wakeTwin _ .b)

@[simp] theorem State.updTwin_same (s : State) (w : Twin) (f : TwinSt → TwinSt) : (s.updTwin w f).twin w = f (s.twin w) :=
  s.twin_setTwin w _

@[simp] theorem State.updTwin_other (s : State) (w : Twin) (f : TwinSt → TwinSt) :
    (s.updTwin w f).twin (otherTwin w) = s.twin (otherTwin w) := s.other_setTwin w _

theorem State.returning_eq (ha : s.active = some w) (hf : s.failStop = false) (f : Twin → State) :
    s.returning f = f (otherTwin w) := by
  unfold State.returning
  rw [ha]
  exact if_neg (by simp [hf])

end

section
variable {s : State} {t : Nat} {o : Twin}

/-! The self-test of a twin out of service. -/

theorem twinSelftestComplete_passes (hr : (s.twin o).role = .degraded) (hi : (s.twin o).inTest = true) :
    exec (.twinSelftestComplete t o none) s = .next (settle s ((s.at t).updTwin o (fun x => { x with inTest := false }))) := by
  change execTwinSelftestComplete t o none s = _
  unfold execTwinSelftestComplete
  exact ev_of_eq (if_neg (by simp [hr, hi]))

/-- A twin whose self-test failed in an island. -/
def TwinSt.failedTest (x : TwinSt) (isl : Nat) : TwinSt :=
  { x with inTest := false, role := .offline, cause := 0x0D, causeIsl := isl }

theorem twinSelftestComplete_fails (hr : (s.twin o).role = .degraded) (hi : (s.twin o).inTest = true) {isl : Nat}
    (hisl : islandTwin isl = some o) : Completes (.twinSelftestComplete t o (some isl)) s (fun t' =>
      (t'.twin o).role = .offline ∧ (t'.twin o).cause = 0x0D ∧ (t'.twin o).causeIsl = isl ∧ (t'.twin o).inTest = false ∧
      WokenOnly (s.twin (otherTwin o)) (t'.twin (otherTwin o))) := by
  let u := (s.at t).updTwin o (fun x => x.failedTest isl)
  have hexec : exec (.twinSelftestComplete t o (some isl)) s = .next (settle s (u.noteOffline o 0x0D isl).roleReport) := by
    change execTwinSelftestComplete t o (some isl) s = _
    unfold execTwinSelftestComplete
    refine ev_of_eq ?_
    rw [if_neg (by simp [hr, hi])]
    exact if_neg (by simp [hisl])
  have hu : u.twin o = (s.twin o).failedTest isl := by simp [u]
  have hnote : u.noteOffline o 0x0D isl = u.eventU 0x600B (twinCode o) (toLe 2 0x0D ++ toLe 2 isl) :=
    if_pos (by rw [hu]; rfl)
  have hkept : ((u.noteOffline o 0x0D isl).twin o).posture = ((s.twin o).failedTest isl).posture := by
    rw [← hu, hnote]
    exact (Noted.eventU u _ _ _).twin_eq o TwinSt.posture (Eq.refl _)
  have hpost := (State.roleReport_twin (u.noteOffline o 0x0D isl) o).posture.trans hkept
  refine Completes.of_settled hexec ?_
  rw [settle_twin, settle_twin]
  refine ⟨congrArg TwinPosture.role hpost, congrArg TwinPosture.cause hpost, congrArg TwinPosture.causeIsl hpost,
    congrArg TwinPosture.inTest hpost, ?_⟩
  have hother : (u.noteOffline o 0x0D isl).twin (otherTwin o) = s.twin (otherTwin o) := by
    rw [hnote, State.eventU_other (by decide)]
    simp [u]
  rw [← hother]
  exact State.roleReport_twin _ _

/-! The snapshot at Es, the copy at Ej, and the end of the earlier requests (R349). -/

/-- A twin that resynchronises from the snapshot of an epoch. -/
def TwinSt.resyncing (x : TwinSt) (es : Nat) : TwinSt := { x with role := .resync, resyncEs := some es, resyncEj := none }

theorem resyncSnapshot_snaps (ha : s.active = some (otherTwin o)) (hf : s.failStop = false) (hr : (s.twin o).role = .degraded)
    (hi : (s.twin o).inTest = false) (hsw : s.sw.switching = false) (ht : (s.at t).now % 4000 = 0)
    (hent : 12 ≤ (s.twin o).ent.actives) : Completes (.resyncSnapshot t) s (fun t' =>
      (t'.twin o).role = .resync ∧ (t'.twin o).resyncEs = some (epochOf (s.at t).now) ∧ (t'.twin o).resyncEj = none ∧
      (t'.twin o).store = (s.twin o).store ∧ (t'.twin o).ent = (s.twin o).ent ∧
      WokenOnly (s.twin (otherTwin o)) (t'.twin (otherTwin o))) := by
  let u := (s.at t).updTwin o (fun x => x.resyncing (epochOf (s.at t).now))
  let v := (u.wakeTwin .a).wakeTwin .b
  have hexec : exec (.resyncSnapshot t) s = .next (settle s (v.eventU 0x6007 (twinCode o) [])) := by
    change execResyncSnapshot t s = _
    unfold execResyncSnapshot
    refine ev_of_eq ?_
    rw [State.returning_eq (s := s.at t) ha hf, otherTwin_otherTwin]
    exact if_pos ⟨by simpa using hr, by simp [hi], by simpa using hent, by simp [hsw], ht⟩
  have hu : u.twin o = (s.twin o).resyncing (epochOf (s.at t).now) := by simp [u]
  have hw : ∀ z, WokenOnly (u.twin z) (v.twin z) := (Woken.wakeBoth u).twin
  have hkept : ∀ {α : Type} (f : TwinSt → α), (∀ x y : TwinSt, f (x.unstamped y) = f y) →
      (∀ x y : TwinSt, f { y with ctxs := x.ctxs, clusters := x.clusters } = f y) →
      f ((v.eventU 0x6007 (twinCode o) []).twin o) = f ((s.twin o).resyncing (epochOf (s.at t).now)) := by
    intro α f hs hc
    rw [(Noted.eventU v _ _ _).twin_eq o f (hs _ _), (hw o).eq f (hc _ _), hu]
  refine Completes.of_settled hexec ?_
  rw [settle_twin, settle_twin]
  refine ⟨hkept TwinSt.role (fun _ _ => Eq.refl _) (fun _ _ => Eq.refl _), hkept TwinSt.resyncEs (fun _ _ => Eq.refl _) (fun _ _ => Eq.refl _),
    hkept TwinSt.resyncEj (fun _ _ => Eq.refl _) (fun _ _ => Eq.refl _), hkept TwinSt.store (fun _ _ => Eq.refl _) (fun _ _ => Eq.refl _),
    hkept TwinSt.ent (fun _ _ => Eq.refl _) (fun _ _ => Eq.refl _), ?_⟩
  rw [State.eventU_other (by decide)]
  have h := hw (otherTwin o)
  rwa [show u.twin (otherTwin o) = s.twin (otherTwin o) by simp [u]] at h

theorem resyncSnapshot_refused (ha : s.active = some (otherTwin o)) (hf : s.failStop = false)
    (hent : (s.twin o).ent.actives < 12) : exec (.resyncSnapshot t) s = .next (settle s (s.at t)) := by
  change execResyncSnapshot t s = _
  unfold execResyncSnapshot
  refine ev_of_eq ?_
  rw [State.returning_eq (s := s.at t) ha hf, otherTwin_otherTwin]
  refine if_neg (fun h => ?_)
  have h12 : 12 ≤ (s.twin o).ent.actives := by simpa using h.2.2.1
  omega

theorem resyncJoin_joins (ha : s.active = some (otherTwin o)) (hf : s.failStop = false) {es : Nat}
    (hr : (s.twin o).role = .resync) (hes : (s.twin o).resyncEs = some es) (hej : (s.twin o).resyncEj = none)
    (hlt : es < epochOf (s.at t).now) (ht : (s.at t).now % 4000 = 0)
    (hall : s.rreqs.all (fun (r : Nat × RReq) => (Tbl.find? (s.twin (otherTwin o)).reqs r.1).isSome) = true) :
    Completes (.resyncJoin t) s (fun t' => (t'.twin o).resyncEj = some (epochOf (s.at t).now) ∧
      (t'.twin o).store = (s.twin (otherTwin o)).store ∧ (t'.twin o).ent.seeds = (s.twin (otherTwin o)).ent.seeds ∧
      (t'.twin o).agreed = (s.twin (otherTwin o)).agreed ∧ WokenOnly (s.twin (otherTwin o)) (t'.twin (otherTwin o))) := by
  let y := (s.twin o).joined (s.twin (otherTwin o)) (epochOf (s.at t).now)
  let z := if s.life.recovery then y else y.loadPinned s.nvm
  let u := (s.at t).setTwin o z
  have hexec : exec (.resyncJoin t) s = .next (settle s ((u.wakeTwin .a).wakeTwin .b)) := by
    change execResyncJoin t s = _
    unfold execResyncJoin
    refine ev_of_eq ?_
    rw [State.returning_eq (s := s.at t) ha hf, otherTwin_otherTwin]
    simp only [State.at_twin]
    exact if_pos ⟨hr, by simp [hej], by simp [hes, hlt], ht, hall⟩
  have hz : z.resyncEj = y.resyncEj ∧ z.store = y.store ∧ z.ent = y.ent ∧ z.agreed = y.agreed := by
    unfold z
    split <;> exact ⟨rfl, rfl, rfl, rfl⟩
  obtain ⟨hz1, hz2, hz3, hz4⟩ := hz
  have hw := (Woken.wakeBoth u).twin
  have hu : u.twin o = z := State.twin_setTwin _ _ _
  have hj := hw o
  rw [hu] at hj
  refine Completes.of_settled hexec ?_
  rw [settle_twin, settle_twin]
  refine ⟨(hj.eq TwinSt.resyncEj (Eq.refl _)).trans hz1, hj.store.trans hz2,
    (hj.eq (fun x => x.ent.seeds) (Eq.refl _)).trans ((congrArg Entropy.seeds hz3).trans (Eq.refl _)), (hj.eq TwinSt.agreed (Eq.refl _)).trans hz4, ?_⟩
  have h := hw (otherTwin o)
  rwa [show u.twin (otherTwin o) = s.twin (otherTwin o) by simp [u]] at h

/-- A twin whose resynchronisation has ended. -/
def TwinSt.resynced (x : TwinSt) : TwinSt := { x with role := .healthy, resyncEs := none, resyncEj := none }

/-- The end of a resynchronisation counted and recorded (R349, R352). -/
def State.noteResynced (v : State) (o : Twin) : State :=
  (({ v with health := { v.health with resyncs := satAdd 32 v.health.resyncs 1 } } : State).eventU 0x6008 (twinCode o) []).roleReport

theorem State.noteResynced_same {α : Type} (v : State) (o : Twin) (f : TwinSt → α) (hs : ∀ x y : TwinSt, f (x.unstamped y) = f y)
    (hc : ∀ x y : TwinSt, f { y with ctxs := x.ctxs, clusters := x.clusters } = f y) :
    f ((v.noteResynced o).twin o) = f (v.twin o) := by
  unfold State.noteResynced
  rw [(State.roleReport_twin _ o).eq f (hc _ _), (Noted.eventU _ _ _ _).twin_eq o f (hs _ _)]
  cases o <;> rfl

theorem State.noteResynced_other (v : State) (o : Twin) :
    WokenOnly (v.twin (otherTwin o)) ((v.noteResynced o).twin (otherTwin o)) := by
  unfold State.noteResynced
  have h := State.roleReport_twin (({ v with health := { v.health with resyncs := satAdd 32 v.health.resyncs 1 } } : State).eventU
    0x6008 (twinCode o) []) (otherTwin o)
  rw [State.eventU_other (by decide)] at h
  cases o <;> exact h

theorem State.noteResynced_resyncs (v : State) (o : Twin) : (v.noteResynced o).health.resyncs = satAdd 32 v.health.resyncs 1 := by
  unfold State.noteResynced
  rw [(State.roleReport_woken _).eq (fun u => u.health.resyncs) (Eq.refl _)]
  exact congrArg Health.resyncs (Noted.eventU _ _ _ _).health

theorem resyncHealthy_ends (ha : s.active = some (otherTwin o)) (hf : s.failStop = false) {ej : Nat}
    (hr : (s.twin o).role = .resync) (hej : (s.twin o).resyncEj = some ej) (hent : 12 ≤ (s.twin o).ent.actives)
    (hact : (s.twin (otherTwin o)).reqs.all (fun (p : Nat × Req) => decide (4000 * ej ≤ p.1) || p.2.fin.isSome) = true)
    (hown : (s.twin o).reqs.all (fun (p : Nat × Req) => decide (4000 * ej ≤ p.1)) = true) :
    Completes (.resyncHealthy t) s (fun t' => (t'.twin o).role = .healthy ∧ (t'.twin o).resyncEs = none ∧
      (t'.twin o).resyncEj = none ∧ t'.health.resyncs = satAdd 32 s.health.resyncs 1 ∧
      WokenOnly (s.twin (otherTwin o)) (t'.twin (otherTwin o))) := by
  let u := (s.at t).updTwin o (fun x => { x with role := .healthy, resyncEs := none, resyncEj := none })
  have hexec : exec (.resyncHealthy t) s = .next (settle s (((u.wakeTwin .a).wakeTwin .b).noteResynced o)) := by
    change execResyncHealthy t s = _
    unfold execResyncHealthy
    refine ev_of_eq ?_
    rw [State.returning_eq (s := s.at t) ha hf, otherTwin_otherTwin]
    extract_lets x v
    rw [show x.resyncEj = some ej by simpa [x] using hej]
    refine (if_pos ⟨by simpa [x] using hr, by simpa [x] using hent, by simpa using hact, by simpa [x] using hown⟩).trans ?_
    change v.noteResynced o = _
    rfl
  have hu : u.twin o = (s.twin o).resynced := by simp [u, TwinSt.resynced]
  have hother : u.twin (otherTwin o) = s.twin (otherTwin o) := by simp [u]
  have hresyncs : u.health = s.health := by cases o <;> rfl
  have hw := Woken.wakeBoth u
  generalize (u.wakeTwin .a).wakeTwin .b = v at *
  have hkept : ∀ {α : Type} (f : TwinSt → α), (∀ x y : TwinSt, f (x.unstamped y) = f y) →
      (∀ x y : TwinSt, f { y with ctxs := x.ctxs, clusters := x.clusters } = f y) →
      f ((v.noteResynced o).twin o) = f (s.twin o).resynced := fun f hs hc => by
    exact ((v.noteResynced_same o f hs hc).trans ((hw.twin o).eq f (hc (u.twin o) (v.twin o)))).trans (congrArg f hu)
  refine Completes.of_settled hexec ?_
  rw [settle_twin, settle_twin]
  refine ⟨hkept TwinSt.role (fun _ _ => Eq.refl _) (fun _ _ => Eq.refl _), hkept TwinSt.resyncEs (fun _ _ => Eq.refl _) (fun _ _ => Eq.refl _),
    hkept TwinSt.resyncEj (fun _ _ => Eq.refl _) (fun _ _ => Eq.refl _), ?_, ?_⟩
  · rw [settle_health, v.noteResynced_resyncs, hw.eq State.health (Eq.refl _), hresyncs]
  · rw [← hother]
    exact (hw.twin _).trans (v.noteResynced_other o)

end

/-- Settles O35. -/
theorem resynchronisation : Obligations.Resynchronisation := by
  rintro s t w o ha rfl hf u e
  have ha' : s.active = some (otherTwin (otherTwin w)) := by rwa [otherTwin_otherTwin]
  rw [← otherTwin_otherTwin w]
  simp only [otherTwin_otherTwin (otherTwin w)]
  exact ⟨fun hr hi => ⟨twinSelftestComplete_passes hr hi, fun isl hisl => twinSelftestComplete_fails hr hi hisl⟩,
    fun hr hi hsw ht hent => resyncSnapshot_snaps ha' hf hr hi hsw ht hent, fun hent => resyncSnapshot_refused ha' hf hent,
    fun es hr hes hej hlt ht hall => resyncJoin_joins ha' hf hr hes hej hlt ht hall,
    fun ej hr hej hent hact hown => resyncHealthy_ends ha' hf hr hej hent hact hown⟩

end Sys2Proof.Machine
end

section
/-! What replies and interrupts leave of the module, and the outputs that wake events add to (R52, R54, R419). -/

namespace Sys2Proof.Machine

/-- A state with what replies and interrupts change put back as it was in `s`. -/
def State.unsentTo (s t : State) : State := { t with mbxs := s.mbxs, fns := s.fns, out := s.out }

/-- Mailboxes and functions were changed, and outputs sent, and nothing else was done. -/
def Sent (s t : State) : Prop := s.unsentTo t = s

theorem Sent.rfl {s : State} : Sent s s := Eq.refl _

theorem Sent.trans {s t u : State} (h : Sent s t) (k : Sent t u) : Sent s u := by
  unfold Sent at *
  calc s.unsentTo u = s.unsentTo (t.unsentTo u) := Eq.refl _
    _ = s := by rw [k, h]

theorem Sent.eq {α : Type} {s t : State} (h : Sent s t) (f : State → α) (hf : f (s.unsentTo t) = f t) : f t = f s :=
  hf.symm.trans (congrArg f h)

section
variable (s : State) (n i : Nat)

theorem Sent.updMbx (f : Mbx → Mbx) : Sent s (s.updMbx n i f) := Eq.refl _

theorem Sent.updFn (f : Fn → Fn) : Sent s (s.updFn n f) := Eq.refl _

theorem Sent.sendVector (v : Nat) : Sent s (s.sendVector n v) := by
  unfold State.sendVector
  dsimp only
  split
  · exact .rfl
  split
  · exact Eq.refl _
  split
  · exact .rfl
  · exact .updFn s n _

theorem Sent.signal : Sent s (s.signal n i) := (Sent.updMbx s n i _).trans (.sendVector _ n _)

theorem Sent.drained : Sent s (s.drained n i) := by
  unfold State.drained
  dsimp only
  split
  · split
    · exact (Sent.updMbx s n i _).trans (.signal _ n i)
    · exact .updMbx s n i _
  · exact .rfl

theorem Sent.disableMbx : Sent s (s.disableMbx n i) := by
  unfold State.disableMbx
  split
  · exact (Sent.updMbx s n i _).trans (.drained _ n i)
  · exact (Sent.updMbx s n i _).trans (.drained _ n i)
  · exact .rfl

theorem Sent.writeReply (r : Reply) (p : Option (Nat × Bytes)) : Sent s (s.writeReply n i r p) := by
  unfold State.writeReply
  have h : ∀ u : State, Sent s { u with mbxs := s.mbxs, fns := s.fns, out := s.out } → Sent s u := fun u hu => hu
  dsimp only
  split
  · exact Sent.trans (t := State.updMbx { s with out := _ } n i _) (Eq.refl _) (.signal _ n i)
  · exact Eq.refl _

end

/-! A request that leaves the Relay with its reply. -/

section
variable {s : State} {q : Nat} {rr : RReq}

/-- The state without a request at the Relay. -/
def State.withoutReq (s : State) (q : Nat) : State :=
  { s with rreqs := Tbl.del s.rreqs q, payStore := s.payStore.filter (fun p => p.q != q) }

theorem State.leaveRelay_replies (hr : Tbl.find? s.rreqs q = some rr) (hd : rr.drop = false) (h3 : (s.fn rr.fn).d3hot = false)
    (post : RReq → State → State) : s.leaveRelay q post =
      ((post rr (s.withoutReq q)).updMbx rr.fn rr.idx (fun m => { m with infl := m.infl - 1 })).drained rr.fn rr.idx := by
  unfold State.leaveRelay
  rw [hr]
  dsimp only
  rw [if_neg (by simp [hd])]
  congr 2
  exact if_neg (by simpa [State.fn] using h3)

end

/-! Outputs are only added to. -/

section
variable (s : State)

theorem State.setDomain_out (n : Nat) (d : Domain) : (s.setDomain n d).out = s.out := by
  have hp : ∀ (c : Prop) [Decidable c] (p : Power), (if c then { s with power := p } else State.setVid { s with power := p }).out = s.out := by
    intro c _ p
    split
    · rfl
    · unfold State.setVid
      split <;> rfl
  exact hp _ _

theorem State.debugAct_out (isl : Nat) (act : DbgKind) : s.out <+: (s.debugAct isl act).out := by
  unfold State.debugAct
  cases act with
  | halt => exact ⟨_, rfl⟩
  | step => dsimp only; split <;> exact ⟨_, rfl⟩
  | resume => exact ⟨_, rfl⟩
  | read l => dsimp only; split <;> exact ⟨_, rfl⟩
  | write l v tag =>
    dsimp only
    cases islandTwin isl with
    | none => exact ⟨_, rfl⟩
    | some w => cases w <;> exact ⟨_, rfl⟩

theorem State.serveAccess_out (n : Nat) (a : GateAcc) : s.out <+: (s.serveAccess n a).out := by
  unfold State.serveAccess
  split
  · exact ⟨_, rfl⟩
  · exact ⟨_, rfl⟩
  · exact s.debugAct_out _ _

theorem State.serveAccesses_out (n : Nat) (l : List GateAcc) (s : State) :
    s.out <+: (l.foldl (fun s a => s.serveAccess n a) s).out := by
  induction l generalizing s with
  | nil => exact List.prefix_rfl
  | cons a l ih => exact (s.serveAccess_out n a).trans (ih _)

theorem State.toRun_out (n : Nat) : s.out <+: (s.toRun n).out := by
  have h1 : ∀ (c : Prop) [Decidable c] (u : State) (f : Power → Power), u.out = s.out →
      (if c then u.updPower f else u).out = s.out := by
    intro c _ u f h
    split <;> exact h
  have h2 : ∀ (o : Option Twin) (u : State) (f : TwinSt → Tbl Ctx), u.out = s.out →
      (match o with | some w => u.updTwin w (fun x => { x with ctxs := f x }) | none => u).out = s.out := by
    intro o u f h
    cases o with
    | none => exact h
    | some w => cases w <;> exact h
  have h3 : ∀ (l : List GateAcc) (u : State), u.out = s.out → s.out <+: (l.foldl (fun s a => s.serveAccess n a) u).out :=
    fun l u h => h ▸ State.serveAccesses_out n l u
  unfold State.toRun
  exact h3 _ _ (h2 _ _ _ (h1 _ _ _ (s.setDomain_out _ _)))

theorem State.wakeDom_out (n : Nat) : s.out <+: (s.wakeDom n).out := by
  unfold State.wakeDom
  dsimp only
  split
  · rw [State.updDomain, State.setDomain_out]
  · exact s.toRun_out n

theorem State.wakeZenith_out (w : Twin) : s.out <+: (s.wakeZenith w).out := by
  unfold State.wakeZenith
  dsimp only
  split
  · exact List.prefix_rfl
  · exact s.wakeDom_out _

theorem State.roleReport_out : s.out <+: s.roleReport.out :=
  (State.wakeZenith_out { s with health := { s.health with due := s.health.due ++ [(ceilDiv (s.now + 200000) 400000 * 100, 3)] } }
    .a).trans (State.wakeZenith_out _ .b)

end

end Sys2Proof.Machine
end

section
/-! Isolation, and the `DISCARDED` replies (R339, R342). -/

namespace Sys2Proof.Machine

/-- A record of the switch-over is stamped on the Relay die. -/
theorem State.switchEvent_twin (s : State) (id : Nat) (d : Bytes) (w : Twin) : (s.switchEvent id d).twin w = s.twin w := by
  unfold State.switchEvent
  rw [State.note_twin]
  cases w <;> rfl

theorem Noted.switchEvent (s : State) (id : Nat) (d : Bytes) : Noted s (s.switchEvent id d) :=
  (Noted.stamped s 415).trans (.note _ _)

section
variable {s : State} {t : Nat}

theorem egressIsolation_isolates {old : Twin} (ha : s.active = some old) (hg : (s.twin old).giveUp = true)
    (hf : s.failStop = false) : Completes (.egressIsolation t) s (fun t' => t'.egress = none ∧ t'.active = none ∧
      t'.sw = { s.sw with switching := true, old := some old, accepting := false } ∧
      t'.twinA = s.twinA ∧ t'.twinB = s.twinB ∧ t'.rreqs = s.rreqs) := by
  let u : State := { s.at t with egress := none, active := none,
                                 sw := { s.sw with switching := true, old := some old, accepting := false } }
  have hexec : exec (.egressIsolation t) s = .next (settle s (u.switchEvent 0x6002 [])) := by
    change execEgressIsolation t s = _
    unfold execEgressIsolation
    refine ev_of_eq ?_
    rw [State.at_active, ha]
    exact if_pos ⟨by simpa using hg, by simp [hf]⟩
  have hn := Noted.switchEvent u 0x6002 []
  exact Completes.of_settled hexec ⟨hn.eq State.egress (Eq.refl _), hn.active, hn.sw, u.switchEvent_twin 0x6002 [] .a,
    u.switchEvent_twin 0x6002 [] .b, hn.rreqs⟩

theorem State.switchDone_keeps (s : State) : s.switchDone.sw = { s.sw with switching := false, accepting := true } ∧
    s.switchDone.rreqs = s.rreqs ∧ s.out <+: s.switchDone.out := by
  unfold State.switchDone
  have hn := Noted.switchEvent ({ s with sw := { s.sw with switching := false, accepting := true } } : State) 0x6005 []
  generalize ({ s with sw := { s.sw with switching := false, accepting := true } } : State).switchEvent 0x6005 [] = v at *
  refine ⟨?_, ?_, ?_⟩
  · rw [(State.roleReport_woken v).eq State.sw (Eq.refl _)]
    exact hn.sw
  · rw [(State.roleReport_woken v).eq State.rreqs (Eq.refl _)]
    exact hn.rreqs
  · have h := v.roleReport_out
    rwa [hn.out] at h

/-- The state after the reply of a discarded request (R342). -/
def State.discardReplied (s : State) (q : Nat) (l : List Nat) : State :=
  let c := s.stampOf 415
  ({ s.stamped 415 with sw := { s.sw with discards := l } } : State).leaveRelay q (fun rr s =>
    s.writeReply rr.fn rr.idx { id := rr.hdr.id, status := stDiscarded, accept := q, complete := c } none)

theorem exec_discardedReplyPost {q : Nat} {l : List Nat} (hd : s.sw.discards = q :: l) (ha : s.active.isSome = true)
    (hf : s.failStop = false) : exec (.discardedReplyPost t) s = .next (settle s (
      if l.isEmpty then ((s.at t).discardReplied q l).switchDone else (s.at t).discardReplied q l)) := by
  change execDiscardedReplyPost t s = _
  unfold execDiscardedReplyPost
  refine ev_of_eq ?_
  rw [State.at_sw, hd]
  dsimp only
  rw [if_neg (by simp [hf, ← Option.not_isSome, ha])]
  rfl

theorem State.discardReplied_leaves {q : Nat} {l : List Nat} {rr : RReq} (hr : Tbl.find? s.rreqs q = some rr)
    (hd : rr.drop = false) (h3 : (s.fn rr.fn).d3hot = false) : let u := s.discardReplied q l
    let m := s.mbx rr.fn rr.idx
    let rec_ := ({ id := rr.hdr.id, status := stDiscarded, accept := q, complete := s.stampOf 415 } : Reply).record
      s.attention m.phase
    u.sw = { s.sw with discards := l } ∧ Tbl.find? u.rreqs q = none ∧
      s.out ++ [.dma (m.rqBase.toNat + 64 * m.slot) (rec_.take 56), .dma (m.rqBase.toNat + 64 * m.slot + 56) (rec_.drop 56)] <+: u.out := by
  unfold State.discardReplied
  dsimp only
  rw [State.leaveRelay_replies (rr := rr) (by simpa using hr) hd (by simpa [State.fn] using h3)]
  let v := ({ s.stamped 415 with sw := { s.sw with discards := l } } : State).withoutReq q
  let r : Reply := { id := rr.hdr.id, status := stDiscarded, accept := q, complete := s.stampOf 415 }
  change ((((v.writeReply rr.fn rr.idx r none).updMbx rr.fn rr.idx _).drained rr.fn rr.idx).sw = _) ∧ _ ∧ _
  have hsent : Sent v (((v.writeReply rr.fn rr.idx r none).updMbx rr.fn rr.idx
      (fun m => { m with infl := m.infl - 1 })).drained rr.fn rr.idx) :=
    ((Sent.writeReply v _ _ r none).trans (.updMbx _ _ _ _)).trans (.drained _ _ _)
  have hout := (((Signalled.writeReply v rr.fn rr.idx r).trans (.updMbx _ rr.fn rr.idx
    (fun m => { m with infl := m.infl - 1 }))).trans (.drained _ rr.fn rr.idx)).out
  refine ⟨hsent.eq State.sw (Eq.refl _), ?_, ?_⟩
  · rw [hsent.eq State.rreqs (Eq.refl _)]
    simp [v, State.withoutReq, Tbl.find?_del]
  · exact hout

theorem discardedReplyPost_posts {q : Nat} {l : List Nat} {rr : RReq} {w : Twin} (hs : s.sw.discards = q :: l)
    (ha : s.active = some w) (hf : s.failStop = false) (hr : Tbl.find? s.rreqs q = some rr) (hd : rr.drop = false)
    (h3 : (s.fn rr.fn).d3hot = false) : Completes (.discardedReplyPost t) s (fun t' =>
      let m := s.mbx rr.fn rr.idx
      let rec_ := ({ id := rr.hdr.id, status := stDiscarded, accept := q, complete := (s.at t).stampOf 415 } : Reply).record
        s.attention m.phase
      t'.sw.discards = l ∧ Tbl.find? t'.rreqs q = none ∧
      (l = [] → t'.sw.switching = false ∧ t'.sw.accepting = true) ∧
      ∃ rest, t'.out = s.out ++ ([.dma (m.rqBase.toNat + 64 * m.slot) (rec_.take 56),
        .dma (m.rqBase.toNat + 64 * m.slot + 56) (rec_.drop 56)] ++ rest)) := by
  obtain ⟨hsw, hreq, hout⟩ := State.discardReplied_leaves (s := s.at t) (l := l) hr hd h3
  refine Completes.of_settled (exec_discardedReplyPost hs (by simp [ha]) hf) ?_
  dsimp only
  rw [settle_sw, settle_rreqs, settle_out]
  generalize (s.at t).discardReplied q l = v at *
  obtain ⟨hsw', hreq', hout'⟩ := v.switchDone_keeps
  cases l with
  | nil =>
    simp only [List.isEmpty_nil, if_true]
    obtain ⟨rest, hrest⟩ := hout.trans hout'
    refine ⟨by rw [hsw', hsw], by rw [hreq', hreq], fun _ => ⟨by rw [hsw'], by rw [hsw']⟩, rest, ?_⟩
    rw [← hrest, List.append_assoc]
    rfl
  | cons p l =>
    simp only [List.isEmpty_cons, Bool.false_eq_true, if_false]
    obtain ⟨rest, hrest⟩ := hout
    refine ⟨by rw [hsw], hreq, fun h => absurd h (List.cons_ne_nil _ _), rest, ?_⟩
    rw [← hrest, List.append_assoc]
    rfl

theorem newWorkAccept_done {w : Twin} (ha : s.active = some w) (hf : s.failStop = false) (hd : s.sw.discards = [])
    (hsw : s.sw.switching = true) : Completes (.newWorkAccept t) s (fun t' =>
      t'.sw.switching = false ∧ t'.sw.accepting = true) := by
  have hexec : exec (.newWorkAccept t) s = .next (settle s (s.at t).switchDone) := by
    change execNewWorkAccept t s = _
    unfold execNewWorkAccept
    refine ev_of_eq ?_
    rw [if_neg (by simp [ha, hf]), if_pos (by simp [hd])]
    exact if_pos (by simpa using hsw)
  refine Completes.of_settled hexec ?_
  rw [settle_sw, ((s.at t).switchDone_keeps).1]
  exact ⟨rfl, rfl⟩

theorem exec_newWorkAccept_late {w : Twin} (ha : s.active = some w) (hf : s.failStop = false) (hd : s.sw.discards ≠ [])
    (ht : s.sw.detected + 24000 ≤ (s.at t).now) :
    exec (.newWorkAccept t) s = .next (settle s { s.at t with sw := { s.sw with accepting := true } }) := by
  change execNewWorkAccept t s = _
  unfold execNewWorkAccept
  refine ev_of_eq ?_
  rw [if_neg (by simp [ha, hf]), if_neg (by simpa using hd)]
  exact if_pos ht

end

end Sys2Proof.Machine
end

section
/-! The roles, the selector and the accepted requests: what is left of them by what a promotion does besides (R339, R341). -/

namespace Sys2Proof.Machine

/-- Who is in service and on what footing: the time, the boot, the life cycle but for what debug halts, and the
fail-stop; the active twin, the selector, the
replies owed, the roles, the numbers of the accepted requests, and the attention bit of a switch-over. -/
structure Lineup where
  now      : Nat
  pcycle   : Nat
  resetN   : Bool
  boot     : Boot
  life     : Life
  failStop : Bool
  active   : Option Twin
  egress   : Option Twin
  discards : List Nat
  roleA    : TwinRole
  roleB    : TwinRole
  accepted : List Nat
  failover : Bool

/-- The line-up of the module. -/
def State.lineup (s : State) : Lineup :=
  { now := s.now, pcycle := s.pcycle, resetN := s.resetN, boot := s.boot, life := { s.life with halted := [] }, failStop := s.failStop,
    active := s.active, egress := s.egress, discards := s.sw.discards, roleA := s.twinA.role, roleB := s.twinB.role,
    accepted := s.rreqs.map Prod.fst, failover := s.sticky.getLsbD 9 }

/-- The line-up with the role of a twin. -/
def Lineup.withRole (g : Lineup) (w : Twin) (r : TwinRole) : Lineup :=
  match w with
  | .a => { g with roleA := r }
  | .b => { g with roleB := r }

/-- The role of a twin in a line-up. -/
def Lineup.role (g : Lineup) : Twin → TwinRole
  | .a => g.roleA
  | .b => g.roleB

theorem State.lineup_role (s : State) (w : Twin) : s.lineup.role w = (s.twin w).role := by cases w <;> rfl

theorem State.updTwin_lineup (s : State) (w : Twin) (f : TwinSt → TwinSt) :
    (s.updTwin w f).lineup = s.lineup.withRole w (f (s.twin w)).role := by cases w <;> rfl

theorem State.updTwin_lineup_same (s : State) (w : Twin) {f : TwinSt → TwinSt} (h : (f (s.twin w)).role = (s.twin w).role) :
    (s.updTwin w f).lineup = s.lineup := by
  rw [State.updTwin_lineup, h]
  cases w <;> rfl

theorem Noted.lineup {s t : State} (h : Noted s t) : t.lineup = s.lineup := h.eq State.lineup (Eq.refl _)

theorem Sent.lineup {s t : State} (h : Sent s t) : t.lineup = s.lineup := h.eq State.lineup (Eq.refl _)

theorem Woken.lineup {s t : State} (h : Woken s t) : t.lineup = s.lineup := by
  have hrole : ∀ w, (t.twin w).role = (s.twin w).role := fun w => congrArg TwinPosture.role (h.twin w).posture
  have hrest : t.lineup = { s.lineup with roleA := t.twinA.role, roleB := t.twinB.role } :=
    h.eq (fun u => ({ u.lineup with roleA := t.twinA.role, roleB := t.twinB.role } : Lineup)) (Eq.refl _)
  rw [hrest]
  exact congrArg₂ (fun a b => ({ s.lineup with roleA := a, roleB := b } : Lineup)) (hrole .a) (hrole .b)

section
variable (s : State)

theorem TwinSt.abort_role (x : TwinSt) (confirm : Bool) (now from_ : Nat) (secure : Bool) (status q : Nat) :
    (x.abort confirm now from_ secure status q).role = x.role := by
  unfold TwinSt.abort
  split
  · split
    · rfl
    · refine Eq.trans (congrArg TwinPosture.role (TwinSt.applyFin_posture _ q)) ?_
      exact congrArg TwinPosture.role (x.dropTasks_posture now q (fun _ => true) true)
  · rfl

theorem State.abortWhere_lineup (p : TwinSt → Nat → Req → Bool) (status : Nat) : (s.abortWhere p status).lineup = s.lineup := by
  have hroles : ∀ (l : List Nat) (x : TwinSt) (c d : Bool) (n f st : Nat),
      (l.foldl (fun y q => TwinSt.abort y c n f d st q) x).role = x.role :=
    fun l x c d n f st => foldl_keeps (p := TwinSt.role) (fun y q => y.abort_role c n f d st q) l x
  unfold State.abortWhere
  extract_lets conf hits sel back undo ends v
  have hv : v.lineup = s.lineup := (Noted.voidDraws s _ _ _).lineup
  rw [← hv]
  unfold State.lineup
  dsimp only
  rw [hroles, hroles, List.map_map]
  rfl

theorem State.cancelSwap_lineup : s.cancelSwap.lineup = s.lineup := by
  unfold State.cancelSwap
  split
  · exact (Noted.event _ _ _ _ _).lineup
  · rfl

theorem State.lockNow_lineup (cause status origin : Nat) : (s.lockNow cause status origin).lineup = s.lineup := by
  have habort := s.abortWhere_lineup (fun _ _ r => r.space != adminSpace) status
  unfold State.lockNow
  dsimp only
  split
  · exact habort
  · rw [State.cancelSwap_lineup, (Noted.event _ _ _ _ _).lineup]
    exact habort

theorem State.setReg_lineup (evid : Bool) (g : AlmReg) : (s.setReg evid g).lineup = s.lineup := by
  unfold State.setReg
  split <;> rfl

theorem State.appendRaw_lineup (evid : Bool) (r : AlmRec) (merge : Bool) : (s.appendRaw evid r merge).lineup = s.lineup := by
  unfold State.appendRaw
  dsimp only
  split
  · split
    · exact s.setReg_lineup _ _
    · exact s.setReg_lineup _ _
  · exact s.setReg_lineup _ _

theorem State.ownRec_lineup (id sev : Nat) (d : Bytes) : (s.ownRec id sev d).2.lineup = s.lineup :=
  (Noted.stamped s almanacIsl).lineup

theorem State.highWater_lineup : s.highWater.lineup = s.lineup := by
  unfold State.highWater
  split
  · rfl
  · dsimp only
    split
    · rw [State.appendRaw_lineup, State.ownRec_lineup]
      rfl
    · exact (Noted.event _ _ _ _ _).lineup

theorem State.afterEv_lineup : s.afterEv.lineup = s.lineup := by
  unfold State.afterEv
  dsimp only
  split
  · unfold State.evidenceFull
    dsimp only
    rw [State.lockNow_lineup, State.appendRaw_lineup]
    exact (s.highWater.ownRec_lineup 0x0003 sevEvid (toLe 4 130815)).trans s.highWater_lineup
  · exact s.highWater_lineup

theorem State.writeDraws_lineup : s.writeDraws.lineup = s.lineup := by
  have h : ∀ (k : Nat) (s : State), (s.flushDraws k).lineup = s.lineup := by
    intro k
    induction k with
    | zero => exact fun _ => rfl
    | succ k ih =>
      intro s
      unfold State.flushDraws
      split
      · dsimp only
        rw [ih, State.afterEv_lineup, foldl_keeps (p := State.lineup) (fun s e => s.appendRaw_lineup _ _ _)]
        rfl
      · rfl
  exact h _ s

theorem State.noteOffline_lineup (w : Twin) (code isl : Nat) : (s.noteOffline w code isl).lineup = s.lineup := by
  unfold State.noteOffline
  split
  · exact (Noted.eventU _ _ _ _).lineup
  · rfl

theorem State.unsend_lineup (w : Twin) : (s.unsend w).lineup = s.lineup := by
  unfold State.lineup State.unsend
  dsimp only
  rw [List.map_map]
  rfl

theorem State.deliverIn_lineup (w : Twin) (h : Hold) (b : Bytes) : (s.deliverIn w h b).lineup = s.lineup := by
  unfold State.deliverIn
  extract_lets qs u
  have hu : u.lineup = s.lineup := by
    unfold State.lineup
    dsimp only [u]
    rw [List.map_map]
    congr 1
    refine List.map_congr_left (fun e _ => ?_)
    dsimp only [Function.comp]
    split <;> rfl
  rw [← hu]
  refine foldl_keeps (p := State.lineup) (fun v q => ?_) qs u
  split
  · exact v.updTwin_lineup_same w (congrArg TwinPosture.role (TwinSt.finish_posture _ _ _ _ _))
  · rfl

theorem State.abandonTests_lineup (w : Twin) : (s.abandonTests w).lineup = s.lineup :=
  foldl_keeps (p := State.lineup) (fun u _ => u.deliverIn_lineup _ _ _) _ s

theorem State.setSticky_lineup (m : BitVec 12) : (s.setSticky m).lineup =
    { s.lineup with failover := s.lineup.failover || m.getLsbD 9 } := by
  unfold State.setSticky State.lineup
  simp

theorem State.swapNow_lineup (stamp : Nat) (byBoot : Bool) : (s.swapNow stamp byBoot).lineup = s.lineup := by
  have hload : ∀ u : State, u.loadPinned.lineup = u.lineup := by
    intro u
    unfold State.loadPinned
    split <;> rfl
  unfold State.swapNow
  split
  · rfl
  · extract_lets old v new_ x y z
    have hz : z.lineup = s.lineup := by
      dsimp only [z]
      split
      · rfl
      · refine (foldl_keeps (p := State.lineup) (fun u m => (Sent.disableMbx u _ _).lineup) _ _).trans ?_
        rw [hload]
        rfl
    rw [(Noted.note _ _).lineup, State.setSticky_lineup, hz, show attnSwapped.getLsbD 9 = false by decide, Bool.or_false]

end

end Sys2Proof.Machine
end

section
/-! The promotion of the standby (R339, R341). -/

namespace Sys2Proof.Machine

/-- A change that leaves the line-up, and every request of a twin but one. -/
def Onward (w : Twin) (q : Nat) (s t : State) : Prop :=
  t.lineup = s.lineup ∧ ∀ p, p ≠ q → SameReq p (s.twin w) (t.twin w)

section
variable {w : Twin} {q : Nat} {s t u : State}

theorem Onward.trans (h : Onward w q s t) (k : Onward w q t u) : Onward w q s u :=
  ⟨k.1.trans h.1, fun p hp => (h.2 p hp).trans (k.2 p hp)⟩

theorem Noted.onward (h : Noted s t) : Onward w q s t :=
  ⟨h.lineup, fun _ _ => .of_reqs (h.twin_eq w TwinSt.reqs (Eq.refl _))⟩

theorem Onward.updTwin {f : TwinSt → TwinSt} (hr : (f (s.twin w)).role = (s.twin w).role)
    (hq : ∀ p, p ≠ q → SameReq p (s.twin w) (f (s.twin w))) : Onward w q s (s.updTwin w f) :=
  ⟨s.updTwin_lineup_same w hr, fun p hp => by rw [State.updTwin_same]; exact hq p hp⟩

theorem SameReq.updReq_other {p q : Nat} (h : p ≠ q) (x : TwinSt) (f : Req → Req) : SameReq p x (x.updReq q f) := by
  unfold SameReq
  rw [TwinSt.find?_updReq, if_neg h]

theorem Onward.keepSure (r : Req) : Onward w q s (s.keepSure w r) := by
  unfold State.keepSure
  refine Onward.trans (t := ({ s with nvm := applyEffects s.now s.nvm (r.sure.map Effect.forNvm) } : State)) ⟨Eq.refl _, fun _ _ => .of_reqs (Eq.refl _)⟩ ?_
  refine Onward.trans ?_ (Noted.foldl (fun u v => Noted.note u _) _ _).onward
  exact .updTwin (Eq.refl _) (fun _ _ => .of_reqs (Eq.refl _))

/-- The request of a twin is neither in mismatch nor without a first end record where it has ended. -/
def Plain (x : TwinSt) (q : Nat) (first : Option Twin) : Prop :=
  ∀ r, Tbl.find? x.reqs q = some r → r.mismatch = false ∧ (r.fin.isSome = true → first.isSome = true)

theorem Plain.of_sameReq {x y : TwinSt} {first : Option Twin} (h : Plain x q first) (k : SameReq q x y) : Plain y q first := by
  intro r hr
  unfold SameReq at k
  rw [hr] at k
  obtain ⟨r', hr', hc⟩ := Option.map_eq_some_iff.mp k.symm
  obtain ⟨hm, hf⟩ := h r' hr'
  have hmis : r'.mismatch = r.mismatch := (congrArg Req.mismatch hc : r'.core.mismatch = r.core.mismatch)
  have hfin : r'.fin = r.fin := (congrArg Req.fin hc : r'.core.fin = r.core.fin)
  exact ⟨hmis.symm.trans hm, fun hs => hf (by rwa [hfin])⟩

/-- What a promotion makes of the request that it discards in the new active (R341). -/
def State.discardReq (s : State) (w : Twin) (q : Nat) (rr : RReq) : State :=
  match Tbl.find? (s.twin w).reqs q with
  | some r =>
    let s := s.updTwin w (fun x => (x.dropTasks s.now q (fun _ => true) true).updReq q (fun r =>
      { r with relayFirst := rr.first, relayUndo := rr.undo }))
    if r.stands then
      let s := s.updTwin w (fun x => x.applyFin q)
      match r.fin with
      | some e =>
        let s := if rr.first.isNone then s.relayWrite w q r e else s
        if r.mismatch ∧ r.reexec.isSome then s.settleMismatch w q 2 else s
      | none => s
    else (s.keepSure w r).voidDraws true (fun p => p == q) stDiscarded
  | none => s.voidDraws true (fun p => p == q) stDiscarded

theorem State.discardReq_onward {rr : RReq} (h : Plain (s.twin w) q rr.first) : Onward w q s (s.discardReq w q rr) := by
  have hvoid : ∀ u : State, Onward w q u (u.voidDraws true (fun p => p == q) stDiscarded) := fun u => (Noted.voidDraws u _ _ _).onward
  unfold State.discardReq
  split
  · next r hr =>
    obtain ⟨hm, hfin⟩ := h r hr
    extract_lets y z
    have hy : Onward w q s y :=
      .updTwin (congrArg TwinPosture.role (TwinSt.dropTasks_posture _ s.now q (fun _ => true) true))
        (fun p hp => (SameReq.dropTasks _ s.now q (fun _ => true) true).trans (.updReq_other hp _ _))
    have hz : Onward w q y z := .updTwin (congrArg TwinPosture.role (TwinSt.applyFin_posture _ q)) (fun p _ => .applyFin _ _)
    split
    · split
      · next e he =>
        have hfirst : rr.first.isNone = false := by simpa using hfin (by rw [he]; rfl)
        rw [if_neg (by simp [hm]), if_neg (by simp [hfirst])]
        exact hy.trans hz
      · exact hy.trans hz
    · exact hy.trans ((Onward.keepSure r).trans (hvoid _))
  · exact hvoid s

/-- A request discarded leaves the line-up and the other requests. -/
theorem State.discard_onward {rr : RReq} (h : Plain (s.twin w) q rr.first) : Onward w q s (s.discard w q rr) := by
  have hd : Onward w q s (s.dropDialogue q) := ⟨Eq.refl _, fun _ _ => .of_reqs (Eq.refl _)⟩
  refine (hd.trans (State.discardReq_onward h)).trans ?_
  change Onward w q _ (((s.dropDialogue q).discardReq w q rr).updTwin w _)
  refine .updTwin (Eq.refl _) (fun p hp => ?_)
  have hdel : ∀ (c : Prop) [Decidable c] (l : Tbl Req), Tbl.find? (if c then l else Tbl.del l q) p = Tbl.find? l p := by
    intro c _ l
    split
    · rfl
    · rw [Tbl.find?_del, if_neg hp]
  exact congrArg (Option.map Req.core) (hdel _ _)

/-- The requests of a list discarded in its order. -/
theorem State.discards_lineup (l : List (Nat × RReq)) (s : State) (hl : (l.map Prod.fst).Nodup)
    (h : ∀ e ∈ l, Plain (s.twin w) e.1 e.2.first) :
    (l.foldl (fun s (e : Nat × RReq) => s.discard w e.1 e.2) s).lineup = s.lineup := by
  induction l generalizing s with
  | nil => rfl
  | cons a l ih =>
    obtain ⟨ha, hl⟩ := List.nodup_cons.mp hl
    have hstep := State.discard_onward (h a (List.mem_cons_self ..))
    refine (ih (s.discard w a.1 a.2) hl (fun e he => ?_)).trans hstep.1
    refine (h e (List.mem_cons_of_mem _ he)).of_sameReq (hstep.2 e.1 (fun heq => ha ?_))
    exact heq ▸ List.mem_map_of_mem he

/-- What an end record wrote in NVM, taken back. -/
theorem State.unwrites_keeps (l : List (Nat × RReq)) (s : State) (old : Twin) :
    let u := l.foldl (fun s (e : Nat × RReq) => if s.standsIn w e.1 then s else s.unwrite old e.2) s
    u.lineup = s.lineup ∧ u.twin w = s.twin w := by
  have h : ∀ (s : State) (e : Nat × RReq), let u := if s.standsIn w e.1 then s else s.unwrite old e.2
      (u.lineup, u.twin w) = (s.lineup, s.twin w) := by
    intro s e
    dsimp only
    split
    · rfl
    · unfold State.unwrite
      split <;> rfl
  exact Prod.mk.inj (foldl_keeps (p := fun s : State => (s.lineup, s.twin w)) h l s)

end

/-- A twin that departs is DEGRADED or OFFLINE (R347). -/
theorem TwinSt.depart_role (x : TwinSt) (w : Twin) (ops code isl : Nat) :
    (x.depart w ops code isl).role = .degraded ∨ (x.depart w ops code isl).role = .offline := by
  have h : ∀ (c : Prop) [Decidable c], (if c then TwinRole.offline else .degraded) = .degraded ∨
      (if c then TwinRole.offline else .degraded) = .offline := by
    intro c _
    split <;> simp
  exact h _

theorem State.roleReport_lineup (s : State) : s.roleReport.lineup = s.lineup := (State.roleReport_woken s).lineup

/-- The line-up with a new active twin, before the old one departs. -/
def Lineup.promoted (g : Lineup) (w : Twin) : Lineup := ({ g with active := some w, egress := some w } : Lineup).withRole w .active

/-- The line-up with the replies owed (R342). -/
def Lineup.owing (g : Lineup) (l : List Nat) : Lineup := { g with discards := l, failover := true }

/-- The line-up that a promotion leaves (R339, R341). -/
theorem State.promote_lineup {s : State} {w : Twin} (old : Twin) (hids : (s.rreqs.map Prod.fst).Nodup)
    (hmis : ∀ p ∈ (s.twin w).reqs, p.2.mismatch = false)
    (hreq : ∀ e ∈ s.rreqs, ∃ r, Tbl.find? (s.twin w).reqs e.1 = some r ∧ r.secure = false ∧
      (r.fin.isSome = true → e.2.first.isSome = true)) :
    ∃ r life, (r = TwinRole.degraded ∨ r = .offline) ∧ (s.promote w old).lineup =
      ((({ s.lineup with life := life } : Lineup).promoted w).withRole old r).owing (s.rreqs.map Prod.fst) := by
  have hbad : (s.twin w).reqs.any (fun (p : Nat × Req) => p.2.mismatch && p.2.reexec == some false) = false := by
    rw [List.any_eq_false]
    intro p hp
    simp [hmis p hp]
  have hall : s.rreqs.filter (fun (e : Nat × RReq) =>
      !(match Tbl.find? (s.twin w).reqs e.1 with | some r => r.secure | none => false)) = s.rreqs := by
    rw [List.filter_eq_self]
    intro e he
    obtain ⟨r, hr, hs, -⟩ := hreq e he
    simp [hr, hs]
  unfold State.promote
  extract_lets bad o life s1 list s3 s4 s5 s6 s7 s8 sw health s9 stamp s10 s11
  obtain ⟨h1, hrreqs, htwin⟩ : s1.lineup = { s.lineup with life := s1.lineup.life } ∧ s1.rreqs = s.rreqs ∧ s1.twin w = s.twin w := by
    dsimp only [s1]
    split <;> exact ⟨rfl, rfl, rfl⟩
  have hlist : list = s.rreqs := by
    dsimp only [list]
    rw [hrreqs, htwin]
    exact hall
  have h4 : s4.lineup = ({ s.lineup with life := s1.lineup.life } : Lineup).promoted w := by
    have hids3 : s3.rreqs.map Prod.fst = s1.rreqs.map Prod.fst := by
      dsimp only [s3]
      rw [List.map_map]
      rfl
    have h3 : s3.lineup = { s1.lineup with active := some w, egress := some w } := by
      unfold State.lineup
      rw [hids3]
    rw [State.updTwin_lineup, h3, h1]
    rfl
  obtain ⟨h5, htwin5⟩ := State.unwrites_keeps (w := w) list.reverse s4 old
  have h6 : s6.lineup = s5.lineup := by
    refine State.discards_lineup list s5 (by rwa [hlist]) (fun e he => ?_)
    intro r hr
    have hreqs : (s5.twin w).reqs = (s.twin w).reqs := by
      rw [htwin5, ← htwin]
      dsimp only [s4]
      rw [State.updTwin_same]
      rfl
    rw [hreqs] at hr
    obtain ⟨r', hr', -, hfirst⟩ := hreq e (hlist ▸ he)
    obtain rfl : r' = r := Option.some.inj (hr'.symm.trans hr)
    exact ⟨hmis _ (Tbl.mem_of_find? hr), hfirst⟩
  have h8 : s8.lineup = s7.lineup := by
    rw [State.writeDraws_lineup, State.noteOffline_lineup, State.unsend_lineup]
  have h10 : s10.lineup = s8.lineup.owing (s.rreqs.map Prod.fst) := by
    rw [(Noted.switchEvent _ _ _).lineup, (Noted.switchEvent _ _ _).lineup, State.setSticky_lineup, ← hlist,
      show attnFailover.getLsbD 9 = true by decide, Bool.or_true]
    rfl
  have h11 : s11.lineup = s10.lineup := by
    dsimp only [s11]
    split
    · split
      · exact State.swapNow_lineup _ _ _
      · rfl
    · rfl
  refine ⟨_, s1.lineup.life, (s6.twin old).depart_role old s6.opSeconds o.cause o.causeIsl, ?_⟩
  rw [if_neg (Bool.eq_false_iff.mp hbad), (Woken.wakeTwin _ _).lineup, (Woken.wakeTwin _ _).lineup, State.abandonTests_lineup,
    State.roleReport_lineup, h11, h10, h8, State.updTwin_lineup, h6, h5, h4]

theorem promotion_promotes {s : State} {t : Nat} {w old : Twin} (ho : w = otherTwin old) (hf : s.failStop = false)
    (hold : s.sw.old = some old) (hsw : s.sw.switching = true) (ha : s.active = none) (hr : (s.twin w).role = .healthy)
    (hids : (s.rreqs.map Prod.fst).Nodup) (hmis : ∀ p ∈ (s.twin w).reqs, p.2.mismatch = false)
    (hreq : ∀ e ∈ s.rreqs, ∃ r, Tbl.find? (s.twin w).reqs e.1 = some r ∧ r.secure = false ∧
      (r.fin.isSome = true → e.2.first.isSome = true)) : Completes (.promotion t) s (fun t' =>
        t'.active = some w ∧ t'.egress = some w ∧ (t'.twin w).role = .active ∧
        ((t'.twin old).role = .degraded ∨ (t'.twin old).role = .offline) ∧ t'.sw.discards = s.rreqs.map Prod.fst ∧
        t'.sticky.getLsbD 9 = true ∧ t'.rreqs.map Prod.fst = s.rreqs.map Prod.fst) := by
  have hexec : exec (.promotion t) s = .next (settle s ((s.at t).promote w old)) := by
    change execPromotion t s = _
    unfold execPromotion
    refine ev_of_eq ?_
    rw [State.at_sw, hold, ho]
    exact if_pos ⟨by simpa using hsw, by simpa using ha, by simpa using hf, by simpa [ho] using hr⟩
  obtain ⟨r, _, hrole, hl⟩ := State.promote_lineup (s := s.at t) (w := w) old (by simpa using hids) (by simpa using hmis)
    (by simpa using hreq)
  refine Completes.of_settled hexec ?_
  have hset : (settle s ((s.at t).promote w old)).lineup = ((s.at t).promote w old).lineup := rfl
  generalize settle s ((s.at t).promote w old) = v at *
  rw [hl] at hset
  have hroles := fun x => (v.lineup_role x).symm.trans (congrArg (Lineup.role · x) hset)
  have hactive := congrArg Lineup.active hset
  have hegress := congrArg Lineup.egress hset
  have hdisc := congrArg Lineup.discards hset
  have hacc := congrArg Lineup.accepted hset
  have hbit := congrArg Lineup.failover hset
  subst ho
  cases old <;> exact ⟨hactive, hegress, hroles _, by rw [hroles]; exact hrole, hdisc, hbit, hacc⟩

end Sys2Proof.Machine
end
section
/-! The switch-over, settled. -/

namespace Sys2Proof.Machine

/-- Settles O34: isolation opens the selector; the promotion leaves the line-up that `State.promote_lineup` names; a `DISCARDED` reply
leaves its request, and the last of them ends the switch-over. -/
theorem switchOver : Obligations.SwitchOver := by
  unfold Obligations.SwitchOver
  intro s t w old ho hf
  refine ⟨fun ha hg => egressIsolation_isolates ha hg hf, ?_, fun q l rr hs ha hr hd h3 => discardedReplyPost_posts hs ha hf hr hd h3,
    fun ha => ⟨fun hd hsw => newWorkAccept_done ha hf hd hsw, fun hd ht => exec_newWorkAccept_late ha hf hd ht⟩⟩
  intro hold hsw ha hr _ hids hmis hreq
  refine promotion_promotes ho hf hold hsw ha hr hids hmis (fun e he => ?_)
  obtain ⟨r, hr, hs, hfin⟩ := hreq e he
  refine ⟨r, hr, hs, fun hsome => ?_⟩
  obtain ⟨hnone, -⟩ | ⟨_, _, _, _, hfirst⟩ := hfin
  · simp [hnone] at hsome
  · exact hfirst

end Sys2Proof.Machine
end

section
/-! Records appended and merged, the full evidence region, and health reports (R352, R373 to R382). -/

namespace Sys2Proof.Machine

/-! What records and LOCK leave of the fill of the evidence region. -/

/-- How far the evidence region is filled, and whether its last ordinary position is taken. -/
def State.fill (s : State) : Nat × Bool := (s.alm.ev.next, s.alm.full)

section
variable (s : State)

theorem State.stamped_fill (isl : Nat) : (s.stamped isl).fill = s.fill := by simp [State.fill]

theorem State.note_fill (e : EvReq) : (s.note e).fill = s.fill := by
  unfold State.note
  by_cases hev : e.sev = sevEvid
  · rw [if_pos hev]
    split
    · rfl
    · split <;> rfl
  · rw [if_neg hev]
    split <;> rfl

theorem State.event_fill (id sev origin : Nat) (d : Bytes) : (s.event id sev origin d).fill = s.fill := by
  unfold State.event
  rw [State.note_fill, State.stamped_fill]

theorem State.voidDraws_fill (also : Bool) (p : Nat → Bool) (status : Nat) : (s.voidDraws also p status).fill = s.fill := by
  unfold State.voidDraws
  refine foldl_keeps (p := State.fill) (fun s d => ?_) _ s
  exact s.stamped_fill almanacIsl

theorem State.lockNow_fill (cause status origin : Nat) : (s.lockNow cause status origin).fill = s.fill := by
  have habort : (s.abortWhere (fun _ _ r => r.space != adminSpace) status).fill = s.fill := s.voidDraws_fill _ _ _
  unfold State.lockNow State.cancelSwap
  dsimp only
  split
  · exact habort
  · split
    · rw [State.event_fill]
      exact (State.event_fill _ _ _ _ _).trans habort
    · exact (State.event_fill _ _ _ _ _).trans habort

theorem State.lockNow_lock (cause status origin : Nat) : (s.lockNow cause status origin).tamper.lock = true := by
  obtain ⟨_, ⟨_, _, _, hg⟩, _⟩ := s.lockNow_locked cause status origin
  exact congrArg (fun g : Guarded => g.tamper.lock) hg

theorem State.evidenceFull_leaves (h : s.alm.ev.next = 130816) :
    s.evidenceFull.alm.full = true ∧ s.evidenceFull.tamper.lock = true ∧ s.evidenceFull.alm.ev.next = 130817 := by
  unfold State.evidenceFull
  extract_lets r v a u
  have hu : (u.appendRaw true r.1 false).fill = (130817, true) := by
    have halm : u.alm = { s.alm with full := true } :=
      congrArg (fun a : Almanac => ({ a with full := true } : Almanac)) (s.stamped_alm almanacIsl)
    unfold State.appendRaw
    dsimp only
    split <;> simp [State.fill, State.appendRaw.put, State.setReg, State.reg, halm, h]
  have hfill := (State.lockNow_fill (u.appendRaw true r.1 false) 2 stLocked 3).trans hu
  exact ⟨congrArg Prod.snd hfill, State.lockNow_lock _ _ _ _, congrArg Prod.fst hfill⟩

end

section
variable {s : State}

theorem State.highWater_done (hh : s.alm.highDone = true) : s.highWater = s := if_pos (.inr hh)

theorem State.afterEv_before (hh : s.alm.highDone = true) (h : s.alm.ev.next ≠ 130816) : s.afterEv = s := by
  unfold State.afterEv
  rw [State.highWater_done hh]
  exact if_neg h

theorem State.afterEv_full (hh : s.alm.highDone = true) (h : s.alm.ev.next = 130816) :
    s.afterEv.alm.full = true ∧ s.afterEv.tamper.lock = true ∧ s.afterEv.alm.ev.next = 130817 := by
  have hfull : s.afterEv = s.evidenceFull := by
    unfold State.afterEv
    rw [State.highWater_done hh]
    exact if_pos h
  rw [hfull]
  exact s.evidenceFull_leaves h

end

/-! Records appended. -/

section
variable {s : State} {t : Nat} {e : EvReq} {l : List EvReq}

/-- Whether a record cannot merge into the newest of its region (R374). -/
def AlmReg.Fresh (g : AlmReg) (r : AlmRec) : Prop := ∀ p, Tbl.find? g.recs (seqPrev g.next) = some p → p.merges r = false

/-- The region with a record appended at its end. -/
def AlmReg.appended (g : AlmReg) (evid : Bool) (now : Nat) (r : AlmRec) : AlmReg :=
  { g with recs := Tbl.put g.recs g.next { r with chain := g.chainOf evid g.next r }, next := (g.next + 1) % 2 ^ 32, pend := false
           lastWr := if g.pend then some now else g.lastWr }

theorem State.appendRaw_fresh {evid : Bool} {r : AlmRec} (hr : (s.reg evid).Fresh r)
    (hfull : evid = true ∨ ((s.reg evid).next + 2 ^ 32 - (s.reg evid).oldest) % 2 ^ 32 ≠ 1048576) :
    s.appendRaw evid r true = s.setReg evid ((s.reg evid).appended evid s.now r) := by
  have hput : State.appendRaw.put s evid (s.reg evid) r = s.setReg evid ((s.reg evid).appended evid s.now r) := by
    have hc : ¬ ((!evid && ((s.reg evid).next + 2 ^ 32 - (s.reg evid).oldest) % 2 ^ 32 == 1048576) = true) := by
      intro hc
      simp only [Bool.and_eq_true, Bool.not_eq_true', beq_iff_eq] at hc
      obtain ⟨hgen, hc⟩ := hc
      obtain rfl | h := hfull
      · cases hgen
      · exact h hc
    unfold State.appendRaw.put
    dsimp only
    rw [if_neg hc]
    rfl
  unfold State.appendRaw
  dsimp only
  split
  · next p hp => rw [if_neg (by simp [hr p hp]), hput]
  · exact hput

/-- The state with the front of the general queue taken. -/
def State.takenGeneral (s : State) (l : List EvReq) : State := { s with alm := { s.alm with gen := { s.alm.gen with queue := l } } }

theorem State.takenGeneral_recOf : ((s.at t).takenGeneral l).recOf e = s.recOf e := rfl

theorem State.appendReq_general (v : State) (hsev : e.sev ≠ sevEvid) : v.appendReq e = v.appendRaw false (v.recOf e) true :=
  if_neg hsev

theorem State.appendRaw_dropped (v : State) (r : AlmRec) (m : Bool) : (v.appendRaw false r m).alm.dropped = v.alm.dropped := by
  have hset : ∀ g, (v.setReg false g).alm.dropped = v.alm.dropped := fun _ => rfl
  unfold State.appendRaw
  dsimp only
  split
  · split <;> exact hset _
  · exact hset _

theorem exec_almanacAppend_general (hruns : s.almRuns = true) (hq : s.alm.gen.queue = e :: l) (hsev : e.sev ≠ sevEvid)
    (hd : s.alm.dropped = 0) : exec (.almanacAppend t .general) s = .next (settle s
      (((s.at t).takenGeneral l).appendRaw false (s.recOf e) true)) := by
  change execAlmanacAppend t .general s = _
  unfold execAlmanacAppend
  refine ev_of_eq ?_
  have hruns' : ¬ ¬ (s.at t).almRuns = true := not_not.mpr hruns
  have hq' : (s.at t).alm.gen.queue = e :: l := hq
  rw [if_neg hruns']
  dsimp only
  rw [hq']
  change (if (((s.at t).takenGeneral l).appendReq e).alm.dropped = 0 then (((s.at t).takenGeneral l).appendReq e) else _) = _
  rw [State.appendReq_general _ hsev, State.takenGeneral_recOf, 
    if_pos ((State.appendRaw_dropped ((s.at t).takenGeneral l) _ _).trans hd)]

theorem almanacAppend_general_fresh (hruns : s.almRuns = true) (hq : s.alm.gen.queue = e :: l) (hsev : e.sev ≠ sevEvid)
    (hd : s.alm.dropped = 0) (hf : s.alm.gen.Fresh (s.recOf e))
    (hfull : (s.alm.gen.next + 2 ^ 32 - s.alm.gen.oldest) % 2 ^ 32 ≠ 1048576) : Completes (.almanacAppend t .general) s (fun t' =>
      t'.alm.gen.queue = l ∧ t'.alm.gen.next = (s.alm.gen.next + 1) % 2 ^ 32 ∧ t'.alm.ev = s.alm.ev ∧
      Tbl.find? t'.alm.gen.recs s.alm.gen.next = some { s.recOf e with chain := s.alm.gen.chainOf false s.alm.gen.next (s.recOf e) }) := by
  refine Completes.of_settled (exec_almanacAppend_general hruns hq hsev hd) ?_
  dsimp only
  rw [State.appendRaw_fresh (s := (s.at t).takenGeneral l) (evid := false) (r := s.recOf e) hf (.inr hfull), settle_alm]
  exact ⟨rfl, rfl, rfl, Tbl.find?_put_same _ _ _⟩

theorem almanacAppend_general_merges {p : AlmRec} (hruns : s.almRuns = true) (hq : s.alm.gen.queue = e :: l) (hsev : e.sev ≠ sevEvid)
    (hd : s.alm.dropped = 0) (hp : Tbl.find? s.alm.gen.recs (seqPrev s.alm.gen.next) = some p) (hm : p.merges (s.recOf e) = true)
    (ho : s.alm.gen.next ≠ s.alm.gen.oldest) : Completes (.almanacAppend t .general) s (fun t' => ∃ p',
      t'.alm.gen.queue = l ∧ t'.alm.gen.next = s.alm.gen.next ∧ t'.alm.gen.pend = true ∧
      Tbl.find? t'.alm.gen.recs (seqPrev s.alm.gen.next) = some p' ∧ p'.rpt = p.rpt + 1 ∧ p'.last = e.stamp) := by
  let p' : AlmRec := { p with rpt := p.rpt + 1, last := e.stamp }
  let g : AlmReg := { s.alm.gen with queue := l }
  have hmerge : ((s.at t).takenGeneral l).appendRaw false (s.recOf e) true = ((s.at t).takenGeneral l).setReg false
      { g with recs := Tbl.put g.recs (seqPrev g.next) { p' with chain := g.chainOf false (seqPrev g.next) p' }, pend := true } := by
    unfold State.appendRaw
    have hfind : Tbl.find? (((s.at t).takenGeneral l).reg false).recs (seqPrev (((s.at t).takenGeneral l).reg false).next) = some p := hp
    dsimp only
    rw [hfind]
    exact if_pos ⟨rfl, ho, hm⟩
  refine Completes.of_settled (exec_almanacAppend_general hruns hq hsev hd) ?_
  rw [hmerge, settle_alm]
  exact ⟨_, rfl, rfl, rfl, Tbl.find?_put_same _ _ _, rfl, rfl⟩

/-- The state with the front of the evidence queue taken, and the producer that has waited longest in (R380). -/
def State.takenEvidence (s : State) (l : List EvReq) : State :=
  { s with alm := { s.alm with ev := { s.alm.ev with queue := l ++ s.alm.waiting.take 1 }, waiting := s.alm.waiting.drop 1 } }

/-- The state with a record appended to the evidence region in place of the front of its queue. -/
def State.evidenceAppended (s : State) (l : List EvReq) (r : AlmRec) : State :=
  (s.takenEvidence l).setReg true (((s.takenEvidence l).reg true).appended true (s.takenEvidence l).now r)

theorem State.takenEvidence_recOf : ((s.at t).takenEvidence l).recOf e = s.recOf e := rfl

theorem State.appendReq_evidence (v : State) (hsev : e.sev = sevEvid) (hn : v.alm.ev.next < 131072) :
    v.appendReq e = (v.appendRaw true (v.recOf e) true).afterEv := by
  unfold State.appendReq State.appendEv
  rw [if_pos hsev, if_neg (fun h => absurd h.1 (Nat.not_le.mpr hn))]

theorem exec_almanacAppend_evidence (hruns : s.almRuns = true) (hq : s.alm.ev.queue = e :: l) (hsev : e.sev = sevEvid)
    (hd : s.alm.draws = []) (hf : s.alm.ev.Fresh (s.recOf e)) (hn : s.alm.ev.next ≤ 130815) :
    exec (.almanacAppend t .evidence) s = .next (settle s ((s.at t).evidenceAppended l (s.recOf e)).afterEv) := by
  change execAlmanacAppend t .evidence s = _
  unfold execAlmanacAppend
  refine ev_of_eq ?_
  have hruns' : ¬ ¬ (s.at t).almRuns = true := not_not.mpr hruns
  have hq' : (s.at t).alm.ev.queue = e :: l := hq
  have hd' : (s.at t).alm.draws = [] := hd
  have hwrite : (s.at t).writeDraws = s.at t := by
    unfold State.writeDraws
    rw [hd']
    exact rfl
  rw [if_neg hruns']
  dsimp only
  rw [hwrite]
  unfold State.takeEvidence
  rw [if_neg (not_not.mpr (by rw [hd']; rfl)), hq']
  change ((s.at t).takenEvidence l).appendReq e = _
  rw [State.appendReq_evidence ((s.at t).takenEvidence l) hsev (show s.alm.ev.next < 131072 by omega), State.takenEvidence_recOf,
    State.appendRaw_fresh (s := (s.at t).takenEvidence l) (evid := true) (r := s.recOf e) hf (.inl rfl)]
  rfl

theorem almanacAppend_evidence (hruns : s.almRuns = true) (hq : s.alm.ev.queue = e :: l) (hsev : e.sev = sevEvid)
    (hd : s.alm.draws = []) (hh : s.alm.highDone = true) (hf : s.alm.ev.Fresh (s.recOf e)) (hn : s.alm.ev.next < 130815) :
    Completes (.almanacAppend t .evidence) s (fun t' =>
      t'.alm.ev.queue = l ++ s.alm.waiting.take 1 ∧ t'.alm.waiting = s.alm.waiting.drop 1 ∧ t'.alm.ev.next = s.alm.ev.next + 1 ∧
      t'.tamper = s.tamper ∧ t'.alm.gen = s.alm.gen ∧ Tbl.find? t'.alm.ev.recs s.alm.ev.next =
        some { s.recOf e with chain := s.alm.ev.chainOf true s.alm.ev.next (s.recOf e) }) := by
  refine Completes.of_settled (exec_almanacAppend_evidence hruns hq hsev hd hf (by omega)) ?_
  have hnext : (s.alm.ev.next + 1) % 2 ^ 32 = s.alm.ev.next + 1 := by omega
  rw [State.afterEv_before (s := (s.at t).evidenceAppended l (s.recOf e)) hh (show (s.alm.ev.next + 1) % 2 ^ 32 ≠ 130816 by omega), settle_alm, settle_tamper]
  exact ⟨rfl, rfl, hnext, rfl, rfl, Tbl.find?_put_same _ _ _⟩

theorem almanacAppend_evidence_last (hruns : s.almRuns = true) (hq : s.alm.ev.queue = e :: l) (hsev : e.sev = sevEvid)
    (hd : s.alm.draws = []) (hh : s.alm.highDone = true) (hf : s.alm.ev.Fresh (s.recOf e)) (hn : s.alm.ev.next = 130815) :
    Completes (.almanacAppend t .evidence) s (fun t' =>
      t'.alm.full = true ∧ t'.tamper.lock = true ∧ t'.alm.ev.next = 130817) := by
  refine Completes.of_settled (exec_almanacAppend_evidence hruns hq hsev hd hf (by omega)) ?_
  have hfull := State.afterEv_full (s := (s.at t).evidenceAppended l (s.recOf e)) hh
    (show (s.alm.ev.next + 1) % 2 ^ 32 = 130816 by omega)
  rw [settle_alm, settle_tamper]
  exact hfull

end

end Sys2Proof.Machine
end

section
/-! Pending merges, operating time, and health reports taken (R352, R373, R375). -/

namespace Sys2Proof.Machine

section
variable {s : State} {t : Nat}

theorem exec_mergeWrite_general : exec (.mergeWrite t .general) s = .next (settle s (
    if s.alm.gen.pend = true ∧ s.alm.gen.lastWr.all (fun n => decide (n + 4000000 ≤ (s.at t).now)) = true ∧ s.almRuns = true then
      { s.at t with alm := { s.alm with gen := { s.alm.gen with pend := false, lastWr := some (s.at t).now } } }
    else s.at t)) := by
  change execMergeWrite t .general s = _
  unfold execMergeWrite
  exact ev_of_eq (Eq.refl _)

theorem exec_mergeWrite_general_due (hruns : s.almRuns = true) (hp : s.alm.gen.pend = true)
    (hn : ∀ n, s.alm.gen.lastWr = some n → n + 4000000 ≤ (s.at t).now) : exec (.mergeWrite t .general) s = .next (settle s
      { s.at t with alm := { s.alm with gen := { s.alm.gen with pend := false, lastWr := some (s.at t).now } } }) := by
  have hall : s.alm.gen.lastWr.all (fun n => decide (n + 4000000 ≤ (s.at t).now)) = true := by
    simpa only [Option.all_eq_true, decide_eq_true_eq] using hn
  rw [exec_mergeWrite_general, if_pos ⟨hp, hall, hruns⟩]

theorem exec_mergeWrite_general_early {n : Nat} (hl : s.alm.gen.lastWr = some n) (hn : (s.at t).now < n + 4000000) :
    exec (.mergeWrite t .general) s = .next (settle s (s.at t)) := by
  rw [exec_mergeWrite_general, if_neg]
  rintro ⟨-, hall, -⟩
  rw [hl, Option.all_some, decide_eq_true_eq] at hall
  omega

theorem exec_opSecondsRecord_due (hb : s.boot.up = true) (ho : s.alm.opsNvm + 64 ≤ (s.at t).opSeconds) :
    exec (.opSecondsRecord t) s = .next (settle s { s.at t with alm := { s.alm with opsNvm := (s.at t).opSeconds } }) := by
  change execOpSecondsRecord t s = _
  unfold execOpSecondsRecord
  refine ev_of_eq ?_
  exact if_pos ⟨hb, ho⟩

/-! A report. -/

theorem State.healthyStandby_of_lineup {u : State} (h : u.lineup = s.lineup) : u.healthyStandby = s.healthyStandby := by
  have ha : u.active = s.active := congrArg Lineup.active h
  have hr : ∀ w, (u.twin w).role = (s.twin w).role := fun w => by rw [← State.lineup_role, ← State.lineup_role, h]
  unfold State.healthyStandby
  simp only [ha, hr]

/-- A report is the bytes of the header of Table 14-8, and then the sections. -/
theorem State.healthHead_take (v : State) (ep reason : Nat) (rest : Bytes) :
    (v.healthHead ep reason ++ rest).take 6 = [0x50, 0x58, 0x48, 0x52, 1, byte reason] := by
  unfold State.healthHead
  simp only [List.append_assoc, List.cons_append]
  rfl

theorem State.reportDone_active {w : Twin} {reason : Nat} (hw : s.active = some w) (hr : reason ≠ 2) (named : Nat) (b : Bytes) :
    (s.reportDone w reason named b).health = { s.health with latest := some b } ∧
      (s.reportDone w reason named b).sticky = s.sticky ||| attnHealth := by
  have ha : ∀ u : State, u.active = some w → u.isActive w = true := fun u h => by simp [State.isActive, h]
  unfold State.reportDone
  extract_lets u v
  have hv : v = { s with health := { s.health with latest := some b } } := if_pos (ha s hw)
  rw [if_neg hr, if_pos (ha v (hv ▸ hw)), hv]
  exact ⟨rfl, rfl⟩

theorem State.takeReport_whole {w : Twin} {d : Nat × Nat} (hd : d.2 ≠ 2) (ha : s.active = some w)
    (hs : s.healthyStandby = none) : ∃ b, b.take 6 = [0x50, 0x58, 0x48, 0x52, 1, byte d.2] ∧
      (s.takeReport d).health = { s.health with seq := s.health.seq + 1, latest := some b } ∧
      (s.takeReport d).sticky = s.sticky ||| attnHealth := by
  unfold State.takeReport
  rw [if_neg (fun h => hd h.1)]
  extract_lets v x ep head a b n h z
  have hz : z.active = some w := ha
  have hh : z.healthyStandby = none := hs
  refine ⟨head ++ a ++ b, ?_, ?_⟩
  · rw [List.append_assoc]
    exact State.healthHead_take _ _ _ _
  · rw [hz, hh]
    exact State.reportDone_active hz hd _ _

theorem State.takeReport_open {w : Twin} {d : Nat × Nat} (hd : d.2 ≠ 2) (ha : s.active = some w)
    (hs : s.healthyStandby.isSome = true) : ∃ p : Snap, p.epoch = epochOf s.now ∧ p.reason = d.2 ∧ p.seq = s.health.seq + 1 ∧ p.sent = [] ∧
      p.done = [] ∧ (s.takeReport d).health = { s.health with seq := s.health.seq + 1, snaps := s.health.snaps ++ [p] } ∧
      (s.takeReport d).sticky = s.sticky := by
  obtain ⟨y, hy⟩ := Option.isSome_iff_exists.mp hs
  unfold State.takeReport
  rw [if_neg (fun h => hd h.1)]
  extract_lets v x ep head a b n h z
  have hz : z.active = some w := ha
  have hh : z.healthyStandby = some y := hy
  rw [hz, hh]
  exact ⟨_, rfl, rfl, rfl, rfl, rfl, rfl, rfl⟩

/-- The reports that are due scheduled anew, before any is taken (R352). -/
def State.reportsScheduled (s : State) : State :=
  { s with health := { s.health with schedAt := max s.health.schedAt (epochOf s.now / 100000 * 100000), due := [] } }

theorem exec_healthReportSnapshot {w : Twin} {ep r : Nat} (ha : s.active = some w) (hf : s.failStop = false)
    (ht : (s.at t).now % 4000 = 0) (hd : s.health.due = [(ep, r)]) (hep : ep ≤ epochOf (s.at t).now)
    (hr : epochOf (s.at t).now % reportStep r = 0) (hsched : epochOf (s.at t).now / 100000 * 100000 ≤ s.health.schedAt) :
    exec (.healthReportSnapshot t) s = .next (settle s (State.takeReport (((s.at t).reportsScheduled.wakeZenith .a).wakeZenith .b) (ep, r))) := by
  change execHealthReportSnapshot t s = _
  unfold execHealthReportSnapshot
  refine ev_of_eq ?_
  unfold onlyIf
  rw [if_pos (by simp [ha, hf, ht])]
  beta_reduce
  extract_lets cur sched l now_ h u v
  have hnow : now_ (ep, r) = true := by simp [now_, cur, hep, hr]
  have hl : l = [(ep, r)] := by
    dsimp only [l]
    rw [if_neg (by simpa [sched, cur] using hsched)]
    exact hd
  have hu : u = (s.at t).reportsScheduled := by
    dsimp only [u, State.reportsScheduled]
    rw [hl]
    simp [hnow, sched, cur, h]
  have hv : v = (((s.at t).reportsScheduled.wakeZenith .a).wakeZenith .b) := by
    dsimp only [v]
    rw [hl, hu]
    exact if_pos (by simp [hnow])
  rw [hl, hv]
  simp [hnow]

/-- What a report taken leaves (R352): its number is counted, and it is whole at once without a HEALTHY standby. -/
theorem healthReportSnapshot_takes {w : Twin} {ep r : Nat} (ha : s.active = some w) (hf : s.failStop = false)
    (ht : (s.at t).now % 4000 = 0) (hd : s.health.due = [(ep, r)]) (hep : ep ≤ epochOf (s.at t).now)
    (hr : epochOf (s.at t).now % reportStep r = 0) (h2 : r ≠ 2)
    (hsched : epochOf (s.at t).now / 100000 * 100000 ≤ s.health.schedAt) :
    Completes (.healthReportSnapshot t) s (fun t' => t'.health.seq = s.health.seq + 1 ∧ t'.health.due = [] ∧
      (s.healthyStandby = none → ∃ b, t'.health.latest = some b ∧ b.take 6 = [0x50, 0x58, 0x48, 0x52, 1, byte r] ∧
        t'.sticky = s.sticky ||| attnHealth) ∧
      (s.healthyStandby.isSome = true → t'.health.latest = s.health.latest ∧ t'.sticky = s.sticky ∧
        ∃ p, t'.health.snaps = s.health.snaps ++ [p] ∧ p.epoch = epochOf (s.at t).now ∧ p.reason = r ∧
          p.seq = s.health.seq + 1 ∧ p.sent = [] ∧ p.done = [])) := by
  refine Completes.of_settled (exec_healthReportSnapshot ha hf ht hd hep hr hsched) ?_
  have hwoken : Woken (s.at t).reportsScheduled (((s.at t).reportsScheduled.wakeZenith .a).wakeZenith .b) :=
    (Woken.wakeZenith _ .a).trans (.wakeZenith _ .b)
  have hhealth := hwoken.eq State.health (Eq.refl _)
  have hnow := hwoken.eq State.now (Eq.refl _)
  have hactive := hwoken.eq State.active (Eq.refl _)
  have hsticky := hwoken.eq State.sticky (Eq.refl _)
  have hstandby : (((s.at t).reportsScheduled.wakeZenith .a).wakeZenith .b).healthyStandby = s.healthyStandby :=
    State.healthyStandby_of_lineup (s := (s.at t).reportsScheduled) hwoken.lineup
  generalize ((s.at t).reportsScheduled.wakeZenith .a).wakeZenith .b = v at *
  rw [settle_health, settle_sticky]
  cases hs : s.healthyStandby with
  | none =>
    obtain ⟨b, hb, hh, hst⟩ := State.takeReport_whole (d := (ep, r)) h2 (hactive.trans ha) (hstandby.trans hs)
    rw [hh, hst, hhealth, hsticky]
    exact ⟨rfl, rfl, fun _ => ⟨b, rfl, hb, rfl⟩, fun h => absurd h Bool.false_ne_true⟩
  | some y =>
    obtain ⟨p, hep, hre, hseq, hsent, hdone, hh, hst⟩ := State.takeReport_open (d := (ep, r)) h2 (hactive.trans ha)
      (by rw [hstandby, hs]; rfl)
    rw [hh, hst, hhealth, hsticky]
    rw [hnow] at hep
    rw [hhealth] at hseq
    exact ⟨rfl, rfl, fun h => absurd h (Option.some_ne_none y), fun _ => ⟨rfl, rfl, p, rfl, hep, hre, hseq, hsent, hdone⟩⟩

end

end Sys2Proof.Machine
end

section
/-! Records and reports, settled. -/

namespace Sys2Proof.Machine

/-- Settles O37: a record goes to the end of its region or into the newest record; the last ordinary position brings LOCK; a merge and
operating time are written when they are due; a report that is due is taken. -/
theorem almanacAndReports : Obligations.AlmanacAndReports := by
  unfold Obligations.AlmanacAndReports
  intro s t
  refine ⟨fun e l hruns hq hsev hd => ⟨fun hf hfull => almanacAppend_general_fresh hruns hq hsev hd hf hfull,
      fun p hp hm ho => almanacAppend_general_merges hruns hq hsev hd hp hm ho⟩,
    fun e l hruns hq hsev hd hh hf => ⟨fun hn => almanacAppend_evidence hruns hq hsev hd hh hf hn,
      fun hn => almanacAppend_evidence_last hruns hq hsev hd hh hf hn⟩,
    fun hruns hp hn => exec_mergeWrite_general_due hruns hp hn, fun n hl hn => exec_mergeWrite_general_early hl hn,
    fun hb ho => exec_opSecondsRecord_due hb ho,
    fun w ep r ha hf ht hd hep hr h2 _ hsched => healthReportSnapshot_takes ha hf ht hd hep hr h2 hsched⟩

end Sys2Proof.Machine
end

section
/-! What the evidence queue, the services of a twin and a twin's departure leave of the line-up. -/

namespace Sys2Proof.Machine

section
variable (s : State)

theorem State.appendReq_lineup (e : EvReq) : (s.appendReq e).lineup = s.lineup := by
  unfold State.appendReq
  split
  · unfold State.appendEv
    split
    · rfl
    · rw [State.afterEv_lineup, State.appendRaw_lineup]
  · exact s.appendRaw_lineup _ _ _

theorem State.appendEv_lineup (r : AlmRec) (merge : Bool) : (s.appendEv r merge).lineup = s.lineup := by
  unfold State.appendEv
  split
  · rfl
  · rw [State.afterEv_lineup, State.appendRaw_lineup]

theorem State.takeEvidence_lineup : s.takeEvidence.lineup = s.lineup := by
  unfold State.takeEvidence
  split
  · rfl
  · split
    · rfl
    · exact State.appendReq_lineup _ _

theorem State.drainEvidence_lineup : s.drainEvidence.lineup = s.lineup :=
  foldl_keeps (p := State.lineup) (fun u _ => u.takeEvidence_lineup) _ s

/-! The services of a twin, and random service stopped (R243, R317). -/

theorem State.setTwin_lineup (w : Twin) {x : TwinSt} (h : x.role = (s.twin w).role) : (s.setTwin w x).lineup = s.lineup :=
  s.updTwin_lineup_same w (f := fun _ => x) h

theorem State.endWith_lineup (w : Twin) (q status : Nat) : (s.endWith w q status).lineup = s.lineup :=
  s.updTwin_lineup_same w (congrArg TwinPosture.role (TwinSt.finish_posture _ _ _ _ _))

theorem TwinSt.awaitRng_role (x : TwinSt) (q i : Nat) : (x.awaitRng q i).role = x.role := by
  unfold TwinSt.awaitRng
  dsimp only
  split <;> rfl

theorem TwinSt.deposit_role (x : TwinSt) (c : Cid) (a : Nat) (b : Bytes) (tag : Bool) : (x.deposit c a b tag).role = x.role := by
  unfold TwinSt.deposit
  split <;> rfl

theorem TwinSt.rng_role {x y : TwinSt} {p i n : Nat} {b : Bytes} (h : x.rng p i n = .ok b y) : y.role = x.role := by
  obtain ⟨f, rfl, -⟩ := TwinSt.rng_updReq h
  rfl

theorem State.serveOne_lineup (w : Twin) (a : Async) : (State.serveOne w s a).lineup = s.lineup := by
  have hupd : ∀ (u : State) (l : List Async), (u.updTwin w (fun x => { x with asyncs := l })).lineup = u.lineup :=
    fun u l => u.updTwin_lineup_same w rfl
  have hwait : ∀ (u : State) q i, (u.updTwin w (fun x => x.awaitRng q i)).lineup = u.lineup :=
    fun u q i => u.updTwin_lineup_same w (TwinSt.awaitRng_role _ q i)
  cases a with
  | payload q i off len dst c =>
    unfold State.serveOne
    dsimp only
    split
    · rfl
    · split
      · exact State.setTwin_lineup { s with free := _ } w (TwinSt.deposit_role (s.twin w) c dst _ false)
      · exact s.updTwin_lineup_same w rfl
  | rng q i dst len tag c =>
    unfold State.serveOne
    dsimp only
    split
    · rfl
    · split
      · next b y hy => exact s.setTwin_lineup w ((TwinSt.deposit_role y c dst b (tag == 1)).trans (TwinSt.rng_role hy))
      · exact (hwait _ _ _).trans (s.updTwin_lineup_same w rfl)
      · split
        · exact s.endWith_lineup w _ _
        · exact (hwait _ _ _).trans (s.updTwin_lineup_same w rfl)
      · exact s.endWith_lineup w _ _
  | keyGet q i k dst c =>
    unfold State.serveOne
    dsimp only
    split
    · rfl
    · split
      · exact s.setTwin_lineup w (TwinSt.deposit_role (s.twin w) c dst _ _)
      · exact s.setTwin_lineup w rfl

theorem State.serve_lineup (w : Twin) : (s.serve w).lineup = s.lineup := by
  unfold State.serve
  dsimp only
  rw [State.updTwin_lineup_same _ w (congrArg TwinPosture.role (TwinSt.wakeMem_posture _ _ _)),
    foldl_keeps (p := State.lineup) (fun u a => u.serveOne_lineup w a)]
  exact s.updTwin_lineup_same w rfl

theorem State.endRngWaits_lineup (w : Twin) : (s.endRngWaits w).lineup = s.lineup := by
  unfold State.endRngWaits
  split
  · rfl
  · exact foldl_keeps (p := State.lineup) (fun u q => u.endWith_lineup w q stRng) _ s

theorem State.stopRandom_lineup : s.stopRandom.lineup = s.lineup := by
  unfold State.stopRandom
  split
  · rfl
  · dsimp only
    split
    · rfl
    · rw [State.endRngWaits_lineup, State.endRngWaits_lineup, State.serve_lineup, State.serve_lineup, (Noted.event _ _ _ _ _).lineup]
      rfl

/-! A twin that departs. -/

/-- The line-up without the numbers of the accepted requests. -/
def State.manning (s : State) : Lineup := { s.lineup with accepted := [] }

theorem State.manning_of_lineup {s t : State} (h : t.lineup = s.lineup) : t.manning = s.manning :=
  congrArg (fun g : Lineup => ({ g with accepted := [] } : Lineup)) h

theorem State.settleMismatch_manning (w : Twin) (q row : Nat) : (s.settleMismatch w q row).manning = s.manning := by
  have hmis : ∀ comp, (s.mismatchEvent q comp row).lineup = s.lineup := fun comp => (Noted.eventU _ _ _ _).lineup
  unfold State.settleMismatch
  split
  · rfl
  · extract_lets u rr fx v
    have hv : ∀ c : Prop, ∀ [Decidable c] n l, (if c then { u with nvm := n, rreqs := l } else u : State).manning = s.manning := by
      intro c _ n l
      have hu : u.manning = s.manning := State.manning_of_lineup (hmis _)
      split <;> exact hu
    refine Eq.trans ?_ (hv (rr.first = some (otherTwin w)) (applyEffects u.now v fx) (Tbl.upd u.rreqs q (fun rr =>
      { rr with first := some w, undo := undoEffects u.now v fx })))
    refine State.manning_of_lineup ?_
    rw [(Woken.wakeTwin _ _).lineup, (Woken.wakeTwin _ _).lineup]
    exact State.updTwin_lineup_same _ w rfl

theorem State.releaseOwn_manning (w : Twin) : (s.releaseOwn w).manning = s.manning :=
  foldl_keeps (p := State.manning) (fun u q => u.settleMismatch_manning w q 2) _ s

/-- A twin in service that is degraded leaves it, DEGRADED or OFFLINE (R347). -/
theorem State.degrade_manning {s : State} {w : Twin} (h : (s.twin w).role ≠ .degraded ∧ (s.twin w).role ≠ .offline) (code isl : Nat) :
    ∃ r, (r = TwinRole.degraded ∨ r = .offline) ∧ (s.degrade w code isl).manning = s.manning.withRole w r := by
  unfold State.degrade
  rw [if_neg (not_or.mpr h)]
  extract_lets u v x y
  refine ⟨_, (u.twin w).depart_role w u.opSeconds code isl, ?_⟩
  have hx : v.lineup = u.lineup.withRole w ((u.twin w).depart w u.opSeconds code isl).role := by
    dsimp only [v]
    rw [State.unsend_lineup, State.updTwin_lineup]
  have hlast : (((State.eventU y 0x6006 (twinCode w) (toLe 2 code ++ toLe 2 isl)).noteOffline w code isl).roleReport.abandonTests w).lineup = v.lineup := by
    rw [State.abandonTests_lineup, State.roleReport_lineup, State.noteOffline_lineup, (Noted.eventU _ _ _ _).lineup]
    rfl
  rw [← s.releaseOwn_manning (otherTwin w), State.manning_of_lineup (hlast.trans rfl)]
  unfold State.manning
  rw [hx]
  cases w <;> rfl

end

end Sys2Proof.Machine
end

section
/-! A reset of the Relay, and a loss of main power (R22, R57, R368, R397, R459). -/

namespace Sys2Proof.Machine

section
variable (s : State)

theorem State.saveRecords_lineup : s.saveRecords.lineup = s.lineup := by
  have hdraws : s.saveDraws.lineup = s.lineup := by
    unfold State.saveDraws
    dsimp only
    split
    · exact s.writeDraws_lineup
    · rw [State.writeDraws_lineup, (Noted.voidDraws _ _ _ _).lineup]
      rfl
  unfold State.saveRecords
  extract_lets u q tam alm gen ev v w
  have hu : u.lineup = s.lineup := by
    dsimp only [u]
    split
    · rfl
    · exact hdraws
  have hw : w.lineup = s.lineup := v.drainEvidence_lineup.trans hu
  exact (foldl_keeps (p := State.lineup) (f := fun (s : State) e => ({ s with tamper := s.tamper.keep (s.recOf e) } : State))
    (fun _ _ => rfl) (q.filter tam) w).trans hw

theorem State.responseAtReset_lineup : s.responseAtReset.lineup = s.lineup := by
  unfold State.responseAtReset
  have h : ∀ u : State, (match u.tamper.progress with
      | some (3, _) => ({ u with tamper := { u.tamper with progress := none } } : State).retain 0x7F02 (responseDetail 3 [0xFFFE])
      | _ => u).lineup = u.lineup := by
    intro u
    split <;> rfl
  refine (h _).trans ?_
  split
  · rfl
  · dsimp only
    split
    · split <;> split <;> rfl
    · split <;> split <;> rfl

/-- What a reset keeps of the Relay's boot and of the life cycle. -/
def State.rooted (s : State) : Nat × Boot × List LcState := (s.pcycle, s.boot, s.life.fused)

theorem State.rooted_of_lineup {s t : State} (h : t.lineup = s.lineup) : t.rooted = s.rooted :=
  congrArg (fun g : Lineup => (g.pcycle, g.boot, g.life.fused)) h

theorem State.journalAtReset_rooted : s.journalAtReset.rooted = s.rooted := by
  have herase : ∀ (u : State) (f to_ : LcState), (u.eraseFor f to_).rooted = u.rooted := by
    intro u f to_
    unfold State.eraseFor
    split
    · rfl
    · dsimp only
      split
      · split <;> rfl
      · split <;> rfl
  unfold State.journalAtReset
  split
  · dsimp only
    split
    · exact herase s.fresh.2 _ _
    · rfl
  · rfl

/-- A Relay held in reset, with everything volatile gone (R22, R57). -/
structure State.Cold (s t : State) : Prop where
  up      : t.boot.up = false
  ready   : t.boot.ready = false
  resetN  : t.resetN = false
  now     : t.now = 0
  active  : t.active = none
  egress  : t.egress = none
  running : t.failStop = false
  rreqs   : t.rreqs = []
  mbxs    : t.mbxs = []
  ingress : t.ingress = []
  reqsA   : t.twinA.reqs = []
  reqsB   : t.twinB.reqs = []
  pcycle  : t.pcycle = s.pcycle
  fused   : t.life.fused = s.life.fused

theorem State.resetRelay_cold : State.Cold s s.resetRelay ∧ s.resetRelay.boot.mainOn = s.boot.mainOn := by
  unfold State.resetRelay
  have hroot : s.saveRecords.responseAtReset.journalAtReset.rooted = s.rooted := by
    rw [State.journalAtReset_rooted]
    exact State.rooted_of_lineup ((State.responseAtReset_lineup _).trans s.saveRecords_lineup)
  generalize s.saveRecords.responseAtReset.journalAtReset = v at *
  have hp : v.pcycle = s.pcycle := congrArg Prod.fst hroot
  have hb : v.boot.mainOn = s.boot.mainOn := congrArg (·.2.1.mainOn) hroot
  have hl : v.life.fused = s.life.fused := congrArg (·.2.2) hroot
  exact ⟨⟨rfl, rfl, rfl, rfl, rfl, rfl, rfl, rfl, rfl, rfl, rfl, rfl, hp, hl⟩, hb⟩

end

section
variable {s : State} {t : Nat}

theorem State.Cold.settle {u : State} (h : State.Cold s u) (v : State) : State.Cold s (settle v u) ∧ (settle v u).attnSeq = 0 :=
  ⟨⟨h.up, h.ready, h.resetN, h.now, h.active, h.egress, h.running, h.rreqs, h.mbxs, h.ingress, h.reqsA, h.reqsB, h.pcycle, h.fused⟩,
    settle_attnSeq_of_reset v h.up⟩

/-- The journal has no transition whose erasure a reset could interrupt (R396). -/
def Life.NoErasure (x : Life) : Prop := ∀ f to_ path, x.journal ≠ some (f, to_, path, false)

theorem State.saveRecords_idle (he : s.alm.ev.queue = []) (hw : s.alm.waiting = []) (hd : s.alm.draws = []) :
    ∃ alm, s.saveRecords = { s with alm := alm } := by
  have hdraws : s.saveDraws = s := by
    unfold State.saveDraws State.writeDraws
    rw [hd]
    rfl
  unfold State.saveRecords
  rw [hdraws, ite_self]
  dsimp only
  rw [he, hw]
  exact ⟨_, rfl⟩

theorem State.resetRelay_quiet (he : s.alm.ev.queue = []) (hw : s.alm.waiting = []) (hd : s.alm.draws = [])
    (hr : s.tamper.pendResp = none) (hp : s.tamper.progress = none) (hj : s.life.NoErasure) :
    s.resetRelay.nvm = s.nvm.atReset ∧ s.resetRelay.tamper.lock = s.tamper.lock ∧ s.resetRelay.tamper.mrk = s.tamper.mrk := by
  obtain ⟨alm, hsave⟩ := State.saveRecords_idle he hw hd
  have hresp : ({ s with alm := alm } : State).responseAtReset = { s with alm := alm } := by
    unfold State.responseAtReset
    simp only [hr, hp]
  have hjour : ({ s with alm := alm } : State).journalAtReset = { s with alm := alm } := by
    unfold State.journalAtReset
    split
    · next f to_ path h => exact absurd h (hj f to_ path)
    · rfl
  unfold State.resetRelay
  rw [hsave, hresp, hjour]
  exact ⟨rfl, rfl, rfl⟩

theorem resetNAssert_resets (h : s.boot.up = true) : exec (.resetNAssert t) s = .next (settle s (s.at t).resetRelay) := by
  change execResetNAssert t s = _
  unfold execResetNAssert
  refine ev_of_eq ?_
  exact if_pos h

theorem mainPowerLoss_resets (h : s.powered = true) : Completes (.mainPowerLoss t) s (fun t' =>
    (State.Cold (s.at t) t' ∧ t'.attnSeq = 0) ∧ t'.boot.mainOn = false) := by
  have hexec : exec (.mainPowerLoss t) s = .next (settle s ({ (s.at t).resetRelay with
      boot := { (s.at t).resetRelay.boot with mainOn := false, railsBack := false }
      tamper := { (s.at t).resetRelay.tamper with retained := (s.at t).resetRelay.alarms } })) := by
    change execMainPowerLoss t s = _
    unfold execMainPowerLoss
    refine ev_of_eq ?_
    exact if_pos h
  obtain ⟨hc, -⟩ := (s.at t).resetRelay_cold
  refine Completes.of_settled hexec ⟨State.Cold.settle ?_ s, rfl⟩
  generalize (s.at t).resetRelay = v at *
  exact ⟨hc.up, hc.ready, hc.resetN, hc.now, hc.active, hc.egress, hc.running, hc.rreqs, hc.mbxs, hc.ingress, hc.reqsA, hc.reqsB,
    hc.pcycle, hc.fused⟩

theorem lcSelfReset_resets {d : Nat} (hu : s.boot.up = true) (hh : s.boot.selfHeld = false) (hf : s.failStop = false)
    (hd : s.life.selfReset = some d) (ht : d ≤ (s.at t).now) : Completes (.lcSelfReset t) s (fun t' =>
      (State.Cold (s.at t) t' ∧ t'.attnSeq = 0) ∧ t'.boot.selfHeld = true ∧ t'.boot.mainOn = s.boot.mainOn ∧ t'.life.selfReset = none) := by
  have hexec : exec (.lcSelfReset t) s = .next (settle s ({ (s.at t).resetRelay with
      boot := { (s.at t).resetRelay.boot with selfHeld := true } })) := by
    change execLcSelfReset t s = _
    unfold execLcSelfReset
    refine ev_of_eq ?_
    rw [if_neg (by simp [hh])]
    exact if_pos ⟨hu, by simp [hf], by simpa [hd] using ht⟩
  obtain ⟨hc, hm⟩ := (s.at t).resetRelay_cold
  have hself : (s.at t).resetRelay.life.selfReset = none := rfl
  refine Completes.of_settled hexec ?_
  generalize (s.at t).resetRelay = v at *
  exact ⟨State.Cold.settle (u := { v with boot := { v.boot with selfHeld := true } }) ⟨hc.up, hc.ready, hc.resetN, hc.now, hc.active, hc.egress, hc.running, hc.rreqs, hc.mbxs, hc.ingress,
    hc.reqsA, hc.reqsB, hc.pcycle, hc.fused⟩ s, rfl, hm, hself⟩

end

end Sys2Proof.Machine
end

section
/-! The Relay leaves reset (R22, R23, R373, R397, R450, R459, R470). -/

namespace Sys2Proof.Machine

/-- A Relay that has left reset at a time and in a power cycle, and is not ready. -/
structure State.Risen (now pcycle : Nat) (s : State) : Prop where
  up       : s.boot.up = true
  ready    : s.boot.ready = false
  mainOn   : s.boot.mainOn = true
  selfHeld : s.boot.selfHeld = false
  resetN   : s.resetN = true
  now      : s.now = now
  pcycle   : s.pcycle = pcycle

section
variable {n p : Nat} {s : State} {t : Nat}

theorem State.Risen.of_lineup {t : State} (h : s.Risen n p) (k : t.lineup = s.lineup) : t.Risen n p := by
  have hb : t.boot = s.boot := congrArg Lineup.boot k
  have hr : t.resetN = s.resetN := congrArg Lineup.resetN k
  have hn : t.now = s.now := congrArg Lineup.now k
  have hp : t.pcycle = s.pcycle := congrArg Lineup.pcycle k
  exact ⟨hb ▸ h.up, hb ▸ h.ready, hb ▸ h.mainOn, hb ▸ h.selfHeld, hr ▸ h.resetN, hn ▸ h.now, hp ▸ h.pcycle⟩

/-- A change of the life cycle or of what the boot has found so far. -/
theorem State.Risen.withBoot (h : s.Risen n p) {b : Boot} (hu : b.up = s.boot.up) (hr : b.ready = s.boot.ready)
    (hm : b.mainOn = s.boot.mainOn) (hs : b.selfHeld = s.boot.selfHeld) : ({ s with boot := b } : State).Risen n p :=
  ⟨hu.trans h.up, hr.trans h.ready, hm.trans h.mainOn, hs.trans h.selfHeld, h.resetN, h.now, h.pcycle⟩

theorem State.Risen.eraseFor (h : s.Risen n p) (f to_ : LcState) : (s.eraseFor f to_).Risen n p := by
  obtain ⟨hu, hr, hm, hs, hn, ht, hp⟩ := h
  unfold State.eraseFor
  split
  · exact ⟨hu, hr, hm, hs, hn, ht, hp⟩
  · dsimp only
    split
    · split <;> exact ⟨hu, hr, hm, hs, hn, ht, hp⟩
    · split <;> exact ⟨hu, hr, hm, hs, hn, ht, hp⟩

theorem State.Risen.completeTransition (h : s.Risen n p) : (s.completeTransition true).Risen n p := by
  unfold State.completeTransition
  split
  · exact h
  · next f to_ path wiped _ =>
    extract_lets u d v unlocks due w x y z
    have hu : u.Risen n p := by
      dsimp only [u]
      split
      · exact h
      · exact h.eraseFor _ _
    have hv : v.Risen n p := by
      dsimp only [v]
      split
      · exact hu
      · exact hu.of_lineup (((Noted.event _ _ _ _ _).trans (.event _ _ _ _ _)).lineup)
    have hready : (if to_ = .scrapped then false else v.boot.ready) = v.boot.ready := by
      rw [hv.ready, ite_self]
    exact ⟨hv.up, hready.trans hv.ready, hv.mainOn, hv.selfHeld, hv.resetN, hv.now, hv.pcycle⟩

theorem settle_lineup (s u : State) : (settle s u).lineup = u.lineup := rfl

theorem State.swapAtBoot_lineup (s : State) : s.swapAtBoot.lineup = s.lineup := by
  unfold State.swapAtBoot
  split
  · exact s.cancelSwap_lineup
  · exact s.swapNow_lineup _ _

theorem State.endTrial_lineup (s : State) (comp : Nat) : (s.endTrial comp).lineup = s.lineup := by
  unfold State.endTrial
  split
  · exact (Noted.event _ _ _ _ _).lineup
  · rfl

theorem State.noteFallback_lineup (s : State) (comp i origin : Nat) : (s.noteFallback comp i origin).lineup = s.lineup := by
  unfold State.noteFallback
  split
  · rfl
  · exact (Noted.event _ _ _ _ _).lineup

theorem State.Risen.relayRom (h : s.Risen n p) : s.relayRom.Risen n p := by
  unfold State.relayRom
  split
  · exact h.withBoot rfl rfl rfl rfl
  · exact (h.of_lineup ((Noted.event _ _ _ _ _).lineup.trans (s.noteFallback_lineup _ _ _))).withBoot rfl rfl rfl rfl

theorem State.setSticky_lineup_of (s : State) {m : BitVec 12} (h : m.getLsbD 9 = false) : (s.setSticky m).lineup = s.lineup := by
  rw [State.setSticky_lineup, h, Bool.or_false]

theorem State.appendRetained_lineup (s : State) : s.appendRetained.lineup = s.lineup := by
  unfold State.appendRetained
  extract_lets b n tamper u v w
  have hv : v.lineup = s.lineup := foldl_keeps (p := State.lineup) (fun u r => u.appendEv_lineup r false) b u
  have hw : w.lineup = s.lineup := by
    dsimp only [w]
    split
    · exact hv
    · rw [State.appendEv_lineup, (Noted.stamped _ _).lineup, hv]
  split
  · exact hw
  · rw [State.setSticky_lineup_of _ (by decide), hw]

theorem State.startAlmanac_lineup (s : State) : s.startAlmanac.lineup = s.lineup := by
  unfold State.startAlmanac
  split
  · rfl
  · dsimp only
    rw [State.drainEvidence_lineup, State.appendRetained_lineup]
    rfl

theorem State.countCycle_risen {n p : Nat} {s : State} (h : s.Risen n p) : s.countCycle.Risen n (min (p + 1) 0xFFFFFFFF) := by
  unfold State.countCycle
  extract_lets u
  have hu : u.Risen n (min (p + 1) 0xFFFFFFFF) :=
    ⟨h.up, h.ready, h.mainOn, h.selfHeld, h.resetN, h.now, congrArg (fun p => min (p + 1) 0xFFFFFFFF) h.pcycle⟩
  split
  · exact hu.of_lineup (u.setSticky_lineup_of (by decide))
  · exact hu

/-- The Relay's boot once it is known when the erasure of a pending transition ends (R397, R450). -/
def State.bootFrom (recovery : Bool) (from_ : Nat) (s : State) : State :=
  let s := { s with
    resetN := true
    boot := { up := true, mainOn := true, trialFail := s.boot.trialFail, from_ := from_, released := from_ + 100000000 }
    life := { s.life with tokFails := 0, recovery := recovery && s.lc == LcState.production } }
  let s := (s.countCycle.completeTransition true).swapAtBoot
  let s := if s.boot.trialFail then (s.endTrial 1).endTrial 2 else s
  let s := { s with boot := { s.boot with
    trialFail := false, trialBoot := s.nvm.tries (firmwareLc s.lc) 1 || s.nvm.tries (firmwareLc s.lc) 2 } }
  let s := if s.lc = .scrapped then s else s.relayRom.startAlmanac
  (s.updFn 0 (fun f => { f with vecSize := s.vectors 0 })).enterMod .active

theorem State.leaveReset_eq (recovery : Bool) (s : State) :
    s.leaveReset recovery = s.resumeSeconds.erasureEnd.2.bootFrom recovery s.resumeSeconds.erasureEnd.1 := rfl

theorem State.bootFrom_risen (recovery : Bool) (from_ : Nat) (s : State) :
    (s.bootFrom recovery from_).Risen s.now (min (s.pcycle + 1) 0xFFFFFFFF) := by
  unfold State.bootFrom
  extract_lets life u v w boot y z
  have hu : u.Risen s.now s.pcycle := ⟨rfl, rfl, rfl, rfl, rfl, rfl, rfl⟩
  have hv : v.Risen s.now (min (s.pcycle + 1) 0xFFFFFFFF) :=
    (State.Risen.completeTransition (State.countCycle_risen hu)).of_lineup (State.swapAtBoot_lineup _)
  have hw : w.Risen s.now (min (s.pcycle + 1) 0xFFFFFFFF) := by
    dsimp only [w]
    split
    · exact hv.of_lineup ((State.endTrial_lineup _ 2).trans (v.endTrial_lineup 1))
    · exact hv
  have hy : y.Risen s.now (min (s.pcycle + 1) 0xFFFFFFFF) := hw.withBoot rfl rfl rfl rfl
  have hz : z.Risen s.now (min (s.pcycle + 1) 0xFFFFFFFF) := by
    dsimp only [z]
    split
    · exact hy
    · exact hy.relayRom.of_lineup (State.startAlmanac_lineup _)
  exact hz.of_lineup ((Woken.enterMod _ _).lineup.trans (Sent.updFn z 0 _).lineup)

/-- Every boot leaves reset with one power cycle more counted (R23). -/
theorem State.leaveReset_risen (recovery : Bool) (s : State) : (s.leaveReset recovery).Risen s.now (min (s.pcycle + 1) 0xFFFFFFFF) := by
  have herase : ∀ u : State, u.erasureEnd.2.now = u.now ∧ u.erasureEnd.2.pcycle = u.pcycle := by
    intro u
    unfold State.erasureEnd
    split <;> exact ⟨rfl, rfl⟩
  obtain ⟨hn, hp⟩ := herase s.resumeSeconds
  have hrisen := State.bootFrom_risen recovery s.resumeSeconds.erasureEnd.1 s.resumeSeconds.erasureEnd.2
  rw [hn, hp] at hrisen
  exact hrisen

theorem resetNRelease_rises (hn : s.resetN = false) (hh : s.boot.selfHeld = false) (r : Bool) : Completes (.resetNRelease t r) s
    (State.Risen (s.at t).now (min (s.pcycle + 1) 0xFFFFFFFF)) := by
  have hexec : exec (.resetNRelease t r) s = .next (settle s ((s.at t).leaveReset r)) := by
    change execResetNRelease t r s = _
    unfold execResetNRelease
    refine ev_of_eq ?_
    exact if_pos (by simp [hn, hh])
  exact Completes.of_settled hexec ((State.leaveReset_risen r (s.at t)).of_lineup (settle_lineup _ _))

theorem lcSelfReset_rises (hu : s.boot.up = false) (hh : s.boot.selfHeld = true) : Completes (.lcSelfReset t) s
    (State.Risen 0 (min (s.pcycle + 1) 0xFFFFFFFF)) := by
  have hexec : exec (.lcSelfReset t) s = .next (settle s ((s.at t).leaveReset false)) := by
    change execLcSelfReset t s = _
    unfold execLcSelfReset
    refine ev_of_eq ?_
    exact if_pos hh
  have hnow : (s.at t).now = 0 := if_neg (by simp [hu])
  have hrisen := (State.leaveReset_risen false (s.at t)).of_lineup (settle_lineup s ((s.at t).leaveReset false))
  rw [hnow] at hrisen
  exact Completes.of_settled hexec hrisen

end

end Sys2Proof.Machine
end

section
/-! The ends of a boot (R9, R450, R453, R459). -/

namespace Sys2Proof.Machine

/-- The active twin, the selector and the roles. -/
def State.seats (s : State) : Option Twin × Option Twin × TwinRole × TwinRole :=
  (s.active, s.egress, s.twinA.role, s.twinB.role)

theorem State.seats_of_manning {s t : State} (h : t.manning = s.manning) : t.seats = s.seats :=
  congrArg (fun g : Lineup => (g.active, g.egress, g.roleA, g.roleB)) h

theorem State.seats_of_lineup {s t : State} (h : t.lineup = s.lineup) : t.seats = s.seats :=
  State.seats_of_manning (State.manning_of_lineup h)

section
variable (s : State)

theorem State.event_seats (id sev origin : Nat) (d : Bytes) : (s.event id sev origin d).seats = s.seats :=
  State.seats_of_lineup (Noted.event s _ _ _ _).lineup

theorem State.measureImage_seats (i : Nat) : (s.measureImage i).seats = s.seats := by
  unfold State.measureImage
  dsimp only
  split
  · rfl
  · split
    · exact s.event_seats _ _ _ _
    · rw [State.event_seats]
      exact s.event_seats _ _ _ _

theorem State.loadSet_seats (badA badB : Bool) : (s.loadSet badA badB).seats = s.seats := by
  unfold State.loadSet
  extract_lets st bad spare load
  split
  · rfl
  · split
    · exact State.event_seats _ _ _ _ _
    · exact State.event_seats _ _ _ _ _

theorem State.measureAll_seats (zen : Nat) (badA badB : Bool) : (s.measureAll zen badA badB).seats = s.seats := by
  unfold State.measureAll
  extract_lets one u v
  have hone : ∀ (x : State) w, (one x w).seats = x.seats := by
    intro x w
    dsimp only [one]
    split
    · rw [State.event_seats]
      exact State.seats_of_lineup (x.noteFallback_lineup _ _ _)
    · rfl
  have hu : u.seats = s.seats := (hone _ _).trans (hone _ _)
  have hv : v.seats = s.seats := by
    dsimp only [v]
    rw [State.loadSet_seats, foldl_keeps (p := State.seats) (fun x i => x.measureImage_seats i), hu]
  exact (State.event_seats _ _ _ _ _).trans hv

theorem State.bootMrk_seats : s.bootMrk.seats = s.seats := by
  unfold State.bootMrk
  split
  · rfl
  · unfold State.loseComps
    exact foldl_keeps (p := State.seats) (fun (u : State) e => u.event_seats _ _ _ _) _ _

theorem State.finishResponse_seats : s.finishResponse.seats = s.seats := by
  unfold State.finishResponse
  split
  · rfl
  · split
    · rfl
    · exact State.event_seats _ _ _ _ _

theorem State.bootZeroize_seats : s.bootZeroize.seats = s.seats := by
  have herase : ∀ (u : State) (c k : Nat), (u.eraseCmk c k).seats = u.seats := by
    intro u c k
    unfold State.eraseCmk
    dsimp only
    split
    · rfl
    · exact State.event_seats _ _ _ _ _
  have hclear : ∀ (u : State) (c k : Nat), (u.clearComp c k).seats = u.seats := by
    intro u c k
    unfold State.clearComp
    dsimp only
    split
    · rfl
    · rw [State.finishResponse_seats]
      exact State.event_seats _ _ _ _ _
  unfold State.bootZeroize
  extract_lets u l
  have hu : u.seats = s.seats := by
    dsimp only [u]
    split <;> rfl
  rw [State.finishResponse_seats, foldl_keeps (p := State.seats) (fun x c => (hclear _ c 3).trans (herase x c 3)), hu]

theorem State.loadTwins_seats : s.loadTwins.seats = s.seats := by
  unfold State.loadTwins
  have h : ∀ (x : TwinSt) (st : Store) (c : List (Nat × Nat × Nat)),
      (if x.role = .booting then { x with store := st, cache := c } else x : TwinSt).role = x.role := by
    intro x st c
    split <;> rfl
  dsimp only
  unfold State.seats State.updBoth
  dsimp only
  rw [h, h]

end

section
variable {s : State} {t : Nat}

theorem State.assignRoles_seats (h : s.seats.2.2.1 = .booting) : ∃ r, s.assignRoles.seats = (some .a, some .a, .active, r) := by
  unfold State.assignRoles
  rw [if_pos (show s.twinA.role = .booting from h)]
  exact ⟨_, rfl⟩

theorem State.checkNoise_seats {r : TwinRole} (h : s.seats = (some .a, some .a, .active, r)) :
    ∃ r, s.checkNoise.seats = (some .a, some .a, .active, r) := by
  have hstop : s.stopRandom.seats = (some .a, some .a, .active, r) := (State.seats_of_lineup s.stopRandom_lineup).trans h
  unfold State.checkNoise
  generalize s.stopRandom = u at *
  have ha : u.active = some .a := congrArg Prod.fst hstop
  dsimp only
  split
  · next w hw =>
    split
    · unfold State.healthyStandby at hw
      rw [ha] at hw
      dsimp only at hw
      split at hw
      · next hrole =>
        obtain rfl : Twin.b = w := Option.some.inj hw
        have hserves : (u.twin .b).role ≠ .degraded ∧ (u.twin .b).role ≠ .offline := by
          rw [show (u.twin .b).role = .healthy from hrole]
          decide
        obtain ⟨r', -, hr'⟩ := State.degrade_manning hserves 0x09 (entropyIsland .b)
        refine ⟨r', ?_⟩
        have hseats := congrArg (fun g : Lineup => (g.active, g.egress, g.roleA, g.roleB)) hr'
        have hbase : (u.active, u.egress, u.twinA.role) = (some .a, some .a, .active) :=
          congrArg (fun x : Option Twin × Option Twin × TwinRole × TwinRole => (x.1, x.2.1, x.2.2.1)) hstop
        exact hseats.trans (congrArg (fun x : Option Twin × Option Twin × TwinRole => (x.1, x.2.1, x.2.2, r')) hbase)
      · cases hw
    · exact ⟨r, hstop⟩
  · exact ⟨r, hstop⟩

/-- What a boot measures and loads before roles are assigned (R451 to R454). -/
def State.bootLoaded (s : State) (zen : Nat) (badA badB : Bool) : State :=
  (s.measureAll zen badA badB).bootMrk.bootZeroize.loadTwins

theorem State.bootLoaded_seats (s : State) (zen : Nat) (badA badB : Bool) : (s.bootLoaded zen badA badB).seats = s.seats := by
  unfold State.bootLoaded
  rw [State.loadTwins_seats, State.bootZeroize_seats, State.bootMrk_seats, State.measureAll_seats]

theorem State.becomeReady_leaves (h : s.twinA.role = .booting) (zen : Nat) (badA badB : Bool) :
    (s.becomeReady zen badA badB).boot.ready = true ∧ ∃ r, (s.becomeReady zen badA badB).seats = (some .a, some .a, .active, r) := by
  obtain ⟨_, hroles⟩ := State.assignRoles_seats (s := s.bootLoaded zen badA badB) (by rw [State.bootLoaded_seats]; exact h)
  obtain ⟨r, hnoise⟩ := State.checkNoise_seats hroles
  unfold State.bootLoaded at hnoise
  unfold State.becomeReady
  extract_lets u v w x boot
  change u.seats = _ at hnoise
  clear_value u
  have hw : w.seats = (some .a, some .a, .active, r) :=
    (State.seats_of_lineup ((State.drainEvidence_lineup v).trans (Noted.event u _ _ _ _).lineup)).trans hnoise
  clear_value w
  refine ⟨rfl, r, Eq.trans ?_ hw⟩
  dsimp only [x]
  split <;> rfl

theorem bootComplete_ready {zen : Nat} {badA badB : Bool} (hb : s.booting = true) (hfrom : s.boot.from_ ≤ (s.at t).now)
    (hz : s.nvm.verified (firmwareLc s.lc) 2 = some zen) (ha : s.twinA.role = .booting) :
    Completes (.bootComplete ⟨t, badA, badB⟩) s (fun t' => t'.boot.ready = true ∧ t'.active = some .a ∧ t'.egress = some .a ∧
      t'.twinA.role = .active) := by
  have hexec : exec (.bootComplete ⟨t, badA, badB⟩) s = .next (settle s ((s.at t).becomeReady zen badA badB)) := by
    change execBootComplete ⟨t, badA, badB⟩ s = _
    unfold execBootComplete
    refine ev_of_eq ?_
    have hruns : ¬ (¬ (s.at t).booting = true ∨ (s.at t).now < (s.at t).boot.from_ ∨
        ¬ ((s.at t).twinA.role = .booting ∨ (s.at t).twinB.role = .booting)) := by
      rintro (h | h | h)
      · exact h hb
      · exact Nat.not_lt.mpr hfrom h
      · exact h (.inl ha)
    have hz' : (s.at t).nvm.verified (firmwareLc (s.at t).lc) 2 = some zen := hz
    rw [if_neg hruns, hz']
  obtain ⟨hready, r, hseats⟩ := State.becomeReady_leaves (s := s.at t) ha zen badA badB
  refine Completes.of_settled hexec ?_
  generalize (s.at t).becomeReady zen badA badB = v at *
  exact ⟨hready, congrArg Prod.fst hseats, congrArg (·.2.1) hseats, congrArg (·.2.2.1) hseats⟩

/-! A boot that fails. -/

/-- What a cause reads, after a twin in service is degraded for it (R347). -/
theorem State.degrade_departs {v : Twin} (h : (s.twin v).role ≠ .degraded ∧ (s.twin v).role ≠ .offline) (code isl : Nat) :
    (s.degrade v code isl).posture v =
      { s.posture v with own := (s.twin v).posture.departed s.now s.opSeconds code isl, reqs := [] } := by
  have hrel := s.releaseOwn_posture v
  have hnow : (s.releaseOwn (otherTwin v)).now = s.now := congrArg Posture.now hrel
  have hops : (s.releaseOwn (otherTwin v)).opSeconds = s.opSeconds := congrArg Posture.ops hrel
  have hown : ((s.releaseOwn (otherTwin v)).twin v).posture = (s.twin v).posture := congrArg Posture.own hrel
  unfold State.degrade
  rw [if_neg (not_or.mpr h)]
  extract_lets u u1 u2
  rw [State.abandonTests_posture, State.roleReport_posture, State.noteOffline_posture, State.eventU_posture]
  change (u.updTwin v (fun x => x.departAt v u.now u.opSeconds code isl)).posture v = _
  rw [State.updTwin_posture_same, TwinSt.departAt_posture, TwinSt.departAt_reqs, hrel, hown, hnow, hops]

theorem State.doFailStop_boot (s : State) (cause : Nat) : (s.doFailStop cause).boot = s.boot := by
  unfold State.doFailStop
  split
  · rfl
  · exact ((Noted.eventU _ _ _ _).trans (.voidDraws _ _ _ _)).boot

/-- What a failed boot of a twin leaves (R453): its cause, both roles, and the fail-stop with both twins failed. -/
theorem State.bootFailed_leaves {w : Twin} (h : (s.twin w).role = .booting) (hf : s.failStop = false) (hr : s.boot.ready = false) :
    let u := s.bootFailed w
    (u.twin w).cause = 0x0C ∧ ((u.twin w).role = .degraded ∨ (u.twin w).role = .offline) ∧
      (u.twin (otherTwin w)).role = (s.twin (otherTwin w)).role ∧ u.boot.ready = false ∧
      (u.failStop = true ↔ (s.twin (otherTwin w)).role ≠ .booting) := by
  have hserves : (s.twin w).role ≠ .degraded ∧ (s.twin w).role ≠ .offline := by
    rw [h]
    decide
  have hpost := State.degrade_departs hserves 0x0C (twinBase w + 198)
  obtain ⟨r, hrole, hman⟩ := State.degrade_manning hserves 0x0C (twinBase w + 198)
  unfold State.bootFailed
  rw [if_neg (not_not.mpr h)]
  dsimp only
  generalize s.degrade w 0x0C (twinBase w + 198) = v at *
  have hcause : (v.twin w).cause = 0x0C := congrArg (fun p : Posture => p.own.cause) hpost
  have hother : (v.twin (otherTwin w)).role = (s.twin (otherTwin w)).role := congrArg (fun p : Posture => p.other.role) hpost
  have hfail : v.failStop = false := (congrArg Posture.failStop hpost).trans hf
  have hown : (v.twin w).role = r := by
    rw [← State.lineup_role]
    have := congrArg (fun g : Lineup => g.role w) hman
    cases w <;> exact this
  have hready : v.boot.ready = false := by
    have hb := congrArg (fun g : Lineup => g.boot.ready) hman
    cases w <;> exact hb.trans hr
  rw [← hown] at hrole
  by_cases hb : (v.twin (otherTwin w)).role = .booting
  · rw [if_pos hb]
    exact ⟨hcause, hrole, hother, hready, by rw [hfail, ← hother, hb]; simp⟩
  · rw [if_neg hb]
    have hstop := v.doFailStop_posture w 0x0C
    have hkeep := v.doFailStop_boot 0x0C
    generalize v.doFailStop 0x0C = z at *
    refine ⟨(congrArg (fun p : Posture => p.own.cause) hstop).trans hcause, ?_,
      (congrArg (fun p : Posture => p.other.role) hstop).trans hother, by rw [hkeep, hready], ?_⟩
    · rw [show (z.twin w).role = (v.twin w).role from congrArg (fun p : Posture => p.own.role) hstop]
      exact hrole
    · rw [show z.failStop = true from congrArg Posture.failStop hstop, ← hother]
      simp [hb]

/-- A module that boots has neither stopped nor become ready. -/
theorem State.booting_waits (h : s.booting = true) : s.failStop = false ∧ s.boot.ready = false := by
  unfold State.booting at h
  simp only [Bool.and_eq_true, Bool.not_eq_true'] at h
  exact ⟨h.1.2, h.1.1.2⟩

theorem twinBootTimeout_fails {w : Twin} (hb : s.booting = true) (ht : s.boot.released + 1600000000 ≤ (s.at t).now)
    (hr : (s.twin w).role = .booting) : Completes (.twinBootTimeout t w) s (fun t' =>
      (t'.twin w).cause = 0x0C ∧ ((t'.twin w).role = .degraded ∨ (t'.twin w).role = .offline) ∧
      (t'.failStop = true ↔ (s.twin (otherTwin w)).role ≠ .booting)) := by
  have hexec : exec (.twinBootTimeout t w) s = .next (settle s ((s.at t).bootFailed w)) := by
    change execTwinBootTimeout t w s = _
    unfold execTwinBootTimeout
    refine ev_of_eq ?_
    unfold onlyIf
    rw [if_pos]
    rw [Bool.and_eq_true, decide_eq_true_eq]
    exact ⟨hb, ht⟩
  obtain ⟨hf, hready⟩ := State.booting_waits hb
  obtain ⟨hc, hrole, -, -, hstop⟩ := State.bootFailed_leaves (s := s.at t) (w := w) (by simpa using hr) hf hready
  refine Completes.of_settled hexec ?_
  rw [State.at_twin] at hstop
  generalize (s.at t).bootFailed w = v at *
  rw [settle_twin, settle_failStop]
  exact ⟨hc, hrole, hstop⟩

theorem bootComplete_fails {badA badB : Bool} (hb : s.booting = true) (hfrom : s.boot.from_ ≤ (s.at t).now)
    (hz : s.nvm.verified (firmwareLc s.lc) 2 = none) (hra : s.twinA.role = .booting) (hrb : s.twinB.role = .booting) :
    Completes (.bootComplete ⟨t, badA, badB⟩) s (fun t' => t'.failStop = true ∧ t'.boot.ready = false) := by
  have hexec : exec (.bootComplete ⟨t, badA, badB⟩) s = .next (settle s (((s.at t).bootFailed .a).bootFailed .b)) := by
    change execBootComplete ⟨t, badA, badB⟩ s = _
    unfold execBootComplete
    refine ev_of_eq ?_
    have hruns : ¬ (¬ (s.at t).booting = true ∨ (s.at t).now < (s.at t).boot.from_ ∨
        ¬ ((s.at t).twinA.role = .booting ∨ (s.at t).twinB.role = .booting)) := by
      rintro (h | h | h)
      · exact h hb
      · exact Nat.not_lt.mpr hfrom h
      · exact h (.inl hra)
    have hz' : (s.at t).nvm.verified (firmwareLc (s.at t).lc) 2 = none := hz
    rw [if_neg hruns, hz']
  obtain ⟨hf, hready⟩ := State.booting_waits hb
  obtain ⟨-, hA, hB, hreadyA, hstopA⟩ := State.bootFailed_leaves (s := s.at t) (w := .a) hra hf hready
  refine Completes.of_settled hexec ?_
  generalize (s.at t).bootFailed .a = v at *
  have hrun : v.failStop = false := Bool.eq_false_iff.mpr (fun h => hstopA.mp h hrb)
  obtain ⟨-, -, -, hreadyB, hstopB⟩ := State.bootFailed_leaves (s := v) (w := .b) (hB.trans hrb) hrun hreadyA
  refine ⟨hstopB.mpr ?_, hreadyB⟩
  rintro (h : v.twinA.role = .booting)
  change v.twinA.role = .degraded ∨ v.twinA.role = .offline at hA
  rw [h] at hA
  simp at hA

theorem exec_trialBootTimeout_fails (hu : s.boot.up = true) (hb : s.boot.trialBoot = true) (hr : s.boot.ready = false)
    (ht : s.boot.from_ + 8000000000 ≤ (s.at t).now) : exec (.trialBootTimeout t) s = .next (settle s
      { s.at t with boot := { s.boot with trialFail := true } }) := by
  change execTrialBootTimeout t s = _
  unfold execTrialBootTimeout
  refine ev_of_eq ?_
  unfold onlyIf
  rw [if_pos]
  · rfl
  · rw [Bool.and_eq_true, decide_eq_true_eq]
    exact ⟨by simp [hu, hb, hr], ht⟩

end

end Sys2Proof.Machine
end

section
/-! Reset and boot, settled. -/

namespace Sys2Proof.Machine

/-- Settles O38: a reset leaves the Relay cold (`State.resetRelay_cold`), its release leaves it risen (`State.leaveReset_risen`), and a
boot ends ready with Twin A active, or in fail-stop with both twins failed. -/
theorem bootAndReset : Obligations.BootAndReset := by
  unfold Obligations.BootAndReset
  intro s t u cold
  have hcold : ∀ t' : State, State.Cold (s.at t) t' ∧ t'.attnSeq = 0 → cold t' := fun t' h =>
    ⟨h.1.up, h.1.ready, h.1.resetN, h.1.now, h.1.active, h.1.egress, h.1.running, h.1.rreqs, h.1.mbxs, h.1.ingress, h.1.reqsA,
      h.1.reqsB, h.2, h.1.pcycle, h.1.fused⟩
  refine ⟨fun hu => ?_, fun hp => ?_, fun hn hh r => ?_, fun hb hfrom => ⟨fun zen badA badB hz ha => bootComplete_ready hb hfrom hz ha,
    fun hz ha hbb badA badB => bootComplete_fails hb hfrom hz ha hbb, fun w ht hr => twinBootTimeout_fails hb ht hr⟩,
    fun hu hb hr ht => exec_trialBootTimeout_fails hu hb hr ht, fun d hu hh hf hd ht => ?_, fun hu hh => ?_⟩
  · obtain ⟨hc, hm⟩ := (s.at t).resetRelay_cold
    refine Completes.of_settled (resetNAssert_resets hu) ⟨hcold _ (hc.settle s), hm, fun he hw hd hr hp hj => ?_⟩
    exact State.resetRelay_quiet (s := s.at t) he hw hd hr hp hj
  · obtain ⟨t', hstep, hc, hm⟩ := mainPowerLoss_resets (t := t) hp
    exact ⟨t', hstep, hcold t' hc, hm⟩
  · obtain ⟨t', hstep, h⟩ := resetNRelease_rises (t := t) hn hh r
    exact ⟨t', hstep, h.up, h.resetN, h.mainOn, h.ready, h.pcycle⟩
  · obtain ⟨t', hstep, hc, hrest⟩ := lcSelfReset_resets (t := t) hu hh hf hd ht
    exact ⟨t', hstep, hcold t' hc, hrest⟩
  · obtain ⟨t', hstep, h⟩ := lcSelfReset_rises (t := t) hu hh
    exact ⟨t', hstep, h.up, h.selfHeld, h.resetN, h.ready, h.now, h.pcycle⟩

end Sys2Proof.Machine
end

section
/-! What the work of a twin moves: its requests, contexts, services and stamps, and not its role, its sources or its units. -/

namespace Sys2Proof.Machine

/-- A twin with what work moves put back as it was in `x`. -/
def TwinSt.unworked (x y : TwinSt) : TwinSt :=
  { y with stamps := x.stamps, store := x.store, reqs := x.reqs, ctxs := x.ctxs, staging := x.staging, dones := x.dones,
           asyncs := x.asyncs, charges := x.charges, assigned := x.assigned, ops := x.ops, clusters := x.clusters, ctr := x.ctr,
           orrery := { y.orrery with calls := x.orrery.calls }, ent := { y.ent with slotWaits := x.ent.slotWaits } }

/-- Work was done in a twin, and nothing else. -/
def Worked (x y : TwinSt) : Prop := x.unworked y = x

theorem Worked.rfl {x : TwinSt} : Worked x x := Eq.refl _

theorem Worked.trans {x y z : TwinSt} (h : Worked x y) (k : Worked y z) : Worked x z := by
  unfold Worked at *
  calc x.unworked z = x.unworked (y.unworked z) := Eq.refl _
    _ = x := by rw [k, h]

theorem Worked.eq {α : Type} {x y : TwinSt} (h : Worked x y) (f : TwinSt → α) (hf : f (x.unworked y) = f y) : f y = f x :=
  hf.symm.trans (congrArg f h)

theorem Worked.foldl {α : Type} {f : TwinSt → α → TwinSt} (h : ∀ x a, Worked x (f x a)) (l : List α) (x : TwinSt) :
    Worked x (l.foldl f x) := by
  induction l generalizing x with
  | nil => exact .rfl
  | cons a l ih => exact (h x a).trans (ih _)

section
variable (x : TwinSt)

theorem Worked.updReq (q : Nat) (f : Req → Req) : Worked x (x.updReq q f) := Eq.refl _

theorem Worked.updTask (q i : Nat) (f : Task → Task) : Worked x (x.updTask q i f) := Eq.refl _

theorem Worked.stamped (now l : Nat) : Worked x (x.stamped now l) := Eq.refl _

theorem Worked.stopCharge (now q i : Nat) : Worked x (x.stopCharge now q i) := by
  unfold TwinSt.stopCharge
  split
  · split
    · exact Eq.refl _
    · exact .rfl
  · exact .rfl

theorem Worked.recharge (isl now : Nat) : Worked x (x.recharge isl now) := by
  unfold TwinSt.recharge
  dsimp only
  have hstop : ∀ n, Worked x ((x.onCore isl).foldl
      (fun (y : TwinSt) e => if n = some (e.1, e.2.1) then y else y.stopCharge now e.1 e.2.1) x) := fun n =>
    .foldl (fun y e => by
      split
      · exact .rfl
      · exact .stopCharge y _ _ _) _ x
  split
  · exact (hstop _).trans (.updTask _ _ _ _)
  · exact hstop _

theorem Worked.wakeMem (now : Nat) (ends : Cid → Ctx → Bool) : Worked x (x.wakeMem now ends) := by
  unfold TwinSt.wakeMem
  refine .foldl (fun y k => Worked.trans ?_ (.recharge _ _ _)) _ x
  exact Eq.refl _

theorem Worked.dropTasks (now q : Nat) (sel : Nat → Bool) (wipe : Bool) : Worked x (x.dropTasks now q sel wipe) := by
  unfold TwinSt.dropTasks
  extract_lets mine isls keys gone freed y orr z u
  have hy : Worked x y := by
    refine .foldl (fun y i => .foldl (fun z e => ?_) _ y) _ x
    split
    · exact .stopCharge z _ _ _
    · exact .rfl
  have hz : Worked y z := Eq.refl _
  have hu : Worked z u := .updReq z q _
  exact ((hy.trans hz).trans hu).trans ((Worked.foldl (fun y i => .recharge y i now) isls u).trans
    (.foldl (fun y k => .wakeMem y now _) freed _))

theorem Worked.notify (q st : Nat) : Worked x (x.notify q st) := Eq.refl _

theorem Worked.applyFin (q : Nat) : Worked x (x.applyFin q) := by
  unfold TwinSt.applyFin
  split
  · split
    · split <;> exact Eq.refl _
    · exact .rfl
  · exact .rfl

theorem Worked.keepLog (q : Nat) : Worked x (x.keepLog q) := by
  unfold TwinSt.keepLog
  split
  · split
    · exact Eq.refl _
    · exact .rfl
  · exact .rfl

theorem Worked.stampEnd (now q : Nat) (es : List EvReq) : Worked x (x.stampEnd now q es).2 := by
  have hevs : ∀ (l : Nat) (es : List EvReq) (y : TwinSt), Worked y (y.stampEvs now l es).2 := by
    intro l es
    induction es with
    | nil => exact fun y => .rfl
    | cons e es ih => exact fun y => (Worked.stamped y now l).trans (ih _)
  have htask : Worked x (x.taskDone now q).2 := by
    unfold TwinSt.taskDone
    split
    · exact .stamped x _ _
    · exact .rfl
  exact (htask.trans (.stamped _ _ _)).trans (hevs _ _ _)

theorem Worked.sweep : Worked x x.sweep := Eq.refl _

theorem Worked.finish (act : Bool) (now q : Nat) (e : EndRec) : Worked x (x.finish act now q e) := by
  unfold TwinSt.finish
  split
  · split
    · exact .rfl
    · next r _ _ =>
      extract_lets y e' z u v c w
      have hz : Worked x z := ((Worked.stampEnd x now q e.evs).trans (.keepLog _ q)).trans (.dropTasks _ now q _ _)
      have hw : Worked z w := Eq.refl _
      refine (hz.trans hw).trans (Worked.trans ?_ (.sweep _))
      split
      · exact .applyFin w q
      · exact .rfl
  · exact .rfl

theorem Worked.awaitRng (q i : Nat) : Worked x (x.awaitRng q i) := by
  unfold TwinSt.awaitRng
  dsimp only
  split <;> exact Eq.refl _

theorem Worked.deposit (c : Cid) (a : Nat) (b : Bytes) (tag : Bool) : Worked x (x.deposit c a b tag) := by
  unfold TwinSt.deposit
  split <;> exact Eq.refl _

theorem Worked.deposited (c : Cid) (a : Nat) (b : Bytes) (tag : Bool) (l : List Done) :
    Worked x { x.deposit c a b tag with dones := l } := Worked.trans (.deposit x c a b tag) (Eq.refl _)

theorem Worked.rng {y : TwinSt} {p i n : Nat} {b : Bytes} (h : x.rng p i n = .ok b y) : Worked x y := by
  obtain ⟨f, rfl, -⟩ := TwinSt.rng_updReq h
  exact .updReq x p f

end

/-! Work in the twins of a state. -/

/-- Work was done in the twins of a state. -/
def WorkedIn (s t : State) : Prop := ∀ v, Worked (s.twin v) (t.twin v)

theorem WorkedIn.trans {s t u : State} (h : WorkedIn s t) (k : WorkedIn t u) : WorkedIn s u := fun v => (h v).trans (k v)

theorem WorkedIn.foldl {α : Type} {f : State → α → State} (h : ∀ s a, WorkedIn s (f s a)) (l : List α) (s : State) :
    WorkedIn s (l.foldl f s) := by
  induction l generalizing s with
  | nil => exact fun _ => .rfl
  | cons a l ih => exact (h s a).trans (ih _)

section
variable (s : State) (w : Twin)

theorem WorkedIn.setTwin {x : TwinSt} (h : Worked (s.twin w) x) : WorkedIn s (s.setTwin w x) := by
  intro v
  by_cases hv : v = w
  · subst hv
    rwa [State.twin_setTwin]
  · have hne : (s.setTwin w x).twin v = s.twin v := by cases v <;> cases w <;> first | rfl | exact absurd rfl hv
    rw [hne]
    exact .rfl

theorem WorkedIn.updTwin {f : TwinSt → TwinSt} (h : Worked (s.twin w) (f (s.twin w))) : WorkedIn s (s.updTwin w f) := .setTwin s w h

theorem WorkedIn.endWith (q status : Nat) : WorkedIn s (s.endWith w q status) := .updTwin s w (.finish _ _ _ _ _)

theorem WorkedIn.serveOne (a : Async) : WorkedIn s (State.serveOne w s a) := by
  have hkeep : WorkedIn s (s.updTwin w (fun x => { x with asyncs := x.asyncs ++ [a] })) := .updTwin s w (Eq.refl _)
  cases a with
  | payload q i off len dst c =>
    unfold State.serveOne
    dsimp only
    split
    · exact fun _ => .rfl
    · split
      · exact WorkedIn.setTwin { s with free := _ } w (.deposited (s.twin w) c dst _ false _)
      · exact hkeep
  | rng q i dst len tag c =>
    unfold State.serveOne
    dsimp only
    split
    · exact fun _ => .rfl
    · split
      · next b y hy =>
        exact .setTwin s w ((Worked.rng _ hy).trans (.deposited y c dst b (tag == 1) _))
      · exact hkeep.trans (.updTwin _ w (.awaitRng _ _ _))
      · split
        · exact .endWith s w _ _
        · exact hkeep.trans (.updTwin _ w (.awaitRng _ _ _))
      · exact .endWith s w _ _
  | keyGet q i k dst c =>
    unfold State.serveOne
    dsimp only
    split
    · exact fun _ => .rfl
    · split
      · exact .setTwin s w (.deposited _ c dst _ _ _)
      · exact .setTwin s w (Eq.refl _)

theorem WorkedIn.serve : WorkedIn s (s.serve w) := by
  unfold State.serve
  dsimp only
  refine WorkedIn.trans (WorkedIn.trans (.updTwin s w ?_) (.foldl (fun u a => .serveOne u w a) _ _)) (.updTwin _ w (.wakeMem _ _ _))
  exact Eq.refl _

theorem WorkedIn.endRngWaits : WorkedIn s (s.endRngWaits w) := by
  unfold State.endRngWaits
  split
  · exact fun _ => .rfl
  · exact .foldl (fun u q => .endWith u w q stRng) _ s

end

/-- A record stamps the twin of its island. -/
theorem WorkedIn.event (s : State) (id sev origin : Nat) (d : Bytes) : WorkedIn s (s.event id sev origin d) := by
  intro v
  have h : (s.twin v).unworked ((s.event id sev origin d).twin v) =
      (s.twin v).unworked ((s.twin v).unstamped ((s.event id sev origin d).twin v)) := Eq.refl _
  unfold Worked
  rw [h, (Noted.event s id sev origin d).twin v]
  rfl

end Sys2Proof.Machine
end

section
/-! Noise sources, blocks and masking generators (R307 to R315). -/

namespace Sys2Proof.Machine

theorem State.updTwin_congr (s : State) (w : Twin) {f g : TwinSt → TwinSt} (h : f (s.twin w) = g (s.twin w)) :
    s.updTwin w f = s.updTwin w g := congrArg (s.setTwin w) h

section
variable {s : State} {t : Nat} {w : Twin}

/-! A source that fails. -/

theorem exec_noiseSourceFail_early {src test count : Nat} {c : NSource} (hc : Tbl.find? (s.twin w).ent.sources src = some c)
    (h : cutoffReached test count = false) : exec (.noiseSourceFail t w src test count) s = .next (settle s (s.at t)) := by
  change execNoiseSourceFail t w src test count s = _
  unfold execNoiseSourceFail
  refine ev_of_eq ?_
  rw [State.at_twin, hc]
  exact if_pos (.inr (.inr (by simp [h])))

/-- A source that has failed a test at a stamp (R315). -/
def NSource.failed (c : NSource) (test now : Nat) : NSource :=
  { c with role := .quarantined, samples := c.samplesAt now, rctFail := satAdd 16 c.rctFail (b2n (test == 1))
           aptFail := satAdd 16 c.aptFail (b2n (test == 2)) }

/-- An entropy block whose source has failed (R309, R315). -/
def Entropy.failed (e : Entropy) (src g test now : Nat) (c : NSource) : Entropy :=
  ({ e with sources := Tbl.put e.sources src (c.failed test now) } : Entropy).taint g src (c.lastPass now)

theorem Entropy.failed_blocks (e : Entropy) (src g test now : Nat) (c : NSource) : (e.failed src g test now c).blocks =
    e.blocks.filter (fun b => !(b.srcs.contains src && decide (c.lastPass now < b.stamp))) := rfl

/-- A masking generator that holds a bit taken after the last pass is tainted (R315). -/
theorem Entropy.failed_masks {e : Entropy} {src g test now k : Nat} {c : NSource} {m : MaskGen}
    (h : Tbl.find? (e.failed src g test now c).masks k = some m) (hi : m.inst = true) (hs : src ∈ m.srcs)
    (hp : c.lastPass now < m.last) : m.tainted = true := by
  have hmap := Tbl.find?_map (fun m : MaskGen => if m.inst && (m.srcs.contains src && decide (c.lastPass now < m.last)) then
    { m with tainted := true } else m) e.masks k
  obtain ⟨m', -, hm⟩ := Option.map_eq_some_iff.mp (hmap.symm.trans h)
  split at hm
  · exact hm ▸ rfl
  · next hbad =>
    subst hm
    exact absurd (by simp [hi, hs, hp]) hbad

/-- The state whose twin has its entropy block replaced. -/
def State.withEnt (s : State) (w : Twin) (e : Entropy) : State := s.updTwin w (fun x => x.updEnt (fun _ => e))

theorem State.withEnt_ent (s : State) (w : Twin) (e : Entropy) : ((s.withEnt w e).twin w).ent = e := by cases w <;> rfl

theorem State.withEnt_role (s : State) (v w : Twin) (e : Entropy) : ((s.withEnt w e).twin v).role = (s.twin v).role := by
  cases v <;> cases w <;> rfl

/-- What a failed source leaves on record (R315, R434). -/
def State.sourceNoted (s : State) (w : Twin) (src test count pass : Nat) : State :=
  (s.sourceEvent w src test count pass).noteQuarantine w src

theorem State.sourceNoted_twin (s : State) (v w : Twin) (src test count pass : Nat) :
    Worked (s.twin v) ((s.sourceNoted w src test count pass).twin v) := by
  have h : WorkedIn s (s.sourceEvent w src test count pass) := .event s _ _ _ _
  unfold State.sourceNoted State.noteQuarantine
  dsimp only
  split <;> exact h v

theorem exec_noiseSourceFail_quarantines {src test count g : Nat} {c : NSource}
    (hc : Tbl.find? (s.twin w).ent.sources src = some c) (hg : c.role = .active g) (h : cutoffReached test count = true)
    (ha : (s.twin w).role = .active) : exec (.noiseSourceFail t w src test count) s = .next (settle s
      (((s.at t).withEnt w ((s.twin w).ent.failed src g test (s.at t).now c)).sourceNoted w src test count (c.lastPass (s.at t).now))) := by
  change execNoiseSourceFail t w src test count s = _
  unfold execNoiseSourceFail
  refine ev_of_eq ?_
  rw [State.at_twin, hc]
  refine (if_neg (by simp [hg, h])).trans ?_
  extract_lets pass out u v z
  have hv : v = (s.at t).withEnt w ((s.twin w).ent.failed src g test (s.at t).now c) := by
    dsimp only [v]
    rw [hg]
    cases w <;> rfl
  have hz : z = v.sourceNoted w src test count pass := rfl
  have hrole : (z.twin w).role = .active := by
    rw [hz, (v.sourceNoted_twin w w src test count pass).eq TwinSt.role (Eq.refl _), hv, State.withEnt_role, State.at_twin, ha]
  rw [if_neg (by simp [hrole]), hz, hv]

theorem noiseSourceFail_quarantines {src test count g : Nat} {c : NSource}
    (hc : Tbl.find? (s.twin w).ent.sources src = some c) (hg : c.role = .active g) (h : cutoffReached test count = true)
    (ha : (s.twin w).role = .active) : Completes (.noiseSourceFail t w src test count) s (fun t' =>
      let e := (t'.twin w).ent
      let pass := c.lastPass (s.at t).now
      (Tbl.getD e.sources src {}).role = .quarantined ∧
      (Tbl.getD e.sources src {}).samples = min (1024 + ((s.at t).now - c.base) / 250) (2 ^ 48 - 1) ∧
      e.blocks = (s.twin w).ent.blocks.filter (fun b => !(b.srcs.contains src && decide (pass < b.stamp))) ∧
      (∀ k m, Tbl.find? e.masks k = some m → m.inst = true → src ∈ m.srcs → pass < m.last → m.tainted = true)) := by
  let e := (s.twin w).ent.failed src g test (s.at t).now c
  let v := (s.at t).withEnt w e
  have hworked := v.sourceNoted_twin w w src test count (c.lastPass (s.at t).now)
  have hsources := hworked.eq (fun x => x.ent.sources) (Eq.refl _)
  have hblocks := hworked.eq (fun x => x.ent.blocks) (Eq.refl _)
  have hmasks := hworked.eq (fun x => x.ent.masks) (Eq.refl _)
  have he : (v.twin w).ent = e := State.withEnt_ent _ _ _
  refine Completes.of_settled (exec_noiseSourceFail_quarantines hc hg h ha) ?_
  rw [settle_twin]
  change (Tbl.getD ((v.sourceNoted w src test count (c.lastPass (s.at t).now)).twin w).ent.sources src {}).role = _ ∧ _
  generalize (v.sourceNoted w src test count (c.lastPass (s.at t).now)).twin w = y at *
  rw [he] at hsources hblocks hmasks
  have hsrc : Tbl.getD y.ent.sources src {} = c.failed test (s.at t).now := by
    rw [hsources]
    exact Tbl.getD_put_same _ _ _ _
  rw [hsrc]
  refine ⟨rfl, ?_, hblocks, fun k m hm => Entropy.failed_masks (hmasks ▸ hm)⟩
  change c.samplesAt _ = _
  unfold NSource.samplesAt
  rw [hg]

/-! Spares, blocks and masks. -/

theorem exec_spareSourceJoin_joins {g i : Nat} {c : NSource} (hg : (s.twin w).ent.joinWait.contains g = true)
    (hi : List.find? (fun (c : Nat × NSource) => c.2.role == NRole.spare) (s.twin w).ent.sources = some (i, c)) :
    exec (.spareSourceJoin t w g) s = .next (settle s ((s.at t).updTwin w (fun x => x.updEnt (fun e =>
      { e with joinWait := e.joinWait.erase g, sources := Tbl.put e.sources i { c with role := .active g } })))) := by
  change execSpareSourceJoin t w g s = _
  unfold execSpareSourceJoin
  refine ev_of_eq (State.updTwin_congr _ w ?_)
  rw [State.at_twin]
  unfold TwinSt.updEnt
  congr 1
  refine (if_neg (not_not.mpr hg)).trans ?_
  extract_lets e
  exact (congrArg (fun o : Option (Nat × NSource) => match o with
    | some (i, c) => { e with sources := Tbl.put e.sources i { c with role := .active g } }
    | none => e) hi)

theorem exec_conditionedBlock_blocks {g : Nat} {raw : Bytes} (hraw : raw.length = 256) (hg : (s.twin w).ent.groupSrcs g ≠ []) :
    exec (.conditionedBlock t w g raw) s = .next (settle s ((s.at t).updTwin w (fun x => x.updEnt (fun e =>
      ({ e with blocks := e.blocks ++ [{ group := g, srcs := e.groupSrcs g, data := sha256 raw, stamp := (s.at t).now }],
                blocksN := satAdd 48 e.blocksN 1 } : Entropy).tendSeed w (s.at t).now s.pcycle)))) := by
  change execConditionedBlock t w g raw s = _
  unfold execConditionedBlock
  refine ev_of_eq (State.updTwin_congr _ w ?_)
  rw [State.at_twin]
  unfold TwinSt.updEnt
  congr 1
  exact if_pos ⟨hraw, hg⟩

theorem maskingReseed_takes {island dp : Nat} {b : CBlock} {l : List CBlock} (hb : (s.twin w).ent.blocks = b :: l)
    (he : isEngine island = true) (hw : islandTwin island = some w) (hd : dp ≤ 1) :
    Completes (.maskingReseed t w island dp) s (fun t' =>
      let old : MaskGen := Tbl.getD (s.twin w).ent.masks (2 * island + dp) {}
      (t'.twin w).ent.blocks = l ∧ t'.twin (otherTwin w) = s.twin (otherTwin w) ∧
      Tbl.find? (t'.twin w).ent.masks (2 * island + dp) = some
        { inst := true, srcs := b.srcs, last := b.stamp, seeded := (s.at t).now,
          drbg := if old.inst then drbgReseed (maskDrawn old.blocks old.drbg) b.data
            else drbgInst 16 b.data [] (localPers w 2 island dp s.pcycle) }) := by
  have hexec : exec (.maskingReseed t w island dp) s = .next (settle s
      ((s.at t).updTwin w (fun x => x.reseedMask w island dp s.pcycle (s.at t).now))) := by
    change execMaskingReseed t w island dp s = _
    unfold execMaskingReseed
    refine ev_of_eq ?_
    have hdp : dp < 2 := by omega
    exact if_pos (by simp [he, hw, hdp])
  refine Completes.of_settled hexec ?_
  dsimp only
  rw [settle_twin, settle_twin, State.updTwin_same, State.updTwin_other, State.at_twin]
  unfold TwinSt.reseedMask
  rw [hb]
  exact ⟨rfl, State.at_twin _ _ _, Tbl.find?_put_same _ _ _⟩

/-! The start-up test. -/

theorem State.retireSource_clean (h : s.wear.quarant = []) (src : Nat) : s.retireSource w src = s := by
  unfold State.retireSource
  dsimp only
  rw [h]
  exact if_pos (.inr (by simp [Tbl.getD, Tbl.find?]))

theorem startRoles_clean {i : Nat} (hi : i < 32) (now : Nat) : Tbl.find? (startRoles now [] []) i =
    some { role := if i < 24 then .active (i / 8) else .spare, base := now, samples := 1024 } := by
  interval_cases i <;> rfl

theorem entropyStartupTestEnd_starts (hup : s.boot.up = true) (hs : (s.twin w).ent.sources = []) (hq : s.wear.quarant = [])
    (ho : s.wear.noiseOut = []) (hr : (s.twin w).role = .booting) : Completes (.entropyStartupTestEnd t w []) s (fun t' =>
      ∀ i < 32, Tbl.find? (t'.twin w).ent.sources i = some
        { role := if i < 24 then .active (i / 8) else .spare, base := (s.at t).now, samples := 1024 }) := by
  have hexec : exec (.entropyStartupTestEnd t w []) s = .next (settle s
      ((s.at t).updTwin w (fun x => x.updEnt (fun e => { e with sources := startRoles (s.at t).now [] [] })))) := by
    change execEntropyStartupTestEnd t w [] s = _
    unfold execEntropyStartupTestEnd
    refine ev_of_eq ?_
    refine (if_pos (by simp [hup, hs])).trans ?_
    have hretire : (List.range 32).foldl (fun s i => s.retireSource w i) (s.at t) = s.at t := by
      generalize List.range 32 = l
      induction l with
      | nil => rfl
      | cons i l ih => exact (congrArg (fun u => l.foldl (fun s i => s.retireSource w i) u) (State.retireSource_clean (s := s.at t) hq i)).trans ih
    beta_reduce
    extract_lets u out fails v z
    have hu : u = s.at t := hretire
    have hout : out = [] := by
      dsimp only [out]
      rw [hu, show (s.at t).wear.noiseOut = [] from ho]
      exact List.filter_eq_nil_iff.mpr (fun _ _ => Bool.false_ne_true)
    have hv : v = (s.at t).updTwin w (fun x => x.updEnt (fun e => { e with sources := startRoles (s.at t).now [] [] })) := by
      dsimp only [v, fails]
      rw [hout, hu]
      rfl
    have hrole : (v.twin w).role = .booting := by
      rw [hv, State.updTwin_same, State.at_twin]
      exact hr
    exact (if_neg (fun h => by simp [show (z.twin w).role = .booting from hrole] at h)).trans hv
  refine Completes.of_settled hexec (fun i hi => ?_)
  rw [settle_twin, State.updTwin_same]
  exact startRoles_clean hi _

end

end Sys2Proof.Machine
end

section
/-! Epoch seeds, and random service (R317, R318). -/

namespace Sys2Proof.Machine

section
variable {s : State} {t : Nat} {w : Twin}

/-! Proposals. -/

theorem State.propose_makes {e : Nat} {seed : Bytes} {ent : Entropy}
    (h : (s.twin w).ent.makeSeed w s.now s.pcycle = some (seed, ent)) :
    s.propose w e = s.updTwin w (fun x => { x with ent := { ent with
      proposal := some ((match (s.twin w).ent.seeds.getLast? with | some g => g.2.1 | none => 0) + 1, e, seed, s.seedPeer.isNone)
      nextEpoch := e } }) := by
  unfold State.propose
  rw [h] <;> rfl

theorem exec_seedProposal_first (hup : s.boot.up = true) (hf : s.failStop = false)
    (hsw : s.sw.switching = false) (hw : w = s.seedTwin) (hp : (s.twin w).ent.proposal = none) (ha : 12 ≤ (s.twin w).ent.actives)
    (hs : (s.twin w).ent.seeds = []) :
    exec (.seedProposal t) s = .next (settle s ((s.at t).propose w (epochOf (s.at t).now))) := by
  subst hw
  change execSeedProposal t s = _
  unfold execSeedProposal
  refine ev_of_eq ?_
  refine (if_neg ?_).trans (if_pos ?_)
  · rw [State.at_twin]
    change ¬ (¬ s.boot.up = true ∨ s.failStop = true ∨ s.sw.switching = true ∨ (s.twin s.seedTwin).ent.proposal.isSome = true ∨
      (s.twin s.seedTwin).ent.actives < 12)
    simp [hup, hf, hsw, hp, Nat.not_lt.mpr ha]
  · rw [State.at_twin]
    change (s.twin s.seedTwin).ent.seeds.isEmpty = true
    rw [hs]
    rfl

theorem exec_seedProposal_renewal {g : Nat × Nat × Bytes} (hup : s.boot.up = true) (hf : s.failStop = false)
    (hsw : s.sw.switching = false) (hw : w = s.seedTwin) (hp : (s.twin w).ent.proposal = none) (ha : 12 ≤ (s.twin w).ent.actives)
    (hs : (s.twin w).ent.seeds.getLast? = some g) (hstop : (s.twin w).ent.stopped = false)
    (hn : (s.twin w).ent.nextEpoch = epochOf (s.at t).now + 50) :
    exec (.seedProposal t) s = .next (settle s ((s.at t).propose w (epochOf (s.at t).now + 50))) := by
  subst hw
  change execSeedProposal t s = _
  unfold execSeedProposal
  refine ev_of_eq ?_
  have hne : (s.twin s.seedTwin).ent.seeds.isEmpty = false := by
    cases h : (s.twin s.seedTwin).ent.seeds with
    | nil => simp [h] at hs
    | cons => rfl
  refine (if_neg ?_).trans ((if_neg ?_).trans ((if_neg ?_).trans ?_))
  · rw [State.at_twin]
    change ¬ (¬ s.boot.up = true ∨ s.failStop = true ∨ s.sw.switching = true ∨ (s.twin s.seedTwin).ent.proposal.isSome = true ∨
      (s.twin s.seedTwin).ent.actives < 12)
    simp [hup, hf, hsw, hp, Nat.not_lt.mpr ha]
  · rw [State.at_twin]
    change ¬ (s.twin s.seedTwin).ent.seeds.isEmpty = true
    simp [hne]
  · rw [State.at_twin]
    change ¬ ((s.twin s.seedTwin).ent.stopped = true ∧ _)
    simp [hstop]
  · extract_lets next
    have hnext : next = epochOf (s.at t).now + 50 := by
      dsimp only [next]
      rw [State.at_twin]
      change (if _ ≤ (s.twin s.seedTwin).ent.nextEpoch then (s.twin s.seedTwin).ent.nextEpoch else _) = _
      rw [hn, if_pos (Nat.le_refl _)]
    rw [hnext]
    exact if_neg (Nat.lt_irrefl _)

/-- A proposal made leaves the other twin. -/
theorem proposed {e gen : Nat} {seed : Bytes} {ent : Entropy} {i : Instr}
    (hexec : exec i s = .next (settle s ((s.at t).propose w e)))
    (h : (s.twin w).ent.makeSeed w (s.at t).now s.pcycle = some (seed, ent))
    (hg : (match (s.twin w).ent.seeds.getLast? with | some g => g.2.1 | none => 0) + 1 = gen) :
    Completes i s (fun t' => (t'.twin w).ent.proposal = some (gen, e, seed, s.seedPeer.isNone) ∧
      t'.twin (otherTwin w) = s.twin (otherTwin w)) := by
  refine Completes.of_settled hexec ?_
  rw [settle_twin, settle_twin, State.propose_makes (s := s.at t) (seed := seed) (ent := ent) (by rwa [State.at_twin]),
    State.updTwin_same, State.updTwin_other, State.at_twin, State.at_twin, hg]
  exact ⟨rfl, rfl⟩

theorem exec_seedAck_acks {o : Twin} (h : s.seedPeer = some o) : exec (.seedAck t) s = .next (settle s
    ((s.at t).updTwin o (fun x => x.updEnt (fun e => { e with proposal := e.proposal.map (fun p => (p.1, p.2.1, p.2.2.1, true)) })))) := by
  change execSeedAck t s = _
  unfold execSeedAck
  refine ev_of_eq ?_
  have h' : (s.at t).seedPeer = some o := h
  rw [h']

/-! A seed takes effect. -/

/-- An entropy block with a seed in force. -/
def Entropy.seededWith (o : Entropy) (gen e : Nat) (seed : Bytes) : Entropy :=
  { o with seeds := o.seeds ++ [(e, gen, seed)], proposal := none, nextEpoch := afterSeed gen e, stopped := false, resuming := false }

/-- A twin that takes part in what seeds do with a seed in force. -/
def State.seedIn (s : State) (gen e : Nat) (seed : Bytes) (v : Twin) : State :=
  if s.seeded v then s.updTwin v (fun x => x.updEnt (fun o => o.seededWith gen e seed)) else s

theorem State.seedIn_seeded (s : State) (gen e : Nat) (seed : Bytes) (v v' : Twin) : (s.seedIn gen e seed v).seeded v' = s.seeded v' := by
  unfold State.seedIn
  split
  · cases v <;> cases v' <;> rfl
  · rfl

theorem State.seedIn_ent (s : State) (gen e : Nat) (seed : Bytes) (v : Twin) :
    (((s.seedIn gen e seed .a).seedIn gen e seed .b).twin v).ent =
      if s.seeded v then (s.twin v).ent.seededWith gen e seed else (s.twin v).ent := by
  have hone : ∀ (u : State) (x : Twin), ((u.seedIn gen e seed x).twin v).ent =
      if v = x ∧ u.seeded v = true then (u.twin v).ent.seededWith gen e seed else (u.twin v).ent := by
    intro u x
    unfold State.seedIn
    by_cases hx : u.seeded x = true
    · rw [if_pos hx]
      cases v <;> cases x <;> simp [hx, State.twin, State.updTwin, State.setTwin, TwinSt.updEnt]
    · rw [if_neg hx, if_neg (by rintro ⟨rfl, h⟩; exact hx h)]
  rw [hone, hone, State.seedIn_seeded]
  cases v <;> simp

theorem State.takeSeed_ent (s : State) (w v : Twin) (gen e : Nat) (seed : Bytes) (hv : s.seeded v = true) :
    let x := ((s.takeSeed w gen e seed).twin v).ent
    x.seeds = (s.twin v).ent.seeds ++ [(e, gen, seed)] ∧ x.proposal = none ∧ x.stopped = false := by
  have hent := s.seedIn_ent gen e seed v
  rw [if_pos hv] at hent
  unfold State.takeSeed
  extract_lets resumed one u y
  have hu : u = (s.seedIn gen e seed .a).seedIn gen e seed .b := rfl
  have hy : WorkedIn u y := by
    dsimp only [y]
    split
    · exact .event u _ _ _ _
    · exact fun _ => .rfl
  have hwake : WokenOnly (y.twin v) (((y.wakeZenith .a).wakeZenith .b).twin v) := ((Woken.wakeZenith y .a).trans (.wakeZenith _ .b)).twin v
  have hserve := ((WorkedIn.serve ((y.wakeZenith .a).wakeZenith .b) .a).trans (.serve _ .b)) v
  have key : ∀ {α : Type} (f : TwinSt → α), (∀ x y : TwinSt, f (x.unworked y) = f y) →
      (∀ x y : TwinSt, f { y with ctxs := x.ctxs, clusters := x.clusters } = f y) →
      f (((((y.wakeZenith .a).wakeZenith .b).serve .a).serve .b).twin v) = f (u.twin v) := fun f hf hg =>
    ((hserve.eq f (hf _ _)).trans (hwake.eq f (hg _ _))).trans ((hy v).eq f (hf _ _))
  have hseeds := key (fun x => x.ent.seeds) (fun _ _ => rfl) (fun _ _ => rfl)
  have hprop := key (fun x => x.ent.proposal) (fun _ _ => rfl) (fun _ _ => rfl)
  have hstop := key (fun x => x.ent.stopped) (fun _ _ => rfl) (fun _ _ => rfl)
  rw [hu, hent] at hseeds hprop hstop
  exact ⟨hseeds, hprop, hstop⟩

@[simp] theorem State.at_seeded (s : State) (t : Nat) (v : Twin) : (s.at t).seeded v = s.seeded v := by
  cases v <;> rfl

theorem exec_seedRenewalEffect {gen n : Nat} {seed : Bytes} {ack : Bool} (hf : s.failStop = false) (hsw : s.sw.switching = false)
    (hw : w = s.seedTwin) (hn : n ≤ epochOf (s.at t).now) (hp : (s.twin w).ent.proposal = some (gen, n, seed, ack)) :
    exec (.seedRenewalEffect t) s = .next (settle s (
      if ack = true ∨ (gen = 1 ∧ s.seedPeer.isNone = true) then
        (s.at t).takeSeed w gen (if gen = 1 then epochOf (s.at t).now else n) seed
      else if gen = 1 then s.at t
      else
        ((((s.at t).updBoth (fun x => x.updEnt (fun o => { o with proposal := none }))).updTwin w (fun x => x.updEnt (fun o =>
          { o with nextEpoch := n + 100, postponed := satAdd 16 o.postponed 1 }))).eventU 0x8022 (twinCode w) []))) := by
  subst hw
  change execSeedRenewalEffect t s = _
  unfold execSeedRenewalEffect
  refine ev_of_eq ?_
  have hp' : ((s.at t).twin (s.at t).seedTwin).ent.proposal = some (gen, n, seed, ack) := by
    rw [State.at_twin]
    exact hp
  have hwait : ¬ (epochOf (s.at t).now < n ∨ (s.at t).failStop = true ∨ (s.at t).sw.switching = true) := by
    simp [hf, hsw, hn]
  extract_lets v
  rw [hp']
  exact if_neg hwait

theorem seedRenewalEffect_acked {gen n : Nat} {seed : Bytes} (hf : s.failStop = false) (hsw : s.sw.switching = false)
    (hw : w = s.seedTwin) (hn : n ≤ epochOf (s.at t).now) (hp : (s.twin w).ent.proposal = some (gen, n, seed, true)) :
    Completes (.seedRenewalEffect t) s (fun t' => ∀ v, s.seeded v = true →
      (t'.twin v).ent.seeds = (s.twin v).ent.seeds ++ [(if gen = 1 then epochOf (s.at t).now else n, gen, seed)] ∧
      (t'.twin v).ent.proposal = none ∧ (t'.twin v).ent.stopped = false) := by
  have hexec := exec_seedRenewalEffect (t := t) hf hsw hw hn hp
  rw [if_pos (.inl rfl)] at hexec
  refine Completes.of_settled hexec (fun v hv => ?_)
  have htake := State.takeSeed_ent (s.at t) w v gen (if gen = 1 then epochOf (s.at t).now else n) seed (by rwa [State.at_seeded])
  rw [State.at_twin] at htake
  rw [settle_twin]
  exact htake

theorem seedRenewalEffect_alone {n : Nat} {seed : Bytes} (hf : s.failStop = false) (hsw : s.sw.switching = false)
    (hw : w = s.seedTwin) (hn : n ≤ epochOf (s.at t).now) (hp : (s.twin w).ent.proposal = some (1, n, seed, false))
    (hpeer : s.seedPeer = none) : Completes (.seedRenewalEffect t) s (fun t' => s.seeded w = true →
      (t'.twin w).ent.proposal = none ∧ (t'.twin w).ent.seeds = (s.twin w).ent.seeds ++ [(epochOf (s.at t).now, 1, seed)]) := by
  have hexec := exec_seedRenewalEffect (t := t) hf hsw hw hn hp
  rw [if_pos (.inr ⟨rfl, by simp [hpeer]⟩)] at hexec
  refine Completes.of_settled hexec (fun hv => ?_)
  obtain ⟨hseeds, hprop, -⟩ := State.takeSeed_ent (s.at t) w w 1 (epochOf (s.at t).now) seed (by rwa [State.at_seeded])
  rw [State.at_twin] at hseeds
  rw [settle_twin]
  exact ⟨hprop, hseeds⟩

theorem exec_seedRenewalEffect_waits {n : Nat} {seed : Bytes} (hf : s.failStop = false) (hsw : s.sw.switching = false)
    (hw : w = s.seedTwin) (hn : n ≤ epochOf (s.at t).now) (hp : (s.twin w).ent.proposal = some (1, n, seed, false))
    (hpeer : s.seedPeer.isSome = true) : exec (.seedRenewalEffect t) s = .next (settle s (s.at t)) := by
  rw [exec_seedRenewalEffect hf hsw hw hn hp, if_neg, if_pos rfl]
  simp [← Option.not_isSome, hpeer]

theorem seedRenewalEffect_postponed {gen n : Nat} {seed : Bytes} (hf : s.failStop = false) (hsw : s.sw.switching = false)
    (hw : w = s.seedTwin) (hn : n ≤ epochOf (s.at t).now) (hp : (s.twin w).ent.proposal = some (gen, n, seed, false))
    (hg : gen ≠ 1) : Completes (.seedRenewalEffect t) s (fun t' =>
      (t'.twin w).ent.seeds = (s.twin w).ent.seeds ∧ (t'.twin w).ent.proposal = none ∧ (t'.twin w).ent.nextEpoch = n + 100 ∧
      (t'.twin w).ent.postponed = satAdd 16 (s.twin w).ent.postponed 1) := by
  have hexec := exec_seedRenewalEffect (t := t) hf hsw hw hn hp
  rw [if_neg (by simp [hg]), if_neg hg] at hexec
  refine Completes.of_settled hexec ?_
  rw [settle_twin]
  let u := ((s.at t).updBoth (fun x => x.updEnt (fun o => { o with proposal := none }))).updTwin w (fun x => x.updEnt (fun o =>
    { o with nextEpoch := n + 100, postponed := satAdd 16 o.postponed 1 }))
  have hworked : Worked (u.twin w) ((u.eventU 0x8022 (twinCode w) []).twin w) := WorkedIn.event u _ _ _ _ w
  have hent : (u.twin w).ent = { (s.twin w).ent with
      proposal := none, nextEpoch := n + 100, postponed := satAdd 16 (s.twin w).ent.postponed 1 } := by
    cases w <;> rfl
  have hseeds := hworked.eq (fun x => x.ent.seeds) rfl
  have hprop := hworked.eq (fun x => x.ent.proposal) rfl
  have hnext := hworked.eq (fun x => x.ent.nextEpoch) rfl
  have hpost := hworked.eq (fun x => x.ent.postponed) rfl
  rw [hent] at hseeds hprop hnext hpost
  exact ⟨hseeds, hprop, hnext, hpost⟩

theorem rngServiceStop_stops (ha : s.active = some w) (hs : (s.twin w).ent.sources ≠ []) (h12 : (s.twin w).ent.actives < 12)
    (hstop : (s.twin w).ent.stopped = false) : Completes (.rngServiceStop t) s (fun t' =>
      t'.twinA.ent.stopped = true ∧ t'.twinB.ent.stopped = true ∧ t'.twinA.ent.proposal = none ∧ t'.twinB.ent.proposal = none) := by
  let u := (s.at t).updBoth (fun x => x.updEnt (fun o => { o with stopped := true, resuming := false, proposal := none }))
  have hexec : exec (.rngServiceStop t) s = .next (settle s
      (((((u.event 0x8020 sevEvid (twinCode w) []).serve .a).serve .b).endRngWaits .a).endRngWaits .b)) := by
    change ev t State.stopRandom s = _
    refine ev_of_eq ?_
    unfold State.stopRandom
    rw [State.at_active, ha]
    refine if_neg ?_
    rw [State.at_twin]
    simp [hs, hstop, Nat.not_le.mpr h12]
  have hworked : WorkedIn u (((((u.event 0x8020 sevEvid (twinCode w) []).serve .a).serve .b).endRngWaits .a).endRngWaits .b) :=
    ((((WorkedIn.event u _ _ _ _).trans (.serve _ .a)).trans (.serve _ .b)).trans (.endRngWaits _ .a)).trans (.endRngWaits _ .b)
  refine Completes.of_settled hexec ?_
  rw [settle_twinA, settle_twinB]
  generalize ((((u.event 0x8020 sevEvid (twinCode w) []).serve .a).serve .b).endRngWaits .a).endRngWaits .b = v at *
  exact ⟨(hworked .a).eq (fun x => x.ent.stopped) rfl, (hworked .b).eq (fun x => x.ent.stopped) rfl,
    (hworked .a).eq (fun x => x.ent.proposal) rfl, (hworked .b).eq (fun x => x.ent.proposal) rfl⟩

end

end Sys2Proof.Machine
end

section
/-! The entropy blocks, settled. -/

namespace Sys2Proof.Machine

/-- Settles O36: a source that fails is quarantined with what it tainted (`Entropy.failed`); spares, blocks and masks follow; a seed is
proposed, acknowledged and in force (`State.takeSeed_ent`), or waits, or is postponed; too few sources stop random service. -/
theorem entropyService : Obligations.EntropyService := by
  unfold Obligations.EntropyService
  refine ⟨fun s t src island dp w hup => ?_, fun s t w hup hf hsw hw => ?_⟩
  · exact ⟨fun c g test count hc hg => ⟨fun h => exec_noiseSourceFail_early hc h,
        fun h ha => noiseSourceFail_quarantines hc hg h ha⟩,
      fun g i c hg hi => exec_spareSourceJoin_joins hg hi, fun g raw hraw hg => exec_conditionedBlock_blocks hraw hg,
      fun b l hb he hisl hd => maskingReseed_takes hb he hisl hd,
      fun hs hq ho hr => entropyStartupTestEnd_starts hup hs hq ho hr⟩
  · refine ⟨fun seed ent hp ha hmake => ⟨fun hs => ?_, fun g hs hstop hn => ?_⟩, fun o ho => exec_seedAck_acks ho,
      fun gen n seed hn => ⟨fun hp => seedRenewalEffect_acked hf hsw hw hn hp,
        fun hp hpeer => exec_seedRenewalEffect_waits hf hsw hw hn hp hpeer,
        fun hp hpeer => seedRenewalEffect_alone hf hsw hw hn hp hpeer,
        fun hp hg => seedRenewalEffect_postponed hf hsw hw hn hp hg⟩,
      fun ha hs h12 hstop => rngServiceStop_stops ha hs h12 hstop⟩
    · exact proposed (exec_seedProposal_first hup hf hsw hw hp ha hs) hmake (by rw [hs]; rfl)
    · exact proposed (exec_seedProposal_renewal hup hf hsw hw hp ha hs hstop hn) hmake (by rw [hs])

end Sys2Proof.Machine
end

section
/-! The Orrery: calls that start, are admitted and end, and the slices (R289 to R303). -/

namespace Sys2Proof.Machine

section
variable {s : State} {t : Nat} {w : Twin} {id : Nat} {k : OrrCall}

/-! Calls that start. -/

/-- The call once it has started with a verdict and an output (R293, R294). -/
def OrrCall.started (k : OrrCall) (now : Nat) (v : Option Bool) (out : Bytes) : OrrCall :=
  { k with done := some (if v = some false then stVerify else 0, if v = some true then 3 else 1, out, k.cycles)
           ends := some (now + 4 * k.cycles) }

theorem TwinSt.startCall_starts {x : TwinSt} {now : Nat} {v : Option Bool} {out : Bytes} (hc : k.compute = (v, out)) :
    Tbl.find? (x.startCall now id k).orrery.calls id = some (k.started now v out) ∧ (x.startCall now id k).orrery.dirty = true := by
  unfold TwinSt.startCall OrrCall.started
  rw [hc]
  refine ⟨?_, rfl⟩
  dsimp only
  rw [Tbl.find?_put_same]
  obtain _ | _ | _ := v <;> rfl

theorem starts {i : Instr} {code : Nat} {v : Option Bool} {out : Bytes} (hi : exec i s = orrOp t w id code s)
    (hk : Tbl.find? (s.twin w).orrery.calls id = some k) (had : k.admitted = true) (hd : k.done = none)
    (hstart : (s.twin w).orrery.canStart (s.at t).now id k = true) (haw : s.awake (twinBase w + 197) = true)
    (hcode : k.f 0 1 = code) (hc : k.compute = (v, out)) : Completes i s (fun t' =>
      Tbl.find? (t'.twin w).orrery.calls id = some (k.started (s.at t).now v out) ∧ (t'.twin w).orrery.dirty = true) := by
  have hexec : exec i s = .next (settle s ((s.at t).setTwin w ((s.twin w).startCall (s.at t).now id k))) := by
    rw [hi]
    unfold orrOp
    refine ev_of_eq ?_
    dsimp only
    rw [State.at_twin, hk]
    have haw' : (s.at t).awake (twinBase w + 197) = true := haw
    exact if_pos ⟨hcode, had, by simp [hd], hstart, haw'⟩
  refine Completes.of_settled hexec ?_
  rw [settle_twin, State.twin_setTwin]
  exact TwinSt.startCall_starts hc

/-! Admission. -/

theorem TwinSt.admitCall_ctxs {x y : TwinSt} (h : x.admitCall id k = some y) : y.ctxs = x.ctxs := by
  have hput : ∀ z : TwinSt, (({ z with orrery := { z.orrery with calls := Tbl.put z.orrery.calls id k.enter } } : TwinSt).markOrrery).ctxs
      = z.ctxs := fun z => (ReqsOnly.markOrrery _).eq TwinSt.ctxs rfl
  unfold TwinSt.admitCall at h
  dsimp only at h
  split at h
  · exact Option.some.inj h ▸ hput x
  · obtain ⟨z, hz, rfl⟩ := Option.map_eq_some_iff.mp h
    rw [hput]
    unfold TwinSt.raiseDep at hz
    split at hz
    · split at hz
      · cases hz
      · exact Option.some.inj hz ▸ rfl
    · cases hz

/-- A core that chooses again moves no more of a twin than what it runs and charges. -/
theorem State.rechargeCore_twin (s : State) (isl : Nat) (w : Twin) : ReqsOnly (s.twin w) ((s.rechargeCore isl).twin w) := by
  unfold State.rechargeCore
  split
  · next v _ =>
    by_cases h : w = v
    · subst h
      rw [State.updTwin_same]
      exact .recharge _ _ _
    · obtain rfl : w = otherTwin v := by cases w <;> cases v <;> simp_all [otherTwin]
      rw [State.updTwin_other]
      exact .rfl
  · exact .rfl

theorem orreryCallStoreAdmit_admits {d : Task}
    (hfirst : List.find? (fun (p : Nat × OrrCall) => !p.2.admitted && (s.twin w).orrery.room p.2) (s.twin w).orrery.calls = some (id, k))
    (hown : k.owner ≠ adminSpace) (hd : (s.twin w).task? k.q k.task = some d) (hlt : d.dep < 65535) :
    Completes (.orreryCallStoreAdmit t w) s (fun t' =>
      Tbl.find? (t'.twin w).orrery.calls id = some ({ k with arrived := (s.at t).now } : OrrCall).enter ∧
      (∀ c, Tbl.find? (t'.twin w).ctxs (ctxKey k.ctx) = some c → c.waiting = false)) := by
  obtain ⟨y, hy, hcall, -⟩ := (s.twin w).admitCall_admits (id := id) (k := { k with arrived := (s.at t).now }) hown hd hlt
  let z : TwinSt := { y with ctxs := Tbl.upd y.ctxs (ctxKey k.ctx) (fun c => { c with waiting := false }) }
  have hexec : exec (.orreryCallStoreAdmit t w) s = .next (settle s (((s.at t).setTwin w z).rechargeCore k.ctx.island)) := by
    change execOrreryCallStoreAdmit t w s = _
    unfold execOrreryCallStoreAdmit
    refine ev_of_eq ?_
    dsimp only
    rw [State.at_twin, hfirst]
    dsimp only
    rw [hy]
  refine Completes.of_settled hexec ?_
  have hcore := State.rechargeCore_twin ((s.at t).setTwin w z) k.ctx.island w
  rw [settle_twin, hcore.eq TwinSt.orrery rfl, hcore.eq TwinSt.ctxs rfl, State.twin_setTwin]
  refine ⟨hcall, fun c hc => ?_⟩
  rw [Tbl.find?_upd, if_pos rfl] at hc
  obtain ⟨c', -, rfl⟩ := Option.map_eq_some_iff.mp hc
  rfl

/-! Completion. -/

theorem Ctx.lput_lread (c : Ctx) (a : Nat) (b : Bytes) (tag : Bool) : (c.lput a b tag).lread a b.length = b := by
  unfold Ctx.lread
  refine List.ext_getElem (by simp) (fun i h1 h2 => ?_)
  rw [List.getElem_map, List.getElem_range, Ctx.lput_reads, if_pos ⟨Nat.le_add_right _ _, by omega⟩, Nat.add_sub_cancel_left,
    List.getD_eq_getElem _ _ h2]

/-- What a completion without output leaves of a twin (R293). -/
theorem TwinSt.completeCall_leaves {x : TwinSt} {c : Ctx} (hown : k.owner ≠ adminSpace) (hc : Tbl.find? x.ctxs (ctxKey k.ctx) = some c)
    (ha : k.blkAddr + 64 ≤ 65536) (st fl cyc : Nat) : let y := x.completeCall id k st fl [] cyc
    let words := toLe 2 st ++ [byte fl, 0] ++ toLe 4 cyc
    Tbl.find? y.orrery.calls id = none ∧ y.dones = x.dones ++ [{ q := k.q, task := k.task, kind := .orrery }] ∧
      Tbl.find? y.ctxs (ctxKey k.ctx) = some (c.lput (k.blkAddr + 56) words false) := by
  intro y words
  have hdep : x.deposit k.ctx (k.blkAddr + 56) words false =
      { x with ctxs := Tbl.upd x.ctxs (ctxKey k.ctx) (fun c => c.lput (k.blkAddr + 56) words false) } := if_pos (by omega)
  let z := x.deposit k.ctx (k.blkAddr + 56) words false
  let v : TwinSt := { z with orrery := { z.orrery with calls := Tbl.del z.orrery.calls id } }
  have hy : y = { v.updTask k.q k.task (fun t => { t with orrOut := t.orrOut - 1 }) with
      dones := v.dones ++ [{ q := k.q, task := k.task, kind := .orrery }] } := by
    change x.completeCall id k st fl [] cyc = _
    unfold TwinSt.completeCall
    exact if_neg hown
  rw [hy]
  refine ⟨(Tbl.find?_del _ _ _).trans (if_pos rfl), ?_, ?_⟩
  · change z.dones ++ _ = _
    rw [show z.dones = x.dones by rw [show z = _ from hdep]]
  · change Tbl.find? z.ctxs (ctxKey k.ctx) = _
    rw [show z.ctxs = _ from congrArg TwinSt.ctxs hdep]
    exact (Tbl.find?_upd _ _ _ _).trans (by rw [if_pos rfl, hc]; rfl)

/-- The calls and operations of a twin, their completions, and the contexts. -/
def TwinSt.callSide (x : TwinSt) : Orrery × List Done × Tbl Ctx × Tbl EngOp := (x.orrery, x.dones, x.ctxs, x.ops)

theorem Noted.callSide {s u : State} (h : Noted s u) (w : Twin) : (u.twin w).callSide = (s.twin w).callSide :=
  h.twin_eq w TwinSt.callSide (Eq.refl _)

/-- A cause in the active twin stops no call and no operation of it (R337, R339). -/
theorem State.cause_callSide {s : State} {w : Twin} (ha : s.active = some w) (code isl : Nat) :
    ((s.cause w code isl).twin w).callSide = (s.twin w).callSide := by
  unfold State.cause
  rw [if_pos ha]
  unfold State.giveUp
  split
  · unfold State.firstCause
    dsimp only
    split
    · rfl
    · cases w <;> rfl
  · split
    · unfold State.doFailStop
      split
      · rfl
      · exact ((Noted.eventU _ _ _ _).trans (.voidDraws _ _ _ _)).callSide w
    · rw [(Noted.eventU _ _ _ _).callSide]
      cases w <;> rfl

/-- The active twin stays the active one while it gives up, and when the module fails stop (R339, R346). -/
theorem State.active_cause {s : State} {w : Twin} (ha : s.active = some w) (code isl : Nat) :
    (s.cause w code isl).active = some w := by
  unfold State.cause
  rw [if_pos ha]
  unfold State.giveUp
  split
  · unfold State.firstCause
    dsimp only
    split
    · exact ha
    · cases w <;> exact ha
  · split
    · unfold State.doFailStop
      split
      · exact ha
      · exact ((Noted.eventU _ _ _ _).trans (.voidDraws _ _ _ _)).active.trans ha
    · rw [(Noted.eventU _ _ _ _).active]
      cases w <;> exact ha

/-- A call that ends with its words in the call block (R293). -/
def OrrCall.Ended (k : OrrCall) (id : Nat) (x y : TwinSt) (words : Bytes) : Prop :=
  Tbl.find? y.orrery.calls id = none ∧ y.dones = x.dones ++ [{ q := k.q, task := k.task, kind := .orrery }] ∧
    ∃ c', Tbl.find? y.ctxs (ctxKey k.ctx) = some c' ∧ c'.lread (k.blkAddr + 56) words.length = words

theorem OrrCall.Ended.of_callSide {x y z : TwinSt} {words : Bytes} (h : k.Ended id x y words) (he : z.callSide = y.callSide) :
    k.Ended id x z words := by
  have ho : z.orrery = y.orrery := congrArg Prod.fst he
  have hd : z.dones = y.dones := congrArg (·.2.1) he
  have hc : z.ctxs = y.ctxs := congrArg (·.2.2.1) he
  unfold OrrCall.Ended at *
  rwa [ho, hd, hc]

theorem orreryCallComplete_ends {c : Ctx} {st fl cyc : Nat} (hk : Tbl.find? (s.twin w).orrery.calls id = some k)
    (hown : k.owner ≠ adminSpace) (hc : Tbl.find? (s.twin w).ctxs (ctxKey k.ctx) = some c) (ha : k.blkAddr + 64 ≤ 65536)
    (hd : k.done = some (st, fl, [], cyc)) (he : ∀ e, k.ends = some e → e ≤ (s.at t).now) :
    Completes (.orreryCallComplete t w ⟨id, false⟩) s (fun t' =>
      k.Ended id (s.twin w) (t'.twin w) (toLe 2 st ++ [byte fl, 0] ++ toLe 4 cyc)) := by
  have hexec : exec (.orreryCallComplete t w ⟨id, false⟩) s = .next (settle s
      ((s.at t).updTwin w (fun x => x.completeCall id k st fl [] cyc))) := by
    change execOrreryCallComplete t w ⟨id, false⟩ s = _
    unfold execOrreryCallComplete
    refine ev_of_eq ?_
    dsimp only
    rw [State.at_twin, hk]
    dsimp only
    rw [if_neg (by simp), hd]
    refine if_neg ?_
    rw [Option.any_eq_true]
    rintro ⟨e, hmem, hlt⟩
    exact absurd (he e hmem) (Nat.not_le.mpr (of_decide_eq_true hlt))
  obtain ⟨hcalls, hdones, hctx⟩ := TwinSt.completeCall_leaves (id := id) hown hc ha st fl cyc
  refine Completes.of_settled hexec ?_
  rw [settle_twin, State.updTwin_same, State.at_twin]
  exact ⟨hcalls, hdones, _, hctx, Ctx.lput_lread _ _ _ _⟩

theorem orreryCallComplete_fails {c : Ctx} (hk : Tbl.find? (s.twin w).orrery.calls id = some k)
    (hown : k.owner ≠ adminSpace) (hc : Tbl.find? (s.twin w).ctxs (ctxKey k.ctx) = some c) (ha : k.blkAddr + 64 ≤ 65536)
    (had : k.admitted = true) (hact : s.active = some w) :
    Completes (.orreryCallComplete t w ⟨id, true⟩) s (fun t' =>
      k.Ended id (s.twin w) (t'.twin w) (toLe 2 stInternal ++ [1, 0])) := by
  let cyc := match k.done with | some d => d.2.2.2 | none => 0
  let u := (s.at t).updTwin w (fun x => (x.completeCall id k stInternal 1 [] cyc).countEcc)
  let v := u.event (0xB000 + Config.orreryEvent.toNat) Config.orreryEventSev.toNat (twinCode w)
    (toLe 16 (Config.orreryDetail k.q id).toNat)
  have hexec : exec (.orreryCallComplete t w ⟨id, true⟩) s = .next (settle s (v.cause w 0x01 (twinBase w + 197))) := by
    change execOrreryCallComplete t w ⟨id, true⟩ s = _
    unfold execOrreryCallComplete
    refine ev_of_eq ?_
    dsimp only
    rw [State.at_twin, hk]
    exact if_pos ⟨rfl, had⟩
  obtain ⟨hcalls, hdones, hctx⟩ := TwinSt.completeCall_leaves (id := id) hown hc ha stInternal 1 cyc
  have hu : k.Ended id (s.twin w) (u.twin w) (toLe 2 stInternal ++ [1, 0]) := by
    rw [State.updTwin_same, State.at_twin]
    refine ⟨hcalls, hdones, _, hctx, ?_⟩
    have hread := (c.lput_lread (k.blkAddr + 56) (toLe 2 stInternal ++ [byte 1, 0] ++ toLe 4 cyc) false)
    have htake := congrArg (List.take 4) hread
    unfold Ctx.lread at htake ⊢
    rw [← List.map_take, List.take_range] at htake
    exact htake
  have hv : (v.twin w).callSide = (u.twin w).callSide := (Noted.event u _ _ _ _).callSide w
  have hvact : v.active = some w := by
    rw [(Noted.event u _ _ _ _).active]
    cases w <;> exact hact
  refine Completes.of_settled hexec ?_
  rw [settle_twin]
  exact hu.of_callSide ((State.cause_callSide hvact _ _).trans hv)

/-! Slices. -/

theorem Orrery.sliceOver_none {o : Orrery} (h : o.slice = none) (now : Nat) : o.sliceOver now = true := by
  unfold Orrery.sliceOver
  rw [h]

theorem Orrery.endSlice_none {o : Orrery} (h : o.slice = none) (now q : Nat) : o.endSlice now q = o := by
  unfold Orrery.endSlice
  rw [h]

/-- A frame that moves on by a slot keeps its slice (R301). -/
theorem Orrery.slot_moved (o : Orrery) : let p := if o.slot = 255 then { o with slot := 0, counts := [], inserted := 0 } else { o with slot := o.slot + 1 }
    p.slice = o.slice ∧ p.slot = if o.slot = 255 then 0 else o.slot + 1 := by
  dsimp only
  split <;> exact ⟨rfl, rfl⟩

theorem orrerySlotBoundary_begins {c : Nat} (hs : (s.twin w).orrery.slice = none)
    (hn : (s.twin w).orrery.nextOwner (s.twin w).store.activeSet = some c) : Completes (.orrerySlotBoundary t w) s (fun t' =>
      let y := (s.twin w).orrery
      let start := if y.dirty && y.lastOwner != some c then (s.at t).now + 512 else (s.at t).now
      (t'.twin w).orrery.slice = some (c, start, start + (s.twin w).store.activeSet.quantum, 0, false)) := by
  let y := (s.twin w).orrery
  let start := if y.dirty && y.lastOwner != some c then (s.at t).now + 512 else (s.at t).now
  have hexec : exec (.orrerySlotBoundary t w) s = .next (settle s ((s.at t).updTwin w (fun x => ({ x with orrery := { y with
      slice := some (c, start, start + x.store.activeSet.quantum, 0, false), dirty := y.dirty && !(y.dirty && y.lastOwner != some c)
      inserted := if c = adminSpace then y.inserted + 1 else y.inserted } } : TwinSt).markOrrery))) := by
    change execOrrerySlotBoundary t w s = _
    unfold execOrrerySlotBoundary
    refine ev_of_eq (State.updTwin_congr _ w ?_)
    rw [State.at_twin]
    refine (if_neg (not_not.mpr (Orrery.sliceOver_none hs _))).trans ?_
    dsimp only
    rw [Orrery.endSlice_none hs, hn]
  refine Completes.of_settled hexec ?_
  dsimp only
  rw [settle_twin, State.updTwin_same, State.at_twin]
  exact congrArg Orrery.slice ((ReqsOnly.markOrrery _).eq TwinSt.orrery rfl)

theorem orrerySlotBoundary_passes (hs : (s.twin w).orrery.slice = none)
    (hn : (s.twin w).orrery.nextOwner (s.twin w).store.activeSet = none) : Completes (.orrerySlotBoundary t w) s (fun t' =>
      (t'.twin w).orrery.slice = none ∧
      (t'.twin w).orrery.slot = if (s.twin w).orrery.slot = 255 then 0 else (s.twin w).orrery.slot + 1) := by
  let o := (s.twin w).orrery
  let p := if o.slot = 255 then { o with slot := 0, counts := [], inserted := 0 } else { o with slot := o.slot + 1 }
  have hexec : exec (.orrerySlotBoundary t w) s = .next (settle s ((s.at t).updTwin w (fun x =>
      (o.calls.filter (fun (k : Nat × OrrCall) => k.2.admitted && k.2.done.isNone && k.2.owner != adminSpace)).foldl
        (fun (x : TwinSt) k => x.updReq k.2.q (fun r => { r with precMark := true })) { x with orrery := p }))) := by
    change execOrrerySlotBoundary t w s = _
    unfold execOrrerySlotBoundary
    refine ev_of_eq (State.updTwin_congr _ w ?_)
    rw [State.at_twin]
    refine (if_neg (not_not.mpr (Orrery.sliceOver_none hs _))).trans ?_
    dsimp only
    rw [Orrery.endSlice_none hs, hn]
  refine Completes.of_settled hexec ?_
  rw [settle_twin, State.updTwin_same, State.at_twin]
  have hfold : ∀ (l : List (Nat × OrrCall)) (x : TwinSt),
      (l.foldl (fun (x : TwinSt) k => x.updReq k.2.q (fun r => { r with precMark := true })) x).orrery = x.orrery :=
    fun l x => foldl_keeps (p := TwinSt.orrery)
      (f := fun (x : TwinSt) (k : Nat × OrrCall) => x.updReq k.2.q (fun r => { r with precMark := true })) (fun _ _ => rfl) l x
  rw [hfold]
  obtain ⟨hslice, hslot⟩ := Orrery.slot_moved o
  exact ⟨hslice.trans hs, hslot⟩

theorem orreryQuantumExpiry_ends {c b n e : Nat} {r : Bool} (hs : (s.twin w).orrery.slice = some (c, b, n, e, r))
    (hn : n ≤ (s.at t).now) (hr : (s.twin w).orrery.running (s.at t).now = []) (hc : c ≠ adminSpace) :
    Completes (.orreryQuantumExpiry t w) s (fun t' => (t'.twin w).orrery.slice = none ∧
      (t'.twin w).orrery.slot = if (s.twin w).orrery.slot = 255 then 0 else (s.twin w).orrery.slot + 1) := by
  have hexec : exec (.orreryQuantumExpiry t w) s = .next (settle s ((s.at t).updTwin w (fun x =>
      { x with orrery := x.orrery.endSlice (s.at t).now x.store.activeSet.quantum }))) := by
    change execOrreryQuantumExpiry t w s = _
    unfold execOrreryQuantumExpiry
    refine ev_of_eq (State.updTwin_congr _ w ?_)
    rw [State.at_twin, hs]
    exact if_pos ⟨hn, by rw [hr]; rfl⟩
  refine Completes.of_settled hexec ?_
  rw [settle_twin, State.updTwin_same, State.at_twin]
  dsimp only
  unfold Orrery.endSlice
  rw [hs]
  dsimp only
  rw [if_neg hc]
  split <;> exact ⟨rfl, rfl⟩

end

end Sys2Proof.Machine
end

section
/-! The Orrery, settled. -/

namespace Sys2Proof.Machine

/-- Settles O48: a call that may start is computed (`TwinSt.startCall_starts`), one that finds room is admitted, and one that is done ends
with its words in the call block; slices begin, pass and end. -/
theorem orreryCalls : Obligations.OrreryCalls := by
  unfold Obligations.OrreryCalls
  intro s t w id k hk u x y i done
  have hdone : ∀ (c : Instr) (v : Option Bool) (out : Bytes), Completes c s (fun t' =>
      Tbl.find? (t'.twin w).orrery.calls id = some (k.started u.now v out) ∧ (t'.twin w).orrery.dirty = true) → done c v out :=
    fun _ _ _ h => h
  refine ⟨fun had hd hstart haw => ?_, fun d hfirst hown hd hlt => orreryCallStoreAdmit_admits hfirst hown hd hlt,
    fun c hown hc ha => ?_, fun hs => ⟨fun c hn => orrerySlotBoundary_begins hs hn, fun hn => orrerySlotBoundary_passes hs hn⟩,
    fun c b n e r hs hn hr hc => orreryQuantumExpiry_ends hs hn hr hc⟩
  · have hstarts : ∀ {op : Instr} {code : Nat} {v : Option Bool} {out : Bytes}, exec op s = orrOp t w id code s → k.f 0 1 = code →
        k.compute = (v, out) → done op v out := fun hop hcode hc => hdone _ _ _ (starts hop hk had hd hstart haw hcode hc)
    refine ⟨fun h => ?_, fun h => ?_, fun h => ?_, fun h => ?_, fun h => ?_⟩
    · exact hstarts (code := 0x01) rfl h (by unfold OrrCall.compute; rw [h]; rfl)
    · exact hstarts (code := 0x10) rfl h (by unfold OrrCall.compute; rw [h]; rfl)
    · exact hstarts (code := 0x11) rfl h (by unfold OrrCall.compute; rw [h]; rfl)
    · exact hstarts (code := 0x20) rfl h (by unfold OrrCall.compute; rw [h]; rfl)
    · exact hstarts (code := 0x30) rfl h (by unfold OrrCall.compute; rw [h]; rfl)
  · intro ended
    refine ⟨fun st fl out cyc hd he hout => ?_, fun had hact => orreryCallComplete_fails hk hown hc ha had hact⟩
    subst hout
    exact orreryCallComplete_ends hk hown hc ha hd he

end Sys2Proof.Machine
end

section
/-! The digests of an epoch's batch, where a table of requests names one request twice (R331). -/

namespace Sys2Proof.Machine

/-- Twins in service, with a request 5 of Twin A that has ended, its digest not yet sent. Its table is not a rising one (`Tbl.wf`):
9 stands before 5, and a second entry of 5 has a task ready, in a compartment at its cap. -/
def twiceNamedState : State :=
  { State.reset with
    boot := { up := true, ready := true }, active := some .a
    twinA := { role := .active
               reqs := [(9, {}), (5, { fin := some { digest := [1] } }), (5, { tasks := [(0, { st := .ready })] })] }
    twinB := { role := .healthy } }

/-- The digests of the batches that a twin has on their way after a command. -/
def digestsAfter (w : Twin) : Host.Outcome State Fault Refusal → List (List (Nat × Bytes))
  | .next s => (s.twin w).outBatch.map Batch.digests
  | _ => []

/-- The mark of rank 4 writes request 5 in front of where it stood, so that the batch carries its digest twice. -/
theorem epochBatch_twiceNamed :
    digestsAfter .a (exec (.epochBatch 4000 .a) twiceNamedState) = [[(5, [1]), (5, [1])]] := by
  decide +kernel

/-- Refutes O32: the statement takes any table of requests, rising or not. In one that is not, an epoch's mark of rank 4 (R194) makes
the batch carry the digest of an end record twice. -/
theorem not_twinBatches : ¬ Obligations.TwinBatches := by
  intro h
  obtain ⟨hbatch, -, -⟩ := h twiceNamedState 4000 .a (by decide) (by decide)
  obtain ⟨t, ht, -, -, -, b, hout, -, hdigests, -, -⟩ :=
    hbatch (by decide +kernel) (by decide +kernel) (by decide) (by decide +kernel) (by decide +kernel)
  have hsent : digestsAfter .a (exec (.epochBatch 4000 .a) twiceNamedState) = [[(5, [1])]] := by
    rw [ht]
    show (t.twin .a).outBatch.map Batch.digests = _
    rw [hout, List.map_append, List.map_singleton, hdigests]
    rfl
  exact absurd (hsent.symm.trans epochBatch_twiceNamed) (by decide)

end Sys2Proof.Machine
end

section
/-! Power domains: what each operation of the power manager leaves of a domain (R409, R410, R416 to R419). -/

namespace Sys2Proof.Machine

/-- A domain as it stands once it has been given its new values: the time is noted at which it leaves Run. -/
def Domain.leaving (d : Domain) (was : PState) (now : Nat) : Domain :=
  if was = .run ∧ d.st ≠ .run then { d with left := now } else d

theorem Domain.leaving_of_run {d : Domain} {was : PState} {now : Nat} (h : d.st = .run) : d.leaving was now = d :=
  if_neg (fun hd => hd.2 h)

theorem Domain.leaving_self {d : Domain} {was : PState} {now : Nat} (h : d.st = was) : d.leaving was now = d :=
  if_neg (fun hd => hd.2 (h.trans hd.1))

section
variable (d : Domain) (was : PState) (now : Nat)
@[simp] theorem Domain.leaving_st : (d.leaving was now).st = d.st := by unfold Domain.leaving; split <;> rfl
@[simp] theorem Domain.leaving_entry : (d.leaving was now).entry = d.entry := by unfold Domain.leaving; split <;> rfl
@[simp] theorem Domain.leaving_latched : (d.leaving was now).latched = d.latched := by unfold Domain.leaving; split <;> rfl
@[simp] theorem Domain.leaving_busy : (d.leaving was now).busy = d.busy := by unfold Domain.leaving; split <;> rfl
@[simp] theorem Domain.leaving_held : (d.leaving was now).held = d.held := by unfold Domain.leaving; split <;> rfl
end

section
variable {s t : State} {n m : Nat}

/-- The domains are a part of the power manager alone. -/
theorem State.domain_congr (h : t.power.domains = s.power.domains) (n : Nat) : t.domain n = s.domain n :=
  congrArg (fun l => Tbl.getD l n ({} : Domain)) h

theorem Noted.domain (h : Noted s t) (n : Nat) : t.domain n = s.domain n := State.domain_congr (congrArg Power.domains h.power) n

@[simp] theorem settle_domain (s t : State) (n : Nat) : (settle s t).domain n = t.domain n := rfl

@[simp] theorem State.at_domain (s : State) (t n : Nat) : (s.at t).domain n = s.domain n := rfl

@[simp] theorem State.updTwin_domain (s : State) (w : Twin) (f : TwinSt → TwinSt) (n : Nat) : (s.updTwin w f).domain n = s.domain n :=
  State.domain_congr (congrArg Power.domains (s.updTwin_power w f)) n

theorem State.setVid_domains (s : State) : s.setVid.power.domains = s.power.domains := by
  unfold State.setVid
  split <;> rfl

theorem State.setDomain_domains (s : State) (n : Nat) (d : Domain) : (s.setDomain n d).power.domains =
    Tbl.store s.power.domains n (d.leaving (s.domain n).st s.now) {} := by
  have hput : ∀ (b : Prop) [Decidable b] (u : State), (if b then u else u.setVid).power.domains = u.power.domains := by
    intro b _ u
    split
    · rfl
    · exact u.setVid_domains
  unfold State.setDomain
  extract_lets was d' u
  rw [hput]
  rfl

theorem State.domain_setDomain (s : State) (n m : Nat) (d : Domain) : (s.setDomain n d).domain m =
    if m = n then d.leaving (s.domain n).st s.now else s.domain m := by
  unfold State.domain
  rw [State.setDomain_domains, Tbl.getD_store]
  rfl

theorem State.domain_setDomain_same (s : State) (n : Nat) (d : Domain) :
    (s.setDomain n d).domain n = d.leaving (s.domain n).st s.now := (s.domain_setDomain n n d).trans (if_pos rfl)

theorem State.domain_setDomain_ne (h : m ≠ n) (d : Domain) : (s.setDomain n d).domain m = s.domain m :=
  (s.domain_setDomain n m d).trans (if_neg h)

/-- A domain changed that neither leaves Run nor enters it. -/
theorem State.domain_updDomain_of_st {f : Domain → Domain} (h : (f (s.domain n)).st = (s.domain n).st) :
    (s.updDomain n f).domain n = f (s.domain n) :=
  (s.domain_setDomain_same n _).trans (Domain.leaving_self h)

theorem State.domain_updDomain_ne (h : m ≠ n) (f : Domain → Domain) : (s.updDomain n f).domain m = s.domain m :=
  State.domain_setDomain_ne h _

@[simp] theorem State.setDomain_now (s : State) (n : Nat) (d : Domain) : (s.setDomain n d).now = s.now :=
  (Woken.setDomain s n d).eq State.now (Eq.refl _)

@[simp] theorem State.setDomain_mod (s : State) (n : Nat) (d : Domain) : (s.setDomain n d).power.mod = s.power.mod := by
  have hput : ∀ (b : Prop) [Decidable b] (u : State), (if b then u else u.setVid).power.mod = u.power.mod := by
    intro b _ u
    split
    · rfl
    · unfold State.setVid
      split <;> rfl
  unfold State.setDomain
  extract_lets was d' u
  rw [hput]

/-- An access served at a gatekeeper moves nothing of the power manager. -/
@[simp] theorem State.serveAccess_power (s : State) (n : Nat) (a : GateAcc) : (s.serveAccess n a).power = s.power := by
  cases a with
  | zenith b => cases b <;> rfl
  | debug act =>
    unfold State.serveAccess State.debugAct
    cases act with
    | halt | resume => rfl
    | step | read l => dsimp only; split <;> rfl
    | write l v tag => dsimp only; split <;> simp [State.answerAccess]

/-- Before its gatekeeper serves what it has held, a domain that returns to Run is one with its clamp and its `halt` ended. -/
theorem State.toRun_domains (s : State) (n : Nat) :
    (s.toRun n).power.domains = (s.setDomain n (s.domain n).woken).power.domains := by
  have hclamp : ∀ (c : Prop) [Decidable c] (u : State), (if c then u.updPower (fun p => { p with padClamp := false }) else u).power.domains =
      u.power.domains := by
    intro c _ u
    split <;> rfl
  unfold State.toRun
  dsimp only
  rw [foldl_keeps (p := fun u : State => u.power.domains) (fun u a => congrArg Power.domains (u.serveAccess_power n a))]
  split
  · rw [State.updTwin_power, hclamp]
  · rw [hclamp]

theorem State.domain_toRun_same (s : State) (n : Nat) : (s.toRun n).domain n = (s.domain n).woken := by
  rw [State.domain_congr (s.toRun_domains n), State.domain_setDomain_same, Domain.leaving_of_run rfl]

theorem State.domain_toRun_ne (h : m ≠ n) : (s.toRun n).domain m = s.domain m := by
  rw [State.domain_congr (s.toRun_domains n), State.domain_setDomain_ne h]

/-- A module state entered leaves every domain. -/
theorem State.enterMod_power (s : State) (m : ModPower) : (s.enterMod m).power = { s.power with mod := m } := by
  unfold State.enterMod
  split
  · next h => rw [← h]
  · exact (Noted.powerEvent _ _ _ _ _ _ _ _).power

@[simp] theorem State.domain_enterMod (s : State) (m : ModPower) (n : Nat) : (s.enterMod m).domain n = s.domain n :=
  State.domain_congr (by rw [State.enterMod_power]) n

end

/-! What wake events leave of one domain. -/

/-- What wake events make of a domain that takes part in no entry: nothing, or they bring it to Run; of one whose entry is in
progress, they latch at it (R416, R417). -/
def Roused (d e : Domain) : Prop :=
  (d.entry = none ∧ (e = d ∨ e = d.woken)) ∨ (d.entry.isSome = true ∧ ∃ l, e = { d with latched := d.latched ++ l })

theorem Domain.woken_woken (d : Domain) : d.woken.woken = d.woken := rfl

theorem Roused.rfl {d : Domain} : Roused d d := by
  cases h : d.entry with
  | none => exact .inl ⟨h, .inl (Eq.refl d)⟩
  | some p => exact .inr ⟨by rw [h]; exact Eq.refl true, [], by simp⟩

theorem Roused.woken {d : Domain} (h : d.entry = none) : Roused d d.woken := .inl ⟨h, .inr (Eq.refl _)⟩

theorem Roused.trans {d e f : Domain} (h : Roused d e) (k : Roused e f) : Roused d f := by
  rcases h with ⟨hd, rfl | rfl⟩ | ⟨hd, l, rfl⟩
  · exact k
  · refine .inl ⟨hd, .inr ?_⟩
    rcases k with ⟨-, rfl | rfl⟩ | ⟨hk, -⟩
    · exact Eq.refl _
    · exact d.woken_woken
    · cases hk
  · rcases k with ⟨hk, -⟩ | ⟨-, l', rfl⟩
    · rw [show d.entry = none from hk] at hd
      cases hd
    · exact .inr ⟨hd, l ++ l', by simp⟩

/-- A fold of steps that wake. -/
theorem Roused.foldl {α : Type} {n : Nat} {f : State → α → State} (h : ∀ s a, Roused (s.domain n) ((f s a).domain n))
    (l : List α) (s : State) : Roused (s.domain n) ((l.foldl f s).domain n) := by
  induction l generalizing s with
  | nil => exact .rfl
  | cons a l ih => exact (h s a).trans (ih _)

/-- Without an entry in progress a domain is as it was, or in Run. -/
theorem Roused.of_idle {d e : Domain} (h : Roused d e) (hd : d.entry = none) : e = d ∨ e = d.woken := by
  rcases h with ⟨-, h⟩ | ⟨hs, -⟩
  · exact h
  · rw [hd] at hs
    cases hs

/-- With one in progress it keeps all but the wake events latched. -/
theorem Roused.of_entry {d e : Domain} (h : Roused d e) (hd : d.entry.isSome = true) :
    ∃ l, e = { d with latched := d.latched ++ l } := by
  rcases h with ⟨hn, -⟩ | ⟨-, h⟩
  · rw [hn] at hd
    cases hd
  · exact h

theorem Roused.entry_none {d e : Domain} (h : Roused d e) (hd : d.entry = none) : e.entry = none := by
  rcases h.of_idle hd with rfl | rfl
  · exact hd
  · exact Eq.refl _

section
variable {n m : Nat}

theorem Roused.congr {s t : State} (h : t.power.domains = s.power.domains) (n : Nat) : Roused (s.domain n) (t.domain n) :=
  State.domain_congr h n ▸ .rfl

/-- A domain other than the one woken, or one without an entry in progress. -/
theorem Roused.toRun (s : State) (h : n = m → (s.domain n).entry = none) : Roused (s.domain n) ((s.toRun m).domain n) := by
  by_cases hnm : n = m
  · subst hnm
    rw [State.domain_toRun_same]
    exact .woken (h (Eq.refl n))
  · rw [State.domain_toRun_ne hnm]
    exact .rfl

theorem Roused.wakeDom (s : State) (m n : Nat) : Roused (s.domain n) ((s.wakeDom m).domain n) := by
  unfold State.wakeDom
  extract_lets place
  split
  · next hin =>
    by_cases hn : n = place
    · rw [hn, State.domain_updDomain_of_st (Eq.refl _)]
      refine .inr ⟨?_, [m], Eq.refl _⟩
      by_cases hmod : (s.domain moduleDomain).entry.isSome = true ∧ (domainTwin m).isSome = true
      · rw [show place = moduleDomain from if_pos hmod]
        exact hmod.1
      · rw [show place = m from if_neg hmod]
        unfold State.entering at hin
        rw [Bool.or_eq_true, Bool.and_eq_true] at hin
        exact hin.resolve_right hmod
    · rw [State.domain_updDomain_ne hn]
      exact .rfl
  · next hin =>
    refine .toRun s (fun hnm => ?_)
    subst hnm
    unfold State.entering at hin
    rw [Bool.or_eq_true, not_or] at hin
    exact Option.not_isSome_iff_eq_none.mp hin.1

theorem Roused.wakeDoms (s : State) (l : List Nat) (n : Nat) : Roused (s.domain n) ((s.wakeDoms l).domain n) :=
  .foldl (fun s m => .wakeDom s m n) l s

theorem Roused.wakeCluster (s : State) (w : Twin) (k n : Nat) : Roused (s.domain n) ((s.wakeCluster w k).domain n) := by
  unfold State.wakeCluster
  split
  · exact .rfl
  · have h : Roused (s.domain n) (((s.updTwin w (fun x => x.setTrimmed k false)).wakeDoms (trimDoms w k)).domain n) := by
      have hw := Roused.wakeDoms (s.updTwin w (fun x => x.setTrimmed k false)) (trimDoms w k) n
      rw [State.updTwin_domain] at hw
      exact hw
    dsimp only
    split
    · exact h
    · rw [State.domain_enterMod]
      exact h

theorem Roused.untrim (s : State) (w : Twin) (n : Nat) : Roused (s.domain n) ((s.untrim w).domain n) := by
  unfold State.untrim
  refine .foldl (fun s k => ?_) _ s
  split
  · exact .rfl
  · exact .wakeCluster s w k n

/-- The domains of the twins woken one by one: none of them whose entry is in progress is asked about here. -/
theorem Roused.toRuns (s : State) (l : List Nat) (h : (s.domain n).entry = none) :
    Roused (s.domain n) ((l.foldl State.toRun s).domain n) := by
  induction l generalizing s with
  | nil => exact .rfl
  | cons m l ih =>
    have hm : Roused (s.domain n) ((s.toRun m).domain n) := .toRun s (fun _ => h)
    exact hm.trans (ih _ (hm.entry_none h))

theorem Roused.exitStandby (s : State) (h : (s.domain n).entry = none) : Roused (s.domain n) (s.exitStandby.domain n) := by
  unfold State.exitStandby
  split
  · exact .rfl
  · rw [State.domain_enterMod]
    exact .toRuns s _ h

end

end Sys2Proof.Machine
end

section
/-! Entries of power domains, wake events, and entries that abort (R409 to R418). -/

namespace Sys2Proof.Machine

section
variable {s : State} {t n k : Nat} {p : PState}

/-- A domain without wake events latched, whose entry completes, is in its target state (R409). -/
theorem State.completeEntry_enters (h : (s.domain n).latched = []) :
    ((s.completeEntry n p).domain n).st = p ∧ ((s.completeEntry n p).domain n).entry = none := by
  have hpads : ∀ (c : Prop) [Decidable c] (u : State) (f : Power → Power), (∀ p, (f p).domains = p.domains) →
      (if c then u.updPower f else u).domain n = u.domain n := by
    intro c _ u f hf
    split
    · exact State.domain_congr (hf _) n
    · rfl
  unfold State.completeEntry
  extract_lets d u v
  rw [show d.latched = [] from h, show v.wakeDoms [] = v from rfl,
    show v.domain n = u.domain n from hpads _ u _ (fun _ => rfl), State.domain_setDomain_same]
  simp

/-- The state in which an entry is taken up: `WOA` taken over, the pads of island 422 clamped (R421, R431). -/
theorem State.enter_cases (s : State) (n : Nat) (p : PState) : ∃ v : State, v.now = s.now ∧
    (∃ woa, v.domain n = { s.domain n with woa := woa }) ∧ s.enter n p [] = v.completeEntry n p ∧
    ∀ b l, s.enter n p (b :: l) =
      v.updDomain n (fun d => { d with entry := some (p, d.entry.elim v.now Prod.snd), busy := b }) := by
  have hwoa : ∀ (c : Prop) [Decidable c], ∃ woa, (if c then s.updDomain n (fun d => { d with woa := s.woaOf n }) else s).domain n =
      { s.domain n with woa := woa } ∧ (if c then s.updDomain n (fun d => { d with woa := s.woaOf n }) else s).now = s.now := by
    intro c _
    split
    · exact ⟨_, State.domain_updDomain_of_st rfl, s.setDomain_now n _⟩
    · exact ⟨_, rfl, rfl⟩
  have hclamp : ∀ (c : Prop) [Decidable c] (u : State) (b : Bool),
      (if c then u.updPower (fun p => { p with padClamp := b }) else u).domain n = u.domain n ∧
      (if c then u.updPower (fun p => { p with padClamp := b }) else u).now = u.now := by
    intro c _ u b
    split <;> exact ⟨rfl, rfl⟩
  unfold State.enter
  extract_lets d first u v
  obtain ⟨woa, hd, hnow⟩ := hwoa (first = true)
  obtain ⟨hv, hvnow⟩ := hclamp (first = true ∧ n = 422) u (p == .sleep && u.powerFld 0 1 == 1)
  exact ⟨v, hvnow.trans hnow, ⟨woa, hv.trans hd⟩, rfl, fun b l => rfl⟩

theorem State.enter_enters (h : (s.domain n).latched = []) :
    ((s.enter n p []).domain n).st = p ∧ ((s.enter n p []).domain n).entry = none := by
  obtain ⟨v, -, ⟨woa, hd⟩, he, -⟩ := s.enter_cases n p
  rw [he]
  exact State.completeEntry_enters (by rw [hd]; exact h)

/-- An entry begun while a block is busy is in progress (R418). -/
theorem State.enter_busy (h : (s.domain n).entry = none) (b : Nat) (l : List Nat) :
    ((s.enter n p (b :: l)).domain n).st = (s.domain n).st ∧
    ((s.enter n p (b :: l)).domain n).entry = some (p, s.now) ∧ ((s.enter n p (b :: l)).domain n).busy = b := by
  obtain ⟨v, hnow, ⟨woa, hd⟩, -, he⟩ := s.enter_cases n p
  rw [he, State.domain_updDomain_of_st rfl, hd, hnow]
  exact ⟨rfl, by rw [show ({ s.domain n with woa := woa } : Domain).entry = none from h]; rfl, rfl⟩

/-! The idle entries. -/

section
variable (hk : domainKind n = some k) (h0 : k ≠ 0) (hready : s.boot.ready = true) (hrun : (s.domain n).st = .run)
include hk h0 hready hrun

theorem exec_domainIdleEntry (l : List Nat) : exec (.domainIdleEntry t n l) s = .next (settle s
    (match (s.domain n).entry with
      | none => if s.voted n = true ∨ ¬ (s.at t).idled n k = true ∨ ¬ (s.at t).afresh n = true then s.at t
        else (s.at t).enter n (s.kindState k) l
      | some (target, since) => if trimEntry n target = true ∨ ¬ (s.at t).withinWait since = true then s.at t
        else (s.at t).enter n target l)) := by
  change execDomainIdleEntry t n l s = _
  unfold execDomainIdleEntry
  refine ev_of_eq ?_
  rw [hk]
  exact if_neg (by simp [hready, h0, hrun])

/-- A domain without a vote for `IDLE` enters its state, or has its entry in progress (R412, R418). -/
theorem domainIdleEntry_enters (hentry : (s.domain n).entry = none) (hv : s.voted n = false)
    (hi : (s.at t).idled n k = true) (ha : (s.at t).afresh n = true) (l : List Nat) :
    exec (.domainIdleEntry t n l) s = .next (settle s ((s.at t).enter n (s.kindState k) l)) := by
  rw [exec_domainIdleEntry hk h0 hready hrun, hentry]
  exact congrArg (fun u => Host.Outcome.next (settle s u)) (if_neg (by simp [hv, hi, ha]))

theorem domainIdleEntry_stays (hentry : (s.domain n).entry = none)
    (h : s.voted n = true ∨ (s.at t).idled n k = false ∨ (s.at t).afresh n = false) (l : List Nat) :
    exec (.domainIdleEntry t n l) s = .next (settle s (s.at t)) := by
  rw [exec_domainIdleEntry hk h0 hready hrun, hentry]
  refine congrArg (fun u => Host.Outcome.next (settle s u)) (if_pos ?_)
  simpa only [Bool.not_eq_true] using h

/-- An entry in progress whose blocks have stopped within `REFUSE_WAIT` completes (R418). -/
theorem domainIdleEntry_completes {b : Nat} (hentry : (s.domain n).entry = some (p, b)) (ht : trimEntry n p = false)
    (hb : (s.at t).now < b + s.refuseWait) :
    exec (.domainIdleEntry t n []) s = .next (settle s ((s.at t).enter n p [])) := by
  rw [exec_domainIdleEntry hk h0 hready hrun, hentry]
  exact congrArg (fun u => Host.Outcome.next (settle s u))
    (if_neg (by simp [ht, show (s.at t).withinWait b = true from decide_eq_true hb]))

end

/-- A core without a task for `IDLE` enters its state (R413). -/
theorem coreIdleEntry_enters {w : Twin} (hw : islandTwin n = some w) (hcore : isCore n = true) (hready : s.boot.ready = true)
    (hrun : (s.domain n).st = .run) (hin : s.entering n = false) (h0 : (s.twin w).ctxFree n 0 = true)
    (h1 : (s.twin w).ctxFree n 1 = true) (htest : ((s.twin w).unit n).role ≠ .selftest) (hi : (s.at t).idled n 0 = true)
    (ha : (s.at t).afresh n = true) :
    exec (.coreIdleEntry t n) s = .next (settle s ((s.at t).enter n (s.kindState 0) [])) := by
  change execCoreIdleEntry t n s = _
  unfold execCoreIdleEntry
  refine ev_of_eq ?_
  rw [hw]
  refine if_pos ?_
  have hrun' : (s.at t).running n = true := beq_iff_eq.mpr hrun
  have hin' : (s.at t).entering n = false := hin
  simp only [State.at_twin, hcore, show (s.at t).boot.ready = true from hready, hrun', hin', h0, h1, hi, ha, Bool.not_false,
    Bool.and_self, Bool.and_true, Bool.true_and]
  exact bne_iff_ne.mpr htest

end

end Sys2Proof.Machine
end

section
/-! Wake events, and entries that abort (R410, R416 to R418). -/

namespace Sys2Proof.Machine

/-- Steps of which one, that of `a`, brings about what the others keep. -/
theorem foldl_reaches {α σ : Type} {step : σ → α → σ} {A B : σ → Prop} {a : α} {l : List α} (ha : a ∈ l)
    (hkeep : ∀ s, ∀ b ∈ l, B s → B (step s b)) (hreach : ∀ s, A s → B (step s a))
    (hwait : ∀ s, ∀ b ∈ l, b ≠ a → A s → A (step s b)) {s : σ} (hs : A s ∨ B s) : B (l.foldl step s) := by
  have hkept : ∀ (l' : List α) (s : σ), (∀ b ∈ l', b ∈ l) → B s → B (l'.foldl step s) := by
    intro l'
    induction l' with
    | nil => exact fun s _ h => h
    | cons b l' ih =>
      intro s hl h
      exact ih _ (fun c hc => hl c (List.mem_cons_of_mem b hc)) (hkeep s b (hl b List.mem_cons_self) h)
  have hreached : ∀ (l' : List α) (s : σ), (∀ b ∈ l', b ∈ l) → a ∈ l' → A s → B (l'.foldl step s) := by
    intro l'
    induction l' with
    | nil => exact fun s _ h => absurd h List.not_mem_nil
    | cons b l' ih =>
      intro s hl hmem h
      have hrest := fun c hc => hl c (List.mem_cons_of_mem b hc)
      by_cases hb : b = a
      · subst hb
        exact hkept l' _ hrest (hreach s h)
      · exact ih _ hrest ((List.mem_cons.mp hmem).resolve_left (fun h => hb h.symm)) (hwait s b (hl b List.mem_cons_self) hb h)
  exact hs.elim (hreached l s (fun _ h => h) ha) (hkept l s (fun _ h => h))

section
variable {s : State} {t n : Nat}

/-- A wake event at a domain, after STANDBY-HOT is left where it is one of a twin. -/
def State.rouse (s : State) (n : Nat) (urgent : Bool) : State :=
  let s := if (domainTwin n).isSome then s.exitStandby else s
  if urgent then s.wakeNow n else s.wakeDom n

theorem exec_wakeEvent (hup : s.boot.up = true) (hn : n < 460) (urgent : Bool) :
    exec (.wakeEvent t [n] urgent) s = .next (settle s ((((s.at t).rouse n urgent).untrim .a).untrim .b)) := by
  have hl : [n].filter (fun n => decide (n < 460)) = [n] := by simp [hn]
  change execWakeEvent t [n] urgent s = _
  unfold execWakeEvent
  refine ev_of_eq ?_
  refine (if_pos (show (s.at t).boot.up = true from hup)).trans ?_
  rw [hl]
  have hany : [n].any (fun n => (domainTwin n).isSome) = (domainTwin n).isSome := by simp
  unfold State.rouse
  dsimp only
  rw [hany]
  cases urgent <;> rfl

theorem Roused.untrims (s : State) (n : Nat) : Roused (s.domain n) (((s.untrim .a).untrim .b).domain n) :=
  (Roused.untrim s .a n).trans (.untrim _ .b n)

/-- One of the last row of Table 18-5 brings its domain to Run, whatever entry was in progress there. -/
theorem wakeEvent_urgent (hup : s.boot.up = true) (hn : n < 460) : Completes (.wakeEvent t [n] true) s (fun t' =>
    (t'.domain n).st = .run ∧ (t'.domain n).entry = none ∧ (t'.domain n).held = []) := by
  refine .of_settled (exec_wakeEvent hup hn true) ?_
  have hdom : ∃ d : Domain, ((s.at t).rouse n true).domain n = d.woken := by
    unfold State.rouse
    dsimp only
    rw [if_pos rfl]
    unfold State.wakeNow
    exact ⟨_, State.domain_toRun_same _ n⟩
  obtain ⟨d, hd⟩ := hdom
  have hrouse := Roused.untrims ((s.at t).rouse n true) n
  rw [hd] at hrouse
  rw [settle_domain]
  rcases hrouse.of_idle rfl with h | h <;> rw [h] <;> exact ⟨rfl, rfl, rfl⟩

theorem moduleDomain_untwinned : domainTwin moduleDomain = none := by decide

/-- Leaving STANDBY-HOT wakes no domain into an entry. -/
theorem State.entering_exitStandby (h : s.entering n = false) (htwin : (domainTwin n).isSome = true) :
    s.exitStandby.entering n = false := by
  unfold State.entering at h ⊢
  rw [Bool.or_eq_false_iff, htwin, Bool.and_true, Option.isSome_eq_false_iff, Option.isNone_iff_eq_none,
    Option.isSome_eq_false_iff, Option.isNone_iff_eq_none] at h
  rw [(Roused.exitStandby s h.1).entry_none h.1, (Roused.exitStandby s h.2).entry_none h.2]
  rfl

/-- A wake event at a domain that is not entering a state brings it to Run (R410). -/
theorem State.rouse_idle (h : s.entering n = false) : (s.rouse n false).domain n = (s.domain n).woken := by
  have hidle : (s.domain n).entry = none := by
    unfold State.entering at h
    rw [Bool.or_eq_false_iff, Option.isSome_eq_false_iff, Option.isNone_iff_eq_none] at h
    exact h.1
  have hwake : ∀ u : State, u.entering n = false → Roused (s.domain n) (u.domain n) →
      (u.wakeDom n).domain n = (s.domain n).woken := by
    intro u hu hr
    unfold State.wakeDom
    extract_lets place
    rw [if_neg (by simp [hu]), State.domain_toRun_same]
    rcases hr.of_idle hidle with hd | hd <;> rw [hd]
    rfl
  unfold State.rouse
  extract_lets u
  rw [if_neg Bool.false_ne_true]
  by_cases htwin : (domainTwin n).isSome = true
  · rw [show u = s.exitStandby from if_pos htwin]
    exact hwake _ (State.entering_exitStandby h htwin) (.exitStandby s hidle)
  · rw [show u = s from if_neg htwin]
    exact hwake s h .rfl

theorem wakeEvent_wakes (hup : s.boot.up = true) (hn : n < 460) (hin : s.entering n = false) :
    Completes (.wakeEvent t [n] false) s (fun t' => (t'.domain n).st = .run ∧ (t'.domain n).entry = none ∧
      (t'.domain n).pulses = (s.domain n).woken.pulses) := by
  refine .of_settled (exec_wakeEvent hup hn false) ?_
  have hrouse := Roused.untrims ((s.at t).rouse n false) n
  rw [State.rouse_idle (s := s.at t) hin, State.at_domain] at hrouse
  rw [settle_domain]
  rcases hrouse.of_idle rfl with h | h <;> rw [h] <;> exact ⟨rfl, rfl, rfl⟩

/-- Without a trimmed cluster no wake event wakes one. -/
theorem State.untrim_of_untrimmed {w : Twin} (h : ∀ k, (s.twin w).trimmed k = false) : s.untrim w = s := by
  have hstep : ∀ k, (if (trimDoms w k).all (fun i => (s.domain i).st == .sleep || (s.domain i).entry.isSome) then s
      else s.wakeCluster w k) = s := by
    intro k
    split
    · rfl
    · exact if_pos (by simp [h k])
  have hfold : ∀ l : List Nat, l.foldl (fun s k =>
      if (trimDoms w k).all (fun i => (s.domain i).st == .sleep || (s.domain i).entry.isSome) then s
      else s.wakeCluster w k) s = s := by
    intro l
    induction l with
    | nil => rfl
    | cons k l ih => rw [List.foldl_cons, hstep k, ih]
  exact hfold _

/-- At a domain with an entry of its own in progress, it is latched (R417). -/
theorem wakeEvent_latches (hup : s.boot.up = true) (hn : n < 460) (hentry : (s.domain n).entry.isSome = true)
    (hmod : (s.domain moduleDomain).entry = none) (hhot : s.power.mod ≠ .standbyHot)
    (htrim : ∀ v k, (s.twin v).trimmed k = false) : Completes (.wakeEvent t [n] false) s (fun t' =>
      t'.domain n = { s.domain n with latched := (s.domain n).latched ++ [n] }) := by
  refine .of_settled (exec_wakeEvent hup hn false) ?_
  have hexit : (s.at t).exitStandby = s.at t := if_pos hhot
  have hrouse : (s.at t).rouse n false = (s.at t).updDomain n (fun d => { d with latched := d.latched ++ [n] }) := by
    unfold State.rouse State.wakeDom
    rw [hexit, ite_self]
    have hin : (s.at t).entering n = true := by
      unfold State.entering
      rw [State.at_domain, hentry]
      rfl
    dsimp only
    rw [if_neg Bool.false_ne_true, if_pos hin, if_neg (by rw [State.at_domain, hmod]; simp)]
  have hkeeps : ∀ v k, (((s.at t).rouse n false).twin v).trimmed k = false := by
    intro v k
    rw [hrouse, State.updDomain, State.twin_setDomain, State.at_twin]
    exact htrim v k
  rw [settle_domain, State.untrim_of_untrimmed (hkeeps .a), State.untrim_of_untrimmed (hkeeps .b), hrouse,
    State.domain_updDomain_of_st rfl, State.at_domain]

end

/-! Entries that abort. -/

/-- A domain after its entry has aborted (R418). -/
def Aborted (s : State) (n : Nat) (d : Domain) : Prop :=
  d.entry = none ∧ d.latched = [] ∧ d.aborted = some s.now ∧ d.retry = s.now + s.refuseWait ∧
  ((s.domain n).st = .run → d.st = .run) ∧ (n ≠ moduleDomain → (s.domain n).stopped = true → d.st = .run)

section
variable {s : State} {n : Nat}

theorem Aborted.woken {d : Domain} (h : Aborted s n d) : Aborted s n d.woken := by
  obtain ⟨-, -, ha, hr, -, -⟩ := h
  exact ⟨rfl, rfl, ha, hr, fun _ => rfl, fun _ _ => rfl⟩

theorem Aborted.roused {d e : Domain} (h : Aborted s n d) (k : Roused d e) : Aborted s n e := by
  rcases k.of_idle h.1 with rfl | rfl
  · exact h
  · exact h.woken

theorem Woken.refuseWait {v : State} (h : Woken s v) : v.refuseWait = s.refuseWait := h.eq State.refuseWait (Eq.refl _)

theorem Woken.now {v : State} (h : Woken s v) : v.now = s.now := h.eq State.now (Eq.refl _)

/-- A module number that stands for no domain of a twin is in no list of theirs. -/
theorem State.ne_moduleDomain_of_mem_twinDoms {m : Nat} (h : m ∈ s.twinDoms) : m ≠ moduleDomain := by
  rintro rfl
  obtain ⟨d, hd, heq⟩ := List.mem_map.mp h
  have hsome := (List.mem_filter.mp hd).2
  rw [heq, moduleDomain_untwinned] at hsome
  cases hsome

/-- An entry that aborts, while wake events may have been latched at its domain since `s`. -/
theorem State.abortOne_aborts {u : State} {l : List Nat} (hentry : (s.domain n).entry.isSome = true)
    (hd : u.domain n = { s.domain n with latched := l }) (hnow : u.now = s.now) (hwait : u.refuseWait = s.refuseWait) :
    Aborted s n ((u.abortOne n).domain n) := by
  unfold State.abortOne
  extract_lets d parts v
  have hsome : ¬ d.entry.isNone = true := by
    rw [show d.entry = _ from (congrArg Domain.entry hd :)]
    cases h : (s.domain n).entry with
    | none => rw [h] at hentry; cases hentry
    | some p => simp
  rw [if_neg hsome]
  have hv : v.domain n = { s.domain n with
      entry := none, latched := [], busy := 0, aborted := some s.now, retry := s.now + s.refuseWait } := by
    rw [State.domain_updDomain_of_st rfl, hd, hnow, hwait]
  have hroused : Roused (v.domain n) ((parts.foldl State.toRun v).domain n) :=
    .toRuns v parts (by rw [hv])
  have hparts : Aborted s n ((parts.foldl State.toRun v).domain n) := by
    rcases hroused.of_idle (by rw [hv]) with h | h
    · refine h ▸ hv ▸ ⟨rfl, rfl, rfl, rfl, id, fun hne hstop => ?_⟩
      have hsolo : parts = [n] := by
        refine (if_neg hne).trans (if_pos ?_)
        rw [show d.stopped = (s.domain n).stopped from (congrArg Domain.stopped hd :)]
        exact hstop
      have hrun : ((parts.foldl State.toRun v).domain n).st = .run := by
        rw [hsolo]
        exact congrArg Domain.st (State.domain_toRun_same v n)
      rw [h, hv] at hrun
      exact hrun
    · rw [h, hv]
      exact ⟨rfl, rfl, rfl, rfl, fun _ => rfl, fun _ _ => rfl⟩
  exact hparts.roused (.wakeDoms _ _ n)

/-- The entry of another domain that aborts. -/
theorem Roused.abortOne (u : State) {m : Nat} (hne : n ≠ m) (hm : m ≠ moduleDomain) :
    Roused (u.domain n) ((u.abortOne m).domain n) := by
  unfold State.abortOne
  extract_lets d parts v
  split
  · exact .rfl
  · have hv : v.domain n = u.domain n := State.domain_updDomain_ne hne _
    have hparts : (parts.foldl State.toRun v).domain n = u.domain n := by
      have hsolo : parts = if d.stopped then [m] else [] := if_neg hm
      rw [hsolo]
      split
      · exact (State.domain_toRun_ne hne).trans hv
      · exact hv
    rw [← hparts]
    exact .wakeDoms _ _ n

/-- An entry of trimming aborts with those of its cluster. -/
theorem State.abortAll_aborts (hentry : (s.domain n).entry.isSome = true) {l : List Nat} (hl : n ∈ l)
    (hmod : ∀ m ∈ l, m ≠ moduleDomain) {u : State}
    (hu : (Woken s u ∧ ∃ l', u.domain n = { s.domain n with latched := l' }) ∨ Aborted s n (u.domain n)) :
    Aborted s n ((l.foldl State.abortOne u).domain n) := by
  refine foldl_reaches (A := fun u => Woken s u ∧ ∃ l', u.domain n = { s.domain n with latched := l' })
    (B := fun u => Aborted s n (u.domain n)) hl (fun u m hm h => ?_) (fun u h => ?_) (fun u m hm hnm h => ?_) hu
  · by_cases hnm : n = m
    · have hstay : u.abortOne m = u := if_pos (by rw [← hnm, h.1]; rfl)
      rw [hstay]
      exact h
    · exact h.roused (.abortOne u hnm (hmod m hm))
  · obtain ⟨hw, l', hd⟩ := h
    exact State.abortOne_aborts hentry hd hw.now hw.refuseWait
  · obtain ⟨hw, l', hd⟩ := h
    obtain ⟨l'', he⟩ := (Roused.abortOne u hnm.symm (hmod m hm)).of_entry (by rw [hd]; exact hentry)
    exact ⟨hw.trans (.abortOne u m), _, by rw [he, hd]⟩

/-- A core or an engine is one of those that trimming its cluster puts to Sleep (R423). -/
theorem mem_trimDoms {w : Twin} (hw : islandTwin n = some w) (h : isCore n = true ∨ isEngine n = true) :
    n ∈ trimDoms w (islandCluster n) := by
  have hplace : n = twinBase w + n % 206 := by
    unfold islandTwin at hw
    split at hw
    · cases Option.some.inj hw
      exact (show n = 0 + n % 206 by omega)
    · split at hw
      · cases Option.some.inj hw
        exact (show n = 206 + n % 206 by omega)
      · cases hw
  unfold trimDoms coresOf enginesOf islandCluster
  simp only [isCore, isEngine, Bool.and_eq_true, decide_eq_true_eq] at h
  rw [List.mem_append, List.mem_map, List.mem_map]
  rcases h with ⟨-, h⟩ | ⟨-, h⟩
  · exact .inl ⟨n % 206 % 12, List.mem_range.mpr h, by omega⟩
  · exact .inr ⟨n % 206 % 12 - 9, List.mem_range.mpr (by omega), by omega⟩

theorem ne_moduleDomain_of_mem_trimDoms {w : Twin} {k m : Nat} (hk : k < 18) (h : m ∈ trimDoms w k) : m ≠ moduleDomain := by
  have hbase : twinBase w ≤ 206 := by cases w <;> decide
  unfold trimDoms coresOf enginesOf at h
  rw [List.mem_append, List.mem_map, List.mem_map] at h
  rcases h with ⟨i, hi, rfl⟩ | ⟨i, hi, rfl⟩ <;> rw [List.mem_range] at hi <;>
    exact Nat.ne_of_lt (show _ < 65535 by omega)

theorem State.abortEntry_aborts {p : PState} {b : Nat} (hentry : (s.domain n).entry = some (p, b)) :
    Aborted s n ((s.abortEntry n).domain n) := by
  have hsome : (s.domain n).entry.isSome = true := by rw [hentry]; rfl
  have hone : Aborted s n ((s.abortOne n).domain n) :=
    State.abortOne_aborts (l := (s.domain n).latched) hsome rfl rfl rfl
  unfold State.abortEntry
  rw [hentry]
  cases hw : islandTwin n with
  | none => exact hone
  | some w =>
    dsimp only
    by_cases htrim : trimEntry n p = true
    · have hunit : isCore n = true ∨ isEngine n = true := by
        unfold trimEntry at htrim
        rw [Bool.and_eq_true, Bool.or_eq_true] at htrim
        exact htrim.1
      rw [if_pos htrim]
      exact State.abortAll_aborts hsome (mem_trimDoms hw hunit)
        (fun m hm => ne_moduleDomain_of_mem_trimDoms (by unfold islandCluster; omega) hm)
        (.inl ⟨.rfl, (s.domain n).latched, rfl⟩)
    · rw [if_neg htrim]
      exact hone

end

/-- `REFUSE_WAIT` over, the entry has aborted (R418). -/
theorem entryRefuseTimeout_aborts {s : State} {t n b : Nat} {p : PState} (hentry : (s.domain n).entry = some (p, b))
    (hb : b + s.refuseWait ≤ (s.at t).now) :
    Completes (.entryRefuseTimeout t n) s (fun t' => Aborted (s.at t) n (t'.domain n)) := by
  have hexec : exec (.entryRefuseTimeout t n) s = .next (settle s (((s.at t).abortEntry n).powerEvent
      (domainIsland (s.domain n).busy) (islandOrigin (domainIsland (s.domain n).busy)) 0x01 sevWarn (targetCode n p)
      (if trimEntry n p then 0xFFFF else n) (((s.at t).abortEntry n).powerFld 2 2))) := by
    change execEntryRefuseTimeout t n s = _
    unfold execEntryRefuseTimeout
    refine ev_of_eq ?_
    extract_lets d
    rw [show d.entry = some (p, b) from hentry]
    exact if_neg (by
      unfold State.withinWait
      rw [decide_eq_true_eq]
      exact Nat.not_lt.mpr hb)
  refine .of_settled hexec ?_
  rw [settle_domain, (Noted.powerEvent _ _ _ _ _ _ _ _).domain]
  exact State.abortEntry_aborts (s := s.at t) hentry

end Sys2Proof.Machine
end

section
/-! Gatekeepers, and the trimming of clusters (R418 to R423). -/

namespace Sys2Proof.Machine

/-! Accesses of Zenith at a gatekeeper. -/

section
variable {s : State} {t n : Nat} {p : PState} {wr : Bool}

theorem exec_gatekeeperAccess (hup : s.boot.up = true) :
    exec (.gatekeeperAccess t n wr) s = .next (settle s ((s.at t).gatekeep n (.zenith wr))) :=
  ev_of_eq (if_pos (show (s.at t).boot.up = true from hup))

theorem State.gatekeep_open (h : s.closed n = none) (a : GateAcc) : s.gatekeep n a = s.serveAccess n a := by
  unfold State.gatekeep
  rw [h]

/-- With `WOA` the access is held, and wakes the domain (R419). -/
theorem State.gatekeep_held (h : s.closed n = some p) (hwoa : (s.domain n).woa = true) (a : GateAcc) :
    s.gatekeep n a = (s.updDomain n (fun d => { d with held := d.held ++ [a] })).wakeDom n := by
  unfold State.gatekeep
  rw [h]
  exact if_pos hwoa

/-- What Zenith is answered at a domain in Run (R419). -/
theorem State.serveAccess_zenith (s : State) (n : Nat) (wr : Bool) :
    ∃ v, (wr = true → v = none) ∧ (s.serveAccess n (.zenith wr)).out = s.out ++ [.access n v false] := by
  cases wr
  · exact ⟨_, fun h => absurd h Bool.false_ne_true, rfl⟩
  · exact ⟨none, fun _ => rfl, rfl⟩

theorem gatekeeperAccess_down (hup : s.boot.up = true) (h : s.closed n = some p) (hwoa : (s.domain n).woa = false) :
    Completes (.gatekeeperAccess t n wr) s (fun t' => t'.domain n = s.domain n ∧
      t'.out = s.out ++ [.access n (if wr then none else some (BitVec.allOnes 64, false)) true]) := by
  refine .of_settled (exec_gatekeeperAccess hup) ?_
  rw [State.gatekeep_down (s := s.at t) h hwoa, settle_domain, settle_out]
  have hn := Noted.powerEvent ((s.at t).refuseAccess n (.zenith wr)) (domainIsland n) (islandOrigin (domainIsland n)) 0x02 sevWarn
    p.code 0 0
  rw [hn.out, hn.domain]
  cases wr <;> exact ⟨rfl, rfl⟩

/-- What a domain is while its gatekeeper holds one access more. -/
theorem State.domain_hold (s : State) (n : Nat) (a : GateAcc) :
    (s.updDomain n (fun d => { d with held := d.held ++ [a] })).domain n =
      { s.domain n with held := (s.domain n).held ++ [a] } := State.domain_updDomain_of_st rfl

theorem State.entering_hold (s : State) (n : Nat) (a : GateAcc) :
    (s.updDomain n (fun d => { d with held := d.held ++ [a] })).entering n = s.entering n := by
  have hmod : ((s.updDomain n (fun d => { d with held := d.held ++ [a] })).domain moduleDomain).entry =
      (s.domain moduleDomain).entry := by
    by_cases h : moduleDomain = n
    · subst h
      rw [State.domain_hold]
    · exact congrArg Domain.entry (State.domain_updDomain_ne h _)
  unfold State.entering
  rw [State.domain_hold, hmod]

theorem gatekeeperAccess_holds (hup : s.boot.up = true) (h : s.closed n = some p) (hwoa : (s.domain n).woa = true)
    (hin : s.entering n = true) : Completes (.gatekeeperAccess t n wr) s (fun t' =>
      (t'.domain n).held = (s.domain n).held ++ [.zenith wr] ∧ t'.out = s.out) := by
  refine .of_settled (exec_gatekeeperAccess hup) ?_
  rw [State.gatekeep_held (s := s.at t) h hwoa, settle_domain, settle_out]
  have hlatch : ∀ (u : State) (m : Nat), ((u.updDomain m (fun d => { d with latched := d.latched ++ [n] })).domain n).held =
      (u.domain n).held ∧ (u.updDomain m (fun d => { d with latched := d.latched ++ [n] })).out = u.out := by
    intro u m
    refine ⟨?_, u.setDomain_out m _⟩
    by_cases hm : n = m
    · subst hm
      rw [State.domain_updDomain_of_st rfl]
    · exact congrArg Domain.held (State.domain_updDomain_ne hm _)
  unfold State.wakeDom
  extract_lets place
  rw [if_pos (((s.at t).entering_hold n (.zenith wr)).trans hin)]
  obtain ⟨hheld, hout⟩ := hlatch ((s.at t).updDomain n (fun d => { d with held := d.held ++ [.zenith wr] })) place
  rw [hheld, hout, State.domain_hold]
  exact ⟨rfl, State.setDomain_out _ n _⟩

/-- A domain that returns to Run serves what its gatekeeper has held, after nothing that the outputs show. -/
theorem State.toRun_serves (s : State) (n : Nat) :
    ∃ u : State, u.out = s.out ∧ s.toRun n = (s.domain n).held.foldl (fun s a => s.serveAccess n a) u := by
  have hclamp : ∀ (c : Prop) [Decidable c] (u : State) (f : Power → Power), (if c then u.updPower f else u).out = u.out := by
    intro c _ u f
    split <;> rfl
  unfold State.toRun
  extract_lets d u v x
  refine ⟨x, ?_, rfl⟩
  have hv : v.out = s.out := (hclamp (n = 422) u _).trans (s.setDomain_out n _)
  rw [← hv]
  unfold x
  split
  · next w _ => cases w <;> rfl
  · rfl

theorem gatekeeperAccess_wakes (hup : s.boot.up = true) (h : s.closed n = some p) (hwoa : (s.domain n).woa = true)
    (hin : s.entering n = false) (hheld : (s.domain n).held = []) : Completes (.gatekeeperAccess t n wr) s (fun t' =>
      (t'.domain n).st = .run ∧ (t'.domain n).held = [] ∧
      ∃ v, (wr = true → v = none) ∧ t'.out = s.out ++ [.access n v false]) := by
  refine .of_settled (exec_gatekeeperAccess hup) ?_
  rw [State.gatekeep_held (s := s.at t) h hwoa, settle_domain, settle_out]
  let u := (s.at t).updDomain n (fun d => { d with held := d.held ++ [.zenith wr] })
  have hrun : u.wakeDom n = u.toRun n := if_neg (by
    rw [State.entering_hold]
    exact Bool.eq_false_iff.mp hin)
  have hone : (u.domain n).held = [.zenith wr] := by
    rw [State.domain_hold, State.at_domain, hheld]
    rfl
  rw [hrun, State.domain_toRun_same]
  obtain ⟨v, hv, hserve⟩ := u.toRun_serves n
  rw [hserve, hone]
  obtain ⟨o, ho, hout⟩ := v.serveAccess_zenith n wr
  exact ⟨rfl, rfl, o, ho, hout.trans (by rw [hv]; exact congrArg (· ++ _) (State.setDomain_out _ n _))⟩

end

/-! The twins, while domains and module states change. -/

section
variable {s : State} {w : Twin} {k n : Nat}

/-- A module state entered leaves of a twin all but its stamps. -/
theorem State.enterMod_twin {α : Type} (s : State) (m : ModPower) (w : Twin) (f : TwinSt → α)
    (hf : ∀ x y : TwinSt, f (x.unstamped y) = f y) : f ((s.enterMod m).twin w) = f (s.twin w) := by
  unfold State.enterMod
  split
  · rfl
  · have htwin : ({ s with power := { s.power with mod := m } } : State).twin w = s.twin w := by cases w <;> rfl
    exact ((Noted.powerEvent _ _ _ _ _ _ _ _).twin_eq w f (hf _ _)).trans (congrArg f htwin)

theorem TwinSt.trimmed_setTrimmed (x : TwinSt) (k : Nat) (b : Bool) : (x.setTrimmed k b).trimmed k = b := by
  unfold TwinSt.trimmed TwinSt.setTrimmed
  rw [Tbl.getD_put_same]

/-- A part of a cluster that is not its SRAM's contents. -/
def OffSram {α : Type} (f : Cluster → α) : Prop := ∀ (c : Cluster) d, f { c with sramData := d } = f c

/-- A debug write reaches the SRAM of a cluster and nothing else of it (R402). -/
theorem TwinSt.cluster_debugWrite {α : Type} {f : Cluster → α} (hf : OffSram f) (x : TwinSt) (isl : Nat) (l : DbgLoc) (v : Word)
    (tag : Bool) (k : Nat) : f (Tbl.getD (x.debugWrite isl l v tag).clusters k {}) = f (Tbl.getD x.clusters k {}) := by
  have hput : ∀ (c : Prop) [Decidable c] (y : TwinSt), f (Tbl.getD y.clusters k {}) = f (Tbl.getD x.clusters k {}) →
      f (Tbl.getD (if c then y else x).clusters k {}) = f (Tbl.getD x.clusters k {}) := by
    intro c _ y hy
    split
    · exact hy
    · rfl
  unfold TwinSt.debugWrite
  cases l with
  | word n i => exact hput _ _ (hput _ _ rfl)
  | special n r | mem n a => exact hput _ _ rfl
  | sram c a =>
    refine hput _ _ ?_
    rw [Tbl.getD_put]
    split
    · next h => rw [hf, h]
    · rfl
  | other _ => rfl

theorem State.cluster_serveAccess {α : Type} {f : Cluster → α} (hf : OffSram f) (s : State) (n : Nat) (a : GateAcc) (w : Twin)
    (k : Nat) : f (Tbl.getD ((s.serveAccess n a).twin w).clusters k {}) = f (Tbl.getD (s.twin w).clusters k {}) := by
  cases a with
  | zenith b => cases b <;> cases w <;> rfl
  | debug act =>
    unfold State.serveAccess State.debugAct
    cases act with
    | halt | resume => cases w <;> rfl
    | step | read l => dsimp only; split <;> cases w <;> rfl
    | write l v tag =>
      have hanswer : ∀ u : State, ((u.answerAccess n none false).twin w).clusters = (u.twin w).clusters := by
        intro u
        cases w <;> rfl
      dsimp only
      rw [hanswer]
      split
      · next o ho =>
        by_cases how : o = w
        · subst how
          rw [State.updTwin, State.twin_setTwin, TwinSt.cluster_debugWrite hf]
        · rw [State.twin_updTwin_of_ne how]
      · rfl

theorem State.cluster_toRun {α : Type} {f : Cluster → α} (hf : OffSram f) (s : State) (n : Nat) (w : Twin) (k : Nat) :
    f (Tbl.getD ((s.toRun n).twin w).clusters k {}) = f (Tbl.getD (s.twin w).clusters k {}) := by
  have hclamp : ∀ (c : Prop) [Decidable c] (u : State) f, (if c then u.updPower f else u).twin w = u.twin w := by
    intro c _ u f
    split <;> cases w <;> rfl
  unfold State.toRun
  dsimp only
  rw [foldl_keeps (p := fun u : State => f (Tbl.getD (u.twin w).clusters k {})) (fun u a => u.cluster_serveAccess hf n a w k)]
  split
  · next v hv =>
    by_cases h : v = w
    · subst h
      rw [State.updTwin, State.twin_setTwin, hclamp, State.twin_setDomain]
    · rw [State.twin_updTwin_of_ne h, hclamp, State.twin_setDomain]
  · rw [hclamp, State.twin_setDomain]

/-- What wake events leave of a cluster (R419). -/
theorem State.cluster_wakeDoms {α : Type} {f : Cluster → α} (hf : OffSram f) (s : State) (l : List Nat) (w : Twin) (k : Nat) :
    f (Tbl.getD ((s.wakeDoms l).twin w).clusters k {}) = f (Tbl.getD (s.twin w).clusters k {}) := by
  refine foldl_keeps (p := fun u : State => f (Tbl.getD (u.twin w).clusters k {})) (fun u n => ?_) l s
  unfold State.wakeDom
  extract_lets place
  split
  · rw [State.updDomain, State.twin_setDomain]
  · exact u.cluster_toRun hf n w k

theorem State.trimmed_wakeDoms (s : State) (l : List Nat) (w : Twin) (k : Nat) :
    ((s.wakeDoms l).twin w).trimmed k = (s.twin w).trimmed k := s.cluster_wakeDoms (f := Cluster.trimmed) (fun _ _ => rfl) l w k

/-- A cluster woken is not trimmed (R423). -/
theorem State.trimmed_wakeCluster (s : State) (w : Twin) (k : Nat) : ((s.wakeCluster w k).twin w).trimmed k = false := by
  have hwoken : (((s.updTwin w (fun x => x.setTrimmed k false)).wakeDoms (trimDoms w k)).twin w).trimmed k = false := by
    rw [State.trimmed_wakeDoms, State.updTwin, State.twin_setTwin, TwinSt.trimmed_setTrimmed]
  unfold State.wakeCluster
  split
  · next h => exact Bool.not_eq_true _ ▸ h
  · dsimp only
    split
    · exact hwoken
    · rw [State.enterMod_twin _ _ w (fun x => x.trimmed k) (fun _ _ => rfl)]
      exact hwoken

/-! Trimming. -/

/-- What a step on each domain of a list leaves of one of them, where it gives it what it has no need to be given again. -/
theorem State.domain_foldl_updDomain {f : State → Nat → Domain → Domain} {A B : Domain → Prop} {l : List Nat} (hn : n ∈ l)
    (hreach : ∀ u : State, u.now = s.now → A (u.domain n) → B ((f u n (u.domain n)).leaving (u.domain n).st u.now))
    (hkeep : ∀ u : State, u.now = s.now → B (u.domain n) → B ((f u n (u.domain n)).leaving (u.domain n).st u.now))
    (hs : A (s.domain n)) : B ((l.foldl (fun u i => u.updDomain i (f u i)) s).domain n) := by
  refine (foldl_reaches (A := fun u : State => u.now = s.now ∧ A (u.domain n)) (B := fun u : State => u.now = s.now ∧ B (u.domain n))
    hn (fun u i _ h => ⟨(u.setDomain_now i _).trans h.1, ?_⟩) (fun u h => ⟨(u.setDomain_now n _).trans h.1, ?_⟩)
    (fun u i _ hi h => ⟨(u.setDomain_now i _).trans h.1, ?_⟩) (.inl ⟨rfl, hs⟩)).2
  · by_cases hi : n = i
    · subst hi
      rw [State.domain_setDomain_same]
      exact hkeep u h.1 h.2
    · rw [State.domain_setDomain_ne hi]
      exact h.2
  · rw [State.domain_setDomain_same]
    exact hreach u h.1 h.2
  · rw [State.domain_setDomain_ne hi.symm]
    exact h.2

theorem State.twin_foldl_updDomain {f : State → Nat → Domain → Domain} (l : List Nat) (s : State) (w : Twin) :
    (l.foldl (fun u i => u.updDomain i (f u i)) s).twin w = s.twin w :=
  foldl_keeps (p := fun u : State => u.twin w) (fun u _ => u.twin_setDomain _) l s

/-- A core or an engine put to Sleep by trimming. -/
def Domain.asleep (woa : Bool) (d : Domain) : Domain :=
  { d with st := .sleep, entry := none, latched := [], busy := 0, stopped := false, woa := woa }

/-- Without a wake event latched, the cluster is trimmed (R423). -/
theorem State.trimCluster_trims (h : ∀ i ∈ trimDoms w k, (s.domain i).latched = []) :
    let t := s.trimCluster w k
    (t.twin w).trimmed k = true ∧ t.power.mod = .trimmed ∧
    (∀ i ∈ trimDoms w k, (t.domain i).st = .sleep ∧ (t.domain i).entry = none) ∧
    ∀ c ∈ (t.twin w).ctxs, (coresOf w k).contains (c.1 / 2) = false := by
  intro t
  have hwoken : (trimDoms w k).any (fun i => !(s.domain i).latched.isEmpty) = false := by
    rw [List.any_eq_false]
    intro i hi
    rw [h i hi]
    simp
  obtain ⟨v, u, hv, hu, ht⟩ : ∃ v u : State, v = s.updTwin w (fun x => (x.setTrimmed k true).sleepCluster w k) ∧
      u = (trimDoms w k).foldl (fun u i => u.updDomain i (Domain.asleep (u.woaOf i))) v ∧ t = u.enterMod .trimmed := by
    refine ⟨_, _, rfl, rfl, ?_⟩
    show s.trimCluster w k = _
    unfold State.trimCluster
    extract_lets woken v u x
    exact if_neg (by rw [show woken = false from hwoken]; exact Bool.false_ne_true)
  have hvtwin : v.twin w = ((s.twin w).setTrimmed k true).sleepCluster w k := by rw [hv, State.updTwin_same]
  have htwin : u.twin w = ((s.twin w).setTrimmed k true).sleepCluster w k := by
    rw [hu, State.twin_foldl_updDomain, hvtwin]
  clear_value t
  rw [ht]
  refine ⟨?_, by rw [State.enterMod_power], fun i hi => ?_, fun c hc => ?_⟩
  · rw [State.enterMod_twin _ _ w (fun x => x.trimmed k) (fun _ _ => rfl), htwin]
    exact TwinSt.trimmed_setTrimmed _ k true
  · rw [State.domain_enterMod, hu]
    exact State.domain_foldl_updDomain (f := fun u i => Domain.asleep (u.woaOf i)) (A := fun _ => True)
      (B := fun d => d.st = .sleep ∧ d.entry = none) hi
      (fun v _ _ => ⟨Domain.leaving_st _ _ _, Domain.leaving_entry _ _ _⟩)
      (fun v _ _ => ⟨Domain.leaving_st _ _ _, Domain.leaving_entry _ _ _⟩) trivial
  · rw [State.enterMod_twin _ _ w TwinSt.ctxs (fun _ _ => rfl), htwin] at hc
    have hkept := (List.mem_filter.mp hc).2
    rwa [Bool.not_eq_true'] at hkept

/-- While a block is busy the entry of the cluster is in progress (R418). -/
theorem State.stopCluster_waits (s : State) (w : Twin) (k : Nat) (busy : List Nat) :
    ((s.stopCluster w k busy).twin w) = s.twin w ∧
    ∀ i ∈ trimDoms w k, ((s.stopCluster w k busy).domain i).entry = some (.sleep, (s.domain i).entry.elim s.now Prod.snd) := by
  refine ⟨State.twin_foldl_updDomain _ s w, fun i hi => ?_⟩
  refine State.domain_foldl_updDomain (A := fun d => d.entry = (s.domain i).entry)
    (B := fun d => d.entry = some (.sleep, (s.domain i).entry.elim s.now Prod.snd)) hi (fun u hu h => ?_) (fun u hu h => ?_) rfl
  · rw [Domain.leaving_entry]
    dsimp only
    rw [h, hu]
  · rw [Domain.leaving_entry]
    dsimp only
    rw [h]
    rfl

end

/-- Whether a twin trims this cluster now: the one whose entry is in progress within `REFUSE_WAIT`, or else the one due (R418,
R423). -/
def State.trims (s : State) (w : Twin) (k : Nat) : Prop :=
  (s.trimming w = some k ∧ (∀ b, s.trimSince w k = some b → s.now < b + s.refuseWait) ∧ (s.trimSince w k).isSome = true) ∨
  (s.trimming w = none ∧ s.powerFld 8 1 + 1 < (List.range 16).countP (fun k => !(s.twin w).trimmed k) ∧ s.trimTarget w = some k)

section
variable {s : State} {t k : Nat} {w : Twin} (hx : s.executes w = true) (hready : s.boot.ready = true)
include hx

theorem clusterTrimWake_wakes (hstuck : ((s.twin w).prepare w (s.isActive w) (s.at t).now).stuck w (s.isActive w) (s.at t).now = true)
    (hk : (List.range 16).find? (fun k => ((s.twin w).prepare w (s.isActive w) (s.at t).now).trimmed k) = some k) :
    Completes (.clusterTrimWake t w) s (fun t' => (t'.twin w).trimmed k = false) := by
  let u := (s.at t).updTwin w (fun x => x.prepare w (s.isActive w) (s.at t).now)
  have hu : u.twin w = (s.twin w).prepare w (s.isActive w) (s.at t).now :=
    (State.updTwin_same _ w _).trans (by rw [State.at_twin])
  have hactive : u.isActive w = s.isActive w := by cases w <;> rfl
  have hnow : u.now = (s.at t).now := by cases w <;> rfl
  have hexec : exec (.clusterTrimWake t w) s = .next (settle s (u.wakeCluster w k)) := by
    change execClusterTrimWake t w s = _
    unfold execClusterTrimWake
    refine ev_of_eq ?_
    refine (if_neg (by rw [State.at_executes, hx]; simp)).trans ?_
    show (if ¬ (u.twin w).stuck w (u.isActive w) u.now = true then u
      else match (List.range 16).find? (fun k => (u.twin w).trimmed k) with
        | some k => u.wakeCluster w k
        | none => u) = _
    rw [hu, hactive, hnow, if_neg (by simp [hstuck]), hk]
  exact .of_settled hexec (by rw [settle_twin]; exact u.trimmed_wakeCluster w k)

include hready

theorem exec_clusterTrim (hhot : s.power.mod ≠ .standbyHot) (hmod : (s.domain moduleDomain).entry = none)
    (h : (s.at t).trims w k) (hbusy : (s.twin w).trimBusy w k = []) :
    exec (.clusterTrim t w []) s = .next (settle s ((s.at t).trimCluster w k)) ∧
    ∀ b, exec (.clusterTrim t w [b]) s = .next (settle s ((s.at t).stopCluster w k [b])) := by
  have hgo : ∀ (l : List Nat) (v : State), (∀ x, x = s.twin w → (match x.trimBusy w k ++ l with
      | [] => (s.at t).trimCluster w k
      | l => (s.at t).stopCluster w k l) = v) → exec (.clusterTrim t w l) s = .next (settle s v) := by
    intro l v hv
    change execClusterTrim t w l s = _
    unfold execClusterTrim
    refine ev_of_eq ?_
    refine (if_neg ?_).trans ?_
    · rw [State.at_executes, hx, show (s.at t).boot.ready = true from hready, State.at_domain, hmod]
      simp [hhot]
    · have hv' := hv ((s.at t).twin w) (s.at_twin t w)
      rcases h with ⟨htrim, hin, hsome⟩ | ⟨htrim, hleft, htarget⟩
      · rw [htrim]
        refine (if_pos ?_).trans hv'
        obtain ⟨b, hb⟩ := Option.isSome_iff_exists.mp hsome
        rw [hb]
        exact decide_eq_true (hin b hb)
      · rw [htrim]
        refine (if_neg (Nat.not_le.mpr hleft)).trans ?_
        rw [htarget]
        exact hv'
  refine ⟨hgo [] _ ?_, fun b => hgo [b] _ ?_⟩ <;> · rintro x rfl; rw [hbusy]; rfl

end

end Sys2Proof.Machine
end

section
/-! STANDBY-HOT, the load classes and their tables (R422 to R430). -/

namespace Sys2Proof.Machine

/-! STANDBY-HOT. -/

section
variable {s : State} {t n : Nat}

/-- A domain that the table does not list stands in Run. -/
theorem State.domain_of_unlisted (h : n ∉ s.power.domains.map Prod.fst) : (s.domain n).st = .run := by
  have hnone : Tbl.find? s.power.domains n = none := by
    cases hd : Tbl.find? s.power.domains n with
    | none => rfl
    | some d => exact absurd (List.mem_map_of_mem (f := Prod.fst) (Tbl.mem_of_find? hd)) h
  unfold State.domain Tbl.getD
  rw [hnone]
  rfl

/-- Out of STANDBY-HOT every domain of a twin is in Run (R424). -/
theorem State.exitStandby_leaves (h : s.power.mod = .standbyHot) :
    s.exitStandby.power.mod = .active ∧ s.exitStandby.power.vidA = 24 ∧ s.exitStandby.power.vidB = 24 ∧
    ∀ i, (domainTwin i).isSome = true → (s.exitStandby.domain i).st = .run := by
  have hexit : s.exitStandby = ((s.twinDoms.foldl State.toRun s).updPower (fun p => { p with vidA := 24, vidB := 24 })).enterMod .active :=
    if_neg (not_not_intro h)
  rw [hexit]
  refine ⟨by rw [State.enterMod_power], by rw [State.enterMod_power]; rfl, by rw [State.enterMod_power]; rfl, fun i hi => ?_⟩
  rw [State.domain_enterMod]
  show ((s.twinDoms.foldl State.toRun s).domain i).st = .run
  have hkeep : ∀ (u : State) (m : Nat), (u.domain i).st = .run → ((u.toRun m).domain i).st = .run := by
    intro u m hu
    by_cases hm : i = m
    · subst hm
      rw [State.domain_toRun_same]
      rfl
    · rw [State.domain_toRun_ne hm]
      exact hu
  by_cases hlisted : i ∈ s.twinDoms
  · refine foldl_reaches (A := fun _ => True) (B := fun u : State => (u.domain i).st = .run) hlisted
      (fun u m _ => hkeep u m) (fun u _ => ?_) (fun _ _ _ _ _ => trivial) (.inl trivial)
    rw [State.domain_toRun_same]
    rfl
  · have hrun : (s.domain i).st = .run := by
      refine State.domain_of_unlisted (fun hmem => hlisted ?_)
      obtain ⟨d, hd, rfl⟩ := List.mem_map.mp hmem
      exact List.mem_map_of_mem (List.mem_filter.mpr ⟨hd, hi⟩)
    have hall : ∀ (l : List Nat) (u : State), (u.domain i).st = .run → ((l.foldl State.toRun u).domain i).st = .run := by
      intro l
      induction l with
      | nil => exact fun _ h => h
      | cons m l ih => exact fun u hu => ih _ (hkeep u m hu)
    exact hall _ s hrun

theorem standbyHotExit_leaves (hr : s.rreqs ≠ []) (h : s.power.mod = .standbyHot) :
    Completes (.standbyHotExit t) s (fun t' => t'.power.mod = .active ∧ t'.power.vidA = 24 ∧ t'.power.vidB = 24 ∧
      ∀ i, (domainTwin i).isSome = true → (t'.domain i).st = .run) := by
  have hexec : exec (.standbyHotExit t) s = .next (settle s (s.at t).exitStandby) := by
    change execStandbyHotExit t s = _
    unfold execStandbyHotExit
    refine ev_of_eq (if_neg ?_)
    rw [List.isEmpty_iff]
    exact hr
  exact .of_settled hexec (State.exitStandby_leaves (s := s.at t) h)

@[simp] theorem State.updBoth_domain (s : State) (f : TwinSt → TwinSt) (n : Nat) : (s.updBoth f).domain n = s.domain n :=
  State.domain_congr (congrArg Power.domains (s.updBoth_power f)) n

/-- A domain of a twin on the way into STANDBY-HOT (Table 18-6). -/
def State.intoStandby (s : State) (n : Nat) : State :=
  if hotRun n ∨ (s.domain n).st = .sleep then s
  else s.updDomain n (fun d =>
    { d with st := if n < 412 ∧ n % 206 = 198 then .doze else .nap, entry := none, latched := [], stopped := false, woa := s.woaOf n })

theorem State.intoStandby_st (s : State) (hn : hotRun n = false) : ((s.intoStandby n).domain n).st ≠ .run := by
  unfold State.intoStandby
  split
  · next h =>
    rcases h with h | h
    · rw [hn] at h
      cases h
    · rw [h]
      decide
  · rw [State.updDomain, State.domain_setDomain_same, Domain.leaving_st]
    dsimp only
    split <;> decide

theorem State.intoStandby_ne {m : Nat} (s : State) (h : n ≠ m) : (s.intoStandby m).domain n = s.domain n := by
  unfold State.intoStandby
  split
  · rfl
  · exact State.domain_updDomain_ne h _

/-- Without a wake event latched, the module is in STANDBY-HOT, and of the twins' domains those alone run that Table 18-6 names. -/
theorem State.enterStandby_enters (hmod : (s.domain moduleDomain).latched = []) (h : ∀ i ∈ s.twinDoms, (s.domain i).latched = []) :
    s.enterStandby.power.mod = .standbyHot ∧ s.enterStandby.power.vidA = 0 ∧ s.enterStandby.power.vidB = 0 ∧
    ∀ i ∈ twinDomains, hotRun i = false → (s.enterStandby.domain i).st ≠ .run := by
  obtain ⟨u, hdom, hu⟩ : ∃ u : State, (∀ i ∈ twinDomains, hotRun i = false → (u.domain i).st ≠ .run) ∧
      s.enterStandby = (u.updPower (fun p => { p with vidA := 0, vidB := 0 })).enterMod .standbyHot := by
    refine ⟨(twinDomains.foldl State.intoStandby (s.setDomain moduleDomain {})).updBoth (fun x => { x with
      clusters := x.clusters.map (fun (c : Nat × Cluster) => (c.1, { c.2 with trimmed := false })) }), fun i hi hhot => ?_, ?_⟩
    · rw [State.updBoth_domain]
      refine foldl_reaches (A := fun _ => True) (B := fun u : State => (u.domain i).st ≠ .run) hi (fun u m _ hu => ?_)
        (fun u _ => u.intoStandby_st hhot) (fun _ _ _ _ _ => trivial) (.inl trivial)
      by_cases hm : i = m
      · subst hm
        exact u.intoStandby_st hhot
      · rw [State.intoStandby_ne u hm]
        exact hu
    · have hwoken : (!(s.domain moduleDomain).latched.isEmpty || s.twinDoms.any (fun n => !(s.domain n).latched.isEmpty)) = false := by
        rw [hmod, Bool.or_eq_false_iff, List.any_eq_false]
        refine ⟨rfl, fun i hi => ?_⟩
        rw [h i hi]
        simp
      unfold State.enterStandby
      extract_lets woken one v x y
      exact if_neg (by rw [show woken = false from hwoken]; exact Bool.false_ne_true)
  rw [hu, State.enterMod_power]
  exact ⟨rfl, rfl, rfl, fun i hi hhot => by rw [State.domain_enterMod]; exact hdom i hi hhot⟩

theorem standbyHotEntry_enters (hready : s.boot.ready = true) (hf : s.failStop = false) (hhot : s.power.mod ≠ .standbyHot)
    (hoff : s.power.mod ≠ .off) (hset : s.powerFld 4 4 ≠ 0) (hr : s.rreqs = []) (hi : s.ingress = [])
    (hidle : Tbl.getD s.used moduleDomain 0 + 4000000 * s.powerFld 4 4 ≤ (s.at t).now) (ha : (s.at t).afresh moduleDomain = true)
    (hentry : (s.domain moduleDomain).entry = none) :
    exec (.standbyHotEntry t []) s = .next (settle s (s.at t).enterStandby) := by
  change execStandbyHotEntry t [] s = _
  unfold execStandbyHotEntry
  refine ev_of_eq ?_
  extract_lets idle
  have hyes : idle = true := by
    show ((s.rreqs.isEmpty && s.ingress.isEmpty &&
      decide (Tbl.getD s.used moduleDomain 0 + 4000000 * s.powerFld 4 4 ≤ (s.at t).now)) && (s.at t).afresh moduleDomain) = true
    rw [hr, hi, ha, decide_eq_true hidle]
    rfl
  refine (if_neg ?_).trans ?_
  · rintro (h | h | h | h | h)
    · exact h hready
    · rw [show (s.at t).failStop = false from hf] at h
      cases h
    · exact hhot h
    · exact hoff h
    · exact hset h
  · rw [State.at_domain, hentry]
    exact if_pos hyes

end

/-! The tables of the load classes. -/

section
variable {s : State} {t n : Nat}

@[simp] theorem State.island_updIsland (s : State) (n : Nat) (f : IslandDvfs → IslandDvfs) :
    (s.updIsland n f).island n = f (s.island n) :=
  (Tbl.getD_store _ _ _ _ _).trans (if_pos rfl)

@[simp] theorem State.island_setVid (s : State) (n : Nat) : s.setVid.island n = s.island n := by
  unfold State.setVid
  split <;> rfl

theorem IslandDvfs.table_setTable (d : IslandDvfs) (c : LoadClass) (x : Dvfs) : (d.setTable c x).table c = x := by
  cases c <;> rfl

@[simp] theorem IslandDvfs.setTable_cls (d : IslandDvfs) (c : LoadClass) (x : Dvfs) : (d.setTable c x).cls = d.cls := by
  cases c <;> rfl

/-- What a busy fraction reported makes of an island (R426): a higher class taken at once, a lower one 100 us below the bound. -/
def Reported (now pc : Nat) (v v' : IslandDvfs) : Prop :=
  v'.busy = pc ∧
  (classCode v.cls < classCode (classOf pc) → v'.cls = classOf pc ∧ v'.bump = 0 ∧ v'.below = none) ∧
  (v.cls = classOf pc → v' = { v with busy := pc, below := none }) ∧
  (classCode (classOf pc) < classCode v.cls →
    (v.below = none → v' = { v with busy := pc, below := some now }) ∧
    (∀ b, v.below = some b → now < b + 400000 → v' = { v with busy := pc }) ∧
    (∀ b, v.below = some b → b + 400000 ≤ now → v'.cls = classOf pc ∧ v'.bump = 0 ∧ v'.below = none))

theorem classCode_injective {a b : LoadClass} (h : ¬ classCode a < classCode b) (hne : a ≠ b) : classCode b < classCode a := by
  cases a <;> cases b <;> simp_all [classCode]

@[simp] theorem IslandDvfs.charged_busy (d : IslandDvfs) (now : Nat) : (d.charged now).busy = d.busy := by
  unfold IslandDvfs.charged IslandDvfs.setTable
  dsimp only
  split <;> rfl

theorem IslandDvfs.report_reported (v : IslandDvfs) (now pc : Nat) : Reported now pc v (v.report now pc) := by
  unfold IslandDvfs.report
  extract_lets c d charged take
  have hbusy : take.busy = pc := d.charged_busy now
  by_cases hup : classCode v.cls < classCode c
  · rw [if_pos (show classCode d.cls < classCode c from hup)]
    refine ⟨hbusy, fun _ => ⟨rfl, rfl, rfl⟩, fun h => absurd hup (by rw [h]; exact Nat.lt_irrefl _), fun h => ?_⟩
    exact absurd h (Nat.lt_asymm hup)
  rw [if_neg (show ¬ classCode d.cls < classCode c from hup)]
  by_cases hc : v.cls = c
  · rw [if_pos (show d.cls = c from hc)]
    exact ⟨rfl, fun h => absurd h hup, fun _ => rfl, fun h => absurd h (by rw [hc]; exact Nat.lt_irrefl _)⟩
  rw [if_neg (show ¬ d.cls = c from hc)]
  cases hb : v.below with
  | none =>
    refine ⟨rfl, fun h => absurd h hup, fun h => absurd h hc, fun _ => ⟨fun _ => rfl, fun b h => ?_, fun b h => ?_⟩⟩ <;>
      · rw [hb] at h
        cases h
  | some b =>
    dsimp only
    split
    · next hle =>
      refine ⟨hbusy, fun h => absurd h hup, fun h => absurd h hc, fun _ => ⟨fun h => ?_, fun b' h hlt => ?_, fun b' _ _ =>
        ⟨rfl, rfl, rfl⟩⟩⟩
      · rw [hb] at h
        cases h
      · rw [hb] at h
        cases h
        exact absurd hlt (Nat.not_lt.mpr hle)
    · next hgt =>
      refine ⟨rfl, fun h => absurd h hup, fun h => absurd h hc, fun _ => ⟨fun h => ?_, fun b' h hlt => rfl, fun b' h hle => ?_⟩⟩
      · rw [hb] at h
        cases h
      · rw [hb] at h
        cases h
        exact absurd hle hgt

/-- The time that an island has spent in its class since the last training counts the time since it was last charged (R428). -/
theorem IslandDvfs.charged_spent (d : IslandDvfs) (now : Nat) :
    ((d.charged now).table d.cls).spent = (d.table d.cls).spent + (now - d.since) := by
  unfold IslandDvfs.charged
  cases h : d.cls <;> rfl

@[simp] theorem IslandDvfs.charged_cls (d : IslandDvfs) (now : Nat) : (d.charged now).cls = d.cls := by
  unfold IslandDvfs.charged
  exact d.setTable_cls _ _

/-- An island whose table was found wanting uses its guard-banded one (R427, R429). -/
theorem IslandDvfs.guarded_untrained (d : IslandDvfs) (ops now : Nat) :
    ({ d.setTable d.cls { (d.table d.cls) with trained := false } with bump := 0, lastAlarm := some now } : IslandDvfs).guarded ops =
      true := by
  obtain ⟨cls, -⟩ := d
  cases cls <;> rfl

/-- A command whose last act is to change the island's state, the VID following it. -/
theorem Completes.of_island {i : Instr} {f : IslandDvfs → IslandDvfs} {p : IslandDvfs → Prop}
    (he : exec i s = .next (settle s ((s.at t).updIsland n f).setVid)) (hp : p (f (s.island n))) :
    Completes i s (fun t' => p (t'.island n)) := by
  refine .of_settled he ?_
  have hisland : (settle s ((s.at t).updIsland n f).setVid).island n = f (s.island n) := by
    show ((s.at t).updIsland n f).setVid.island n = _
    rw [State.island_setVid, State.island_updIsland]
    rfl
  rw [hisland]
  exact hp

section
variable (hup : s.boot.up = true) (hn : n < 428)
include hup hn

theorem exec_loadClassChange (pc : Nat) : exec (.loadClassChange t n pc) s =
    .next (settle s ((s.at t).updIsland n (fun d => d.report (s.at t).now pc)).setVid) :=
  ev_of_eq (if_pos (by simp [hup, hn]))

theorem exec_dvfsTableStale (cls : LoadClass) : exec (.dvfsTableStale t n cls) s = .next (settle s
    ((s.at t).updIsland n (fun d => d.setTable cls { (d.table cls) with trained := false })).setVid) :=
  ev_of_eq (if_pos (by simp [hup, hn]))

theorem loadClassChange_reports (pc : Nat) :
    Completes (.loadClassChange t n pc) s (fun t' => Reported (s.at t).now pc (s.island n) (t'.island n)) :=
  Completes.of_island (p := Reported (s.at t).now pc (s.island n)) (exec_loadClassChange hup hn pc)
    ((s.island n).report_reported _ pc)

theorem dvfsTableStale_stales (cls : LoadClass) : Completes (.dvfsTableStale t n cls) s (fun t' =>
    t'.island n = (s.island n).setTable cls { ((s.island n).table cls) with trained := false }) :=
  Completes.of_island (p := fun v => v = (s.island n).setTable cls { ((s.island n).table cls) with trained := false })
    (exec_dvfsTableStale hup hn cls) rfl

theorem dvfsTraining_trains {cls : LoadClass} {mv : List Nat} (hc : (s.island n).cls = cls)
    (hspent : 40000000 ≤ ((s.island n).table cls).spent + ((s.at t).now - (s.island n).since)) (hmv : mv.length = pointsOf n) :
    Completes (.dvfsTraining t n cls mv) s (fun t' => (t'.island n).table cls =
      { trained := true, mv := mv.map (fun m => max m ((Config.guardMv n (classCode cls)).toNat - 150) + 25),
        stamp := (s.at t).opSeconds, spent := 0 } ∧ (t'.island n).bump = 0) := by
  have hexec : exec (.dvfsTraining t n cls mv) s = .next (settle s ((s.at t).updIsland n (fun _ =>
      { (((s.at t).island n).charged (s.at t).now).setTable cls
          { trained := true, mv := mv.map (fun m => max m ((Config.guardMv n (classCode cls)).toNat - 150) + 25),
            stamp := (s.at t).opSeconds, spent := 0 } with bump := 0 })).setVid) := by
    change execDvfsTraining t n cls mv s = _
    unfold execDvfsTraining
    refine ev_of_eq ?_
    extract_lets d
    have hcls : d.cls = cls := (((s.at t).island n).charged_cls _).trans hc
    have hlong : 40000000 ≤ (d.table cls).spent := by
      rw [← hc] at hspent ⊢
      exact le_of_le_of_eq hspent (((s.at t).island n).charged_spent _).symm
    refine if_pos ?_
    simp only [Bool.and_eq_true, decide_eq_true_eq, beq_iff_eq]
    exact ⟨⟨⟨⟨hup, hn⟩, hcls⟩, hlong⟩, hmv⟩
  refine Completes.of_island (p := fun v => v.table cls = _ ∧ v.bump = 0) hexec ⟨?_, rfl⟩
  cases cls <;> rfl

/-- The first alarm of a canary raises the voltage (R429). -/
theorem canaryAlarm_raises (hg : (s.island n).guarded (s.at t).opSeconds = false)
    (ha : ∀ a, (s.island n).lastAlarm = some a → a + 4000000 ≤ (s.at t).now) : Completes (.canaryAlarm t n) s (fun t' =>
      t'.island n = { s.island n with bump := (s.island n).bump + 10, lastAlarm := some (s.at t).now }) := by
  have hexec : exec (.canaryAlarm t n) s = .next (settle s ((s.at t).updIsland n (fun d =>
      { d with bump := d.bump + 10, lastAlarm := some (s.at t).now })).setVid) := by
    change execCanaryAlarm t n s = _
    unfold execCanaryAlarm
    refine ev_of_eq ?_
    refine (if_pos (by simp [hup, hn])).trans ?_
    extract_lets
    refine (if_neg (fun h => ?_)).trans (if_neg (fun h => ?_))
    · exact Bool.false_ne_true (hg.symm.trans h.1)
    · obtain ⟨a, hl, hlt⟩ := (Option.any_eq_true _ _).mp h.2
      exact absurd (ha a hl) (Nat.not_le.mpr (of_decide_eq_true hlt))
  exact Completes.of_island (p := fun v =>
    v = { s.island n with bump := (s.island n).bump + 10, lastAlarm := some (s.at t).now }) hexec rfl

/-- A second one within 1 ms moves the island to its guard-banded table (R429). -/
theorem canaryAlarm_guards {a : Nat} (hg : (s.island n).guarded (s.at t).opSeconds = false)
    (hl : (s.island n).lastAlarm = some a) (ha : (s.at t).now < a + 4000000) : Completes (.canaryAlarm t n) s (fun t' =>
      (t'.island n).guarded (s.at t).opSeconds = true ∧ (t'.island n).bump = 0 ∧
      (t'.island n).lastAlarm = some (s.at t).now) := by
  have hexec : exec (.canaryAlarm t n) s = .next (settle s ((((s.at t).updIsland n (fun d =>
      { d.setTable d.cls { (d.table d.cls) with trained := false } with bump := 0, lastAlarm := some (s.at t).now })).setVid).powerEvent
        n (islandOrigin n) 0x03 sevWarn (classCode (s.island n).cls) 0 ((s.at t).localMv n))) := by
    change execCanaryAlarm t n s = _
    unfold execCanaryAlarm
    refine ev_of_eq ?_
    refine (if_pos (by simp [hup, hn])).trans ?_
    extract_lets
    refine (if_neg (fun h => ?_)).trans (if_pos ⟨?_, ?_⟩)
    · exact Bool.false_ne_true (hg.symm.trans h.1)
    · exact Bool.eq_false_iff.mp hg
    · exact (Option.any_eq_true _ _).mpr ⟨a, hl, decide_eq_true ha⟩
  refine .of_settled hexec ?_
  have hisland : ∀ v u : State, Noted v u → (settle s u).island n = v.island n :=
    fun v u h => congrArg (fun l => Tbl.getD l n ({} : IslandDvfs)) (congrArg Power.dvfs h.power)
  rw [hisland _ _ (Noted.powerEvent _ _ _ _ _ _ _ _), State.island_setVid, State.island_updIsland]
  exact ⟨IslandDvfs.guarded_untrained _ _ _, rfl, rfl⟩

end

end

/-- Settles O49; that an entry whose condition does not hold is no event is the model's choice (assumptions 3 and 143), and so is code
24 where STANDBY-HOT is left, of which neither a rule nor an assumption speaks. -/
theorem powerStates : Obligations.PowerStates := by
  intro s t n w hup hready u d
  refine ⟨fun k hk h0 hrun hentry => ⟨fun hv hi ha => ⟨fun hl => ?_, fun b l => ?_⟩, fun l h =>
      domainIdleEntry_stays hk h0 hready hrun hentry h l⟩,
    fun k p b hk h0 hrun hentry ht hb hl => .of_settled (domainIdleEntry_completes hk h0 hready hrun hentry ht hb)
      (State.enter_enters (s := s.at t) hl),
    fun hw hcore hrun hin hl hc0 hc1 htest hi ha => .of_settled
      (coreIdleEntry_enters hw hcore hready hrun hin hc0 hc1 htest hi ha) (State.enter_enters (s := s.at t) hl),
    fun hn => ⟨wakeEvent_urgent hup hn, wakeEvent_wakes hup hn, wakeEvent_latches hup hn⟩,
    fun p b hentry hb => entryRefuseTimeout_aborts hentry hb,
    fun hc => ⟨?_, ?_⟩,
    fun p wr hc => ⟨gatekeeperAccess_down hup hc, gatekeeperAccess_holds hup hc, gatekeeperAccess_wakes hup hc⟩,
    fun h => ev_of_eq (if_pos h),
    fun k hx hhot hmod h hbusy => ?_,
    fun k hx hstuck hk => clusterTrimWake_wakes hx hstuck hk,
    fun hf hhot hoff hset hr hi hidle ha hentry hl hls => .of_settled
      (standbyHotEntry_enters hready hf hhot hoff hset hr hi hidle ha hentry)
      (State.enterStandby_enters (s := s.at t) hl hls),
    fun hr h => standbyHotExit_leaves hr h,
    fun hn pc => loadClassChange_reports hup hn pc,
    fun hn cls => ⟨dvfsTableStale_stales hup hn cls, fun mv => dvfsTraining_trains hup hn, canaryAlarm_raises hup hn,
      fun a => canaryAlarm_guards hup hn⟩⟩
  · exact .of_settled (domainIdleEntry_enters hk h0 hready hrun hentry hv hi ha []) (State.enter_enters (s := s.at t) hl)
  · obtain ⟨hst, hin, hbusy⟩ := State.enter_busy (s := s.at t) (p := s.kindState k) hentry b l
    exact .of_settled (domainIdleEntry_enters hk h0 hready hrun hentry hv hi ha (b :: l)) ⟨hst.trans hrun, hin, hbusy⟩
  · exact (exec_gatekeeperAccess hup).trans (by rw [State.gatekeep_open (s := s.at t) hc]; rfl)
  · refine .of_settled (exec_gatekeeperAccess hup) ?_
    rw [State.gatekeep_open (s := s.at t) hc]
    exact ⟨_, rfl⟩
  · obtain ⟨htrims, hstops⟩ := exec_clusterTrim (t := t) hx hready hhot hmod h hbusy
    refine ⟨fun hl => ?_, fun b => .of_settled (hstops b) ?_⟩
    · refine .of_settled htrims ?_
      have htrimmed := State.trimCluster_trims (s := s.at t) hl
      generalize (s.at t).trimCluster w k = v at htrimmed ⊢
      rw [settle_twin]
      exact htrimmed
    · obtain ⟨htwin, hdoms⟩ := (s.at t).stopCluster_waits w k [b]
      generalize (s.at t).stopCluster w k [b] = v at htwin hdoms ⊢
      rw [settle_twin, htwin, State.at_twin]
      exact ⟨rfl, hdoms⟩

end Sys2Proof.Machine
end

section
/-! Cipher engine operations: what their runs, compare failures and causes leave of them (R257, R261, R280 to R286). -/

namespace Sys2Proof.Machine

/-! What a run draws and counts on its engine. -/

/-- All of a twin stands but its entropy and what its engines count. -/
def Drawn (x y : TwinSt) : Prop := { y with ent := x.ent, engCtr := x.engCtr } = x

theorem Drawn.rfl {x : TwinSt} : Drawn x x := Eq.refl _

theorem Drawn.trans {x y z : TwinSt} (h : Drawn x y) (k : Drawn y z) : Drawn x z := by
  unfold Drawn at *
  calc { z with ent := x.ent, engCtr := x.engCtr }
      = { ({ z with ent := y.ent, engCtr := y.engCtr } : TwinSt) with ent := x.ent, engCtr := x.engCtr } := Eq.refl _
    _ = x := by rw [k]; exact h

/-- A part of the twin that holds neither its entropy nor its engines' counters. -/
theorem Drawn.eq {α : Type} {x y : TwinSt} (h : Drawn x y) (f : TwinSt → α)
    (hf : f { y with ent := x.ent, engCtr := x.engCtr } = f y) : f y = f x := hf.symm.trans (congrArg f h)

section
variable (x : TwinSt) (w : Twin) (isl dp pcycle now : Nat)

theorem Drawn.reseedMask : Drawn x (x.reseedMask w isl dp pcycle now) := by
  unfold TwinSt.reseedMask
  split
  · exact .rfl
  · exact Eq.refl _

theorem Drawn.drawMasks (fuel n : Nat) (x : TwinSt) : Drawn x (x.drawMasks w isl dp pcycle now fuel n) := by
  induction fuel generalizing n x with
  | zero => exact .rfl
  | succ fuel ih =>
    unfold TwinSt.drawMasks
    extract_lets m ent put
    have hput : ∀ m, Drawn x (put m) := fun m => Eq.refl _
    split
    · exact hput _
    · split
      · exact hput _
      · exact ((hput _).trans (.reseedMask _ w isl dp pcycle now)).trans (ih _ _)

theorem Drawn.countWork (n : Nat) : Drawn x (x.countWork w isl n pcycle now) := by
  unfold TwinSt.countWork
  exact ((Drawn.drawMasks w isl 0 pcycle now _ n x).trans (.drawMasks w isl 1 pcycle now _ n _)).trans (Eq.refl _)

theorem Drawn.cacheKey (c : CachedKey) (pads : Bool) : Drawn x (x.cacheKey isl c pads) := Eq.refl _

theorem Drawn.ranOn (e : EngEnv) (n : Nat) : Drawn x (x.ranOn e w isl n pcycle now) := by
  unfold TwinSt.ranOn
  dsimp only
  split
  · exact (Drawn.countWork x w isl pcycle now n).trans (.cacheKey _ isl _ _)
  · exact .countWork x w isl pcycle now n

end

/-! What a compare failure leaves of an operation: all but the engine that it is placed on. -/

/-- An operation without its place. -/
def EngOp.unplaced (o : EngOp) : EngOp := { o with engine := none }

/-- An operation stands, on whatever engine. -/
def SameOp (id : Nat) (x y : TwinSt) : Prop :=
  (Tbl.find? y.ops id).map EngOp.unplaced = (Tbl.find? x.ops id).map EngOp.unplaced

theorem SameOp.of_ops {id : Nat} {x y : TwinSt} (h : y.ops = x.ops) : SameOp id x y := by
  unfold SameOp
  rw [h]

theorem SameOp.rfl {id : Nat} {x : TwinSt} : SameOp id x x := Eq.refl _

theorem SameOp.trans {id : Nat} {x y z : TwinSt} (h : SameOp id x y) (k : SameOp id y z) : SameOp id x z := Eq.trans k h

theorem SameOp.find {id : Nat} {x y : TwinSt} {o : EngOp} (h : SameOp id x y) (ho : Tbl.find? x.ops id = some o) :
    ∃ o', Tbl.find? y.ops id = some o' ∧ o'.unplaced = o.unplaced := by
  unfold SameOp at h
  rw [ho] at h
  exact Option.map_eq_some_iff.mp h

/-- A change of every entry that looks at its key. -/
theorem Tbl.find?_mapIdx {α : Type} (f : Nat → α → α) (t : Tbl α) (j : Nat) :
    Tbl.find? (t.map (fun (e : Nat × α) => (e.1, f e.1 e.2))) j = (Tbl.find? t j).map (f j) := by
  induction t with
  | nil => rfl
  | cons a t ih =>
    simp only [List.map_cons, Tbl.find?, ih]
    split
    · next h => rw [h]; rfl
    · rfl

theorem SameOp.moveOps {id : Nat} (x : TwinSt) (w : Twin) (isl : Nat) : SameOp id x (x.moveOps w isl) := by
  unfold TwinSt.moveOps
  split
  · exact .rfl
  · next dst _ =>
    dsimp only
    unfold SameOp
    refine (congrArg (Option.map EngOp.unplaced) (Tbl.find?_mapIdx (fun i (o : EngOp) =>
      if ((x.placed isl).drop 2).contains i then { o with engine := some dst } else o) x.ops id)).trans ?_
    rw [Option.map_map]
    congr 1
    funext o
    show EngOp.unplaced (if _ then _ else _) = _
    split <;> rfl

section
variable {s : State} {w : Twin} {id isl : Nat}

theorem SameOp.leaveActive (s : State) (role : URole) (reason : Nat) :
    SameOp id (s.twin w) ((s.leaveActive w isl role reason).twin w) := by
  unfold State.leaveActive
  rw [State.updTwin_same]
  dsimp only
  split
  · exact SameOp.trans (.of_ops (Eq.refl _)) (.moveOps _ w isl)
  · exact .of_ops (Eq.refl _)

/-- A cause in the active twin leaves it active, and every operation of it. -/
theorem SameOp.cause (ha : s.active = some w) (code : Nat) : SameOp id (s.twin w) ((s.cause w code isl).twin w) :=
  .of_ops (congrArg (·.2.2.2) (State.cause_callSide ha code isl))

/-- A compare failure of an engine in the active twin (R281, R282). -/
theorem State.compareFail_keeps (ha : s.active = some w) (away : Bool) :
    SameOp id (s.twin w) ((s.compareFail w isl away).twin w) ∧ (s.compareFail w isl away).active = some w := by
  unfold State.compareFail
  extract_lets recent day out u v x inSec
  have hu : SameOp id (s.twin w) (u.twin w) ∧ u.active = some w := by
    refine ⟨.of_ops ?_, by cases w <;> exact ha⟩
    rw [State.updTwin_same]
    rfl
  have hv : SameOp id (s.twin w) (v.twin w) ∧ v.active = some w := by
    unfold v
    split
    · exact ⟨hu.1.trans (.leaveActive u _ _), by unfold State.leaveActive; cases w <;> exact hu.2⟩
    · exact hu
  split
  · exact ⟨hv.1.trans (.cause hv.2 _), (State.active_cause hv.2 _ _)⟩
  · exact hv

theorem TwinSt.find?_updOp {x : TwinSt} {o : EngOp} (ho : Tbl.find? x.ops id = some o) (f : EngOp → EngOp) :
    Tbl.find? (x.updOp id f).ops id = some (f o) :=
  (Tbl.find?_upd _ _ _ _).trans (by rw [if_pos rfl, ho]; rfl)

/-- A second failure of an operation ends it (R281). -/
theorem State.mismatchOp_ends {e : EngEnv} (ha : s.active = some w) (ho : Tbl.find? (s.twin w).ops id = some e.o)
    (hr : e.o.rerun = true) (n : Nat) : ∃ o', Tbl.find? ((s.mismatchOp w e id isl n).twin w).ops id = some o' ∧
      o'.done = some (engFail stInternal 0) ∧ o'.blk = e.o.blk := by
  unfold State.mismatchOp
  extract_lets u other
  rw [if_pos hr]
  have hu : Tbl.find? (u.twin w).ops id = some e.o := by
    rw [State.updTwin_same, (Drawn.ranOn _ w isl _ _ e n).eq TwinSt.ops rfl]
    exact ho
  generalize hv : u.updTwin w (fun x => x.updOp id (fun o => { o with done := some (engFail stInternal 0) })) = v
  have hvo : Tbl.find? (v.twin w).ops id = some { e.o with done := some (engFail stInternal 0) } := by
    rw [← hv, State.updTwin_same, TwinSt.find?_updOp hu]
  have hva : v.active = some w := by
    rw [← hv]
    cases w <;> exact ha
  obtain ⟨hsame, hact⟩ := State.compareFail_keeps (id := id) (isl := isl) hva false
  obtain ⟨o', ho', hun⟩ := (hsame.trans (.cause hact 0x02)).find hvo
  exact ⟨o', ho', (congrArg EngOp.done hun :), (congrArg EngOp.blk hun :)⟩

/-- A first one has it run again (R281). -/
theorem State.mismatchOp_reruns {e : EngEnv} (ha : s.active = some w) (ho : Tbl.find? (s.twin w).ops id = some e.o)
    (hr : e.o.rerun = false) (hd : e.o.done = none) (n : Nat) : ∃ o',
      Tbl.find? ((s.mismatchOp w e id isl n).twin w).ops id = some o' ∧ o'.done = none ∧ o'.rerun = true := by
  unfold State.mismatchOp
  extract_lets u other
  rw [if_neg (by simp [hr])]
  have hu : Tbl.find? (u.twin w).ops id = some e.o := by
    rw [State.updTwin_same, (Drawn.ranOn _ w isl _ _ e n).eq TwinSt.ops rfl]
    exact ho
  have hua : u.active = some w := by cases w <;> exact ha
  obtain ⟨hsame, -⟩ := State.compareFail_keeps (id := id) (isl := isl) hua other.isSome
  obtain ⟨o', ho', hun⟩ := hsame.find hu
  rw [State.updTwin_same, TwinSt.find?_updOp ho']
  exact ⟨_, rfl, (congrArg EngOp.done hun :).trans hd, rfl⟩

end

end Sys2Proof.Machine
end

section
/-! Cipher engine operations: their runs (R254 to R282, Table 11-4). -/

namespace Sys2Proof.Machine

/-! What an operation executes in, and what its execution leaves. -/

theorem TwinSt.engEnv?_finds {x : TwinSt} {id : Nat} {e : EngEnv} (h : x.engEnv? id = some e) :
    Tbl.find? x.ops id = some e.o ∧ Tbl.find? x.reqs e.o.q = some e.r ∧ e.x = x ∧ e.id = id ∧
      e.k = Tbl.getD x.clusters e.o.cluster {} := by
  unfold TwinSt.engEnv? at h
  split at h
  · cases h
  · next o ho =>
    split at h
    · cases h
    · next r hr =>
      cases h
      exact ⟨ho, hr, rfl, rfl, rfl⟩

/-- An operation's completion with its output (R256, R258). -/
def EngEnv.given (e : EngEnv) (d : Bytes) : EngOut :=
  { flags := 1 + 4 * b2n (e.outClass == 1), out := d.length, data := d, tag := e.outClass == 1, stg := some e.stagingAttr }

/-- The twin without the hold regions of an operation's task (R276). -/
def EngEnv.freed (e : EngEnv) (refused : Nat) : TwinSt :=
  e.x.updCluster e.o.cluster (fun k => { k with
    hold := k.hold.filter (fun (h : Nat × HoldReg) => !(h.2.q == e.o.q && h.2.task == e.o.task)),
    holdRefused := satAdd 32 k.holdRefused refused })

section
variable {e : EngEnv}

theorem EngEnv.execute_gives (hc : [5, 0x10, 0x11, 0x12].contains e.o.code = false) (hd : e.o.dKind ≠ 9) :
    e.execute = (e.x, some (e.given e.output)) := by
  unfold EngEnv.execute
  dsimp only
  split
  · next h => rw [h] at hc; cases hc
  · next h => rw [h] at hc; cases hc
  · next h => rw [h] at hc; cases hc
  · next h => rw [h] at hc; cases hc
  · exact if_neg hd

theorem EngEnv.execute_cv (hc : e.o.code = 5) (hv : e.o.verify = false) :
    e.execute = (e.x, some (e.given (e.checkValue (e.a ++ e.b)))) := by
  have hout : e.output = e.checkValue (e.a ++ e.b) := by
    unfold EngEnv.output
    dsimp only
    rw [hc]
    rfl
  unfold EngEnv.execute
  dsimp only
  rw [hc, ← hout]
  exact if_neg (by simp [hv])

theorem EngEnv.execute_verify (hc : e.o.code = 5) (hv : e.o.verify = true) :
    e.execute = (e.x, some (if e.checkValue (e.a ++ e.b) = e.expected then { flags := 3 } else engFail stVerify 0)) := by
  unfold EngEnv.execute
  dsimp only
  rw [hc]
  refine (if_pos hv).trans ?_
  split <;> rfl

theorem EngEnv.execute_install {a : KeyAttr} {h : Nat} {y : TwinSt} (hc : e.o.code = 9) (hd : e.o.dKind = 9) (ha : e.attr = some a)
    (hk : e.x.createKey e.o.q none a 0 e.a = some (.inr (h, y))) : e.execute = (y, some { flags := 1, out := h }) := by
  have hout : e.output = e.a := by
    unfold EngEnv.output
    dsimp only
    rw [hc]
    rfl
  unfold EngEnv.execute
  dsimp only
  rw [hc]
  refine (if_pos hd).trans ?_
  rw [ha]
  dsimp only
  rw [hout, hk]

theorem EngEnv.execute_holdAlloc (hc : e.o.code = 0x10) (hr : e.k.holdRoom e.o.aLen = true) :
    e.execute = (e.x.grantHold e.id e.o, some {}) := by
  unfold EngEnv.execute
  dsimp only
  rw [hc]
  exact if_pos hr

theorem EngEnv.execute_holdWaits (hc : e.o.code = 0x10) (hr : e.k.holdRoom e.o.aLen = false) :
    e.execute = (e.x.updCluster e.o.cluster (fun k => { k with holdWait := k.holdWait ++ [e.id] }), none) := by
  unfold EngEnv.execute
  dsimp only
  rw [hc]
  exact if_neg (by simp [hr])

theorem EngEnv.execute_holdRelease (hc : e.o.code = 0x11) : ∃ n, e.execute = (e.freed n,
    some (if e.checkValue e.a = e.expected then { flags := 3, out := e.a.length, data := e.a } else engFail stTag 0)) := by
  unfold EngEnv.execute
  dsimp only
  rw [hc]
  by_cases h : e.checkValue e.a = e.expected
  · refine ⟨0, ?_⟩
    simp only [if_pos h]
    rfl
  · refine ⟨1, ?_⟩
    simp only [if_neg h]
    rfl

theorem EngEnv.execute_holdFree (hc : e.o.code = 0x12) : e.execute = (e.freed 0, some {}) := by
  unfold EngEnv.execute
  dsimp only
  rw [hc]
  rfl

theorem EngEnv.freed_hold (e : EngEnv) (n : Nat) :
    ∀ h ∈ (Tbl.getD (e.freed n).clusters e.o.cluster {}).hold, (h.2.q, h.2.task) ≠ (e.o.q, e.o.task) := by
  intro h hmem heq
  unfold EngEnv.freed TwinSt.updCluster at hmem
  rw [Tbl.getD_put_same] at hmem
  have hkept := (List.mem_filter.mp hmem).2
  rw [Prod.mk.injEq] at heq
  rw [heq.1, heq.2, beq_self_eq_true, beq_self_eq_true] at hkept
  cases hkept

end

theorem TwinSt.createKey_ops {x y : TwinSt} {q h cls : Nat} {i : Option Nat} {a : KeyAttr} {m : Bytes}
    (hk : x.createKey q i a cls m = some (.inr (h, y))) : y.ops = x.ops := by
  have hquota : ∀ {slots ext led : Nat} {z : TwinSt}, x.quota q slots ext led = some z → z.ops = x.ops := by
    intro slots ext led z hz
    unfold TwinSt.quota at hz
    split at hz
    · cases hz
    · dsimp only at hz
      split at hz
      · exact Option.some.inj hz ▸ rfl
      · cases hz
  have hpay : ∀ {ext led : Nat} {z : TwinSt}, x.payKey q i ext led = some z → z.ops = x.ops := by
    intro ext led z hz
    unfold TwinSt.payKey at hz
    split at hz
    · split at hz
      · exact Option.some.inj hz ▸ rfl
      · exact hquota hz
    · exact hquota hz
  unfold TwinSt.createKey at hk
  split at hk
  · cases hk
  · split at hk
    · cases hk
    · split at hk
      · cases hk
      · dsimp only at hk
        split at hk
        · cases hk
        · next z hz =>
          cases hk
          show z.ops = x.ops
          exact hpay hz

/-! An operation that its engine may run. -/

/-- An operation placed on an engine that is awake, admitted, not begun, with its payload there and nothing amiss with the engine's
masks (R284, R312, R315). -/
structure OnEngine (s : State) (w : Twin) (id isl : Nat) (e : EngEnv) : Prop where
  env      : (s.twin w).engEnv? id = some e
  place    : e.o.engine = some isl
  admitted : e.o.admitted = true
  waits    : e.o.waits = false
  done     : e.o.done = none
  payload  : e.payloadThere = true
  masks    : ∀ m ∈ (s.twin w).masksOf isl, m.tainted = false ∧ (s.twin w).ent.maskDue s.now m = false
  seeds    : (s.twin w).ent.seeds ≠ []
  awake    : s.awake isl = true

/-- It passes its checks, and its engine's masks suffice (R259, R283, R284). -/
structure Passes (s : State) (w : Twin) (isl : Nat) (e : EngEnv) : Prop where
  refusal : e.refusal = none
  spent   : (s.twin w).masksSpent isl (e.blockWork (e.firstUse isl)) s.now = false
  need    : (s.twin w).maskNeed isl (e.blockWork (e.firstUse isl)) ≤ (s.twin w).ent.blocks.length

section
variable {s : State} {w : Twin} {id isl code kf : Nat} {cf : Option Nat} {e : EngEnv}

/-- The state that an execution leaves. -/
def EngEnv.ranIn (e : EngEnv) (s : State) (w : Twin) (id isl : Nat) : State :=
  (s.setTwin w ((e.execute.1.updOp id (fun o => { o with done := e.execute.2, waits := e.execute.2.isNone, engine := some isl })
    ).ranOn e w isl (e.blockWork (e.firstUse isl)) s.pcycle s.now)).allocWake s w e.o.cluster

/-- The ways on of an operation that its engine may run. -/
theorem OnEngine.run (h : OnEngine s w id isl e) (hc : e.o.code = code) :
    (∀ out, e.refusal = some out → engRun w id code kf cf s =
      s.updTwin w (fun x => x.updOp id (fun o => { o with done := some out, engine := some isl }))) ∧
    (Passes s w isl e →
      (e.o.delivers = true ∧ 2 ≤ kf → engRun w id code kf cf s = s.mismatchOp w e id isl 0) ∧
      (¬ (e.o.delivers = true ∧ 2 ≤ kf) →
        (∀ k, cf = some k → engRun w id code kf cf s = s.mismatchOp w e id isl (e.blocksTo (e.blockWork (e.firstUse isl)) k)) ∧
        (cf = none → engRun w id code kf cf s = e.ranIn s w id isl))) := by
  have htaint : ¬ ((s.twin w).masksOf isl).any (fun m => m.tainted) = true := by
    rw [List.any_eq_true]
    rintro ⟨m, hm, ht⟩
    exact Bool.false_ne_true ((h.masks m hm).1.symm.trans ht)
  have hdue : ¬ ((s.twin w).masksOf isl).any ((s.twin w).ent.maskDue s.now) = true := by
    rw [List.any_eq_true]
    rintro ⟨m, hm, ht⟩
    exact Bool.false_ne_true ((h.masks m hm).2.symm.trans ht)
  have hgo : ¬ (e.o.code ≠ code ∨ ¬ e.o.admitted = true ∨ e.o.waits = true ∨ e.o.done.isSome = true ∨ ¬ e.payloadThere = true ∨
      ¬ s.awake isl = true ∨ (s.twin w).ent.seeds.isEmpty = true) := by
    simp [hc, h.admitted, h.waits, h.done, h.payload, h.awake, h.seeds]
  unfold engRun
  dsimp only
  rw [h.env]
  dsimp only
  rw [h.place]
  dsimp only [Option.orElse]
  rw [if_neg hgo, if_neg htaint, if_neg hdue]
  refine ⟨fun out hout => by rw [hout], fun hp => ?_⟩
  rw [hp.refusal]
  dsimp only
  rw [if_neg (by rw [hp.spent]; exact Bool.false_ne_true), if_neg (Nat.not_lt.mpr hp.need)]
  refine ⟨fun hk => if_pos hk, fun hk => ⟨?_, ?_⟩⟩
  · rintro k rfl
    exact if_neg hk
  · rintro rfl
    exact if_neg hk

theorem Woken.allocWake (s before : State) (w : Twin) (k : Nat) : Woken s (s.allocWake before w k) := by
  unfold State.allocWake
  dsimp only
  split
  · exact .rfl
  · exact .wakeDoms s _

theorem State.hold_allocWake (s before : State) (v w : Twin) (c k : Nat) :
    (Tbl.getD ((s.allocWake before v c).twin w).clusters k {}).hold = (Tbl.getD (s.twin w).clusters k {}).hold := by
  unfold State.allocWake
  dsimp only
  split
  · rfl
  · exact s.cluster_wakeDoms (f := Cluster.hold) (fun _ _ => rfl) _ w k

/-- The operation after its execution, and the hold regions that stand then. -/
theorem EngEnv.ranIn_leaves {y : TwinSt} {r : Option EngOut} (ho : Tbl.find? (s.twin w).ops id = some e.o)
    (hx : e.execute = (y, r)) (hy : y.ops = (s.twin w).ops) :
    Tbl.find? ((e.ranIn s w id isl).twin w).ops id = some { e.o with done := r, waits := r.isNone, engine := some isl } ∧
    ∀ k, (Tbl.getD ((e.ranIn s w id isl).twin w).clusters k {}).hold = (Tbl.getD y.clusters k {}).hold := by
  unfold EngEnv.ranIn
  rw [hx]
  dsimp only
  generalize hz : y.updOp id (fun o => { o with done := r, waits := r.isNone, engine := some isl }) = z
  have hdrawn := Drawn.ranOn z w isl s.pcycle s.now e (e.blockWork (e.firstUse isl))
  refine ⟨?_, fun k => ?_⟩
  · rw [((Woken.allocWake _ s w e.o.cluster).twin w).eq TwinSt.ops rfl, State.twin_setTwin, hdrawn.eq TwinSt.ops rfl, ← hz,
      TwinSt.find?_updOp (hy ▸ ho)]
  · rw [State.hold_allocWake, State.twin_setTwin, hdrawn.eq TwinSt.clusters rfl, ← hz]
    rfl

end

end Sys2Proof.Machine
end

section
/-! Cipher engine operations: how they end, and how they enter a queue (R244, R257 to R259, R275, R286). -/

namespace Sys2Proof.Machine

/-- A command after which an operation has ended so. -/
def OpEnds (i : Instr) (s : State) (w : Twin) (id : Nat) (o : EngOp) (p : EngOut → Prop) : Prop :=
  Completes i s (fun t => ∃ o' out, Tbl.find? (t.twin w).ops id = some o' ∧ o'.done = some out ∧ o'.blk = o.blk ∧ p out)

section
variable {i : Instr} {s : State} {t : Nat} {w : Twin} {id isl code kf : Nat} {cf : Option Nat} {e : EngEnv}

theorem OnEngine.op (h : OnEngine s w id isl e) : Tbl.find? (s.twin w).ops id = some e.o := (TwinSt.engEnv?_finds h.env).1

/-! Runs. -/

theorem OnEngine.ops_eq (h : OnEngine (s.at t) w id isl e) : e.x.ops = (s.twin w).ops := by
  obtain ⟨-, -, hx, -, -⟩ := TwinSt.engEnv?_finds h.env
  rw [hx, State.at_twin]

/-- A check that fails ends the operation (R259). -/
theorem OnEngine.refuses (hi : exec i s = engOp t w id code kf cf s) (h : OnEngine (s.at t) w id isl e) (hc : e.o.code = code)
    {out : EngOut} (hr : e.refusal = some out) : OpEnds i s w id e.o (· = out) := by
  refine .of_settled (hi.trans (ev_of_eq ((h.run hc).1 out hr))) ?_
  rw [settle_twin, State.updTwin_same, TwinSt.find?_updOp h.op]
  exact ⟨_, out, rfl, rfl, rfl, rfl⟩

section
variable (hi : exec i s = engOp t w id code kf none s) (h : OnEngine (s.at t) w id isl e) (hc : e.o.code = code)
  (hp : Passes (s.at t) w isl e) (hk : kf ≤ 1)
include hi h hc hp hk

theorem OnEngine.exec_ran : exec i s = .next (settle s (e.ranIn (s.at t) w id isl)) := by
  refine hi.trans (ev_of_eq ((((h.run hc).2 hp).2 (fun hd => ?_)).2 rfl))
  exact absurd hd.2 (by omega)

/-- An operation that passes its checks ends with what its execution gives. -/
theorem OnEngine.ends {y : TwinSt} {out : EngOut} {p : EngOut → Prop} (hx : e.execute = (y, some out)) (hy : y.ops = (s.twin w).ops)
    (hout : p out) : OpEnds i s w id e.o p := by
  refine .of_settled (h.exec_ran hi hc hp hk) ?_
  rw [settle_twin]
  obtain ⟨ho, -⟩ := EngEnv.ranIn_leaves (isl := isl) h.op hx (hy.trans (congrArg TwinSt.ops (s.at_twin t w)).symm)
  rw [ho]
  exact ⟨_, out, rfl, rfl, rfl, hout⟩

/-- An operation with an output gives it (R256). -/
theorem OnEngine.gives {d : Bytes} (hx : e.execute = (e.x, some (e.given d))) : OpEnds i s w id e.o (fun out =>
    out.status = 0 ∧ out.data = d ∧ out.out = d.length ∧ out.tag = (e.outClass == 1) ∧ out.stg = some e.stagingAttr) :=
  h.ends hi hc hp hk hx h.ops_eq ⟨rfl, rfl, rfl, rfl, rfl⟩

/-- Its hold regions are those that its execution leaves. -/
theorem OnEngine.hold {y : TwinSt} {r : Option EngOut} (hx : e.execute = (y, r)) (hy : y.ops = (s.twin w).ops) :
    Completes i s (fun t' => Tbl.find? (t'.twin w).ops id = some { e.o with done := r, waits := r.isNone, engine := some isl } ∧
      ∀ k, (Tbl.getD (t'.twin w).clusters k {}).hold = (Tbl.getD y.clusters k {}).hold) := by
  refine .of_settled (h.exec_ran hi hc hp hk) ?_
  rw [settle_twin]
  exact EngEnv.ranIn_leaves h.op hx (hy.trans (congrArg TwinSt.ops (s.at_twin t w)).symm)

end

theorem Completes.mono {p q : State → Prop} (h : Completes i s p) (hpq : ∀ t, p t → q t) : Completes i s q := by
  obtain ⟨v, hv, hp⟩ := h
  exact ⟨v, hv, hpq v hp⟩

/-- A compare failure, or a second delivery of the key with a bad check code, has the operation run again once (R280, R281). -/
theorem OnEngine.reruns (hi : exec i s = engOp t w id code kf cf s) (h : OnEngine (s.at t) w id isl e) (hc : e.o.code = code)
    (hp : Passes (s.at t) w isl e) (ha : s.active = some w) (hr : e.o.rerun = false)
    (hcf : cf.isSome = true ∨ (e.o.delivers = true ∧ 2 ≤ kf)) :
    Completes i s (fun t' => ∃ o', Tbl.find? (t'.twin w).ops id = some o' ∧ o'.done = none ∧ o'.rerun = true) := by
  have hrun : ∃ n, engRun w id code kf cf (s.at t) = (s.at t).mismatchOp w e id isl n := by
    obtain ⟨hkey, hgo⟩ := (h.run (kf := kf) (cf := cf) hc).2 hp
    by_cases hd : e.o.delivers = true ∧ 2 ≤ kf
    · exact ⟨0, hkey hd⟩
    · obtain ⟨k, hk⟩ := Option.isSome_iff_exists.mp (hcf.resolve_right hd)
      exact ⟨_, (hgo hd).1 k hk⟩
  obtain ⟨n, hn⟩ := hrun
  refine .of_settled (hi.trans (ev_of_eq hn)) ?_
  rw [settle_twin]
  exact State.mismatchOp_reruns (s := s.at t) ha h.op hr h.done n

/-- A further compare failure ends it (R281). -/
theorem OnEngine.fails {k : Nat} (hi : exec i s = engOp t w id code kf (some k) s) (h : OnEngine (s.at t) w id isl e)
    (hc : e.o.code = code) (hp : Passes (s.at t) w isl e) (hk : kf ≤ 1) (ha : s.active = some w) (hr : e.o.rerun = true) :
    OpEnds i s w id e.o (fun out => out.status = stInternal ∧ out.data = []) := by
  have hrun := (((h.run (kf := kf) (cf := some k) hc).2 hp).2 (fun hd => absurd hd.2 (by omega))).1 k rfl
  refine .of_settled (hi.trans (ev_of_eq hrun)) ?_
  rw [settle_twin]
  obtain ⟨o', ho, hd, hb⟩ := State.mismatchOp_ends (s := s.at t) (isl := isl) ha h.op hr (e.blocksTo (e.blockWork (e.firstUse isl)) k)
  exact ⟨o', _, ho, hd, hb, rfl, rfl⟩

/-! Completion. -/

/-- What is written into local memory. -/
theorem TwinSt.deposit_local {x : TwinSt} {n : Cid} {c : Ctx} {a : Nat} (hc : Tbl.find? x.ctxs (ctxKey n) = some c)
    (ha : a < 0x10000000) (b : Bytes) (tag : Bool) :
    Tbl.find? (x.deposit n a b tag).ctxs (ctxKey n) = some (c.lput a b tag) ∧ (x.deposit n a b tag).dones = x.dones := by
  rw [show x.deposit n a b tag = { x with ctxs := Tbl.upd x.ctxs (ctxKey n) (fun c => c.lput a b tag) } from if_pos ha]
  refine ⟨?_, rfl⟩
  rw [Tbl.find?_upd, if_pos rfl, hc]
  rfl

/-- An operation that ends leaves its queue, and is counted in its task and on its engine (R258, R286). -/
def TwinSt.dequeueOp (x : TwinSt) (id : Nat) (o : EngOp) : TwinSt :=
  let x := (x.updTask o.q o.task (fun k => { k with engOut := k.engOut - 1 })).updCluster o.cluster
    (fun k => { k with queue := k.queue.filter (fun i => i != id) })
  match o.engine with
  | some isl =>
    let c : EngCtr := Tbl.getD x.engCtr isl {}
    { x with engCtr := Tbl.put x.engCtr isl { c with ops := satAdd 48 c.ops 1 } }
  | none => x

theorem TwinSt.dequeueOp_leaves (x : TwinSt) (id : Nat) (o : EngOp) :
    (x.dequeueOp id o).ctxs = x.ctxs ∧ (x.dequeueOp id o).dones = x.dones := by
  unfold TwinSt.dequeueOp
  dsimp only
  split <;> exact ⟨rfl, rfl⟩

/-- A completion without output moves the operation's context by its words alone, and lowers the counter (R258, R286). -/
theorem engineOpComplete_completes {out : EngOut} {c : Ctx} (he : (s.twin w).engEnv? id = some e) (had : e.o.admitted = true)
    (hd : e.o.done = some out) (hdata : out.data = []) (hc : Tbl.find? (s.twin w).ctxs (ctxKey e.o.ctx) = some c)
    (ha : e.o.blkAddr + 64 ≤ 65536) : Completes (.engineOpComplete t w id) s (fun t' =>
      Tbl.find? (t'.twin w).ops id = none ∧
      (t'.twin w).dones = (s.twin w).dones ++ [{ q := e.o.q, task := e.o.task, kind := .engine }] ∧
      Tbl.find? (t'.twin w).ctxs (ctxKey e.o.ctx) = some
        (c.lput (e.o.blkAddr + 56) (toLe 2 out.status ++ [byte out.flags, 0] ++ toLe 4 out.out) false)) := by
  obtain ⟨-, -, hx, -, -⟩ := TwinSt.engEnv?_finds he
  obtain ⟨x, hxs, hexec⟩ : ∃ x : TwinSt, x = (s.twin w).deposit e.o.ctx (e.o.blkAddr + 56)
      (toLe 2 out.status ++ [byte out.flags, 0] ++ toLe 4 out.out) false ∧ exec (.engineOpComplete t w id) s = .next (settle s
        ((s.at t).setTwin w { x.dequeueOp id e.o with
          ops := Tbl.del (x.dequeueOp id e.o).ops id
          dones := (x.dequeueOp id e.o).dones ++ [{ q := e.o.q, task := e.o.task, kind := .engine }] })) := by
    have hdeliver : e.deliver out = s.twin w := (if_pos (by rw [hdata]; rfl)).trans hx
    refine ⟨_, rfl, ?_⟩
    change execEngineOpComplete t w id s = _
    unfold execEngineOpComplete
    refine ev_of_eq ?_
    dsimp only
    rw [State.at_twin, he]
    dsimp only
    rw [if_neg (by simp [had]), hd]
    dsimp only [Option.orElse]
    rw [hdeliver]
    rfl
  obtain ⟨hctx, hdones⟩ := TwinSt.deposit_local hc (show e.o.blkAddr + 56 < 0x10000000 by omega)
    (toLe 2 out.status ++ [byte out.flags, 0] ++ toLe 4 out.out) false
  rw [← hxs] at hctx hdones
  obtain ⟨hctxs', hdones'⟩ := x.dequeueOp_leaves id e.o
  refine .of_settled hexec ?_
  rw [← hctx, ← hdones, ← hctxs', ← hdones', settle_twin, State.twin_setTwin]
  exact ⟨(Tbl.find?_del _ _ _).trans (if_pos rfl), rfl, rfl⟩

theorem Ctx.lput_lread_of_ne (c : Ctx) {a j : Nat} {b : Bytes} (tag : Bool) (h : j < a ∨ a + b.length ≤ j) :
    (c.lput a b tag).lread j 1 = c.lread j 1 := by
  unfold Ctx.lread
  refine List.map_congr_left (fun i hi => ?_)
  rw [List.mem_range] at hi
  rw [Ctx.lput_reads]
  exact if_neg (by omega)

/-! Admission. -/

/-- The engine that takes an operation depends on the units, the operations and the keys (R257), none of which a task's counter or a
cluster's queue is. -/
theorem TwinSt.pickEngine_congr {x y : TwinSt} (hunits : y.units = x.units) (hplaced : ∀ isl, y.placed isl = x.placed isl)
    (hwork : ∀ id, (y.engEnv? id).map (fun e => e.blockWork false) = (x.engEnv? id).map (fun e => e.blockWork false)) (k : Nat) :
    y.pickEngine w k = x.pickEngine w k := by
  have hblocks : y.blocksOn = x.blocksOn := by
    funext isl
    unfold TwinSt.blocksOn
    rw [hplaced]
    congr 1
    funext n id
    have h := hwork id
    revert h
    generalize y.engEnv? id = a
    generalize x.engEnv? id = b
    intro h
    cases a <;> cases b
    · rfl
    · cases h
    · cases h
    · exact congrArg (n + ·) (Option.some.inj h)
  have hunit : y.unit = x.unit := by
    funext i
    unfold TwinSt.unit
    rw [hunits]
  unfold TwinSt.pickEngine
  rw [hunit, hblocks]

end

end Sys2Proof.Machine
end

section
/-! Cipher engine operations: admission to a queue, hold regions granted, and the statement (R244, R257, R275). -/

namespace Sys2Proof.Machine

section
variable {s : State} {t : Nat} {w : Twin} {id : Nat} {e : EngEnv}

/-! Admission. -/

theorem EngEnv.blockWork_congr {d : EngEnv} (ho : d.o = e.o) (hk : d.key = e.key) (fresh : Bool) :
    d.blockWork fresh = e.blockWork fresh := by
  unfold EngEnv.blockWork EngEnv.bs EngEnv.partAlg
  rw [ho, hk]

/-- What a task counts, and what a cluster has in its queue, decides no operation's work (R286). -/
theorem TwinSt.blockWork_counted (x : TwinSt) (q i k : Nat) (f : Task → Task) (g : Cluster → Cluster) (id : Nat) :
    (((x.updTask q i f).updCluster k g).engEnv? id).map (fun e => e.blockWork false) =
      (x.engEnv? id).map (fun e => e.blockWork false) := by
  unfold TwinSt.engEnv?
  rw [show ((x.updTask q i f).updCluster k g).ops = x.ops from rfl]
  cases Tbl.find? x.ops id with
  | none => rfl
  | some o =>
    dsimp only
    rw [show Tbl.find? ((x.updTask q i f).updCluster k g).reqs o.q = if o.q = q then (Tbl.find? x.reqs o.q).map (fun r => r.updTask i f)
      else Tbl.find? x.reqs o.q from TwinSt.find?_updReq _ _ _ _]
    by_cases hq : o.q = q
    · rw [if_pos hq]
      cases Tbl.find? x.reqs o.q with
      | none => rfl
      | some r => exact congrArg some (EngEnv.blockWork_congr rfl rfl false)
    · rw [if_neg hq]
      cases Tbl.find? x.reqs o.q with
      | none => rfl
      | some r => exact congrArg some (EngEnv.blockWork_congr rfl rfl false)

theorem TwinSt.pickEngine_counted (x : TwinSt) (q i k : Nat) (f : Task → Task) (g : Cluster → Cluster) (c : Nat) :
    ((x.updTask q i f).updCluster k g).pickEngine w c = x.pickEngine w c :=
  TwinSt.pickEngine_congr (y := (x.updTask q i f).updCluster k g) (x := x) rfl (fun _ => rfl) (x.blockWork_counted q i k f g) c

/-- An operation admitted is placed on the engine that takes it (R257). -/
theorem TwinSt.admitOp_places {x : TwinSt} {o : EngOp} {d : Task} (hd : x.task? o.q o.task = some d) (hlt : d.dep < 65535) :
    ∃ y, x.admitOp w id o = some y ∧ Tbl.find? y.ops id = some { o with admitted := true, engine := x.pickEngine w o.cluster } ∧
      y.ctxs = x.ctxs := by
  have hraise : x.raiseDep o.q o.task (fun k => { k with engOut := k.engOut + 1 }) =
      some (x.updTask o.q o.task (fun k => { k with engOut := k.engOut + 1, dep := k.dep + 1 })) := by
    unfold TwinSt.raiseDep
    rw [hd]
    exact if_neg (Nat.not_le.mpr hlt)
  unfold TwinSt.admitOp
  rw [hraise]
  refine ⟨_, rfl, ?_, rfl⟩
  exact (Tbl.find?_put_same _ _ _).trans (congrArg (fun n => some { o with admitted := true, engine := n })
    (x.pickEngine_counted _ _ _ _ _ _))

theorem engineQueueAdmit_admits {o : EngOp} {k : Task}
    (hfirst : List.find? (fun (p : Nat × EngOp) => p.2.cluster == o.cluster && !p.2.admitted && (s.twin w).engRoom p.2.ctx o.cluster)
      (s.twin w).ops = some (id, o)) (hk : (s.twin w).task? o.q o.task = some k) (hlt : k.dep < 65535) :
    Completes (.engineQueueAdmit t w o.cluster) s (fun t' =>
      (∃ o', Tbl.find? (t'.twin w).ops id = some o' ∧ o'.admitted = true ∧ o'.blk = o.blk ∧
        o'.engine = (s.twin w).pickEngine w o.cluster) ∧
      (∀ c, Tbl.find? (t'.twin w).ctxs (ctxKey o.ctx) = some c → c.waiting = false)) := by
  obtain ⟨y, hy, hop, -⟩ := (s.twin w).admitOp_places (w := w) (id := id) hk hlt
  let z : TwinSt := { y with ctxs := Tbl.upd y.ctxs (ctxKey o.ctx) (fun c => { c with waiting := false }) }
  have hexec : exec (.engineQueueAdmit t w o.cluster) s = .next (settle s (((s.at t).setTwin w z).rechargeCore o.ctx.island)) := by
    change execEngineQueueAdmit t w o.cluster s = _
    unfold execEngineQueueAdmit
    refine ev_of_eq ?_
    dsimp only
    rw [State.at_twin, hfirst]
    dsimp only
    rw [hy]
  refine .of_settled hexec ?_
  have hcore := State.rechargeCore_twin ((s.at t).setTwin w z) o.ctx.island w
  rw [settle_twin, hcore.eq TwinSt.ops rfl, hcore.eq TwinSt.ctxs rfl, State.twin_setTwin]
  refine ⟨⟨_, hop, rfl, rfl, rfl⟩, fun c hc => ?_⟩
  rw [Tbl.find?_upd, if_pos rfl] at hc
  obtain ⟨c', -, rfl⟩ := Option.map_eq_some_iff.mp hc
  rfl

/-! Hold regions. -/

theorem TwinSt.grantHold_hold (x : TwinSt) (id : Nat) (o : EngOp) :
    Tbl.find? (Tbl.getD (x.grantHold id o).clusters o.cluster {}).hold id =
      some { q := o.q, task := o.task, size := holdSize o.aLen, data := zeros (holdSize o.aLen) } := by
  unfold TwinSt.grantHold TwinSt.updCluster
  rw [Tbl.getD_put_same]
  exact Tbl.find?_put_same _ _ _

theorem holdRegionGranted_grants (he : (s.twin w).engEnv? id = some e) (hw : e.o.waits = true) (hreg : e.region = none)
    (hroom : e.k.holdRoom e.o.aLen = true) : Completes (.holdRegionGranted t w id) s (fun t' =>
      (∃ o', Tbl.find? (t'.twin w).ops id = some o' ∧ o'.done = some {} ∧ o'.waits = false) ∧
      (Tbl.find? (Tbl.getD (t'.twin w).clusters e.o.cluster {}).hold id).isSome = true) := by
  obtain ⟨ho, -, -, -, hk⟩ := TwinSt.engEnv?_finds he
  let y := ((s.twin w).grantHold id e.o).updOp id (fun o => { o with waits := false, done := some {} })
  have hexec : exec (.holdRegionGranted t w id) s =
      .next (settle s (((s.at t).setTwin w y).wakeDoms (engineDoms w e.o.cluster))) := by
    change execHoldRegionGranted t w id s = _
    unfold execHoldRegionGranted
    refine ev_of_eq ?_
    dsimp only
    rw [State.at_twin, ho, he]
    refine (if_neg ?_).trans (if_pos ⟨hw, hk ▸ hroom⟩)
    rintro ⟨-, h⟩
    rw [Option.any_some, hreg] at h
    cases h
  refine .of_settled hexec ?_
  have hop : Tbl.find? y.ops id = some { e.o with waits := false, done := some {} } := TwinSt.find?_updOp ho _
  rw [settle_twin, ((Woken.wakeDoms _ _).twin w).eq TwinSt.ops rfl,
    State.cluster_wakeDoms (f := Cluster.hold) (fun _ _ => rfl), State.twin_setTwin]
  refine ⟨⟨_, hop, rfl, rfl⟩, ?_⟩
  rw [show Tbl.find? (Tbl.getD y.clusters e.o.cluster {}).hold id = _ from TwinSt.grantHold_hold _ id e.o]
  rfl

end

/-- The output of each operation that writes one (Table 11-4). -/
theorem EngEnv.output_of_code (e : EngEnv) :
    (e.o.code = 1 → e.output = e.blocks true) ∧ (e.o.code = 2 → e.output = e.blocks false) ∧
    (e.o.code = 3 → e.output = xctrRun (e.blockFn true) e.o.ctrW (e.o.iv.take e.bs) (pieces e.bs e.a)) ∧
    (e.o.code = 4 →
      let cs := chainRun (e.blockFn true) (e.o.iv.take e.bs) (pieces e.bs (e.a ++ e.b))
      e.output = if e.o.outLen = 0 then cs.flatten else cs.getLastD (e.o.iv.take e.bs)) ∧
    (e.o.code = 6 → e.output = kdfRun e.o.func e.partAlg e.material e.a e.b e.o.outLen) ∧
    (e.o.code = 7 → e.output = hashOf e.o.func (e.a ++ e.b)) ∧ (e.o.code = 8 → e.output = e.kcv) ∧
    (e.o.code = 10 → e.output = e.a ++ e.b) := by
  refine ⟨?_, ?_, ?_, ?_, ?_, ?_, ?_, ?_⟩ <;>
    · intro hc
      unfold EngEnv.output
      dsimp only
      rw [hc]
      rfl

/-- Settles O47: the checks, the runs and their outputs, a compare failure and its re-run, completion, admission and the hold
regions. -/
theorem engineOperations : Obligations.EngineOperations := by
  intro s t w id isl e he x o ends gives freed
  obtain ⟨-, -, hx, hid, hk⟩ := TwinSt.engEnv?_finds he
  refine ⟨fun hplace hadm hwaits hdone hpay hmasks hseeds hawake => ?_,
    fun out c hadm hd hdata hst hfl hc ha => ?_,
    fun k hfirst hk hlt => engineQueueAdmit_admits hfirst hk hlt,
    fun hw hreg hroom => holdRegionGranted_grants he hw hreg hroom⟩
  · have h : OnEngine (s.at t) w id isl e := by
      refine ⟨?_, hplace, hadm, hwaits, hdone, hpay, ?_, ?_, hawake⟩ <;> rw [State.at_twin]
      · exact he
      · exact hmasks
      · exact hseeds
    refine ⟨fun out hr kf cf => ⟨fun hc => h.refuses (code := 1) rfl hc hr, fun hc => h.refuses (code := 5) rfl hc hr,
      fun hc => h.refuses (code := 0x11) rfl hc hr⟩, fun hr hspent hneed kf hkf => ?_⟩
    have hp : Passes (s.at t) w isl e := by
      refine ⟨hr, ?_, ?_⟩ <;> rw [State.at_twin]
      · exact hspent
      · exact hneed
    obtain ⟨hblockE, hblockD, hxctr, hchain, hkdf, hhash, hkcv, hbuild⟩ := e.output_of_code
    refine ⟨fun hc hd => ?_, fun hc hd => ?_, fun hc hd => ?_, fun hc hd => ?_, fun hc hv _ => ?_, fun hc hv => ?_, fun hc hd => ?_,
      fun hc hd => ?_, fun hc hd => ?_, fun a hh y hc hd ha hcreate => ?_, fun hc hd => ?_, fun hc hroom => ?_, fun hc hroom => ?_,
      fun hc => ⟨?_, ?_⟩, fun hc => ⟨?_, ?_⟩, fun b hc hact hre => ?_, fun kf' cf hc hact hre hcf => ?_⟩
    · exact h.gives (code := 1) rfl hc hp hkf (hblockE hc ▸ EngEnv.execute_gives (by rw [hc]; rfl) hd)
    · exact h.gives (code := 2) rfl hc hp hkf (hblockD hc ▸ EngEnv.execute_gives (by rw [hc]; rfl) hd)
    · exact h.gives (code := 3) rfl hc hp hkf (hxctr hc ▸ EngEnv.execute_gives (by rw [hc]; rfl) hd)
    · exact h.gives (code := 4) rfl hc hp hkf (hchain hc ▸ EngEnv.execute_gives (by rw [hc]; rfl) hd)
    · exact h.gives (code := 5) rfl hc hp hkf (EngEnv.execute_cv hc hv)
    · refine h.ends (code := 5) rfl hc hp hkf (EngEnv.execute_verify hc hv) h.ops_eq ?_
      split <;> simp [engFail]
    · exact h.gives (code := 6) rfl hc hp hkf (hkdf hc ▸ EngEnv.execute_gives (by rw [hc]; rfl) hd)
    · exact h.gives (code := 7) (kf := 0) rfl hc hp (Nat.zero_le _) (hhash hc ▸ EngEnv.execute_gives (by rw [hc]; rfl) hd)
    · exact h.gives (code := 8) rfl hc hp hkf (hkcv hc ▸ EngEnv.execute_gives (by rw [hc]; rfl) hd)
    · have hrun := EngEnv.execute_install hc hd ha (by rw [hx]; exact hcreate)
      exact h.ends (code := 9) (kf := 0) rfl hc hp (Nat.zero_le _) hrun (TwinSt.createKey_ops hcreate) ⟨rfl, rfl, rfl, rfl⟩
    · exact h.gives (code := 10) rfl hc hp hkf (hbuild hc ▸ EngEnv.execute_gives (by rw [hc]; rfl) hd)
    · refine (h.hold (code := 0x10) (kf := 0) rfl hc hp (Nat.zero_le _) (EngEnv.execute_holdAlloc hc hroom) h.ops_eq).mono
        (fun v hv => ⟨⟨_, hv.1, rfl⟩, ?_⟩)
      rw [hv.2, ← hid]
      exact TwinSt.grantHold_hold _ _ _
    · exact (h.hold (code := 0x10) (kf := 0) rfl hc hp (Nat.zero_le _) (EngEnv.execute_holdWaits hc hroom) h.ops_eq).mono
        (fun v hv => ⟨_, hv.1, rfl, rfl⟩)
    · obtain ⟨n, hrun⟩ := EngEnv.execute_holdRelease hc
      refine h.ends (code := 0x11) rfl hc hp hkf hrun h.ops_eq ?_
      split <;> simp [engFail]
    · obtain ⟨n, hrun⟩ := EngEnv.execute_holdRelease hc
      exact (h.hold (code := 0x11) rfl hc hp hkf hrun h.ops_eq).mono (fun v hv hh hmem => e.freed_hold n hh (by rw [← hv.2]; exact hmem))
    · exact h.ends (code := 0x12) (kf := 0) rfl hc hp (Nat.zero_le _) (EngEnv.execute_holdFree hc) h.ops_eq rfl
    · exact (h.hold (code := 0x12) (kf := 0) rfl hc hp (Nat.zero_le _) (EngEnv.execute_holdFree hc) h.ops_eq).mono
        (fun v hv hh hmem => e.freed_hold 0 hh (by rw [← hv.2]; exact hmem))
    · exact h.fails (code := 1) rfl hc hp hkf hact hre
    · refine h.reruns (code := 1) rfl hc hp hact hre (hcf.imp_right (fun hk => ⟨?_, hk.2⟩))
      unfold EngOp.delivers
      rw [show e.o.kkind = 1 from hk.1]
      rfl
  · refine (engineOpComplete_completes he hadm hd hdata hc ha).mono (fun v hv => ⟨hv.1, hv.2.1, _, hv.2.2, ?_, fun j hj => ?_⟩)
    · have hlen : 8 = (toLe 2 out.status ++ [byte out.flags, 0] ++ toLe 4 out.out).length := by simp [toLe]
      exact (congrArg _ hlen).trans (c.lput_lread _ _ false)
    · refine Ctx.lput_lread_of_ne c false ?_
      have hlen : (toLe 2 out.status ++ [byte out.flags, 0] ++ toLe 4 out.out).length = 8 := by simp [toLe]
      rw [hlen]
      omega

end Sys2Proof.Machine
end
